-- ==== Sys2Proof/Word.lean ====
section
/-! DEFINITION. The word types of the DV1664 and their plainest arithmetic (spec/00_scope.md R4). -/

namespace Sys2Proof

/-- A byte of a memory, of a link message or of a layout. -/
abbrev Byte := BitVec 8
/-- A 16-bit field. -/
abbrev Half := BitVec 16
/-- A 32-bit register (00_scope.md R4). -/
abbrev Word := BitVec 32
/-- A 64-bit LO/HI pair (00_scope.md R5). -/
abbrev DWord := BitVec 64

/-- The creel ports, and with them the carding units (04_creel_links.md). -/
abbrev PortNo := Fin 16
/-- The strands (04_creel_links.md R117). -/
abbrev StrandNo := Fin 64
/-- The output streams (02_image_and_journal.md R56). -/
abbrev StreamNo := Fin 64
/-- The spindles (07_spindle_array.md R228). -/
abbrev SpindleNo := Fin 64

end Sys2Proof
end

