-- ==== Sys2Proof/Syntax.lean ====
section
/-! DEFINITION. The commands of the DV1664: one constructor of `Instr` for every row of
spec/opcode_table.json, with the operands its rule names. -/

namespace Sys2Proof

/-- A master of register space (13_skein_ring.md R474; 18_registers.md R588). `ring` stands for every
remote node, `eth` for the management datagram service. -/
inductive Master where
  | core (n : Fin 4)
  | dma
  | jtag
  | i2c
  | eth
  | ring
  deriving DecidableEq, Repr

/-- Who makes an access: the master, and the origin and origin detail that the access log keeps
(02_image_and_journal.md R65). -/
structure Access where
  master : Master
  /-- originating ring node ID, or UDP source port -/
  origin : Half
  /-- IPv4 source address for Ethernet -/
  detail : Word
  deriving DecidableEq, Repr

/-- One exposure entry in the metadata format (05_strands_exposure.md, 11_ply_link.md R383). -/
structure Exposure where
  /-- integration, ns -/
  integ : Nat
  /-- analogue gain, u8.8 -/
  again : Nat
  /-- digital gain, u4.12 -/
  dgain : Nat
  deriving DecidableEq, Repr, Inhabited

/-- A register with a complement partner (18_registers.md R591). For `w6Lo` and `w6Hi` the halves of the
64-bit pair. -/
inductive PairReg where
  | modeReq
  | swrst
  | nvmPin
  | sknPinA
  | sknPinB
  | w6Lo
  | w6Hi
  | snsWin (n : Fin 24)
  deriving DecidableEq, Repr

/-- The framing of a forward-lane packet: its sequence byte, and whether its header ECC corrected a
single-bit error (04_creel_links.md R124, R127). -/
structure PacketHead where
  seq : Byte
  corrected : Bool
  deriving DecidableEq, Repr

/-- Why a forward-lane packet is discarded (04_creel_links.md R127). The virtual channel of a CSI-2 packet is trustworthy for
every cause but an uncorrectable header (R128); a control packet, which both kinds of line error can also spoil, has none. -/
inductive DiscardCause where
  | headerUncorrectable
  | crc (vc : Fin 16)
  | codeViolation (vc : Option (Fin 16))
  | openPacket (vc : Option (Fin 16))
  | controlCrc
  deriving DecidableEq, Repr

/-- Why a packet is counted and discarded under 04_creel_links.md R131 and R132. -/
inductive UnknownCause where
  | dataType
  | unmappedChannel
  | foreignImageType
  | inactiveStrand
  deriving DecidableEq, Repr

/-- A packet that is counted and discarded: its virtual channel, and why. -/
structure UnknownPkt where
  vc : Fin 16
  cause : UnknownCause
  deriving DecidableEq, Repr

/-- What befalls an embedded-data packet: it passes its checks, it fails them (04_creel_links.md R127), or it meets a full
input FIFO (06_carding.md R200). -/
inductive EmbeddedEvent where
  | intact
  | damaged
  | fifoFull
  deriving DecidableEq, Repr

/-- What befalls an image packet on its way into the pool (06_carding.md R200, R219; 01_three_planes.md R39). -/
inductive LineEvent where
  | ok
  | fifoFull
  | rewound
  /-- the frame-store writer meets an uncorrectable error in the committed row (09_bobbin_pool_frame_store.md R324) -/
  | storeDamaged
  deriving DecidableEq, Repr

/-- The loss-of-lock causes of 04_creel_links.md R154 and R156. -/
inductive LockLossCause where
  | signal
  | noComma
  | codeErrors
  | elasticBuffer
  | ts1OnTrained
  | unanswered
  | pocFell
  deriving DecidableEq, Repr

/-- Equaliser coefficients as the equaliser seed keeps them (02_image_and_journal.md R63). -/
structure EqCoeffs where
  peaking : Byte
  gain : Byte
  dfe1 : Byte
  dfe2 : Byte
  dfe3 : Byte
  deriving DecidableEq, Repr

/-- What the Profile 1.0 table and the rest of the SFDP data of an NVM give (02_image_and_journal.md R45, R46): the command
codes, the command extension convention, the dummy-cycle count, and the configuration-register writes that enter
8D-8D-8D mode. -/
structure NvmProfile where
  read : Byte
  readStatus : Byte
  writeEnable : Byte
  program : Byte
  erase : Byte
  suspend : Byte
  resume : Byte
  reset : Byte
  extension : Byte
  dummy : Nat
  /-- each write: its command code and the bytes after it -/
  enter8D : List (Byte × List Byte)
  deriving DecidableEq, Repr, Inhabited

/-- The failures of a tile that a TILE_FAILURE reports (07_spindle_array.md R242, R635). -/
inductive TileCause where
  | localStore
  | illegalOp
  | fetchOutside
  | outputParity
  | inputUncorrectable
  | inputRewound
  | inputSlotTaken
  deriving DecidableEq, Repr

/-- What befalls the doffer's reads of a tile at its hand-over (09_bobbin_pool_frame_store.md R324; 07_spindle_array.md R249): an
uncorrectable error in the tile packet, in the packet and in the output ring, or in the previous frame's tile. -/
inductive TileRead where
  | packet
  | packetAndRing
  | previous
  deriving DecidableEq, Repr

/-- Why a hank lane abandons its frame (10_hank_compressor.md R363). -/
inductive HankAbandonCause where
  | poisoned
  | slotTaken
  deriving DecidableEq, Repr

/-- A ring message (13_skein_ring.md R461); `mtype` is the code of R462. -/
structure RingMsg where
  mtype : Byte
  west : Bool
  wrapped : Bool
  ringB : Bool
  hops : Nat
  tag : Byte
  dest : Half
  src : Half
  addr : Word
  len : Nat
  code : Byte
  detail : Byte
  payload : List Byte
  deriving DecidableEq, Repr

/-- Source and hop count in the header of a ring message whose other fields its row gives (13_skein_ring.md R461). -/
structure MsgHead where
  src : Half
  hops : Nat
  deriving DecidableEq, Repr

/-- How a message arrives: the receiving port, and its head. -/
structure Arrival where
  port : Fin 4
  head : MsgHead
  deriving DecidableEq, Repr

/-- What an I2C transaction addresses: the 7-bit target address (03_start_modes_bypass.md R84) and the local address. -/
structure I2cAddr where
  target : BitVec 7
  addr : Word
  deriving DecidableEq, Repr

/-- A whorl time in the 16-byte format of 12_whorls.md R410. -/
structure WhorlTime where
  sec : Nat
  ns : Nat
  frac : Nat
  epoch : Nat
  deriving DecidableEq, Repr

/-- The payload of a TIME message (13_skein_ring.md R468). -/
structure TimeMsg where
  origin : WhorlTime
  /-- correction in units of 2^-16 ns -/
  corr : Int
  node : Half
  hops : Nat
  quality : Nat
  seq : Nat
  deriving DecidableEq, Repr

/-- The AUDIT payload (13_skein_ring.md R492). -/
structure AuditToken where
  lap : Nat
  segment : Nat
  refLayout : Nat
  silent : Nat
  refGen : Nat
  layoutMismatch : Nat
  refDigest : DWord
  nodes : Nat
  mismatch : Nat
  lowest : Nat
  minGen : Nat
  maxGen : Nat
  lowestLayout : Nat
  deriving DecidableEq, Repr

/-- The dataset of a PTP Announce (12_whorls.md R425; the fields of IEEE 1588-2019). -/
structure PtpAnnounce where
  domain : Nat
  priority1 : Nat
  clockClass : Nat
  accuracy : Nat
  variance : Nat
  priority2 : Nat
  gmIdentity : Nat
  stepsRemoved : Nat
  srcPort : Nat
  deriving DecidableEq, Repr

/-- What a PTP event or general message carries: source port identity, sequenceId, correctionField
(ns) and timestamp (ns), as far as the message has them (12_whorls.md R425, R426). -/
structure PtpMsg where
  domain : Nat
  srcPort : Nat
  seqId : Half
  corr : Int
  stamp : Int
  deriving DecidableEq, Repr

/-- One voltage point of the re-plan's measurement (16_guarantees_health_ageing.md R565): the core voltage
and the 80 slacks read at it, spindles 0 to 63 then domains. -/
structure SlackRow where
  mv : Nat
  slacks : List Nat
  deriving DecidableEq, Repr

/-- The commands of the block, in the order of spec/opcode_table.json. An operand with a default is what an event can bring beside
its row's own operands; the default is that it brings nothing of the kind. -/
inductive Instr where
  /-- POWER_ON_RESET (R81) -/
  | powerOnReset
  /-- POWER_ON_RESET_RELEASE (R601) -/
  | powerOnResetRelease
  /-- BROWN_OUT (R108) -/
  | brownOut
  /-- PORST_N_ASSERT (R81) -/
  | porstAssert
  /-- PORST_N_RELEASE (R86); the strap levels at the edge (R82) -/
  | porstRelease (bootSel i2ca : BitVec 2)
  /-- FRAME_STORE_TRAINED (R328); GiB fitted per channel (R326), whether every channel trained -/
  | frameStoreTrained (gib : Nat) (ok : Bool)
  /-- IMAGE_LOAD_DONE (R86) -/
  | imageLoadDone
  /-- SOFTWARE_RESET (R81); the value written to SYS_SWRST_C and the strap levels at the end of the reset -/
  | softwareReset (a : Access) (v : Word) (bootSel i2ca : BitVec 2)
  /-- PLL_FAILURE (R553) -/
  | pllFailure
  /-- PAIR_PENDING_WRITE (R592) -/
  | pairPendingWrite (a : Access) (r : PairReg) (v : Word)
  /-- MODE_REQUEST (R95); the value written to SYS_MODE_REQ_C -/
  | modeRequest (a : Access) (v : Word)
  /-- SHUTDOWN_DRAINED (R113) -/
  | shutdownDrained
  /-- WARMUP_TIMEOUT (R98) -/
  | warmupTimeout
  /-- NVM_PIN (R79); the value written to NVM_PIN_C -/
  | nvmPin (a : Access) (v : Word)
  /-- NODE_PIN (R457); ring B or A, the value written to SKN_PIN_x_C -/
  | nodePin (a : Access) (ringB : Bool) (v : Word)
  /-- W6_PRESET (R448); the 64-bit value written to WHL_W6_PRESET_C -/
  | w6Preset (a : Access) (v : DWord)
  /-- WINDOW_COMMIT (R511); the value written to SNS_WINn_C -/
  | windowCommit (a : Access) (n : Fin 24) (v : Word)
  /-- JOURNAL_PERIODIC_DUE (R68) -/
  | journalPeriodicDue
  /-- JOURNAL_SET_WRITE (R69) -/
  | journalSetWrite
  /-- JOURNAL_SET_PROGRAMMED (R71); whether the NVM reports no error -/
  | journalSetProgrammed (ok : Bool)
  /-- POWER_FAIL_RECOVERED (R73) -/
  | powerFailRecovered
  /-- STAGE_OPEN (R76); image length and PIN_NEW bit -/
  | stageOpen (a : Access) (length : Nat) (pinNew : Bool)
  /-- STAGE_ERASE_DONE (R76); whether the NVM reports no error -/
  | stageEraseDone (ok : Bool)
  /-- STAGE_GO (R76); buffer half and byte count, at the offset in NVM_STAGE_OFFSET -/
  | stageGo (a : Access) (half : Bool) (count : Nat)
  /-- STAGE_PROGRAM_DONE (R76); whether the NVM reports no error -/
  | stageProgramDone (ok : Bool)
  /-- STAGE_COMMIT (R76) -/
  | stageCommit (a : Access)
  /-- STAGE_COMMIT_DONE (R78); whether the NVM reports no error on the header page -/
  | stageCommitDone (ok : Bool)
  /-- STAGE_TIMEOUT (R74) -/
  | stageTimeout
  /-- LINK_CFG_REPEAT (R148) -/
  | linkCfgRepeat (p : PortNo)
  /-- CREEL_TS1_RECEIVED (R148); the port number and rate code echoed -/
  | creelTs1Received (p : PortNo) (echoPort echoRate : Byte)
  /-- EQUALISER_ADAPTED (R148); the coefficients reached and the eye measured -/
  | equaliserAdapted (p : PortNo) (c : EqCoeffs) (eyeH eyeV : Nat)
  /-- LANE_TRAINED (R148) -/
  | laneTrained (p : PortNo)
  /-- TRAINING_ATTEMPT_TIMEOUT (R149) -/
  | trainingAttemptTimeout (p : PortNo)
  /-- TRAINING_RETRY (R149) -/
  | trainingRetry (p : PortNo)
  /-- LOSS_OF_LOCK (R155) -/
  | lossOfLock (p : PortNo) (cause : LockLossCause)
  /-- REQUEST_REPLY_TIMEOUT (R138) -/
  | requestReplyTimeout (p : PortNo) (tag : Byte)
  /-- SYNC_REQ_DUE (R144) -/
  | syncReqDue (p : PortNo)
  /-- CONTROL_ACK (R136); sequence byte, tag, status and detail of R135 -/
  | controlAck (p : PortNo) (seq tag status : Byte) (detail : Half)
  /-- I2C_DATA (R136) -/
  | i2cData (p : PortNo) (seq tag : Byte) (data : List Byte)
  /-- SYNC_RESP (R145); t2 and t3 in slave time -/
  | syncResp (p : PortNo) (seq tag : Byte) (t2 t3 : Nat)
  /-- GPIO_STATE (R143) -/
  | gpioState (p : PortNo) (seq levels changed : Byte)
  /-- HEAD_STATUS (R143) -/
  | headStatus (p : PortNo) (seq : Byte) (headType firmware : Half) (errors : Word)
  /-- SKIP_SET (R122); K28.0 received, and K28.0 inserted (+) or deleted (-) -/
  | skipSet (p : PortNo) (n : Nat) (adjust : Int)
  /-- ABORTED_PACKET (R126); the virtual channel of a CSI-2 packet, none for a control packet -/
  | abortedPacket (p : PortNo) (h : PacketHead) (vc : Option (Fin 16))
  /-- FRAME_START (R163); virtual channel and word count; whether core 0 has reported the strand converged by now (R195) -/
  | frameStart (p : PortNo) (h : PacketHead) (vc : Fin 16) (wc : Half) (report : Bool := false)
  /-- FRAME_END (R220) -/
  | frameEnd (p : PortNo) (h : PacketHead) (vc : Fin 16) (wc : Half)
  /-- FRAME_CLOSE_TIMEOUT (R220) -/
  | frameCloseTimeout (n : StrandNo)
  /-- BUSY_TIMEOUT (R173) -/
  | busyTimeout (n : StrandNo)
  /-- IMAGE_LINE (R198); data type and payload bytes -/
  | imageLine (p : PortNo) (h : PacketHead) (vc : Fin 16) (dt : Byte) (payload : List Byte) (ev : LineEvent)
  /-- EMBEDDED_DATA (R131); the entries the profile's decode table reads from it, and what befell it -/
  | embeddedData (p : PortNo) (h : PacketHead) (vc : Fin 16) (entries : List Exposure) (ev : EmbeddedEvent)
  /-- LINE_START (R131) -/
  | lineStart (p : PortNo) (h : PacketHead) (vc : Fin 16)
  /-- LINE_END (R131) -/
  | lineEnd (p : PortNo) (h : PacketHead) (vc : Fin 16)
  /-- GENERIC_SHORT_PACKET (R131) -/
  | genericShortPacket (p : PortNo) (h : PacketHead) (vc : Fin 16) (dt : Byte)
  /-- NULL_BLANKING_PACKET (R131) -/
  | nullBlankingPacket (p : PortNo) (h : PacketHead) (vc : Fin 16)
  /-- UNKNOWN_PACKET (R132) -/
  | unknownPacket (p : PortNo) (h : PacketHead) (x : UnknownPkt)
  /-- EXPOSURE_REQ (R181); the message fields of R398 -/
  | exposureReq (n : StrandNo) (index : Fin 4) (last : Bool) (frame : Word) (e : Exposure)
  /-- EXPOSURE_ASSEMBLY_TIMEOUT (R181) -/
  | exposureAssemblyTimeout (n : StrandNo) (frame : Word)
  /-- EXPOSURE_REQUEST_GO (R636); the value written to the GO register of the port -/
  | exposureRequestGo (a : Access) (p : PortNo) (v : Word)
  /-- CRL_EXPRES_POP (R636) -/
  | crlExpresPop (a : Access) (p : PortNo)
  /-- WRITE_WINDOW_OPEN (R188); strand and target frame F -/
  | writeWindowOpen (n : StrandNo) (frame : Word)
  /-- TRIG_IN_EDGE (R170) -/
  | trigInEdge (i : Fin 4)
  /-- ODOMETER_EDGE (R445); the filtered levels of ODO_A and ODO_B after the edge -/
  | odometerEdge (odoA odoB : Bool)
  /-- MARK_COMMIT (R177) -/
  | markCommit (n : StrandNo)
  /-- ODO_Z_EDGE (R446) -/
  | odoZEdge
  /-- TILE_DISPATCH (R239) -/
  | tileDispatch
  /-- TILE_COMPLETE (R241); the output bytes where a hardware fault altered them, else none; the single-bit errors corrected in
  the spindle's local store (01 R38) -/
  | tileComplete (n : SpindleNo) (altered : Option (List Byte)) (corrected : Nat := 0)
  /-- TILE_FAILURE (R242) -/
  | tileFailure (n : SpindleNo) (cause : TileCause)
  /-- TILE_WATCHDOG (R242) -/
  | tileWatchdog (n : SpindleNo)
  /-- SELF_TEST_DONE (R258) -/
  | selfTestDone (n : SpindleNo) (pass : Bool)
  /-- BAND_HANDOVER (R233); reads of the doffer that meet an uncorrectable error, by tile column -/
  | bandHandover (st : StreamNo) (errs : List (Nat × TileRead) := [])
  /-- BOB_POP (R322); whether the word has an uncorrectable error -/
  | bobPop (a : Access) (damaged : Bool := false)
  /-- BOB_DROP (R319) -/
  | bobDrop (a : Access)
  /-- OWNERSHIP_AUDIT (R325); a link table entry found damaged since the last one: its queue, and the place of its packet -/
  | ownershipAudit (damaged : Option (Fin 512 × Nat) := none)
  /-- PATROL_SCRUB (R336); single-bit and uncorrectable words found, per channel -/
  | patrolScrub (ce0 ue0 ce1 ue1 : Nat)
  /-- HANK_LANE_FRAME_START (R366) -/
  | hankLaneFrameStart (lane : Fin 4)
  /-- HANK_VERIFY (R359); no payload for the one that R346 to R351 give, with its own length of input, else another one, altered by a
  fault or by an encoder's own choices (R348), and the input bytes it stands for -/
  | hankVerify (lane : Fin 4) (payload : Option (List Byte)) (inputLen : Nat)
  /-- HANK_FRAME_ABANDON (R363) -/
  | hankFrameAbandon (lane : Fin 4) (cause : HankAbandonCause)
  /-- PLY_TRAINED (R374); the up mask that ends training -/
  | plyTrained (up : Byte)
  /-- PLY_TRAINING_TIMEOUT (R376); the lanes up so far -/
  | plyTrainingTimeout (up : Byte)
  /-- LANE_STATUS (R406); the message fields of R398 -/
  | laneStatus (up locked reason : Byte) (seq : BitVec 24)
  /-- ARBITER_LANE_WITHDRAW (R406) -/
  | arbiterLaneWithdraw (lane : Fin 8)
  /-- ACK (R401) -/
  | ack (up : Byte) (seq : BitVec 24)
  /-- NAK (R402) -/
  | nak (cause : Byte) (seq : BitVec 24)
  /-- ACK_TIMEOUT (R402) -/
  | ackTimeout
  /-- RETURN_LANE_LOCK_LOSS (R409) -/
  | returnLaneLockLoss
  /-- LANE_RETRAIN_RETRY (R408) -/
  | laneRetrainRetry (lane : Fin 8)
  /-- RETURN_MESSAGE_DISCARD (R397) -/
  | returnMessageDiscard
  /-- LAYOUT_REQ (R102) -/
  | layoutReq (layout : Byte)
  /-- BLOCK_SEND (R389); whether the block of a replay meets an uncorrectable error in the replay buffer, the pool queues whose
  next packet does, and the single-bit errors corrected in the pool (01 R38) -/
  | blockSend (badReplay : Bool := false) (badQueues : List Nat := []) (corrected : Nat := 0)
  /-- ALIGNMENT_MARKER (R372) -/
  | alignmentMarker
  /-- SKIP_SET_DUE (R121); the transmitter, by the lane numbering of R571 -/
  | skipSetDue (lane : Fin 30)
  /-- HEALTH_PACKET_DUE (R396) -/
  | healthPacketDue
  /-- FRAME_END_SEND (R390) -/
  | frameEndSend (st : StreamNo)
  /-- REPEAT_SLOT (R391) -/
  | repeatSlot (st : StreamNo)
  /-- WARMING_SLOT (R91) -/
  | warmingSlot (st : StreamNo)
  /-- SCHEDULED_ACTION (R439) -/
  | scheduledAction (i : Fin 256)
  /-- SAQ_ADD (R594) -/
  | saqAdd (a : Access)
  /-- SAQ_REMOVE (R594) -/
  | saqRemove (a : Access)
  /-- SAQ_READ (R594) -/
  | saqRead (a : Access)
  /-- SNAPSHOT (R411) -/
  | snapshot (a : Access)
  /-- SAMPLE_SUBMIT (R417); the HI word, completing the i64 with the held LO word -/
  | sampleSubmit (a : Access) (hi : Word)
  /-- WHORL_LOSS_TIMEOUT (R418); W1 to W5 as 0 to 4 -/
  | whorlLossTimeout (n : Fin 5)
  /-- ANNOUNCE (R425) -/
  | announce (m : PtpAnnounce)
  /-- ANNOUNCE_RECEIPT_TIMEOUT (R429) -/
  | announceReceiptTimeout
  /-- SYNC (R425) -/
  | sync (m : PtpMsg)
  /-- FOLLOW_UP (R425) -/
  | followUp (m : PtpMsg)
  /-- DELAY_RESP (R425) -/
  | delayResp (m : PtpMsg)
  /-- PDELAY_REQ (R428) -/
  | pdelayReq (m : PtpMsg)
  /-- PDELAY_RESP (R425) -/
  | pdelayResp (m : PtpMsg)
  /-- PDELAY_RESP_FOLLOW_UP (R425) -/
  | pdelayRespFollowUp (m : PtpMsg)
  /-- PTP_DISCARD (R425) -/
  | ptpDiscard
  /-- ETH_TSQ_POP (R427) -/
  | ethTsqPop (a : Access)
  /-- PPS_IN_EDGE (R435) -/
  | ppsInEdge
  /-- PPS_OUT_PULSE (R436) -/
  | ppsOutPulse
  /-- W7_PHASE_CORRECTION (R450); the i32 written to WHL_W7_FWPH -/
  | w7PhaseCorrection (a : Access) (v : Word)
  /-- W7_TURN (R451) -/
  | w7Turn
  /-- W7_LOCK_LOSS (R451) -/
  | w7LockLoss
  /-- RING_PORT_UP (R458); port code, and the coefficients its equaliser reached -/
  | ringPortUp (port : Fin 4) (c : EqCoeffs)
  /-- RING_PORT_LOSS (R458) -/
  | ringPortLoss (port : Fin 4)
  /-- RING_PORT_RETRY (R458) -/
  | ringPortRetry (port : Fin 4)
  /-- RING_TRANSIT (R463); receiving port, message, and its residence in units of 2^-16 ns -/
  | ringTransit (port : Fin 4) (m : RingMsg) (residence : Nat)
  /-- LDLY_SEND (R459) -/
  | ldlySend (port : Fin 4)
  /-- LDLY_REQ (R459) -/
  | ldlyReq (port : Fin 4) (m : RingMsg)
  /-- LDLY_RESP (R459); t2 and t3 -/
  | ldlyResp (x : Arrival) (t2 t3 : Nat)
  /-- TIME_ORIGINATE (R468) -/
  | timeOriginate
  /-- TIME (R431); receiving port, payload, residence in units of 2^-16 ns -/
  | timeMsg (x : Arrival) (t : TimeMsg) (residence : Nat)
  /-- ENUM_SEND (R466); the ring whose segment this head enumerates -/
  | enumSend (ringB : Bool)
  /-- ENUM (R466); receiving port, westward-or-wrapped flags, segment, next position, and the number of nodes the
  enumeration reaches, which no message carries -/
  | enumMsg (x : Arrival) (west wrapped : Bool) (segment next count : Nat)
  /-- LINK_EVENT (R466); receiving port, source node with the hop count, port code and new state -/
  | linkEvent (x : Arrival) (portCode newState : Byte)
  /-- WINDOW_ACCESS (R471) -/
  | windowAccess (a : Access) (write : Bool) (addr : Word) (beats size : Nat) (data : List Byte) (exclusive : Bool)
  /-- READ_REQ (R472) -/
  | readReq (port : Fin 4) (m : RingMsg)
  /-- WRITE_REQ (R477) -/
  | writeReq (port : Fin 4) (m : RingMsg)
  /-- POSTED_WRITE (R478) -/
  | postedWrite (port : Fin 4) (m : RingMsg)
  /-- RESP (R475) -/
  | resp (port : Fin 4) (m : RingMsg)
  /-- POSTED_ACK (R478) -/
  | postedAck (port : Fin 4) (m : RingMsg)
  /-- LATE_ERROR (R479) -/
  | lateError (port : Fin 4) (m : RingMsg)
  /-- RESPONSE_TIMEOUT (R478); the tag of the transaction -/
  | responseTimeout (tag : Byte)
  /-- FENCE_READ (R480) -/
  | fenceRead (a : Access)
  /-- FENCE_DRAINED (R480) -/
  | fenceDrained (a : Access)
  /-- LEQ_POP (R479) -/
  | leqPop (a : Access)
  /-- BROADCAST_GO (R483); the value written to SKN_BC_GO -/
  | broadcastGo (a : Access) (v : Word)
  /-- BCAST_REQ (R484) -/
  | bcastReq (port : Fin 4) (m : RingMsg)
  /-- SWEEP (R484) -/
  | sweep (port : Fin 4) (m : RingMsg)
  /-- JUNCTION_BROADCAST_WAIT (R485) -/
  | junctionBroadcastWait
  /-- BCAST_RESP (R486) -/
  | bcastResp (port : Fin 4) (m : RingMsg)
  /-- BROADCAST_TIMEOUT (R487) -/
  | broadcastTimeout
  /-- LSTAGE_WRITE (R488); the last word of SKN_LSTAGE -/
  | lstageWrite (a : Access) (v : Word)
  /-- LACT_WRITE (R489); the last word of SKN_LACT -/
  | lactWrite (a : Access) (v : Word)
  /-- AUDIT_LAUNCH (R491); the ring whose segment this head audits -/
  | auditLaunch (ringB : Bool)
  /-- AUDIT (R493); receiving port, westward-or-wrapped flags, token -/
  | audit (x : Arrival) (west wrapped : Bool) (t : AuditToken)
  /-- COMPARATOR_CROSSING (R510) -/
  | comparatorCrossing (n : Fin 24) (rising : Bool)
  /-- BLANKING_END (R514); whether the level is above the upper threshold -/
  | blankingEnd (p : PortNo) (above : Bool)
  /-- TRIP_REENABLE (R515) -/
  | tripReenable (p : PortNo)
  /-- CONVERTER_START (R505); the value written to SNS_CTRL -/
  | converterStart (a : Access) (v : Word)
  /-- CONVERSION_DONE (R502); charge packets N and cycles M -/
  | conversionDone (c : Fin 4) (packets cycles : Nat)
  /-- RESULT_READ (R508) -/
  | resultRead (a : Access) (c : Fin 4)
  /-- DMA_RESULT_READ (R509) -/
  | dmaResultRead (a : Access) (c : Fin 4)
  /-- DMA_START (R520) -/
  | dmaStart (a : Access) (ch : Fin 8)
  /-- DMA_RESUME (R529) -/
  | dmaResume (a : Access) (ch : Fin 8)
  /-- DMA_ABORT (R529) -/
  | dmaAbort (a : Access) (ch : Fin 8)
  /-- DMA_SERVICE_START (R522) -/
  | dmaServiceStart
  /-- DMA_SERVICE_DONE (R527); the bytes that ring responses brought to the service, in transfer order -/
  | dmaServiceDone (ring : List Byte)
  /-- DMA_ACCESS_FAILURE (R528); transfer byte of the failing access, direction, code, and the bytes that ring responses brought
  before it -/
  | dmaAccessFailure (ch : Fin 8) (atByte : Nat) (write : Bool) (code : Fin 16) (ring : List Byte)
  /-- CHK_DATA (R535); the bytes the byte enables select -/
  | chkData (a : Access) (u : Fin 24) (bytes : List Byte)
  /-- CHK_RESTART (R534); the value written -/
  | chkRestart (a : Access) (u : Fin 24) (v : Word)
  /-- FAULT_SUM_CLEAR (R552); the W1C word -/
  | faultSumClear (a : Access) (v : Word)
  /-- FAULT_SET (R552); the word written to SYS_FAULT_SET -/
  | faultSet (a : Access) (v : Word)
  /-- WATCHDOG_SERVICE (R557) -/
  | watchdogService (a : Access) (n : Fin 4)
  /-- CORE_WATCHDOG_EXPIRY (R557) -/
  | coreWatchdogExpiry (n : Fin 4)
  /-- THERMAL_SAMPLE (R556); the 12 readings in 1/16 degree C -/
  | thermalSample (t : List Int)
  /-- AVS_TIMEOUT (R556) -/
  | avsTimeout
  /-- DELAY_MONITOR_SAMPLE (R561); the 80 slacks in 0.1 % -/
  | delayMonitorSample (slacks : List Nat)
  /-- MINUTE_TICK (R562) -/
  | minuteTick
  /-- REPLAN (R564); requested through AGE_CTRL by an access, or due by itself -/
  | replan (a : Option Access)
  /-- REPLAN_DONE (R567); the measurements the plan rests on -/
  | replanDone (rows : List SlackRow)
  /-- EYE_SCAN (R561) -/
  | eyeScan (a : Access)
  /-- EYE_SCAN_DONE (R561); horizontal and vertical margin per lane in R62 order, none where not scanned -/
  | eyeScanDone (eyes : List (Option (Nat × Nat)))
  /-- VMIN_PROBE (R561) -/
  | vminProbe (a : Access)
  /-- VMIN_PROBE_DONE (R561); lowest passing voltage and the worst SRAM type -/
  | vminProbeDone (mv worst : Nat)
  /-- LANE_SNAP (R574); lane, and bits and errors received since the counters were last brought up to date -/
  | laneSnap (a : Access) (lane : Fin 30) (bits errs : Nat)
  /-- LANE_CLEAR (R574) -/
  | laneClear (a : Access) (lane : Fin 30)
  /-- LOOPBACK_SELECT (R575) -/
  | loopbackSelect (a : Access) (lane : Fin 30) (loop : BitVec 2)
  /-- PATTERN_SELECT (R574) -/
  | patternSelect (a : Access) (lane : Fin 30) (pattern : BitVec 2)
  /-- GENERATOR_ENABLE (R576) -/
  | generatorEnable (a : Access) (lane : Fin 30) (on : Bool)
  /-- CHECKER_ENABLE (R573) -/
  | checkerEnable (a : Access) (lane : Fin 30) (on invert : Bool)
  /-- CHECKER_LOCK (R573) -/
  | checkerLock (lane : Fin 30)
  /-- CHECKER_LOSS (R573); bits and errors counted since the counters were last brought up to date -/
  | checkerLoss (lane : Fin 30) (bits errs : Nat)
  /-- GENERATORS_ON (R577) -/
  | generatorsOn (mask : Byte) (pattern : BitVec 2)
  /-- GENERATORS_OFF (R577) -/
  | generatorsOff (mask : Byte)
  /-- RETURN_LANE_CHECKER (R577); pattern and duration in ms -/
  | returnLaneChecker (pattern : BitVec 2) (durationMs : Nat)
  /-- RETURN_LANE_CHECK_END (R577) -/
  | returnLaneCheckEnd
  /-- PATTERN_RUN (R579); layout ID and pattern code written with RUN = 1 -/
  | patternRun (a : Access) (layout : BitVec 4) (pattern : BitVec 2)
  /-- PATTERN_STOP (R579) -/
  | patternStop (a : Access)
  /-- SYNTHETIC_FRAME (R578) -/
  | syntheticFrame (n : StrandNo)
  /-- BIST_START (R582); the groups selected -/
  | bistStart (a : Access) (groups : BitVec 4)
  /-- BIST_DONE (R582) -/
  | bistDone (group : Fin 4) (pass : Bool)
  /-- BYPASS (R583) -/
  | bypass
  /-- IDCODE (R583) -/
  | idcode
  /-- SAMPLE_PRELOAD (R583); the values shifted into the boundary register -/
  | samplePreload (cells : List Bool)
  /-- EXTEST (R583) -/
  | extest
  /-- EXTEST_PULSE (R583) -/
  | extestPulse
  /-- EXTEST_TRAIN (R583) -/
  | extestTrain
  /-- CLAMP (R583) -/
  | clamp
  /-- HIGHZ (R583) -/
  | highz
  /-- SYSRST (R583); the strap levels at the end of the reset -/
  | sysrst (bootSel i2ca : BitVec 2)
  /-- PTEST (R583) -/
  | ptest
  /-- MEMAP (R583); one access of 1, 2, 4 or 8 bytes -/
  | memap (write : Bool) (addr : Word) (size : Nat) (data : DWord)
  /-- TRST_N_RESET (R620) -/
  | trstReset
  /-- I2C_TARGET_WRITE (R618); what it addresses, and the data bytes before STOP -/
  | i2cTargetWrite (x : I2cAddr) (bytes : List Byte)
  /-- I2C_TARGET_READ (R618); what it addresses, and the words read -/
  | i2cTargetRead (x : I2cAddr) (words : Nat)
  /-- MANAGEMENT_DATAGRAM (R558); one access, with its UDP source port and IPv4 address -/
  | managementDatagram (port : Half) (ip : Word) (write : Bool) (addr : Word) (size : Nat) (data : DWord)
  /-- LO_READ_LATCH (R5) -/
  | loReadLatch (a : Access) (addr : Word)
  /-- WIDE_HI_WRITE (R588) -/
  | wideHiWrite (a : Access) (addr : Word) (v : Word)
  /-- ROC_READ (R8) -/
  | rocRead (a : Access) (addr : Word)
  /-- PLY_COUNTER_CLEAR (R584); the value written to PLY_CNT_CLR -/
  | plyCounterClear (a : Access) (v : Word)
  /-- REGISTER_WRITE (R585); address, size in bytes, data -/
  | registerWrite (a : Access) (addr : Word) (size : Nat) (data : DWord)
  /-- PACKET_DISCARD (R127) -/
  | packetDiscard (p : PortNo) (h : PacketHead) (cause : DiscardCause)
  /-- SECTOR_ERASE_DONE (R72); whether the NVM reports no error -/
  | sectorEraseDone (ok : Bool)
  /-- EXPOSURE_START (R173) -/
  | exposureStart (n : StrandNo)
  /-- DELAY_REQ_DUE (R428) -/
  | delayReqDue
  /-- AVS_TARGET_REACHED (R606); the voltage read back -/
  | avsTargetReached (mv : Nat)
  /-- REFCLK_VALID (R106) -/
  | refclkValid
  /-- RETIMER_LOCK (R106); ring A or B -/
  | retimerLock (ringB : Bool)
  deriving DecidableEq, Repr

end Sys2Proof
end

