-- ==== Sys2Proof/Config.lean ====
section
/-! DEFINITION. The values that the spec leaves open: opaque constants of which nothing can be proved
(notes/assumptions/1.md), and the figures an implementation fixes. -/

namespace Sys2Proof

/-- A free 32-bit word, by the free-value counter of the state: what a read returns whose contents the spec does
not give (log 1). -/
opaque Config.freeWord : Nat → Word
/-- What a status register shows whose fields the register map names without bit places: a function of the register's
offset and of the values of those fields, in the order of the map (18_registers.md; log 1). -/
opaque Config.statusWord : (off : Nat) → (fields : List Nat) → Word
/-- A byte of the boot ROM by its address; the spec does not give its contents (log 1). -/
opaque Config.romByte : Nat → Byte
/-- What a word written to NVM_STAGE_CTRL commands: 1 OPEN with a length and PIN_NEW, 2 COMMIT, else nothing; the spec gives
the register no bit layout (02_image_and_journal.md R76; log 1). -/
opaque Config.stageCtrl : Word → Nat × Nat × Bool
/-- Buffer half and byte count of a word written to NVM_STAGE_GO (R76; log 1). -/
opaque Config.stageGo : Word → Bool × Nat
/-- The Profile 1.0 table and the 8D switch sequence of the fitted NVM, a part that the spec does not choose
(02_image_and_journal.md R42, R45; log 6). -/
opaque Config.nvmProfile : NvmProfile
/-- Index of the k-th cell of the packet with a serial number: the spec gives the free list no order (09_bobbin_pool_frame_store.md
R305, R307; log 47). -/
opaque Config.cellPlace : (serial k : Nat) → Nat
/-- What BOB_ERR shows once a word popped from a queue had an uncorrectable error; the spec gives the register no bit layout
(09_bobbin_pool_frame_store.md R324; log 1). -/
opaque Config.bobErr : (queue : Nat) → Word
/-- A free byte (log 1): bobbin window cells, parts of a response the spec does not give. -/
opaque Config.freeByte : Nat → Byte
/-- Free bytes, as many as the list has (log 1): SRAM contents after a self-test (17_test.md R582). -/
opaque Config.freeBytes : Nat → List Byte
/-- The exposure a sensor holds after its profile's write sequence converted the requested one to register codes
and back (05_strands_exposure.md R188; log 8): by profile ID and requested value. -/
opaque Config.sensorRound : Nat → Exposure → Exposure
/-- The correction W7's servo makes for a phase error (12_whorls.md R450; log 9): Kp, Ki, I term, error; answers
the new period and phase and I term. -/
opaque Config.w7Servo : Nat → Nat → Int → Int → Nat → Nat × Word × Int
/-- Hash of the record matcher over three bytes (10_hank_compressor.md R346; log 48). -/
opaque Config.hankHash : Byte → Byte → Byte → Fin 32768
/-- What follows the block type of a dynamic block: the encoder's codes for the length and literal symbols and the distance symbols
of a block, in order (10_hank_compressor.md R348, R349; log 48). -/
opaque Config.hankCodes : (lits dsts : List Nat) → List Bool
/-- The band footprint of a stream chain, which Kernil stores in a place the spec does not give
(07_spindle_array.md R231; log 11): first and last input row of a source strand slot read by band b. -/
opaque Config.footprint : (chain band slot : Nat) → Nat × Nat

/-- The vertical reach of a chain that Kernil stores with the footprints (08_pixel_kernels.md R302; log 11). -/
opaque Config.reach : (chain : Nat) → Nat

/-- TIM cycles per microsecond (12_whorls.md R410: 500 MHz). -/
def Config.timPerUs : Nat := 500

end Sys2Proof
end

