-- ==== Sys2Proof/Machine/ImageTypes.lean ====
section
/-! DEFINITION. The configuration that a booted image holds, as typed data
(spec/02_image_and_journal.md R53 to R57 and the layout tables of the other chapters that extend its
sections). Field ranges are checked by the loader (R58), not by these types. -/

namespace Sys2Proof.Machine

/-- One port table entry (04_creel_links.md R116); 0xFF and 0xFFFF stand for unused. -/
structure PortCfg where
  rate : Nat
  minEye : Nat
  i2cSpeed : Nat
  enabled : Bool
  vcs : List Nat
  profiles : List Nat
  deriving DecidableEq, Repr

/-- One strand capture entry (05_strands_exposure.md R160). -/
structure CaptureCfg where
  mode : Nat
  whorl : Nat
  group : Nat
  trigIn : Nat
  period : Nat
  phase : Int
  markDir : Nat
  markRepeat : Nat
  deriving DecidableEq, Repr

/-- One strand carding entry (06_carding.md R202). -/
structure CardingCfg where
  block : Nat
  zoneCols : Nat
  zoneRows : Nat
  winX : Nat
  winY : Nat
  winW : Nat
  winH : Nat
  chanMask : Nat
  binHeight : Nat
  deriving DecidableEq, Repr

/-- Exposure limits of a sensor profile (02_image_and_journal.md R54 offset 0x18). -/
structure ExpLimits where
  minInt : Nat
  maxInt : Nat
  maxAgain : Nat
  maxDgain : Nat
  deriving DecidableEq, Repr

/-- One sensor profile (02_image_and_journal.md R54). -/
structure Profile where
  id : Nat
  latency : Nat
  readback : Nat
  winFirst : Nat
  winLast : Nat
  width : Nat
  height : Nat
  dataType : Nat
  exposures : Nat
  mosaic : Nat
  period : Nat
  policy : Nat
  pwl : Nat
  defects : Nat
  limits : ExpLimits
  writeSeqOff : Nat
  readbackOff : Nat
  defaultExp : List Exposure
  deriving DecidableEq, Repr

/-- One stream entry (02_image_and_journal.md R56); `sources` holds the used source strands in slot order. -/
structure StreamCfg where
  id : Nat
  priority : Nat
  format : Nat
  sources : List Nat
  chain : Nat
  width : Nat
  height : Nat
  flags : Nat
  cropX : Nat
  cropY : Nat
  cropW : Nat
  cropH : Nat
  period : Nat
  deriving DecidableEq, Repr

/-- One layout descriptor (02_image_and_journal.md R55) with the eight shed rows of 11_ply_link.md R392
(shed streams, shed record strands), none without a shed table. -/
structure LayoutCfg where
  id : Nat
  modeMask : Nat
  streaming : Bool
  digest : Nat
  strandMask : Nat
  recordMask : Nat
  entryInterval : Nat
  tileW : Nat
  tileH : Nat
  theta : Nat
  admission : Nat
  shed : Option (List (Nat × Nat))
  streams : List StreamCfg
  deriving DecidableEq, Repr

/-- An overlay primitive (08_pixel_kernels.md R297). -/
structure Primitive where
  polygon : Bool
  width : Nat
  colour : List Nat
  vertices : List (Nat × Nat)
  deriving DecidableEq, Repr

/-- A kernel stage with its parameters (08_pixel_kernels.md R267): one parameter set per source for the
source-domain stages. -/
inductive Stage where
  | demosaic (q : List Nat)
  | irsep (sets : List (List Int × Nat))
  | wb (gains : List (List Nat))
  | ccm (rows : List (List Int))
  | cropscale
  | warp (mesh : Nat)
  | ltm (gx gy : Nat) (table : List Nat)
  | tone (curve : Nat)
  | transfer (table : Nat)
  | tnf (kMax t0 t1 : Nat)
  | overlay (prims : List Primitive)
  deriving DecidableEq, Repr

/-- A kernel parameter block (02_image_and_journal.md R57). -/
structure ChainCfg where
  id : Nat
  k : Nat
  amp : Nat
  storeNeed : Nat
  stages : List Stage
  deriving DecidableEq, Repr

/-- A mosaic descriptor (08_pixel_kernels.md R271); `codes` is row-major with stride 8. -/
structure Mosaic where
  px : Nat
  py : Nat
  codes : List Nat
  deriving DecidableEq, Repr

/-- A PWL table (06_carding.md R204); a knee is input, output and slope (u20.12). -/
structure PwlTable where
  id : Nat
  width : Nat
  knees : List (Nat × Nat × Nat)
  deriving DecidableEq, Repr

/-- A carding block (06_carding.md R205): ramp starts and saturation levels, compander table, black levels
per exposure (stride 8). -/
structure CardBlock where
  id : Nat
  dynamicOn : Bool
  flickerOn : Bool
  tRel : Nat
  tAbs : Nat
  fAbs : Nat
  fRel : Nat
  ramp : List (Nat × Nat)
  compander : List Nat
  black : List (List Nat)
  deriving DecidableEq, Repr

/-- A tone curve or transfer table (08_pixel_kernels.md R290). -/
structure Curve where
  id : Nat
  entries : List Nat
  deriving DecidableEq, Repr

/-- A defect map (06_carding.md R210): column and row of every defective position. -/
structure DefectMap where
  id : Nat
  positions : List (Nat × Nat)
  deriving DecidableEq, Repr

/-- A warp mesh (08_pixel_kernels.md R282). -/
structure WarpMesh where
  id : Nat
  nx : Nat
  ny : Nat
  grids : List (List (Int × Int))
  cells : List Nat
  deriving DecidableEq, Repr

/-- The parameters of one servoed whorl (12_whorls.md R414). -/
structure WhorlCfg where
  source : Nat
  base : Nat
  stepThr : Nat
  kp : Nat
  ki : Nat
  offset : Int
  lockThr : Nat
  lockCount : Nat
  lossMs : Nat
  deriving DecidableEq, Repr

/-- The whorl block (12_whorls.md R414). -/
structure TimeCfg where
  odoEnabled : Bool
  ptpEnabled : Bool
  whorls : List WhorlCfg
  edgeSize : Nat
  filter : Nat
  invert : Bool
  hysteresis : Nat
  w7Source : Nat
  w7Input : Nat
  w7Period : Nat
  w7Kp : Nat
  w7Ki : Nat
  holdAges : List Nat
  ptpProfile : Nat
  ptpTransport : Nat
  ptpDomain : Nat
  oneStep : Bool
  ringQueueMode : Bool
  ppsOut : Nat
  ppsWidth : Nat
  egress : Int
  ingress : Int
  ppsDelay : Int
  deriving DecidableEq, Repr

/-- The ring block (13_skein_ring.md R454): parent segment and junction position per segment. -/
structure RingCfg where
  respTimeout : Nat
  bcWait : Nat
  segments : List (Nat × Nat)
  deriving DecidableEq, Repr

/-- A converter entry (14_sense.md R500). -/
structure ConvCfg where
  mode : Nat
  lockedW7 : Bool
  turns : Nat
  period : Nat
  scan : List Nat
  deriving DecidableEq, Repr

/-- A sense input entry (14_sense.md R500); `startConv` above 3 names no converter. -/
structure InputCfg where
  kind : Nat
  gain : Nat
  pull : Nat
  actions : Nat
  lower : Nat
  upper : Nat
  startConv : Nat
  openThr : Nat
  deriving DecidableEq, Repr

/-- CRC parameters of the record or of the ply link (10_hank_compressor.md R343; 11_ply_link.md R369). -/
structure CrcCfg where
  poly : Nat
  init : Nat
  xorOut : Nat
  refIn : Bool
  refOut : Bool
  deriving DecidableEq, Repr

/-- The record parameters (10_hank_compressor.md R343). -/
structure RecordCfg where
  depth : Nat
  lazy : Bool
  crc : CrcCfg
  deriving DecidableEq, Repr

/-- The ply parameters (11_ply_link.md R369). -/
structure PlyCfg where
  rate : Nat
  lanes : Nat
  ackTimeout : Nat
  crc : CrcCfg
  deriving DecidableEq, Repr

/-- A check-unit binding entry (15_dma_check_units.md R537). -/
structure BindCfg where
  user : Nat
  preset : Nat
  mode : Nat
  gap : Nat
  deriving DecidableEq, Repr

/-- The booted image (02_image_and_journal.md). -/
structure Image where
  bankB : Bool
  generation : Nat
  digest : Nat
  sequence : Nat
  spareCount : Nat
  spareMin : Nat
  sinkOwner : Bool
  defaultLayout : Nat
  pfInput : Nat
  pfThreshold : Nat
  ports : List PortCfg
  captures : List CaptureCfg
  cardings : List CardingCfg
  profiles : List Profile
  layouts : List LayoutCfg
  chains : List ChainCfg
  mosaics : List Mosaic
  pwls : List PwlTable
  blocks : List CardBlock
  tones : List Curve
  transfers : List Curve
  defects : List DefectMap
  meshes : List WarpMesh
  time : TimeCfg
  ring : RingCfg
  convs : List ConvCfg
  inputs : List InputCfg
  record : RecordCfg
  ply : PlyCfg
  binds : List BindCfg
  deriving DecidableEq, Repr

/-- The whorl parameters in force without the section and under the ROM safe personality
(12_whorls.md R416, with the defaults of R414). The step threshold, Kp, Ki, lock and loss figures are
those of R414; hysteresis 10,000. Fields whose default R414 does not state are zero
(DESIGN CHOICE, notes/assumptions/2.md). -/
def TimeCfg.rom : TimeCfg :=
  { odoEnabled := false, ptpEnabled := true,
    whorls := [⟨1, 0, 100, 0x00B3, 0x4CCD, 0, 100, 8, 3000⟩, ⟨2, 0, 100, 0x00B3, 0x4CCD, 0, 100, 8, 50⟩,
      ⟨0, 0, 100, 0x00B3, 0x4CCD, 0, 100, 8, 0⟩, ⟨0, 0, 100, 0x00B3, 0x4CCD, 0, 100, 8, 0⟩,
      ⟨0, 0, 100, 0x00B3, 0x4CCD, 0, 100, 8, 0⟩],
    edgeSize := 0, filter := 1, invert := false, hysteresis := 10000,
    w7Source := 0, w7Input := 0, w7Period := 0, w7Kp := 0, w7Ki := 0,
    holdAges := [1000, 10000, 60000, 300000, 1800000, 3600000, 86400000],
    ptpProfile := 1, ptpTransport := 0, ptpDomain := 0, oneStep := false, ringQueueMode := false,
    ppsOut := 0xFF, ppsWidth := 1, egress := 0, ingress := 0, ppsDelay := 0 }

/-- The ring block without the section (13_skein_ring.md R454): only segment 0 exists. -/
def RingCfg.rom : RingCfg :=
  { respTimeout := 2000, bcWait := 10, segments := [] }

end Sys2Proof.Machine
end

