-- ==== Sys2Proof/Machine/TypesControl.lean ====
section
/-! DEFINITION. State of the always-on domain, the pins, SYS, the register bus, the NVM and the journal
(spec/01, 02, 03, 16, 18, 19). Each field's docstring names its width, its rule and its reset value; 'log n' is
notes/assumptions/<n>.md. -/

namespace Sys2Proof.Machine

/-- The phase of the start path (03_start_modes_bypass.md R81 to R86, R106). -/
inductive Phase where
  /-- power-on or brown-out reset held by the AON supervisor (R601) -/
  | powerReset
  /-- PORST_N, software or JTAG reset held -/
  | reset
  /-- steps 2 to 5 of R86 done, image loading not yet finished -/
  | loading
  /-- ROM safe personality (R111) -/
  | romSafe
  /-- image loaded, step 6 of R86 reached -/
  | running
  /-- Production Test entered by BOOT_SEL 0b10 or by JTAG (R103) -/
  | production
  deriving DecidableEq, Repr

/-- The ring path of one ring (03_start_modes_bypass.md R105). -/
inductive RingTier where
  /-- external switch closed, BYPx_HOLD low -/
  | bypass
  /-- BYPx_HOLD high, receivers not yet locked (R106 steps 2 to 4) -/
  | opening
  | retimer
  | full
  deriving DecidableEq, Repr

/-- The operating modes with their codes of 03_start_modes_bypass.md R94. -/
inductive Mode where
  | standby
  | warmup
  | drive
  | survey
  | depot
  | production
  | shutdown
  deriving DecidableEq, Repr

/-- R94 code of a mode. -/
def Mode.code : Mode → Nat
  | .standby => 0 | .warmup => 1 | .drive => 2 | .survey => 3 | .depot => 4 | .production => 5 | .shutdown => 7

/-- The always-on domain (03_start_modes_bypass.md; 18_registers.md). -/
@[ext] structure Aon where
  /-- phase of the start path; 6 values; 03 R81, R86; reset powerReset (log 6) -/
  phase : Phase
  /-- SYS_RST_CAUSE bits 4 to 0; 5 bits; 18 R590 table; reset 0b00001 (POWERON) -/
  cause : BitVec 5
  /-- BOOT_SEL as sampled; 2 bits; 03 R82; reset DESIGN CHOICE 0 (log 2) -/
  bootSel : BitVec 2
  /-- I2CA as sampled; 2 bits; 03 R82, R84; reset DESIGN CHOICE 0 (log 2) -/
  i2ca : BitVec 2
  /-- REFCLK meets R610 and no PLL has failed; 1 bit; 03 R106, 16 R553; reset false -/
  refclk : Bool
  /-- path of rings A and B; 4 values each; 03 R105, R106; reset bypass -/
  tier : Vector RingTier 2
  /-- the last reset was a brown-out, to be counted at the next start; 16 R569; reset false -/
  fromBrownOut : Bool
  deriving DecidableEq, Repr

/-- The pins the block drives (19_electrical_package.md; 16 R552, R553). -/
@[ext] structure Pins where
  /-- FAULT_N level; 1 bit; 16 R552, R553; reset false (low) -/
  faultN : Bool
  /-- ALERT_N level; 1 bit; 16 R552, R553; reset true (released) -/
  alertN : Bool
  /-- POC_EN[15:0]; 16 bits; 04 R156; reset 0 -/
  pocEn : BitVec 16
  /-- BYPA_HOLD and BYPB_HOLD; 1 bit each; 03 R105; reset false -/
  bypHold : Vector Bool 2
  /-- TRIG_OUT pulses issued, newest first: output, width in us; 12 R437; reset none -/
  trigOut : List (Nat × Nat)
  /-- PPS_OUT pulses issued, width in us; 12 R436; reset none -/
  ppsOut : List Nat
  deriving DecidableEq, Repr

/-- A complement pair: committed value and pending value (18_registers.md R592). -/
structure Pair (w : Nat) where
  committed : BitVec w
  pending : BitVec w
  deriving DecidableEq, Repr

/-- The complement pairs of 18_registers.md R591. -/
structure Pairs where
  /-- SYS_MODE_REQ; 32 bits twice; 18 R592; reset 0 -/
  modeReq : Pair 32
  /-- SYS_SWRST; 32 bits twice; 18 R592; reset 0 -/
  swrst : Pair 32
  /-- NVM_PIN; 32 bits twice; 02 R79; reset 0, then the journal's pin at step 4 of R86 -/
  nvmPin : Pair 32
  /-- SKN_PIN_A; 32 bits twice; 13 R457; reset 0xFFFF, then the journal's node ID -/
  sknPinA : Pair 32
  /-- SKN_PIN_B; 32 bits twice; 13 R457; reset 0xFFFF, then the journal's node ID -/
  sknPinB : Pair 32
  /-- WHL_W6_PRESET; 64 bits twice; 12 R448; reset 0 -/
  w6 : Pair 64
  /-- SNS_WIN0 to SNS_WIN23; 24 x 32 bits twice; 14 R511; reset 0, then image values -/
  win : Vector (Pair 32) 24
  deriving DecidableEq, Repr

/-- A mode transition in progress (03_start_modes_bypass.md R97): target mode and layout. -/
structure Transition where
  target : Mode
  layout : Nat
  deriving DecidableEq, Repr

/-- SYS registers and the mode machine (18_registers.md SYS; 03 R94 to R104, R113; 16 R551, R557). -/
@[ext] structure Sys where
  /-- present mode; R94 code; 03 R94; reset standby -/
  mode : Mode
  /-- Depot entered with NOLIVE; 1 bit; 03 R95; reset false -/
  nolive : Bool
  /-- transition in progress; target mode and layout; 03 R97; reset none -/
  transition : Option Transition
  /-- REQ_COUNT; 8 bits; 18 SYS_MODE_STATUS; reset 0 -/
  reqCount : BitVec 8
  /-- RESULT of the last counted request; 3 bits; 03 R96; reset 0 -/
  result : BitVec 3
  /-- ACTIVE_LAYOUT; 8 bits; 18 SYS_MODE_STATUS; reset 0xFF -/
  activeLayout : BitVec 8
  /-- result of the last sink layout request, 0xFF when none; 8 bits; 11 R396; reset 0xFF -/
  layoutReqResult : BitVec 8
  /-- layout ID of the last sink layout request; 8 bits; 11 R396; reset 0 -/
  layoutReqId : BitVec 8
  /-- SAFE_OFF reached; 1 bit; 03 R113; reset false -/
  safeOff : Bool
  /-- last step of the shutdown table performed, 0 when none; 03 R113; reset 0 -/
  shutdownStep : Nat
  /-- SYS_CPAIR_ERR; 32 bits; 18 SYS_CPAIR_ERR; reset 0 -/
  cpairErr : Word
  /-- SYS_FAULT_SUM; 32 bits; 16 R551; reset 0 -/
  fault : Word
  /-- EXPIRIES of SYS_WDOG0 to 3; 4 x 8 bits; 16 R557; reset 0 -/
  wdog : Vector (BitVec 8) 4
  /-- services of each core's watchdog; 4 x unbounded; 16 R557; reset 0 (the model's own count) -/
  serviced : Vector Nat 4
  /-- core n runs its firmware, false while in reset; 4 x 1 bit; 03 R86; reset false -/
  coreRun : Vector Bool 4
  /-- core restarts from the control SRAM copy in this start; 4 x unbounded; 16 R557; reset 0 -/
  coreRestarts : Vector Nat 4
  /-- EVENT codes and late-action reports delivered to each core, newest first (core, code); 12 R437, R440; reset none -/
  coreEvents : List (Nat × Nat)
  /-- arbiter decision number; 32 bits; 01 R25; reset 0 -/
  decision : Word
  /-- number of the last decision the data plane applied; 32 bits; 01 R25; reset 0 -/
  applied : Word
  /-- corrected errors of the bobbin pool and of the spindles' local stores; 2 x 32 bits; 01 R38; reset 0 (no register shows
  them; those of the frame store are FST_ECC) -/
  corrected : Vector Word 2
  /-- W0 TIM cycle at which Warm-up was entered; 03 R98; reset 0 -/
  warmupStart : Nat
  /-- coefficients from which lanes 16 to 21 of R62 (ply return lane, ring lanes, Ethernet) start training, none for the defaults;
  02 R64, 03 R93, 13 R458; reset none -/
  laneStart : Vector (Option EqCoeffs) 6
  deriving DecidableEq, Repr

/-- The answer to a register or window access (13_skein_ring.md R475 code). -/
structure Answer where
  master : Master
  code : BitVec 4
  detail : Byte
  data : DWord
  deriving DecidableEq, Repr

/-- The HI latch of a LO/HI pair for one master (00_scope.md R5, 18 R588): register-space offset of HI. -/
structure HiLatch where
  master : Master
  off : Nat
  value : Word
  deriving DecidableEq, Repr

/-- Per-master access state of register space (18_registers.md R588). -/
@[ext] structure Bus where
  /-- latched HI words; one per master and pair, 32 bits; 00 R5, 18 R588; reset none -/
  hi : List HiLatch
  /-- held LO writes; one per master and pair, 32 bits; 18 R588; reset none -/
  lo : List HiLatch
  /-- snapshot group latched by a WHL_SEC LO read, per master: offset, four words; 12 R411; reset none -/
  groups : List (Master × Nat × List Word)
  /-- FRAME latched by CRL_EXPRES per master and port; 32 bits; 18 R636; reset none (reads 0) -/
  expFrame : List (Master × Nat × Word)
  /-- SKN_LAST_ERR per master: code, detail; 4 and 8 bits; 18 SKN; reset none (reads 0) -/
  lastErr : List (Master × BitVec 4 × BitVec 8)
  /-- answer of the last access; 13 R475; reset none (the model's own record of what leaves) -/
  answer : Option Answer
  /-- bytes that the last read through a ring window or of a memory brought; 13 R475; reset none (the model's own record) -/
  readData : List Byte
  /-- far address of the last failed window request, and whether it wrote; 13 R471; reset none -/
  ringFail : Option (Word × Bool)
  deriving DecidableEq, Repr

/-- One exposure seed (02_image_and_journal.md R63). -/
structure ExpSeed where
  valid : Bool
  converged : Bool
  profile : Nat
  entries : List Exposure
  settle : Nat
  deriving DecidableEq, Repr

/-- One equaliser seed (02_image_and_journal.md R63). -/
structure EqSeed where
  valid : Bool
  rate : Nat
  coeffs : EqCoeffs
  deriving DecidableEq, Repr

/-- The margin plan (16_guarantees_health_ageing.md R568). -/
structure Plan where
  valid : Bool
  number : Nat
  generation : Nat
  minutes : Nat
  spa : Nat
  spb : Nat
  avs : Nat
  vmin : Nat
  retired : BitVec 64
  creelRates : List Nat
  plyRate : Nat
  cause : Nat
  slack : Nat
  deriving DecidableEq, Repr

/-- One fault event record (16_guarantees_health_ageing.md R569). -/
structure FaultEvent where
  minutes : Nat
  start : Nat
  bit : Nat
  cls : Nat
  source : Nat
  detail : Nat
  deriving DecidableEq, Repr

/-- The ageing history (16_guarantees_health_ageing.md R569). -/
structure History where
  minutes : Nat
  sincePlan : Nat
  starts : Nat
  brownOuts : Nat
  powerFails : Nat
  plyEvents : Nat
  memCe : Nat
  diagWrites : Nat
  hist : List (List Nat)
  stress : List Nat
  /-- latest slack, first-plan slack -/
  slack : List (Nat × Nat)
  /-- latest h, latest v, baseline h, baseline v -/
  eyes : List (Nat × Nat × Nat × Nat)
  /-- baseline code, latest monthly code -/
  currents : List (Nat × Nat)
  vmin : Nat
  vminBase : Nat
  vminWorst : Nat
  events : List FaultEvent
  eventTotal : Nat
  deriving DecidableEq, Repr

/-- One access log record (02_image_and_journal.md R65). -/
structure AccessRec where
  sec : Nat
  ns : Nat
  path : Nat
  size : Nat
  origin : Half
  detail : Word
  addr : Word
  value : Word
  len : Nat
  result : Nat
  deriving DecidableEq, Repr

/-- The journal content in force (02_image_and_journal.md R62) and the writer's state (R68 to R73). -/
@[ext] structure Journal where
  /-- bank pin in force: 0 none, 1 A, 2 B; 02 R62; reset 0, then the journal's -/
  pin : Nat
  /-- ring A and B node IDs in force, 0xFFFF for auto-enumeration; 16 bits each; 02 R62; reset 0xFFFF -/
  nodes : Vector Half 2
  /-- exposure seeds, 64 entries; 02 R63; reset empty list (none valid) -/
  expSeeds : List ExpSeed
  /-- equaliser seeds, 22 lanes in R62 order; 02 R63; reset empty list (none valid) -/
  eqSeeds : List EqSeed
  /-- margin plan; 16 R568; reset invalid plan of R565 defaults -/
  plan : Plan
  /-- ageing history; 16 R569; reset zero -/
  history : History
  /-- access log, newest first, at most 64 records; 02 R65, R70; reset none -/
  log : List AccessRec
  /-- total access records; 32 bits saturating; 02 R62; reset 0 -/
  logTotal : Nat
  /-- access records dropped; 32 bits saturating; 02 R70; reset 0 -/
  logDropped : Nat
  /-- access records not yet in a written set; 02 R68; reset 0 -/
  unsaved : Nat
  /-- sequence of the current set, 0 with an empty journal; 32 bits; 02 R61; reset 0 -/
  seq : Nat
  /-- target slot of banks J0 and J1; 02 R72; reset 0 -/
  slot : Vector Nat 2
  /-- content changed since the last set; 02 R68; reset false -/
  changed : Bool
  /-- cause code of a trigger that waits for a set (1 power-fail first); 02 R68, R69; reset none -/
  due : Option Nat
  /-- W0 cycle of the last set that counts for R69; 02 R69; reset none -/
  lastSet : Option Nat
  /-- the set being programmed: bank, slot, sequence, trailer page; 02 R71; reset none -/
  writing : Option (Nat × Nat × Nat × List Byte)
  /-- sectors to erase, the first one being erased: bank, sector; 02 R72; reset none -/
  erasing : List (Nat × Nat)
  /-- no further set until the power-fail input recovers; 02 R73; reset false -/
  held : Bool
  /-- no further set in this start; 03 R113; reset false -/
  closed : Bool
  deriving DecidableEq, Repr

/-- Status of a staging session (02_image_and_journal.md R76, R77). -/
inductive StageStatus where
  | idle
  | erasing
  | ready
  | programming
  | verifying
  | done
  | range
  | incomplete
  | programFail
  | verifyFail
  | aborted
  deriving DecidableEq, Repr

/-- Number of a status, for the word that NVM_STAGE_STATUS shows (R76, R77; the spec gives no codes, log 1). -/
def StageStatus.code : StageStatus → Nat
  | .idle => 0 | .erasing => 1 | .ready => 2 | .programming => 3 | .verifying => 4 | .done => 5 | .range => 6
  | .incomplete => 7 | .programFail => 8 | .verifyFail => 9 | .aborted => 10

/-- An open staging session (02_image_and_journal.md R74 to R79). -/
structure Session where
  owner : Access
  length : Nat
  pinNew : Bool
  /-- pages programmed or held so far, by page number -/
  pages : List Nat
  /-- bank bytes 0x00 to 0xFF held in control SRAM -/
  header : List Byte
  /-- GO in progress: bank offset and bytes -/
  busy : Option (Nat × Nat)
  total : Nat
  deriving DecidableEq, Repr

/-- Mode of the NVM bus (02_image_and_journal.md R45): 1S-1S-1S and 8D-8D-8D. -/
inductive NvmMode where
  | single
  | octal
  deriving DecidableEq, Repr

/-- A command that the start path sends to the NVM (R45, R46): bus mode, command code, bytes after it. -/
structure NvmCmd where
  mode : NvmMode
  code : Byte
  data : List Byte
  deriving DecidableEq, Repr

/-- What the SFDP read of the fitted NVM finds (R46), an environment fact: the table is there, passes its own checks, and
holds the Profile 1.0 table. -/
structure Sfdp where
  found : Bool
  checks : Bool
  profile10 : Bool
  deriving DecidableEq, Repr

/-- The NVM block (02_image_and_journal.md). -/
structure Nvm where
  /-- what SFDP shows of the fitted NVM; 3 x 1 bit; 02 R46; reset DESIGN CHOICE all true (log 6): an environment fact -/
  sfdp : Sfdp
  /-- mode of the NVM bus; 02 R45; reset single -/
  mode : NvmMode
  /-- codes taken from the Profile 1.0 table in this start; 02 R45; reset none -/
  profile : Option NvmProfile
  /-- commands that the start path issued in this start, in order; 02 R45; reset none (the model's own record) -/
  issued : List NvmCmd
  /-- size of the fitted NVM in MiB; 02 R42; reset DESIGN CHOICE 64 (log 6): an environment fact -/
  sizeMiB : Nat
  /-- NVM_BOOT_STATUS BOOTED; 2 bits; 02 R60; reset 0 -/
  booted : BitVec 2
  /-- NVM_BOOT_STATUS BANK_A, BANK_B; 4 bits each; 02 R60; reset 0xF -/
  codes : Vector (BitVec 4) 2
  /-- inactive bank that a session writes: true B; 02 R44, R80; reset true -/
  inactiveB : Bool
  /-- active sequence of step 6 of R76; 32 bits; 02 R76, R80; reset 0 -/
  activeSeq : Nat
  /-- NVM_STAGE_STATUS; 02 R77; reset idle -/
  status : StageStatus
  /-- NVM_STAGE_OFFSET; 32 bits; 02 R76; reset 0 -/
  offset : Word
  /-- open staging session; 02 R74; reset none -/
  session : Option Session
  deriving DecidableEq, Repr

/-- The NVM is present (R46): its SFDP table is there, passes its checks and holds the Profile 1.0 table. -/
def Nvm.fitted (v : Nvm) : Bool := v.sfdp.found && v.sfdp.checks && v.sfdp.profile10

/-- The layout context (01_three_planes.md R20 to R24; 13 R488). -/
structure LayoutCtx where
  /-- staged layout ID and digest in the shadow context (SKN_LSTAGE); 4 and 64 bits; 01 R24, 13 R488; reset none -/
  staged : Option (Nat × DWord)
  /-- layout that fired last and is being adopted; 01 R20 to R23; reset none -/
  pending : Option Nat
  /-- layout adopted by each strand; 01 R20; reset none -/
  strand : Vector (Option Nat) 64
  /-- layout adopted by each output stream; 01 R22; reset none -/
  stream : Vector (Option Nat) 64
  deriving DecidableEq, Repr

end Sys2Proof.Machine
end

