-- ==== Sys2Proof/Machine/TypesCapture.lean ====
section
/-! DEFINITION. State of the creel ports, the strands, their exposure control and the carding units
(spec/04, 05, 06, 18 R636). -/

namespace Sys2Proof.Machine

/-- Training progress of a creel port, by the step of 04_creel_links.md R148 last reached. -/
inductive TrainStep where
  /-- POC_EN low or no active strand -/
  | off
  /-- step 1: LINK_CFG (TS1) repeated -/
  | ts1
  /-- step 3: 256 TS1 received, LINK_CFG (TS2) sent -/
  | ts2
  /-- step 6: eye measured, LINK_CFG (LINK_UP) sent -/
  | linkUp
  /-- step 8 -/
  | trained
  /-- three attempts failed, waiting for the 100 ms retry (R149) -/
  | waiting
  deriving DecidableEq, Repr

/-- Number of a training step, for the word that CRL_STATUS shows (18_registers.md gives no codes, log 1). -/
def TrainStep.code : TrainStep → Nat
  | .off => 0 | .ts1 => 1 | .ts2 => 2 | .linkUp => 3 | .trained => 4 | .waiting => 5

/-- A back-channel message (04_creel_links.md R135). -/
inductive BcMsg where
  | linkCfg (cmd rate port : Nat)
  | i2cWrite (addr width reg : Nat) (data : List Byte)
  | i2cRead (addr width reg count : Nat)
  | trigger (slot : Nat) (slave : Nat)
  | syncReq
  | syncSet (step trim : Int)
  | gpioSet (mask value : Nat)
  /-- the exposure write sequence of a profile for one slot and frame; its I2C messages come from the
  profile's table, whose format the spec does not give (log 8) -/
  | expWrite (slot : Nat) (frame : Word) (e : List Exposure)
  /-- the sensor initialisation of a profile for one slot (R86 step 10; log 8) -/
  | sensorInit (slot : Nat)
  deriving DecidableEq, Repr

/-- A request that waits for its reply (04_creel_links.md R136, R138). -/
structure BcReq where
  tag : Byte
  msg : BcMsg
  resends : Nat
  /-- W0 cycle of the last sending -/
  sentAt : Nat
  deriving DecidableEq, Repr

/-- The error and event counters of a port (04_creel_links.md R127, R131, R132, 05 R164). All saturate at 2^32 - 1. -/
structure CrlErrs where
  hdrCorrected : Word
  hdrUncorrectable : Word
  crc : Word
  code : Word
  openPacket : Word
  gap : Word
  controlCrc : Word
  aborted : Word
  unknown : Word
  unmapped : Word
  lineMarks : Word
  generic : Word
  foreign : Word
  frameNumber : Word
  deriving DecidableEq, Repr

/-- A result in the core 0 queue (18_registers.md R636). -/
structure ExpResult where
  tag : Half
  code : Byte
  frame : Word
  deriving DecidableEq, Repr

/-- One creel port (04_creel_links.md; 18_registers.md CRL and R636). -/
structure Port where
  /-- training step; 04 R148; reset off -/
  step : TrainStep
  /-- rate code that LINK_CFG commands; 04 R149; reset 0 -/
  rate : Nat
  /-- failed attempts since POC_EN rose or lock was lost; 04 R149; reset 0 -/
  attempts : Nat
  /-- the attempt starts from seed or working coefficients; 04 R149, R155; reset true -/
  seeded : Bool
  /-- the lane was trained once in this start and its working coefficients stand; 04 R153; reset none -/
  working : Option EqCoeffs
  /-- coefficients the current attempt starts from, none for the defaults; 02 R64; reset none -/
  startCoeffs : Option EqCoeffs
  /-- eye margin, horizontal and vertical; 1/64 UI and 1/64 height; 04 R148; reset 0 -/
  eyeH : Nat
  /-- vertical eye margin; 16 R561; reset 0 -/
  eyeV : Nat
  /-- the LINK_UP has been acknowledged; 04 R148 step 8; reset false -/
  upAcked : Bool
  /-- last forward sequence byte; 04 R124; reset none -/
  lastSeq : Option Byte
  /-- error counters; 14 x 32 bits; 04 R127; reset 0 -/
  errs : CrlErrs
  /-- next back-channel tag; 8 bits; 04 R136; reset 0 -/
  nextTag : Byte
  /-- unanswered requests, oldest first, at most 8; 04 R136; reset none -/
  outstanding : List BcReq
  /-- requests that wait for room; 04 R136; reset none -/
  queued : List BcMsg
  /-- back-channel messages sent, newest first, with their tag; 04 R135; reset none (log 7) -/
  sent : List (Byte × BcMsg)
  /-- resends; 32 bits; 18 CRL_BC; reset 0 -/
  resends : Word
  /-- LATE replies; 32 bits; 04 R142; reset 0 -/
  late : Word
  /-- BUSY replies to triggers; 32 bits; 04 R141; reset 0 -/
  trigBusy : Word
  /-- W0 ns at which the outstanding SYNC_REQ left (t1); 04 R144; reset none -/
  syncT1 : Option Nat
  /-- last offset, ns; 04 R145; reset 0 -/
  offset : Int
  /-- last one-way delay, ns; 04 R145; reset 0 -/
  delay : Int
  /-- trim in force, 2^-40; 12 R444; reset 0 -/
  trim : Int
  /-- a SYNC_SET has been acknowledged since training; 04 R147; reset false -/
  syncAcked : Bool
  /-- slave timer locked; 04 R147; reset false -/
  locked : Bool
  /-- the sensors of the port were initialised since the lane was trained; 03 R86 step 10; reset false -/
  inited : Bool
  /-- head GPIO levels and changed mask; 8 bits each; 04 R143; reset 0 -/
  gpio : Byte × Byte
  /-- head type, firmware version, error bits; 04 R143; reset 0 -/
  head : Half × Half × Word
  /-- data of the last I2C_DATA reply; 04 R135; reset none -/
  i2cData : List Byte
  /-- skip adjust of the elastic buffer: K28.0 inserted minus deleted; 04 R122; reset 0 -/
  elastic : Int
  /-- CRL_EXPREQ 0x0040; 32 bits; 18 R636; reset 0 -/
  reqCtl : Word
  /-- CRL_EXPREQ TARGET; 32 bits; 18 R636; reset 0 -/
  reqTarget : Word
  /-- CRL_EXPREQ INTEG_i and gains; 8 x 32 bits; 18 R636; reset 0 -/
  reqEntries : Vector Word 8
  /-- result queue of core 0, oldest first, at most 32; 18 R636; reset empty -/
  results : List ExpResult
  /-- OVERFLOW of CRL_EXPRES; 1 bit; 18 R636; reset false -/
  resultOvf : Bool
  /-- the port was trained since the last margin plan; 16 R565; reset false -/
  trainedSincePlan : Bool
  deriving DecidableEq, Repr

/-- The record and working data of one frame of a strand (01 R13, R14; 05; 06). -/
structure Frame where
  /-- frame number; 32 bits; 05 R163 -/
  num : Word
  /-- sensor frame number of the frame-start packet; 16 bits -/
  sensorNo : Half
  /-- W0 cycle of the frame-start packet; 04 R129 -/
  start : Nat
  /-- the carding unit still has the frame open; 06 R220 -/
  isOpen : Bool
  /-- W0 cycle of the close; 06 R220 -/
  close : Nat
  /-- abandoned under R221 -/
  abandoned : Bool
  /-- closed by its frame-end packet -/
  byEnd : Bool
  /-- layout under which the frame is processed; 01 R20 -/
  layout : Nat
  /-- meets R89 or follows the first frame that did -/
  valid : Bool
  /-- the strand's first valid frame since the start or the relock; 03 R93 -/
  firstValid : Bool
  capture : WhorlTime
  whorl : Nat
  quality : Nat
  /-- W6 at capture, um; 05 R168 -/
  w6 : Int
  /-- flag bits 0 to 5, 9, 10, 11, 14 of R384 -/
  flags : Word
  /-- opening exposure entries (write log at frame start); 05 R190 -/
  opening : List Exposure
  /-- closing exposure entries; 05 R190, R191 -/
  closing : List Exposure
  /-- readback decoded from embedded data; none when absent or not intact -/
  readback : Option (List Exposure)
  /-- an opening issue of its record has left, with the opening entries; 01 R15, R17 -/
  issued : Bool
  /-- marked non-conforming; 04 R128 -/
  nonConforming : Bool
  /-- image long packets taken so far; 04 R133 -/
  packets : Nat
  /-- corrected lines of the row in progress, exposure ascending -/
  lines : List (List Nat)
  /-- rows committed so far -/
  rowsDone : Nat
  /-- merged samples (m, all-saturated) per emitted row from received samples, newest row first; padded
  positions are absent -/
  merged : List (List (Nat × Bool))
  static : Nat
  dynamic : Nat
  flicker : Nat
  allSat : Nat
  padded : Nat
  cut : Nat
  missing : Nat
  deferral : Int
  markGap : Int
  /-- input ring slot written, 0 to 3; 09 R331 -/
  slot : Nat
  deriving DecidableEq, Repr

/-- An exposure request of a strand (05_strands_exposure.md R180 to R189). -/
structure ExpReq where
  internal : Bool
  tag : Half
  /-- frame the request names -/
  named : Word
  /-- frame it targets now -/
  target : Word
  /-- values of all E entries, those it does not name as last requested -/
  entries : List Exposure
  clamped : Bool
  retargeted : Bool
  /-- its write sequence was sent -/
  sent : Bool
  /-- it was judged, and its acceptance reported, before (R189) -/
  judged : Bool
  deriving DecidableEq, Repr

/-- An entry of the write log (05_strands_exposure.md R188, R155): the values last sent for a frame as the sensor holds them,
whose request they were, and whether they count as applied (a discarded write does not). -/
structure WriteRec where
  frame : Word
  values : List Exposure
  retargeted : Bool
  /-- the request came from the sink (R195) -/
  sink : Bool
  applied : Bool
  deriving DecidableEq, Repr

/-- A scheduled, deferred or sent exposure start (05_strands_exposure.md R169 to R178), times in W0 ns. -/
structure Trig where
  due : Nat
  slave : Nat
  deferred : Bool
  /-- mark position in um for a mode 3 start -/
  mark : Option Int
  /-- the exposure starts after the crossing of its mark (R177, R178) -/
  missed : Bool
  /-- further marks merged into it (R178) -/
  merged : Nat
  deriving DecidableEq, Repr

/-- One strand (05_strands_exposure.md, 06_carding.md). -/
structure Strand where
  /-- last assigned frame number, 0 before the first; 32 bits; 05 R163; reset 0 -/
  frameNo : Word
  /-- a frame start has been numbered since the start or the relock; 05 R163, R165; reset false -/
  numbered : Bool
  /-- W0 cycle of the last frame start before a loss of lock; 05 R165; reset none -/
  lostAt : Option Nat
  /-- W0 cycles of the last frame starts, newest first, at most 8; 05 R182; reset none -/
  starts : List Nat
  /-- W0 cycles from start to end of the previous frame; 05 R182; reset 0 -/
  rowSpan : Nat
  /-- no frame has closed since the start or the relock: no window is predicted; 05 R633; reset true -/
  windowless : Bool
  /-- record slots, newest first, at most 4; 01 R13; reset none -/
  frames : List Frame
  /-- write log, newest first; 05 R188; reset none -/
  writeLog : List WriteRec
  /-- values applied to the previous frame; 4 entries; 05 R190; reset none -/
  applied : List Exposure
  /-- last requested values; 4 entries; 05 R181; reset none -/
  requested : List Exposure
  /-- pending requests in order of arrival; 05 R185; reset none -/
  pending : List ExpReq
  /-- held requests in order of arrival; 05 R633; reset none -/
  heldReqs : List ExpReq
  /-- return-lane assemblies: frame and entries so far; 05 R181; reset none -/
  assembly : List (Word × List (Nat × Exposure))
  /-- the strand started from its seed; 03 R92; reset false -/
  seeded : Bool
  /-- SEEDED or UNSEEDED still holds; 05 R195; reset true -/
  unconverged : Bool
  /-- the DV1664 has written an exposure in this start; 03 R89; reset false -/
  written : Bool
  /-- frame number from which frames carry an exposure of this start; 03 R89; reset 0 -/
  writtenFrom : Word
  /-- values of a warm-up or relock write that takes effect from the frame L after the next start; 03 R92, R93; reset none -/
  warm : Option (List Exposure)
  /-- the sensor was initialised since the lane was trained; 03 R86 step 10; reset false -/
  inited : Bool
  /-- a first valid frame was delivered since the start or the relock; 03 R89; reset false -/
  live : Bool
  /-- treated as a lost camera until its first valid frame; 03 R98, 04 R155; reset false -/
  lost : Bool
  /-- start for which the strand is busy, and whether it has produced a frame; 05 R173; reset none -/
  busy : Option (Trig × Bool)
  /-- record whorl time, W6 in um and time quality latched at the exposure start; 05 R167, R168, 12 R422, R443; reset none -/
  shot : Option (WhorlTime × Int × Nat)
  /-- deferred start; 05 R175; reset none -/
  deferred : Option Trig
  /-- starts that wait for their moment or whose TRIGGER was sent; 05 R169, R170; reset none -/
  armed : List Trig
  /-- withheld triggers; 32 bits; 05 R172; reset 0 -/
  withheld : Word
  /-- dropped triggers; 32 bits; 05 R173 to R175; reset 0 -/
  dropped : Word
  /-- DISARMED marks, by n of the grid; 12 R449; reset none -/
  disarmed : List Int
  /-- ONCE marks fired since the start or the last preset; 05 R176; reset none -/
  fired : List Int
  /-- marks for which a trigger is committed, by n; 05 R177; reset none -/
  committed : List Int
  /-- the next frame carries TIME_STEPPED after a preset; 12 R448; reset false -/
  presetFlag : Bool
  /-- epoch of the previous frame's capture time; 16 bits; 12 R424; reset 0 -/
  lastEpoch : Nat
  /-- lockstep mismatches; 32 bits; 16 R550, 18 CRD; reset 0 -/
  mismatches : Word
  deriving DecidableEq, Repr

/-- One carding unit's status (06_carding.md R200; 18 CRD). -/
structure Carding where
  /-- FIFO overflow count; 32 bits; 06 R200; reset 0 -/
  overflows : Word
  deriving DecidableEq, Repr

end Sys2Proof.Machine
end

