-- ==== Sys2Proof/Machine/TypesTime.lean ====
section
/-! DEFINITION. State of the whorls, the scheduled-action queue and PTP (spec/12, 18 WHL). -/

namespace Sys2Proof.Machine

/-- Servo states with their codes of 18_registers.md WHL_STATEn. -/
inductive ServoState where
  | free
  | acquiring
  | tracking
  | locked
  | holdover
  | localTime
  deriving DecidableEq, Repr

/-- WHL_STATEn code of a servo state. -/
def ServoState.code : ServoState → Nat
  | .free => 0 | .acquiring => 1 | .tracking => 2 | .locked => 3 | .holdover => 4 | .localTime => 5

/-- One servoed whorl W1 to W5 (12_whorls.md R410, R417 to R421). -/
structure Servo where
  /-- time in units of 2^-40 ns; 64-bit seconds wrap; 12 R410; reset 0 -/
  acc : Nat
  /-- epoch; 16 bits; 12 R410; reset 0 -/
  epoch : Nat
  /-- increment, 2^-40 ns per TIM cycle; 48 bits; 12 R410; reset 0x200_0000_0000 -/
  inc : Nat
  /-- I term in 2^-16 ppb; 12 R417; reset 0 -/
  integ : Int
  /-- servo state; 3 bits; 12 R418; reset free -/
  st : ServoState
  /-- first sample of a pair at or above the step threshold; 12 R419; reset none -/
  first : Option Int
  /-- consecutive samples within the lock threshold; 12 R418; reset 0 -/
  good : Nat
  /-- W0 cycle of the last valid sample; 12 R422; reset 0 -/
  lastValid : Nat
  /-- last theta, ns; 32 bits; 18 WHL_OFFn; reset 0 -/
  theta : Int
  /-- steps in this start; 16 bits saturating; 18 WHL_STATEn; reset 0 -/
  steps : Nat
  /-- discarded samples; 32 bits saturating; 12 R419; reset 0 -/
  disc : Word
  deriving DecidableEq, Repr

/-- The distance whorl (12_whorls.md R445 to R449). -/
structure W6 where
  /-- position in 2^-16 um; 64 bits signed; 12 R445; reset 0 -/
  pos : Int
  /-- steps that decoded edges added, newest first, with their W0 cycle, over the last 10 s; 12 R447; reset none -/
  moves : List (Nat × Int)
  /-- odometer errors; 32 bits; 12 R446; reset 0 -/
  errs : Word
  /-- W0 cycles of the last errors, newest first, at most 16; 12 R446; reset none -/
  errTimes : List Nat
  /-- W6 at the last ODO_Z edge; 12 R446; reset 0 -/
  z : Int
  /-- ODO_Z count; 32 bits; 12 R446; reset 0 -/
  index : Word
  /-- filtered levels of ODO_A and ODO_B; 1 bit each; 12 R445; reset DESIGN CHOICE false (log 2) -/
  a : Bool
  b : Bool
  deriving DecidableEq, Repr

/-- The phase whorl (12_whorls.md R450, R451). -/
structure W7 where
  /-- phase; 32 bits, 2^-32 turn; 12 R450; reset 0 -/
  phase : Word
  /-- turn count; 32 bits; 12 R450; reset 0 -/
  turn : Word
  /-- period in use, ns; 12 R450; reset 0, then the image's nominal period -/
  period : Nat
  /-- locked; 1 bit; 12 R451; reset false -/
  locked : Bool
  /-- running at the last period after a loss of lock; 1 bit; 12 R451; reset false -/
  coasting : Bool
  /-- consecutive events within 1/64 turn; 12 R451; reset 0 -/
  good : Nat
  /-- W0 cycle of the last source event; 12 R451; reset none -/
  lastEvent : Option Nat
  /-- period held by WHL_W7_FWPER; 32 bits; 18 WHL; reset 0 -/
  held : Word
  /-- I term of the phase servo (log 9); 12 R450; reset 0 -/
  integ : Int
  deriving DecidableEq, Repr

/-- One entry of the scheduled-action queue (12_whorls.md R437). -/
structure SaqEntry where
  whorl : Nat
  /-- due in ns on the whorl -/
  due : Int
  period : Nat
  absolute : Bool
  /-- 0 FIRE, 1 SKIP, 2 NEXT -/
  policy : Nat
  action : Nat
  arg0 : Word
  arg1 : Word
  arg2 : Word
  lateness : Nat
  lateCount : Nat
  deriving DecidableEq, Repr

/-- The SAQ registers of one master (18_registers.md R594). -/
structure SaqRegs where
  sel : Word
  ctrl : Word
  dueLo : Word
  dueHi : Word
  dueNs : Word
  periodLo : Word
  periodHi : Word
  arg0 : Word
  arg1 : Word
  arg2 : Word
  lateness : Word
  lateCount : Word
  deriving DecidableEq, Repr

/-- SAQ registers at reset (18_registers.md R590). -/
def SaqRegs.reset : SaqRegs := ⟨0, 0, 0, 0, 0, 0, 0, 0, 0, 0, 0, 0⟩

/-- One entry of a transmit timestamp queue (12_whorls.md R427): message type, sequenceId, time. -/
structure TsEntry where
  mtype : Nat
  seqId : Half
  time : WhorlTime
  deriving DecidableEq, Repr

/-- The PTP port (12_whorls.md R425 to R429; 18_registers.md ETH). -/
structure Ptp where
  /-- selected master; 12 R425; reset none -/
  master : Option PtpAnnounce
  /-- the Ethernet port is stopped (R113 step 6); reset false -/
  stopped : Bool
  /-- sequenceId of the Sync awaiting its Follow_Up, its receive time (ns, W1) and correction; 12 R425; reset none -/
  sync : Option (Half × Int × Int)
  /-- Delay_Req or Pdelay_Req sent: sequenceId and transmit time (ns, W1); none when the timestamp was lost; 12 R427; reset none -/
  delayReq : Option (Half × Option Int)
  /-- Pdelay_Resp received: sequenceId, receive time t4, t2, correction; 12 R425; reset none -/
  pdResp : Option (Half × Int × Int × Int)
  /-- t2 - t1 of the last Sync, for the end-to-end delay; 12 R425; reset none -/
  lastSync : Option (Int × Int)
  /-- mean path delay, ns; 12 R425; reset none -/
  delay : Option Int
  /-- Sync intervals since the delay was measured; 12 R429; reset 0 -/
  delayAge : Nat
  /-- next sequenceId of requests; 16 bits; reset 0 -/
  nextSeq : Half
  /-- timestamp queue, oldest first, at most 16; 12 R427; reset empty -/
  tsq : List TsEntry
  /-- sticky overflow of the queue; 12 R427; reset false -/
  tsqOvf : Bool
  /-- counters: Announce, Sync, Follow_Up, delay responses, Pdelay_Req answered, discarded; 32 bits each; 18 ETH_PTP; reset 0 -/
  counts : Vector Word 6
  /-- PTP messages sent, newest first: type code, sequenceId, stamp; 12 R425; reset none (log 7) -/
  sent : List (Nat × Half × Int)
  deriving DecidableEq, Repr

/-- Time bases (12_whorls.md). -/
structure Whl where
  /-- TIM cycles since the TIM domain left reset: W0 = 2 ns x tim; 12 R412; reset 0 -/
  tim : Nat
  /-- W1 to W5; 12 R413; reset as Servo -/
  servo : Vector Servo 5
  /-- parameters in force; 12 R414, R416; reset the defaults of R416 -/
  cfg : TimeCfg
  /-- WHL_SNAP0 to 5: four words each; 24 x 32 bits; 12 R411; reset 0 -/
  snap : List Word
  /-- WHL_SNAP6 and WHL_SNAP7; 64 bits each; 12 R411; reset 0 -/
  snap6 : DWord
  snap7 : DWord
  w6 : W6
  w7 : W7
  /-- quality code of the origin in the ring time message in use; 8 bits; 12 R422; reset 0x20 -/
  originQuality : Nat
  /-- scheduled-action entries; 256; 12 R437; reset none -/
  saq : Vector (Option SaqEntry) 256
  /-- SAQ registers, one set per master (core 0 to 3, DMA, JTAG, I2C, Ethernet, ring); 18 R594; reset 0 -/
  saqRegs : Vector SaqRegs 9
  /-- WHL_SAQ_RESULT, one for all masters; 32 bits; 18 R594; reset 0 -/
  saqResult : Word
  /-- W0 cycles at which TRIG_IN edges arrived, per input, newest first, last one; 05 R170; reset none -/
  trigIn : Vector (Option Nat) 4
  ptp : Ptp
  deriving DecidableEq, Repr

end Sys2Proof.Machine
end

