-- ==== Sys2Proof/Machine/TypesData.lean ====
section
/-! DEFINITION. State of the spindle array, the output streams, the bobbin pool, the frame store and the ply
link (spec/07, 09, 11). -/

namespace Sys2Proof.Machine

/-- Spindle states with their codes of 07_spindle_array.md R230. -/
inductive SpinState where
  | working
  | spare
  | quarantined
  | held
  | retired
  deriving DecidableEq, Repr

/-- R230 code. -/
def SpinState.code : SpinState → Nat
  | .working => 0 | .spare => 1 | .quarantined => 2 | .held => 3 | .retired => 4

/-- What a spindle runs: stream, output frame key, tile index, shadow copy or not. -/
structure Job where
  stream : StreamNo
  key : Nat
  tile : Nat
  shadow : Bool
  start : Nat
  deriving DecidableEq, Repr

/-- One spindle (07_spindle_array.md R228 to R230, R635). -/
structure Spindle where
  /-- R230 state; 3 bits; reset working (assigned under R256) -/
  st : SpinState
  /-- LAST_TRAP; 4 bits; 07 R635; reset 0 -/
  lastTrap : Nat
  /-- QUARANTINES; 8 bits saturating; 07 R635; reset 0 -/
  quarantines : Nat
  /-- running job; 07 R229; reset none -/
  job : Option Job
  /-- W0 cycle since which it is idle; 07 R239; reset 0 -/
  idleSince : Nat
  deriving DecidableEq, Repr

/-- State of a tile (07_spindle_array.md R232 to R252). -/
inductive TileSt where
  | waiting
  | ready
  | running
  /-- original complete, shadow copy still running (R245) -/
  | heldForShadow
  | complete
  | substituted
  | filled
  deriving DecidableEq, Repr

/-- A tile of an output frame. -/
structure Tile where
  st : TileSt
  /-- re-run already (R246) -/
  rerun : Bool
  /-- has a shadow copy that still counts (R244) -/
  shadowed : Bool
  /-- output bytes of the first copy complete: main plane and IR plane lines, in output order (R245) -/
  first : Option (List Byte)
  /-- spindle that computed it -/
  firstBy : Option SpindleNo
  /-- the other copy trapped (R245) -/
  otherTrapped : Bool
  deriving DecidableEq, Repr

/-- The fields of a metadata record that vary (11_ply_link.md R383). -/
structure Rec where
  st : Nat
  strand : Nat
  layout : Nat
  num : Word
  sourceNum : Word
  capture : WhorlTime
  whorl : Nat
  quality : Nat
  alive : Half
  flags : Word
  exposures : List Exposure
  subst : Nat
  w6 : Int
  deriving DecidableEq, Repr

/-- An output frame being formed or delivered (07 R231, R253; 11 R382). -/
structure OutFrame where
  /-- key of the frame within its stream -/
  key : Nat
  layout : Nat
  /-- slot 0 source frame number -/
  num : Word
  /-- source strands with the frame numbers read -/
  sources : List (Nat × Word)
  tiles : List Tile
  /-- release time per released band; W0 cycles; 07 R232 -/
  released : List Nat
  /-- hand-over time H per released band; 07 R233 -/
  deadlines : List Nat
  /-- bands handed over; 07 R233 -/
  handed : Nat
  /-- crossed the repeat threshold; 07 R250 -/
  repeated : Bool
  /-- a tile was substituted before the threshold; 07 R251 -/
  substituted : Bool
  spareLow : Bool
  switched : Bool
  degraded : Bool
  /-- output ring slot; 09 R332 -/
  ringSlot : Nat
  /-- CRC register input: payload bytes of the video lines sent, with padding; 11 R385 -/
  sentLines : List Byte
  /-- local tone map accumulation: sum and count per cell; 08 R287 -/
  ltmAcc : List (Nat × Nat)
  /-- local tone map gains of the frame, per cell; 08 R288 -/
  gains : List Nat
  /-- a source frame is its strand's first valid frame; 08 R296 -/
  firstValid : Bool
  /-- the record of the opening issue, from which the closing issue differs only as R17 allows; 01 R17, R18 -/
  opened : Option Rec
  /-- its slot is lost to a link that is down; 11 R388, R409 -/
  lost : Bool
  deriving DecidableEq, Repr

/-- The previous delivered frame of a stream (07_spindle_array.md R249, R251, R252; 11 R391). -/
structure PrevFrame where
  num : Word
  sourceNum : Word
  width : Nat
  height : Nat
  format : Nat
  tileW : Nat
  tileH : Nat
  irPlane : Bool
  ringSlot : Nat
  /-- tiles substituted or filled in it, by index -/
  notOwn : List Nat
  /-- it was a repeat: none of its tiles was computed from a source of its own; 08 R296 -/
  repeated : Bool
  capture : WhorlTime
  whorl : Nat
  quality : Nat
  w6 : Int
  exposures : List Exposure
  flags : Word
  /-- local tone map accumulation and gains of that frame; 08 R288 -/
  ltmAcc : List (Nat × Nat)
  gains : List Nat
  deriving DecidableEq, Repr

/-- One output stream (11_ply_link.md R388 to R391; 07). -/
structure Stream where
  /-- frames being formed or delivered, oldest first; reset none -/
  frames : List OutFrame
  prev : Option PrevFrame
  /-- alive counter; 16 bits; 11 R388; reset 0 -/
  alive : Half
  /-- a frame slot has been counted since reset; 11 R388; reset false -/
  counted : Bool
  /-- a source frame was delivered since the start: the WARMING cadence has ended; 03 R91; reset false -/
  live : Bool
  /-- W0 cycle of the last frame start or repeat slot; 11 R391; reset none -/
  slotAt : Option Nat
  /-- next frame key; reset 0 -/
  nextKey : Nat
  /-- the stream's first frame after a renegotiation is still to come; 11 R394; reset false -/
  afterReneg : Bool
  deriving DecidableEq, Repr

/-- The spindle scheduler (07_spindle_array.md; 18 SPN). -/
structure Spn where
  spindles : Vector Spindle 64
  /-- ordinary tiles dispatched, for the count of 64; 07 R244; reset 0 -/
  dispatched : Nat
  /-- skipped shadow copies; 32 bits; 07 R244; reset 0 -/
  skipped : Word
  /-- DEADLINE failures; 32 bits; 07 R241; reset 0 -/
  deadlines : Word
  /-- substitutions; 32 bits; 07 R249; reset 0 -/
  substitutions : Word
  /-- fills; 32 bits; 07 R249; reset 0 -/
  fills : Word
  /-- promotions owed; 07 R260; reset 0 -/
  owed : Nat
  /-- SPA and SPB clocks in MHz; 16 R567; reset 1000 -/
  spa : Nat
  spb : Nat
  deriving DecidableEq, Repr

/-- A committed packet of a pool queue (09_bobbin_pool_frame_store.md R305, R307). -/
structure Pkt where
  len : Nat
  data : List Byte
  /-- the abandon marker of R221 -/
  marker : Bool
  /-- cursors that have still to pass it: 0 core 0 or the register cursor, 1 the doffer, 3 the spindles (R306, R307). The
  frame-store writer passes a line packet in the command that commits it (log 25) -/
  readers : List Nat
  /-- bytes the register cursor has popped -/
  popped : Nat
  /-- its number in the order of commits to the pool, on which the place of its cells depends (log 47) -/
  serial : Nat
  /-- what it holds: frame number and row of a line packet, output frame key and index of a tile packet, else 0 -/
  frame : Nat
  unit : Nat
  deriving DecidableEq, Repr

/-- An entry of the link table (09_bobbin_pool_frame_store.md R305): index of the next cell (17 bits), last-cell flag, byte count
(9 bits). -/
structure LinkEntry where
  next : Nat
  last : Bool
  count : Nat
  deriving DecidableEq, Repr

/-- One queue of the bobbin pool (09 R306 to R319). -/
structure PoolQ where
  pkts : List Pkt
  /-- credit in cells; 09 R309 -/
  credit : Nat
  /-- committed-packet count; 32 bits; 09 R317 -/
  commits : Word
  /-- credit exhaustions; 32 bits; 09 R313 -/
  exhausted : Word
  /-- last value popped; 09 R322 -/
  lastPop : Word
  underrun : Bool
  bound : Bool
  /-- drops on an empty queue; 09 R319 -/
  emptyDrops : Word
  deriving DecidableEq, Repr

/-- A queue never used: everything zero (09 R309, R321). -/
def PoolQ.empty : PoolQ := ⟨[], 0, 0, 0, 0, false, false, 0⟩

/-- The bobbin pool (09_bobbin_pool_frame_store.md). -/
structure Bob where
  /-- queues in use, by number, ascending; 09 R306; reset all empty -/
  queues : List (Nat × PoolQ)
  /-- BOB_QSEL; 9 bits; 09 Register-level consumers; reset 0 -/
  qsel : Word
  /-- cells neither on the free list nor reachable from a queue; 09 R325; reset 0 -/
  leaked : Nat
  /-- BOB_ERR; 32 bits; 09 R324; reset 0 -/
  err : Word
  /-- packets committed so far; reset 0 (the model's own) -/
  serial : Nat
  /-- packets committed before it belong to a layout before the active one; 09 R312; reset 0 (the model's own) -/
  mark : Nat
  /-- statistics and hank packets the doffer dropped for an uncorrectable error; 32 bits; 09 R324; reset 0 (the model's own count) -/
  dropped : Word
  /-- cell bytes written through the window in Production Test, by offset; 09 R323; reset none -/
  poked : List (Nat × Byte)
  deriving DecidableEq, Repr

/-- The frame-store controllers (09 R326 to R337). -/
structure Fst where
  /-- GiB fitted per channel; 09 R326; reset DESIGN CHOICE 0 until trained (log 6) -/
  gib : Nat
  /-- every channel trained; 09 R328; reset false -/
  trained : Bool
  /-- FST_WIN_BANK; 3 bits; 09 R327; reset 0 -/
  bank : Nat
  /-- FST_RSEL; 32 bits; 18 FST; reset 0 -/
  rsel : Word
  /-- ring bases: strand n at n, stream at 64 + id; usable addresses; 09 R329; reset none -/
  bases : List (Nat × Nat)
  /-- corrected and uncorrectable counts, FS0 then FS1; 4 x 32 bits; 09 R335, 18 FST; reset 0 -/
  ecc : Vector Word 4
  /-- completed patrol passes; 32 bits; 09 R336; reset 0 -/
  passes : Word
  /-- the refresh rate is raised; 09 R337; reset false (log 31) -/
  hot : Bool
  deriving DecidableEq, Repr

/-- PLY_STATUS STATE codes (18_registers.md). -/
inductive PlyState where
  | down
  | training
  | up
  | replay
  | reneg
  | test
  deriving DecidableEq, Repr

/-- PLY_STATUS STATE code. -/
def PlyState.code : PlyState → Nat
  | .down => 0 | .training => 1 | .up => 2 | .replay => 3 | .reneg => 4 | .test => 5

/-- A packet waiting in the doffer (11_ply_link.md R380, R389). -/
structure OutPkt where
  /-- class 1, 2 or 4 of R389; statistics and hank packets wait in the pool -/
  cls : Nat
  /-- hand-over time, for class 2 -/
  h : Nat
  priority : Nat
  ptype : Nat
  id : Nat
  line : Nat
  payload : List Byte
  /-- key of the stream's output frame -/
  key : Nat
  deriving DecidableEq, Repr

/-- What the DV1664 puts on the forward lanes (11_ply_link.md R371, R377), for the transmit log. -/
inductive PlySym where
  | ts1 (mask : Byte)
  | ts2 (mask : Byte)
  | restripe (mask : Byte) (seq : BitVec 24)
  | marker (count phase : Nat)
  | skip (lane : Nat)
  | block (bytes : List Byte)
  | idle
  deriving DecidableEq, Repr

/-- The ply link and the doffer (11_ply_link.md; 18 PLY status). -/
structure Ply where
  /-- STATE; 3 bits; 18 PLY_STATUS; reset down -/
  st : PlyState
  /-- rate code in use; 3 bits; 11 R370; reset 0 -/
  rate : Nat
  /-- configured lane count; 4 bits; 11 R369; reset 0 -/
  count : Nat
  /-- lane map; 8 bits; 18 PLY_LANES; reset 0 -/
  map : Byte
  /-- up mask of the latest LANE_STATUS; 8 bits; 11 R407; reset 0 -/
  up : Byte
  /-- locked mask of the latest LANE_STATUS; 8 bits; reset 0 -/
  lockedMask : Byte
  /-- lanes retraining; 8 bits; 11 R408; reset 0 -/
  retraining : Byte
  /-- failed attempts of step 2 to 4; 11 R376; reset 0 -/
  attempts : Nat
  /-- a LANE_STATUS with a locked mask came (step 2 of R374); reset false -/
  gotLock : Bool
  /-- newest block sent and its successor; 24 bits; 11 R378; reset 0 -/
  nextSeq : BitVec 24
  /-- last block acknowledged; 24 bits; 11 R401; reset 0xFF_FFFF (none; reads PLY_SEQ_ACK, DESIGN CHOICE log 2) -/
  acked : BitVec 24
  /-- replay buffer: unacknowledged blocks, oldest first, sequence and bytes; 11 R401; reset empty -/
  buffer : List (BitVec 24 × List Byte)
  /-- blocks of the replay in progress still to resend; 11 R402; reset none -/
  resend : List (BitVec 24 × List Byte)
  /-- block that was newest when the current replay started; 11 R404; reset none -/
  replayTop : Option (BitVec 24)
  /-- consecutive replays; 3 bits; 11 R404; reset 0 -/
  replayRun : Nat
  /-- PLY_DOWN_REASON; 8 bytes; 18 PLY; reset 0 -/
  downReason : Vector Byte 8
  /-- PLY_REPLAYS, RENEGS, LANEDOWNS, STALLS, RL_DISCARDS; 5 x 32 bits; 18 PLY; reset 0 -/
  counts : Vector Word 5
  /-- shed row in force; 64 bits each; 11 R392; reset 0 -/
  shedStreams : DWord
  shedRec : DWord
  /-- shed row selected and not yet applied by the doffer, with the number of the decision; 01 R25, R27; reset none -/
  shedNext : Option (DWord × DWord × Word)
  /-- health packets sent; PLY_HEALTH_SEQ shows the last sequence; 32 bits; 11 R396, 18; reset 0 -/
  healthSeq : Nat
  /-- exposure results for the health packet, oldest first: strand, code, named, reported; 11 R396; reset none -/
  results : List (Nat × Byte × Word × Word)
  /-- packets ready in the doffer, in order of arrival; 11 R389; reset none -/
  queue : List OutPkt
  /-- bytes of the packet in progress not yet sent; 11 R380; reset none -/
  rest : List Byte
  /-- next hank lane of the round robin; 11 R389; reset 0 -/
  hankTurn : Nat
  /-- marker count; 8 bits; 11 R372; reset 0 -/
  markers : Byte
  /-- a stall is under way; 11 R401; reset false -/
  stalled : Bool
  /-- what left on the forward lanes, newest first; reset none (log 7) -/
  sent : List PlySym
  deriving DecidableEq, Repr

end Sys2Proof.Machine
end

