-- ==== Sys2Proof/Machine/TypesUnits.lean ====
section
/-! DEFINITION. State of the skein ring, the sense converters, the management DMA, the check units, the hank
compressor, the ageing monitors, the test functions and the JTAG port (spec/10, 13, 14, 15, 16, 17, 19). -/

namespace Sys2Proof.Machine

/-- One ring port (13_skein_ring.md R458, R459). -/
structure RPort where
  /-- up; 1 bit; 13 R458; reset false -/
  up : Bool
  /-- equaliser coefficients reached; 13 R458; reset none -/
  coeffs : Option EqCoeffs
  /-- messages discarded on the port; 32 bits; 13 R460, R464; reset 0 -/
  discarded : Word
  /-- t1 of the outstanding LDLY_REQ, W0 ns; 13 R459; reset none -/
  ldlyT1 : Option Nat
  /-- last link delays, 2^-1 ns, newest first, at most 8; 13 R459; reset none -/
  delays : List Int
  /-- retraining attempts; 13 R458; reset 0 -/
  attempts : Nat
  /-- timestamp queue in queue mode, at most 16; 12 R433; reset empty -/
  tsq : List TsEntry
  /-- overflow of that queue; 12 R433; reset false -/
  tsqOvf : Bool
  deriving DecidableEq, Repr

/-- A transaction this device issued on the ring (13 R474, R478). -/
structure Txn where
  tag : Byte
  master : Master
  node : Half
  addr : Word
  len : Nat
  write : Bool
  posted : Bool
  single : Bool
  /-- its requester has received TIMEOUT or has aborted (R481) -/
  dead : Bool
  data : List Byte
  ringB : Bool
  /-- local burst it was cut from (R471) -/
  burst : Nat
  deriving DecidableEq, Repr

/-- An entry of the late-error queue (13 R479). -/
structure LateErr where
  tag : Byte
  code : BitVec 4
  detail : Byte
  master : Nat
  node : Half
  addr : Word
  ns : Word
  deriving DecidableEq, Repr

/-- The tally of a broadcast (13 R486). -/
structure Tally where
  reached : Nat
  acked : Nat
  lowest : Nat
  code : Nat
  detail : Nat
  missed : Nat
  deriving DecidableEq, Repr

/-- An empty tally (13 R486). -/
def Tally.empty : Tally := ⟨0, 0, 0xFFFFFFFF, 0, 0, 0⟩

/-- A sweep this device runs as a head (13 R484, R485): phase 0 east, 1 west, 2 ring B east, 3 ring B west. -/
structure HeadSweep where
  tag : Byte
  src : Half
  /-- the request came on ring B, and its answer leaves there (R464) -/
  onB : Bool
  scope : Nat
  addr : Word
  data : List Byte
  phase : Nat
  tally : Tally
  /-- the sweep serves a parent sweep held here (R485) -/
  forParent : Bool
  deriving DecidableEq, Repr

/-- The audit reference values (13 R494). -/
structure AuditRef where
  layout : Nat
  gen : Nat
  digest : DWord
  deriving DecidableEq, Repr

/-- The skein ring (13_skein_ring.md; 18 SKN). -/
@[ext] structure Skn where
  /-- SKN_WIN0 to 15; 16 x 32 bits; 13 R470; reset 0 -/
  win : Vector Word 16
  /-- pinned IDs in force since the start, 0xFFFF for auto; 16 bits each; 13 R456; reset 0xFFFF -/
  pins : Vector Half 2
  /-- node ID in force per ring; 16 bits; 13 R452, R466; reset none -/
  ids : Vector (Option Half) 2
  /-- the ring has been enumerated; 1 bit each; 13 R466; reset false -/
  enumd : Vector Bool 2
  /-- enumerated node count per ring; 9 bits; 13 R466; reset 0 -/
  count : Vector Nat 2
  /-- the device is a junction; 13 R453, R456; reset false -/
  junction : Bool
  /-- ports A east, A west, B east, B west; 13 R458 -/
  ports : Vector RPort 4
  /-- retimer tier seen in this start; 1 bit; 18 SKN_PORTS; reset false -/
  retimerSeen : Bool
  /-- outstanding transactions, oldest first; 13 R474; reset none -/
  txns : List Txn
  /-- number of the next local burst through a window; 13 R471; reset 0 (the model's own count) -/
  nextBurst : Nat
  /-- transactions stalled behind the limit of 32; 13 R474; reset none -/
  stalled : List Txn
  /-- late-error queue, oldest first, at most 16; 13 R479; reset empty -/
  leq : List LateErr
  /-- UNDERRUN, OVERFLOW of SKN_LEQ_STAT; 1 bit each; 18; reset false -/
  leqUnder : Bool
  leqOvf : Bool
  /-- DISCARDED of SKN_LEQ_STAT; 16 bits; 18; reset 0 -/
  leqDiscarded : Nat
  /-- last word popped from SKN_LEQ3; 32 bits; 09 R322; reset 0 -/
  leqLast : Word
  /-- failed posted writes since the last fence, per master; 16 bits; 13 R480; reset 0 -/
  postedFails : List (Master × Nat)
  /-- masters whose SKN_FENCE read waits; 13 R480; reset none -/
  fences : List Master
  /-- posted acknowledgements and late errors after TIMEOUT; 13 R478; reset 0 -/
  strays : Word
  /-- SKN_RESCUE: VALID, OVERFLOW, count, node, address, byte count, data; 13 R481; reset 0 -/
  rescueValid : Bool
  rescueOvf : Bool
  rescueCount : Nat
  rescueNode : Half
  rescueAddr : Word
  rescueLen : Nat
  rescueData : DWord
  /-- SKN_SERVED: source, tag, address, data, newest first, at most 4; 13 R482; reset none -/
  served : List (Half × Byte × Word × DWord)
  /-- SKN_BC_DEST, ADDR, LEN; 32 bits each; 18; reset 0 -/
  bcDest : Word
  bcAddr : Word
  bcLen : Word
  /-- SKN_BC_DATA; 64 x 32 bits; 18; reset 0 -/
  bcData : Vector Word 64
  bcBusy : Bool
  bcDone : Bool
  bcTimeout : Bool
  /-- GO writes ignored while BUSY; 18 R597; reset 0 -/
  bcIgnored : Word
  /-- SKN_BC_RESULT; 16 bytes; 13 R486; reset the empty tally -/
  bcResult : Tally
  /-- BCAST_REQ that wait in the inbound queue while a sweep runs, oldest first, at most 64; 13 R474, R484; reset none -/
  bcWaiting : List RingMsg
  /-- tag of the broadcast in flight; reset 0 -/
  bcTag : Byte
  /-- pairs of source and tag whose write was executed, newest first; 13 R484; reset none -/
  executed : List (Half × Byte)
  /-- sweep run as head; 13 R484; reset none -/
  sweep : Option HeadSweep
  /-- parent sweep held while the child segment is swept; 13 R485; reset none -/
  parentHeld : Option RingMsg
  /-- words of SKN_LSTAGE and SKN_LACT written since the last judgement, by word index; 18 R596; reset none -/
  lstage : List (Nat × Word)
  lact : List (Nat × Word)
  /-- lap number of the next lap; 32 bits; 13 R492; reset 0 -/
  lap : Nat
  /-- the token of this head's lap is out: sweep phase; 13 R491; reset none -/
  lapPhase : Option Nat
  /-- last completed lap of this head and its W0 cycle; 13 R495, R498; reset none -/
  lapDone : Option (Nat × AuditToken)
  /-- references of the last parent token; 13 R494; reset none -/
  parentRef : Option AuditRef
  /-- laps whose token this node has been counted in, per ring: segment and lap; 13 R493; reset none -/
  lapSeen : List (Nat × Nat)
  /-- the layout differed in the previous lap; 13 R493; reset false -/
  layoutDiffered : Bool
  /-- TIME sequence of the next origination; 32 bits; 13 R468; reset 0 -/
  timeSeq : Nat
  /-- originator followed: node ID, sequence, hops and port of the best copy; 13 R469, 12 R431; reset none -/
  follow : Option (Half × Nat × Nat × Fin 4)
  /-- LAST lap or port change requires an ENUM within 10 ms, per ring; 13 R466; reset false -/
  enumDue : Vector Bool 2
  /-- ring and Ethernet ports stopped at step 6 of R113; reset false -/
  stopped : Bool
  /-- messages this device put on a port, newest first: port code, message; 13 R462; reset none (log 7) -/
  sent : List (Fin 4 × RingMsg)
  deriving DecidableEq, Repr

/-- One sense converter (14_sense.md R500 to R509). -/
structure Conv where
  /-- settings in force: mode, locked to W7, k, fixed period, scan list; 14 R500; reset 0, then image -/
  cfg : ConvCfg
  /-- settings written during a conversion, in force at the next; 14 R507; reset none -/
  next : Option ConvCfg
  /-- SNS_SCANn as written, with the bytes beyond the scan count; 64 bits; 14 R500; reset DESIGN CHOICE all ones (log 2), then image -/
  scanRaw : DWord
  /-- a pass or continuous run is under way; 14 R504; reset false -/
  busy : Bool
  /-- position in the scan list; reset 0 -/
  idx : Nat
  /-- SETTLING conversions still due; 2 bits; 14 R506; reset 0 -/
  settle : Nat
  /-- input, gain and pull of the last conversion, none after mode 0; 14 R506; reset none -/
  last : Option (Nat × Nat × Nat)
  /-- SNS_RESn word; 32 bits; 14 R508; reset 0 -/
  res : Word
  /-- W0 ns at the end of integration of that result; 14 R509; reset 0 -/
  resTime : Nat
  /-- W0 ns of the crossing that started the pass of that result; 14 R509; reset none -/
  resCross : Option Nat
  /-- SNS_TSn and SNS_CTSn as latched, W0 ns; 14 R509; reset 0 -/
  ts : Nat
  cts : Nat
  /-- SNS_DMAn_NS; 32 bits; 18; reset 0 -/
  dmaNs : Word
  /-- crossing that started the present pass, W0 ns; reset none -/
  cross : Option Nat
  /-- ignored starts; 16 bits; 14 R505; reset 0 -/
  ignored : Nat
  /-- a conversion integrates: W7 turn events since its start, none while it waits for a turn to start; 14 R503; reset none -/
  integ : Option Nat
  /-- period source, k and fixed period of the last conversion; 14 R506; reset zero -/
  lastPeriod : Bool × Nat × Nat
  deriving DecidableEq, Repr

/-- One sense input (14_sense.md R500, R510). -/
structure SenseIn where
  cfg : InputCfg
  /-- gain, pull written during a conversion; 14 R507 -/
  next : Option InputCfg
  /-- above the upper threshold; 1 bit; 18 SNS_ABOVE; reset false -/
  above : Bool
  /-- below the lower threshold; 1 bit; 18 SNS_BELOW; reset false -/
  below : Bool
  deriving DecidableEq, Repr

/-- Sense converters and camera power supervision (14_sense.md). -/
structure Sns where
  conv : Vector Conv 4
  inp : Vector SenseIn 24
  /-- SNS_TRIP; 16 bits; 14 R513; reset 0 -/
  trip : BitVec 16
  /-- SNS_TRIPCNT, trips in this start; 16 x 2 bits; 14 R515; reset 0 -/
  trips : Vector Nat 16
  /-- W0 cycle of the last rising edge of POC_EN[n]; 14 R514; reset none -/
  pocRise : Vector (Option Nat) 16
  /-- the 1 ms blanking that the edge started has not ended; 16 bits; 14 R514; reset 0 -/
  blanked : BitVec 16
  deriving DecidableEq, Repr

/-- DMA channel states with their codes of 15_dma_check_units.md R519. -/
inductive DmaState where
  | idle
  | armed
  | active
  | halted
  deriving DecidableEq, Repr

/-- R519 STATE code. -/
def DmaState.code : DmaState → Nat
  | .idle => 0 | .armed => 1 | .active => 2 | .halted => 3

/-- One DMA channel (15_dma_check_units.md R517 to R519). -/
structure Chan where
  src : Word
  dst : Word
  len : Word
  ctrl : Word
  err : Bool
  done : Bool
  code : Nat
  backward : Bool
  dir : Bool
  st : DmaState
  remain : Nat
  errAddr : Word
  /-- bytes of the transfer moved so far -/
  moved : Nat
  /-- a service of the channel is under way -/
  inService : Bool
  /-- element read from a side-effect region whose write is not yet issued: address, bytes; R530 -/
  element : Option (Word × List Byte)
  deriving DecidableEq, Repr

/-- The management DMA (15_dma_check_units.md). -/
structure Dma where
  ch : Vector Chan 8
  /-- DMA_RESCUE: VALID, OVERFLOW, CHANNEL, COUNT, ADDR, DATA; 15 R531; reset 0 -/
  rescueValid : Bool
  rescueOvf : Bool
  rescueCh : Nat
  rescueCount : Nat
  rescueAddr : Word
  rescueData : DWord
  /-- RESCUE_OVF and START_IGN of DMA_ERRSUM; 16 bits each; 18; reset 0 -/
  ovfCount : Nat
  startIgn : Nat
  /-- channel in service; 15 R522; reset none -/
  serving : Option (Fin 8)
  /-- core events raised, newest first: core, channel, error; 15 R527; reset none -/
  events : List (Nat × Nat × Bool)
  deriving DecidableEq, Repr

/-- Parameters a check unit works with since its last restart (15 R534, R536). -/
structure ChkParams where
  w : Nat
  poly : DWord
  init : DWord
  xorOut : DWord
  refIn : Bool
  refOut : Bool
  alive : Bool
  gap : Nat
  deriving DecidableEq, Repr

/-- One check unit (15_dma_check_units.md; 18 CHK). -/
structure ChkUnit where
  /-- CHK_CFGn; 32 bits; 18; reset 0, then the binding's -/
  cfg : Word
  poly : DWord
  init : DWord
  xorOut : DWord
  /-- parameters since the last restart; 15 R534; reset W 0 (rejects nothing, feeds nothing) -/
  act : ChkParams
  /-- CRC register; up to 64 bits; 15 R534; reset 0 -/
  reg : DWord
  /-- last alive value; up to 32 bits; 15 R540; reset 0 -/
  last : DWord
  baseline : Bool
  lost : Nat
  repeats : Nat
  errors : Nat
  config : Bool
  foreign : Bool
  /-- CHK_BINDn: user in the encoding of R537, preset applied; 8 and 4 bits; 18; reset 0xFF and 0 -/
  user : Nat
  preset : Nat
  deriving DecidableEq, Repr

/-- A frame a hank lane is compressing (10_hank_compressor.md R344). -/
structure HankFrame where
  strand : StrandNo
  frame : Word
  /-- the residual stream -/
  bytes : List Byte
  /-- input offset of the next hank -/
  offset : Nat
  /-- end of the range that is re-emitted as STORED hanks, 0 for none; R360 -/
  storedTo : Nat
  /-- input bytes that earlier hanks carry of the DEFLATE block still open; R349, R351 -/
  blockUsed : Nat
  /-- the frame opens with an entry hank, which carries RESTART; R355, R356 -/
  entry : Bool
  restart : Bool
  formatFault : Bool
  capSec : Nat
  capNs : Nat
  deriving DecidableEq, Repr

/-- One hank lane (10_hank_compressor.md R339, R361). -/
structure HankLane where
  /-- strands assigned; 10 R340; reset none -/
  strands : List Nat
  /-- suspect count; 10 R361; reset 0 -/
  suspect : Nat
  /-- consecutive mismatches; 10 R361; reset 0 -/
  mismatches : Nat
  quarantined : Bool
  /-- losses; 10 R363; reset 0 -/
  losses : Nat
  /-- frame in progress; 10 R366; reset none -/
  cur : Option HankFrame
  deriving DecidableEq, Repr

/-- The record state of one strand (10_hank_compressor.md R348, R354 to R357). -/
structure HankStrand where
  /-- history of the segment, oldest first, at most 32,768 bytes; 10 R348; reset empty -/
  window : List Byte
  /-- next hank sequence; 32 bits; 10 R354; reset 0 -/
  seq : Nat
  /-- recorded frames since the last entry hank, that frame included; 10 R356; reset 0 -/
  count : Nat
  /-- the next frame must open with an entry hank; 10 R356; reset true -/
  needEntry : Bool
  /-- that entry hank carries RESTART; 10 R355; reset false -/
  restart : Bool
  /-- closed frames that wait for their lane: close time, frame number; 10 R366; reset none -/
  waiting : List (Nat × Word)
  /-- lane that compresses the strand's frames of a layout, by layout ID; 10 R340, R342; reset none -/
  laneFor : List (Nat × Fin 4)
  /-- layouts whose first frame opens with an entry hank because the strand changed lane; 10 R342; reset none -/
  entryFor : List Nat
  /-- first frame after a relock, which opens with an entry hank; 03 R93; reset none -/
  entryAt : Option Word
  deriving DecidableEq, Repr

/-- The hank compressor (10_hank_compressor.md). -/
structure Hnk where
  lanes : Vector HankLane 4
  strands : Vector HankStrand 64
  /-- strands the arbiter holds in the shed set because no lane takes them; 10 R362; reset 0 -/
  unplaced : BitVec 64
  /-- withheld hanks; 32 bits; 10 R364; reset 0 (the model's own count) -/
  withheld : Word
  deriving DecidableEq, Repr

/-- Ageing monitors and AVS (16_guarantees_health_ageing.md R556, R561 to R569; 18 AGE). -/
structure Age where
  /-- present and highest temperature, 1/16 degree C; 12 each; 18 AGE_TEMPn; reset 0 -/
  temp : Vector Int 12
  tempMax : Vector Int 12
  /-- latest and lowest slack, 0.1 %; 80 each; 18 AGE_SLACKn; reset 0 -/
  slack : List Nat
  slackMin : List Nat
  /-- AVS target and readback, mV; 10 bits each; 18 AGE_AVS; reset 850 and 850 -/
  avsTarget : Nat
  avsRead : Nat
  avsOk : Bool
  avsRetry : Bool
  /-- the retry of the present target was used; 16 R556; reset false -/
  avsRetried : Bool
  /-- the retry of R556 has ended without the target; 19 R606; reset false -/
  avsEnded : Bool
  /-- a thermal sample, and a delay sample, were taken in this start; 18 AGE_TEMPn, AGE_SLACKn; reset false -/
  tempSeen : Bool
  slackSeen : Bool
  eyeBusy : Bool
  vminBusy : Bool
  /-- re-plan under way, with the cause bits 0 and 1 of R568; 16 R564; reset none -/
  replan : Option Nat
  /-- margin plan as this start read it: lane rates follow it; 16 R567, 04 R149; reset the plan of R565 defaults -/
  startPlan : Plan
  planPending : Bool
  /-- AGE_CTRL bits ignored; 18 R593; reset 0 -/
  ignored : Word
  /-- sums and minute counts of settled camera current codes of this month, per port; 16 R561, R563; reset 0 -/
  currents : List (Nat × Nat)
  /-- latest settled code of input n; 16 R561; reset none -/
  lastCode : List (Option Nat)
  deriving DecidableEq, Repr

/-- One lane under test (17_test.md R571 to R574). -/
structure TestLane where
  loop : BitVec 2
  pattern : BitVec 2
  invert : Bool
  chkEn : Bool
  genEn : Bool
  locked : Bool
  everLocked : Bool
  bits : Nat
  errs : Nat
  losses : Nat
  snapBits : Nat
  snapErrs : Nat
  snapLosses : Nat
  deriving DecidableEq, Repr

/-- The test functions (17_test.md). -/
structure Tst where
  lanes : Vector TestLane 30
  /-- TST_PAT_CTRL; 32 bits; 17 R579; reset 0 -/
  patCtrl : Word
  /-- TST_PAT_VALUE; 32 bits; 17 R578; reset 0 -/
  patValue : Word
  /-- TST_PAT_MASK; 64 bits; 17 R579; reset 0 -/
  patMask : DWord
  /-- pattern run in force: layout, pattern; 17 R579; reset none -/
  run : Option (Nat × Nat)
  /-- RUN writes ignored; 17 R579; reset 0 -/
  ignored : Word
  /-- BIST result per group: 0 none, 1 PASS, 2 FAIL, 3 RUNNING; 17 R582; reset 0 -/
  bist : Vector Nat 4
  /-- a self-test has run: no pattern or pixel traffic until a reset; 17 R582; reset false -/
  bistRan : Bool
  /-- return-lane check under way: pattern, duration ms; 17 R577; reset none -/
  rlCheck : Option (Nat × Nat)
  /-- ply lanes withdrawn by TEST_CTRL; 8 bits; 17 R577; reset 0 -/
  genLanes : Byte
  /-- skip sets sent per transmitter of R571; 30 counts; 04 R121; reset 0 (the model's own count, log 7) -/
  skips : Vector Nat 30
  deriving DecidableEq, Repr

/-- JTAG instructions (17_test.md R583). -/
inductive JtagIr where
  | bypass | idcode | sample | extest | extestPulse | extestTrain | clamp | highz | sysrst | ptest | memap
  deriving DecidableEq, Repr

/-- The JTAG port (17_test.md R583; 19 R620). -/
structure Jtag where
  /-- instruction; 17 R583; reset IDCODE (IEEE 1149.1, PRESUMED log 10) -/
  ir : JtagIr
  /-- selected data register: BYPASS bit, IDCODE word or boundary register; reset 0 -/
  dr : Word
  /-- boundary-scan update cells; 17 R583; reset none -/
  cells : List Bool
  /-- the pins are driven from the boundary cells (EXTEST family, CLAMP); reset false -/
  pinsFromCells : Bool
  /-- outputs at high impedance (HIGHZ); reset false -/
  highz : Bool
  deriving DecidableEq, Repr

end Sys2Proof.Machine
end

