-- ==== Sys2Proof/Machine/State.lean ====
section
/-! DEFINITION. The state of the DV1664 as plain data, its reset value, and the reasons a step can stop. -/

namespace Sys2Proof.Machine

/-- Reasons a step could stop with a fault: there is none. The spec gives every command of the block an effect and
every detected error a place in State (16_guarantees_health_ageing.md R551); nobody raises this type. Safe. -/
inductive Fault where
  deriving DecidableEq, Repr

/-- Reasons a step could be refused. -/
inductive Refusal where
  /-- the row of this mnemonic has no meaning in the model; raised by an arm of exec only. Safe. -/
  | notModelled (mnemonic : String)
  deriving DecidableEq, Repr

/-- The addressed memories, each a canonical list of cells. -/
@[ext] structure Mem where
  /-- the NVM; unlisted byte 0xFF (erased); 02 R43; reset nothing listed (blank part, log 6) -/
  nvm : List Host.Cell
  /-- frame store by usable address; unlisted byte 0x00 (log 5); 09 R327; reset nothing listed -/
  fs : List Host.Cell
  /-- control SRAM, 1 MiB; unlisted byte 0x00 (log 5); 18 R584; reset nothing listed -/
  sram : List Host.Cell
  /-- spindle local stores, 64 x 512 KiB; unlisted byte 0x00 (log 5); 07 R228; reset nothing listed -/
  stores : List Host.Cell
  /-- stage buffer, 32 KiB; unlisted byte 0x00 (log 5); 02 R76; reset nothing listed -/
  stage : List Host.Cell
  deriving DecidableEq, Repr

/-- Registers, queues, counters, modes and pins: everything but the memories and the command queue. -/
@[ext] structure Dev where
  /-- the model's own counter of free values taken; reset DESIGN CHOICE 0 (log 1) -/
  freeIdx : Nat
  /-- the model's own: TIM cycles that pass in an idle step; reset DESIGN CHOICE 1 (log 3) -/
  idleCycles : Nat
  aon : Aon
  pins : Pins
  sys : Sys
  pairs : Pairs
  bus : Bus
  jnl : Journal
  nvm : Nvm
  lay : LayoutCtx
  /-- the booted image; 02; reset none -/
  img : Option Image
  whl : Whl
  ports : Vector Port 16
  card : Vector Carding 16
  strands : Vector Strand 64
  spn : Spn
  streams : Vector Stream 64
  bob : Bob
  fst : Fst
  ply : Ply
  hnk : Hnk
  skn : Skn
  sns : Sns
  dma : Dma
  chk : Vector ChkUnit 24
  age : Age
  tst : Tst
  jtag : Jtag
  deriving DecidableEq, Repr

/-- The block: the queue of waiting commands, first in first out, its registers and its memories. -/
@[ext]
structure State where
  pending : List Instr
  dev : Dev
  mem : Mem
  deriving DecidableEq, Repr

/-- Power-on values of each group (18_registers.md R590 and the Reset columns; log 2 where none is given). -/
def Aon.reset : Aon :=
  { phase := .powerReset, cause := 1, bootSel := 0, i2ca := 0, refclk := false, tier := Vector.replicate 2 .bypass,
    fromBrownOut := false }

def Pins.reset : Pins :=
  { faultN := false, alertN := true, pocEn := 0, bypHold := Vector.replicate 2 false, trigOut := [], ppsOut := [] }

def Pair.zero (w : Nat) : Pair w := ⟨0, 0⟩

def Pairs.reset : Pairs :=
  { modeReq := Pair.zero 32, swrst := Pair.zero 32, nvmPin := Pair.zero 32, sknPinA := ⟨0xFFFF, 0xFFFF⟩,
    sknPinB := ⟨0xFFFF, 0xFFFF⟩, w6 := Pair.zero 64, win := Vector.replicate 24 (Pair.zero 32) }

def Sys.reset : Sys :=
  { mode := .standby, nolive := false, transition := none, reqCount := 0, result := 0, activeLayout := 0xFF,
    layoutReqResult := 0xFF, layoutReqId := 0, safeOff := false, shutdownStep := 0, cpairErr := 0, fault := 0,
    wdog := Vector.replicate 4 0, serviced := Vector.replicate 4 0, coreRun := Vector.replicate 4 false,
    coreRestarts := Vector.replicate 4 0, coreEvents := [], decision := 0, applied := 0, corrected := #v[0, 0], warmupStart := 0,
    laneStart := Vector.replicate 6 none }

def Bus.reset : Bus :=
  { hi := [], lo := [], groups := [], expFrame := [], lastErr := [], answer := none, readData := [], ringFail := none }

/-- The plan when none exists: the defaults of 16_guarantees_health_ageing.md R565. -/
def Plan.none : Plan :=
  { valid := false, number := 0, generation := 0, minutes := 0, spa := 1000, spb := 1000, avs := 850, vmin := 0,
    retired := 0, creelRates := List.replicate 16 0xFF, plyRate := 0xFF, cause := 0, slack := 0 }

def History.empty : History :=
  { minutes := 0, sincePlan := 0, starts := 0, brownOuts := 0, powerFails := 0, plyEvents := 0, memCe := 0,
    diagWrites := 0, hist := List.replicate 12 (List.replicate 16 0), stress := List.replicate 12 0,
    slack := List.replicate 80 (0, 0), eyes := List.replicate 22 (0, 0, 0, 0), currents := List.replicate 16 (0, 0),
    vmin := 0, vminBase := 0, vminWorst := 0, events := [], eventTotal := 0 }

def Journal.reset : Journal :=
  { pin := 0, nodes := Vector.replicate 2 0xFFFF, expSeeds := [], eqSeeds := [], plan := Plan.none,
    history := History.empty, log := [], logTotal := 0, logDropped := 0, unsaved := 0, seq := 0,
    slot := Vector.replicate 2 0, changed := false, due := none, lastSet := none, writing := none, erasing := [],
    held := false, closed := false }

def Nvm.reset : Nvm :=
  { sfdp := ⟨true, true, true⟩, mode := .single, profile := none, issued := [], sizeMiB := 64, booted := 0, codes := Vector.replicate 2 0xF, inactiveB := true, activeSeq := 0,
    status := .idle, offset := 0, session := none }

def LayoutCtx.reset : LayoutCtx :=
  { staged := none, pending := none, strand := Vector.replicate 64 none, stream := Vector.replicate 64 none }

def Servo.reset : Servo :=
  { acc := 0, epoch := 0, inc := 0x20000000000, integ := 0, st := .free, first := none, good := 0, lastValid := 0,
    theta := 0, steps := 0, disc := 0 }

def W6.reset : W6 :=
  { pos := 0, moves := [], errs := 0, errTimes := [], z := 0, index := 0, a := false, b := false }

def W7.reset : W7 :=
  { phase := 0, turn := 0, period := 0, locked := false, coasting := false, good := 0, lastEvent := none, held := 0,
    integ := 0 }

def Ptp.reset : Ptp :=
  { master := none, stopped := false, sync := none, delayReq := none, pdResp := none, lastSync := none,
    delay := none, delayAge := 0, nextSeq := 0, tsq := [], tsqOvf := false, counts := Vector.replicate 6 0,
    sent := [] }

def Whl.reset : Whl :=
  { tim := 0, servo := Vector.replicate 5 Servo.reset, cfg := TimeCfg.rom, snap := List.replicate 24 0, snap6 := 0,
    snap7 := 0, w6 := W6.reset, w7 := W7.reset, originQuality := 0x20, saq := Vector.replicate 256 none,
    saqRegs := Vector.replicate 9 SaqRegs.reset, saqResult := 0, trigIn := Vector.replicate 4 none, ptp := Ptp.reset }

def CrlErrs.zero : CrlErrs := ⟨0, 0, 0, 0, 0, 0, 0, 0, 0, 0, 0, 0, 0, 0⟩

def Port.reset : Port :=
  { step := .off, rate := 0, attempts := 0, seeded := true, working := none, startCoeffs := none, eyeH := 0,
    eyeV := 0, upAcked := false, lastSeq := none, errs := CrlErrs.zero, nextTag := 0, outstanding := [],
    queued := [], sent := [], resends := 0, late := 0, trigBusy := 0, syncT1 := none, offset := 0, delay := 0,
    trim := 0, syncAcked := false, locked := false, inited := false, gpio := (0, 0), head := (0, 0, 0),
    i2cData := [], elastic := 0, reqCtl := 0, reqTarget := 0, reqEntries := Vector.replicate 8 0, results := [],
    resultOvf := false, trainedSincePlan := false }

def Strand.reset : Strand :=
  { frameNo := 0, numbered := false, lostAt := none, starts := [], rowSpan := 0, windowless := true, frames := [],
    writeLog := [], applied := [], requested := [], pending := [], heldReqs := [], assembly := [],
    seeded := false, unconverged := true, written := false, writtenFrom := 0, warm := none, inited := false, live := false,
    lost := false, busy := none, shot := none, deferred := none, armed := [], withheld := 0, dropped := 0, disarmed := [], fired := [],
    committed := [], presetFlag := false, lastEpoch := 0, mismatches := 0 }

def Spindle.reset : Spindle := { st := .working, lastTrap := 0, quarantines := 0, job := none, idleSince := 0 }

def Spn.reset : Spn :=
  { spindles := Vector.replicate 64 Spindle.reset, dispatched := 0, skipped := 0, deadlines := 0,
    substitutions := 0, fills := 0, owed := 0, spa := 1000, spb := 1000 }

def Stream.reset : Stream :=
  { frames := [], prev := none, alive := 0, counted := false, live := false, slotAt := none, nextKey := 0,
    afterReneg := false }

def Bob.reset : Bob := { queues := [], qsel := 0, leaked := 0, err := 0, serial := 0, mark := 0, dropped := 0, poked := [] }

def Fst.reset : Fst :=
  { gib := 0, trained := false, bank := 0, rsel := 0, bases := [], ecc := Vector.replicate 4 0, passes := 0,
    hot := false }

def Ply.reset : Ply :=
  { st := .down, rate := 0, count := 0, map := 0, up := 0, lockedMask := 0, retraining := 0,
    attempts := 0, gotLock := false, nextSeq := 0, acked := 0xFFFFFF, buffer := [],
    resend := [], replayTop := none, replayRun := 0, downReason := Vector.replicate 8 0,
    counts := Vector.replicate 5 0, shedStreams := 0, shedRec := 0, shedNext := none,
    healthSeq := 0, results := [], queue := [], rest := [], hankTurn := 0, markers := 0, stalled := false,
    sent := [] }

def HankLane.reset : HankLane :=
  { strands := [], suspect := 0, mismatches := 0, quarantined := false, losses := 0, cur := none }

def HankStrand.reset : HankStrand :=
  { window := [], seq := 0, count := 0, needEntry := true, restart := false, waiting := [], laneFor := [],
    entryFor := [], entryAt := none }

def Hnk.reset : Hnk :=
  { lanes := Vector.replicate 4 HankLane.reset, strands := Vector.replicate 64 HankStrand.reset, unplaced := 0,
    withheld := 0 }

def RPort.reset : RPort :=
  { up := false, coeffs := none, discarded := 0, ldlyT1 := none, delays := [], attempts := 0, tsq := [],
    tsqOvf := false }

def Skn.reset : Skn :=
  { win := Vector.replicate 16 0, pins := Vector.replicate 2 0xFFFF, ids := Vector.replicate 2 none,
    enumd := Vector.replicate 2 false, count := Vector.replicate 2 0, junction := false,
    ports := Vector.replicate 4 RPort.reset, retimerSeen := false, txns := [], nextBurst := 0, stalled := [], leq := [],
    leqUnder := false, leqOvf := false, leqDiscarded := 0, leqLast := 0, postedFails := [], fences := [],
    strays := 0, rescueValid := false, rescueOvf := false, rescueCount := 0, rescueNode := 0, rescueAddr := 0,
    rescueLen := 0, rescueData := 0, served := [], bcDest := 0, bcAddr := 0, bcLen := 0,
    bcData := Vector.replicate 64 0, bcBusy := false, bcDone := false, bcTimeout := false, bcIgnored := 0,
    bcResult := Tally.empty, bcWaiting := [], bcTag := 0, executed := [], sweep := none, parentHeld := none, lstage := [],
    lact := [], lap := 0, lapPhase := none, lapDone := none, parentRef := none, lapSeen := [],
    layoutDiffered := false, timeSeq := 0, follow := none, enumDue := Vector.replicate 2 false, stopped := false,
    sent := [] }

def ConvCfg.off : ConvCfg := { mode := 0, lockedW7 := false, turns := 0, period := 0, scan := [] }

def InputCfg.off : InputCfg :=
  { kind := 0, gain := 0, pull := 0, actions := 0, lower := 0, upper := 0, startConv := 0, openThr := 0 }

def Conv.reset : Conv :=
  { cfg := ConvCfg.off, next := none, scanRaw := 0xFFFFFFFFFFFFFFFF, busy := false, idx := 0, settle := 0, last := none, res := 0, resTime := 0,
    resCross := none, ts := 0, cts := 0, dmaNs := 0, cross := none, ignored := 0, integ := none,
    lastPeriod := (false, 0, 0) }

def SenseIn.reset : SenseIn := { cfg := InputCfg.off, next := none, above := false, below := false }

def Sns.reset : Sns :=
  { conv := Vector.replicate 4 Conv.reset, inp := Vector.replicate 24 SenseIn.reset, trip := 0,
    trips := Vector.replicate 16 0, pocRise := Vector.replicate 16 none, blanked := 0 }

def Chan.reset : Chan :=
  { src := 0, dst := 0, len := 0, ctrl := 0, err := false, done := false, code := 0, backward := false,
    dir := false, st := .idle, remain := 0, errAddr := 0, moved := 0, inService := false, element := none }

def Dma.reset : Dma :=
  { ch := Vector.replicate 8 Chan.reset, rescueValid := false, rescueOvf := false, rescueCh := 0, rescueCount := 0,
    rescueAddr := 0, rescueData := 0, ovfCount := 0, startIgn := 0, serving := none, events := [] }

def ChkParams.zero : ChkParams :=
  { w := 0, poly := 0, init := 0, xorOut := 0, refIn := false, refOut := false, alive := false, gap := 0 }

def ChkUnit.reset : ChkUnit :=
  { cfg := 0, poly := 0, init := 0, xorOut := 0, act := ChkParams.zero, reg := 0, last := 0, baseline := false,
    lost := 0, repeats := 0, errors := 0, config := false, foreign := false, user := 0xFF, preset := 0 }

def Age.reset : Age :=
  { temp := Vector.replicate 12 0, tempMax := Vector.replicate 12 0, slack := List.replicate 80 0,
    slackMin := List.replicate 80 0, avsTarget := 850, avsRead := 850, avsOk := false, avsRetry := false,
    avsRetried := false, avsEnded := false, tempSeen := false, slackSeen := false, eyeBusy := false, vminBusy := false, replan := none, startPlan := Plan.none, planPending := false, ignored := 0,
    currents := List.replicate 16 (0, 0), lastCode := List.replicate 16 none }

def TestLane.reset : TestLane :=
  { loop := 0, pattern := 0, invert := false, chkEn := false, genEn := false, locked := false, everLocked := false,
    bits := 0, errs := 0, losses := 0, snapBits := 0, snapErrs := 0, snapLosses := 0 }

def Tst.reset : Tst :=
  { lanes := Vector.replicate 30 TestLane.reset, patCtrl := 0, patValue := 0, patMask := 0, run := none,
    ignored := 0, bist := Vector.replicate 4 0, bistRan := false, rlCheck := none, genLanes := 0,
    skips := Vector.replicate 30 0 }

def Jtag.reset : Jtag := { ir := .idcode, dr := 0, cells := [], pinsFromCells := false, highz := false }

/-- The registers right after the power-on reset took hold, still held in reset (log 6). -/
def Dev.reset : Dev :=
  { freeIdx := 0, idleCycles := 1, aon := Aon.reset, pins := Pins.reset, sys := Sys.reset, pairs := Pairs.reset,
    bus := Bus.reset, jnl := Journal.reset, nvm := Nvm.reset, lay := LayoutCtx.reset, img := none, whl := Whl.reset,
    ports := Vector.replicate 16 Port.reset, card := Vector.replicate 16 ⟨0⟩,
    strands := Vector.replicate 64 Strand.reset, spn := Spn.reset, streams := Vector.replicate 64 Stream.reset,
    bob := Bob.reset, fst := Fst.reset, ply := Ply.reset, hnk := Hnk.reset, skn := Skn.reset, sns := Sns.reset,
    dma := Dma.reset, chk := Vector.replicate 24 ChkUnit.reset, age := Age.reset, tst := Tst.reset,
    jtag := Jtag.reset }

/-- Memories with nothing listed. -/
def Mem.reset : Mem := { nvm := [], fs := [], sram := [], stores := [], stage := [] }

/-- The block at power-on (03_start_modes_bypass.md R81; log 6). -/
def State.reset : State := { pending := [], dev := Dev.reset, mem := Mem.reset }

end Sys2Proof.Machine
end

