-- ==== Sys2Proof/Machine/Ops.lean ====
section
/-! DEFINITION. Shared operations: tables, byte order, memories, time, CRCs, reports and counters. -/

namespace Sys2Proof.Machine

/-- Change entry `i` of a table. -/
def upd {α : Type} {n : Nat} (v : Vector α n) (i : Fin n) (f : α → α) : Vector α n := v.set i (f v[i])

/-- Entry `i` of a list, or `x` past its end. -/
def nth {α : Type} (l : List α) (i : Nat) (x : α) : α := l.getD i x

/-- Replace the entry of key `k` of an association list, or add it at the end. -/
def assocSet {κ α : Type} [DecidableEq κ] (l : List (κ × α)) (k : κ) (v : α) : List (κ × α) :=
  if l.any (fun p => p.1 = k) then l.map (fun p => if p.1 = k then (k, v) else p) else l ++ [(k, v)]

/-- Value of key `k`, or `x` where it is not held. -/
def assocGet {κ α : Type} [DecidableEq κ] (l : List (κ × α)) (k : κ) (x : α) : α :=
  match l.find? (fun p => p.1 = k) with
  | some p => p.2
  | none => x

/-- Count up by `n`, saturating at 2^w - 1 (the saturating counters of the manual). -/
def satAdd {w : Nat} (x : BitVec w) (n : Nat) : BitVec w :=
  if x.toNat + n < 2 ^ w then x + BitVec.ofNat w n else BitVec.allOnes w

/-- A number bounded by `m`. -/
def satNat (m n : Nat) : Nat := min m n

/-- An integer bounded to [-m, m]. -/
def bound (m x : Int) : Int := max (-m) (min m x)

/-- x / y rounded to nearest, y > 0. The spec does not say which way a half goes (04 R145): upward (DESIGN CHOICE, log 43). -/
def roundDiv (x y : Int) : Int := (2 * x + y) / (2 * y)

/-! ### Bytes, little-endian (00_scope.md R4) -/

/-- The `n` low bytes of `x`, least significant first. -/
def le (n : Nat) (x : Nat) : List Byte := (List.range n).map fun i => BitVec.ofNat 8 (x >>> (8 * i))

/-- The number that bytes spell, least significant first. -/
def fromLe : List Byte → Nat
  | [] => 0
  | b :: bs => b.toNat + 256 * fromLe bs

/-- Two's complement of an integer in `n` bytes, least significant first. -/
def leInt (n : Nat) (x : Int) : List Byte := le n (x % (256 ^ n : Nat)).toNat

/-- The signed number of `w` bits that `x` spells. -/
def signed (w x : Nat) : Int := (BitVec.ofNat w x).toInt

/-- `n` zero bytes. -/
def zeros (n : Nat) : List Byte := List.replicate n 0

/-- Zero padding to a multiple of `k`. -/
def padTo (k : Nat) (l : List Byte) : List Byte := l ++ List.replicate ((k - l.length % k) % k) 0

/-! ### CRCs (02_image_and_journal.md R48, R62; 15_dma_check_units.md R534) -/

/-- The `w` low bits of `x` in reverse order. -/
def reflect : (w x : Nat) → Nat
  | 0, _ => 0
  | w + 1, x => (x % 2) * 2 ^ w + reflect w (x / 2)

/-- One bit of the CRC register of 15_dma_check_units.md R534. -/
def crcBit (w poly reg bit : Nat) : Nat :=
  let top := (reg / 2 ^ (w - 1) + bit) % 2
  let sh := (reg * 2) % 2 ^ w
  if top = 1 then sh ^^^ (poly % 2 ^ w) else sh

/-- One byte into the CRC register, most significant bit first after an optional reflection (R534). -/
def crcByte (w poly : Nat) (refIn : Bool) (reg : Nat) (b : Byte) : Nat :=
  let x := if refIn then reflect 8 b.toNat else b.toNat
  [7, 6, 5, 4, 3, 2, 1, 0].foldl (fun r i => crcBit w poly r (x / 2 ^ i % 2)) reg

/-- Finish a CRC: optional reflection, then the final XOR (R534). -/
def crcOut (w xorOut : Nat) (refOut : Bool) (reg : Nat) : Nat :=
  (if refOut then reflect w reg else reg) ^^^ (xorOut % 2 ^ w)

/-- A whole CRC over a byte string (R534). -/
def crc (w poly init xorOut : Nat) (refIn refOut : Bool) (bs : List Byte) : Nat :=
  crcOut w xorOut refOut (bs.foldl (crcByte w poly refIn) (init % 2 ^ w))

/-- CRC-32C with the parameters of 02_image_and_journal.md R62. -/
def crc32c (bs : List Byte) : Nat := crc 32 0x1EDC6F41 0xFFFFFFFF 0xFFFFFFFF true true bs

/-- CRC-64 with the parameters of 02_image_and_journal.md R48. -/
def crc64 (bs : List Byte) : Nat :=
  crc 64 0x42F0E1EBA9EA3693 0xFFFFFFFFFFFFFFFF 0xFFFFFFFFFFFFFFFF true true bs

/-- A CRC with configured parameters (10_hank_compressor.md R343; 11_ply_link.md R369). -/
def crcCfg (c : CrcCfg) (bs : List Byte) : Nat := crc 32 c.poly c.init c.xorOut c.refIn c.refOut bs

/-- A check value followed by its complement, 4 bytes each (11_ply_link.md R386). -/
def crcPair (c : Nat) : List Byte := le 4 c ++ le 4 (0xFFFFFFFF - c % 2 ^ 32)

/-! ### Memories: cells in strictly rising address order, no cell equal to the unlisted byte -/

/-- The byte at `a`, `x` where nothing is listed. -/
def Memory.read (x : Byte) : List Host.Cell → Nat → Byte
  | [], _ => x
  | (k, b) :: m, a => if k = a then b else Memory.read x m a

/-- The cells that spell `bs` from `a` on, bytes equal to the unlisted one left out. -/
def Memory.cells (x : Byte) (a : Nat) : List Byte → List Host.Cell
  | [] => []
  | b :: bs => if b = x then Memory.cells x (a + 1) bs else (a, b) :: Memory.cells x (a + 1) bs

/-- Write `bs` from address `a` on. -/
def Memory.write (x : Byte) (m : List Host.Cell) (a : Nat) (bs : List Byte) : List Host.Cell :=
  m.filter (fun c => c.1 < a) ++ Memory.cells x a bs ++ m.filter (fun c => a + bs.length ≤ c.1)

/-- `n` bytes from `a` on. -/
def Memory.readN (x : Byte) (m : List Host.Cell) (a n : Nat) : List Byte :=
  (List.range n).map fun i => Memory.read x m (a + i)

/-- Set `n` bytes from `a` on to the byte `v`. -/
def Memory.fill (x : Byte) (m : List Host.Cell) (a n : Nat) (v : Byte) : List Host.Cell :=
  if v = x then m.filter (fun c => c.1 < a) ++ m.filter (fun c => a + n ≤ c.1)
  else Memory.write x m a (List.replicate n v)

/-- The canonical form of a memory with unlisted byte `x`, all cells at or above `lo`. -/
def Memory.wfFrom (x : Byte) (lo : Nat) : List Host.Cell → Bool
  | [] => true
  | (k, b) :: m => decide (lo ≤ k) && decide (b ≠ x) && Memory.wfFrom x (k + 1) m

/-- The canonical form of a memory. -/
def Memory.wf (x : Byte) (m : List Host.Cell) : Bool := Memory.wfFrom x 0 m

/-- Every memory of the block is canonical (log 5). -/
def Mem.wf (m : Mem) : Bool :=
  Memory.wf 0xFF m.nvm && Memory.wf 0 m.fs && Memory.wf 0 m.sram && Memory.wf 0 m.stores && Memory.wf 0 m.stage

/-- A byte of the NVM (02_image_and_journal.md R43). -/
def Mem.nvmByte (m : Mem) (a : Nat) : Byte := Memory.read 0xFF m.nvm a

/-! ### Time (12_whorls.md R410, R412) -/

/-- W0 in ns. -/
def Dev.w0 (d : Dev) : Nat := 2 * d.whl.tim

/-- A time in ns as whorl time with fraction and epoch. -/
def timeOf (ns frac epoch : Nat) : WhorlTime := ⟨ns / 1000000000, ns % 1000000000, frac, epoch⟩

end Sys2Proof.Machine

namespace Sys2Proof

/-- A whorl time in whole ns. -/
def WhorlTime.toNs (t : WhorlTime) : Nat := t.sec * 1000000000 + t.ns

/-- The 16 bytes of a whorl time (12_whorls.md R410). -/
def WhorlTime.bytes (t : WhorlTime) : List Byte :=
  Machine.le 8 t.sec ++ Machine.le 4 t.ns ++ Machine.le 2 t.frac ++ Machine.le 2 t.epoch

end Sys2Proof

namespace Sys2Proof.Machine

/-- Change the whorl state. -/
def Dev.onWhl (d : Dev) (f : Whl → Whl) : Dev := { d with whl := f d.whl }

/-- Index of a servoed whorl W1 to W5. -/
def servoIx (w : Nat) : Fin 5 := Fin.ofNat 5 (w - 1)

/-- 2^-40 ns per ns. -/
def accUnit : Nat := 2 ^ 40

/-- Wrap of a whorl's accumulator: 64-bit seconds. -/
def accWrap : Nat := 2 ^ 64 * 1000000000 * accUnit

/-- Parameters of Wn, n = 1 to 5, in force. -/
def Whl.cfgOf (w : Whl) (n : Nat) : WhorlCfg := nth w.cfg.whorls (n - 1) ⟨0, 0, 100, 0, 0, 0, 100, 8, 0⟩

/-- Accumulator of Wn in 2^-40 ns: W0 from the TIM count, a source 4 whorl from its base plus its offset
(12_whorls.md R434), any other from its own count. -/
def Whl.accOf (w : Whl) (n : Nat) : Nat :=
  if n = 0 then 2 * w.tim * accUnit
  else
    let c := w.cfgOf n
    if c.source = 4 then
      let base := if c.base = 0 then 2 * w.tim * accUnit else (w.servo[servoIx c.base]).acc
      ((base : Int) + c.offset * (accUnit : Int)).toNat % accWrap
    else (w.servo[servoIx n]).acc

/-- Time of Wn in the 16-byte format of 12_whorls.md R410. -/
def Whl.timeNow (w : Whl) (n : Nat) : WhorlTime :=
  let a := w.accOf n
  timeOf (a / accUnit) (a % accUnit / 2 ^ 24) (if n = 0 then 0 else (w.servo[servoIx n]).epoch)

/-- Time of Wn in whole ns. -/
def Whl.nsOf (w : Whl) (n : Nat) : Nat := w.accOf n / accUnit

/-! ### Free values (log 1) -/

/-- Take a free word. -/
def Dev.freshWord (d : Dev) : Dev × Word := ({ d with freeIdx := d.freeIdx + 1 }, Config.freeWord d.freeIdx)

/-- Take `n` free bytes. -/
def Dev.freshBytes (d : Dev) (n : Nat) : Dev × List Byte :=
  ({ d with freeIdx := d.freeIdx + n }, (List.range n).map fun i => Config.freeByte (d.freeIdx + i))

/-- Contents that are undefined: free bytes in the first `n` addresses of a memory whose unlisted byte is zero. -/
def freeMemory (k n : Nat) : List Host.Cell := Memory.write 0 [] 0 ((Config.freeBytes k).take n)

/-! ### The fault summary and its event log (16_guarantees_health_ageing.md R551, R554) -/

/-- FAULT-class bits of R551. -/
def faultMask : Word := 0x04000491

/-- INFO-class bits of R551. -/
def infoMask : Word := 0x40010000

/-- ALERT-class bits of R551. -/
def alertMask : Word := 0x3BFEFB6E

/-- Change the journal content and note that it changed (02_image_and_journal.md R68). -/
def Dev.onJnl (d : Dev) (f : Journal → Journal) : Dev := { d with jnl := { f d.jnl with changed := true } }

/-- Change the ageing history. -/
def Dev.onHist (d : Dev) (f : History → History) : Dev := d.onJnl fun j => { j with history := f j.history }

/-- Add one event record, at most 400 kept (R569); newest first. -/
def History.addEvent (h : History) (e : FaultEvent) : History :=
  { h with events := (e :: h.events).take 400, eventTotal := satNat 0xFFFFFFFF (h.eventTotal + 1) }

/-- An eye margin measured on a lane, in the order of 02_image_and_journal.md R62: the latest values, and the baseline
where none is recorded yet (R561, R569). -/
def History.setEye (h : History) (lane eyeH eyeV : Nat) : History :=
  { h with eyes := (h.eyes.zipIdx).map fun p =>
      if p.2 = lane then
        if p.1.2.2.1 = 0 ∧ p.1.2.2.2 = 0 then (eyeH, eyeV, eyeH, eyeV) else (eyeH, eyeV, p.1.2.2.1, p.1.2.2.2)
      else p.1 }

/-- Bit `b` of R551 as a word. -/
def bitOf (b : Nat) : Word := 1#32 <<< b

/-- Set a bit of SYS_FAULT_SUM. A 0 to 1 change of any bit but 16 and 30 adds an event record; MEM_CE and DIAG_WRITE
are counted instead (R554). -/
def Dev.raise (d : Dev) (b : Nat) (source detail : Nat) : Dev :=
  if b = 16 then
    { d with sys := { d.sys with fault := d.sys.fault ||| bitOf 16 } }.onHist
      fun h => { h with memCe := satNat 0xFFFFFFFF (h.memCe + 1) }
  else if b = 30 then
    { d with sys := { d.sys with fault := d.sys.fault ||| bitOf 30 } }.onHist
      fun h => { h with diagWrites := satNat 0xFFFFFFFF (h.diagWrites + 1) }
  else if d.sys.fault.getLsbD b then d
  else
    { d with sys := { d.sys with fault := d.sys.fault ||| bitOf b } }.onHist fun h =>
      h.addEvent ⟨h.minutes, h.starts % 65536, b, if faultMask.getLsbD b then 0 else 1, source, detail⟩

/-- Report without a source index. -/
def Dev.report (d : Dev) (b : Nat) : Dev := d.raise b 0xFFFF 0

/-- Single-bit errors corrected in the bobbin pool (0) or in a spindle's local store (1): counted and reported, without any other
effect (01_three_planes.md R38). -/
def Dev.countCorrected (d : Dev) (store : Fin 2) (n : Nat) : Dev :=
  if n = 0 then d
  else ({ d with sys := { d.sys with corrected := d.sys.corrected.set store (satAdd d.sys.corrected[store] n) } }).raise 16 store.val n

/-- The arbiter numbers one more decision, which the data plane has still to apply (01_three_planes.md R25). -/
def Dev.issueDecision (d : Dev) : Dev := { d with sys := { d.sys with decision := d.sys.decision + 1 } }

/-- The arbiter numbers one more decision, applied at once (01_three_planes.md R25, R26). -/
def Dev.numberDecision (d : Dev) : Dev :=
  { d with sys := { d.sys with decision := d.sys.decision + 1, applied := d.sys.decision + 1 } }

/-- Ask for a journal set (02_image_and_journal.md R68); a trigger that already waits stays. -/
def Dev.jnlDue (d : Dev) (cause : Nat) : Dev :=
  d.onJnl fun j => { j with due := match j.due with | some c => some c | none => some cause }

/-- Deliver an event to a control core (12_whorls.md R437, R440). -/
def Dev.coreEvent (d : Dev) (core code : Nat) : Dev :=
  { d with sys := { d.sys with coreEvents := (core, code) :: d.sys.coreEvents } }

/-! ### Cursors of the pool (09_bobbin_pool_frame_store.md R307, R319) -/

/-- Sum of a measure over a list. -/
def sumOf {α : Type} (l : List α) (f : α → Nat) : Nat := l.foldl (fun n x => n + f x) 0

/-- A packet after cursor `c` has passed it; none once every cursor has. -/
def Pkt.passed (p : Pkt) (c : Nat) : Option Pkt :=
  let rs := p.readers.filter fun r => decide (r ≠ c)
  if rs.isEmpty then none else some { p with readers := rs }

/-- Change the first packet that cursor `c` has still to pass. -/
def firstOf (c : Nat) (f : Pkt → Option Pkt) : List Pkt → List Pkt
  | [] => []
  | p :: ps => if p.readers.contains c then (match f p with | some x => x :: ps | none => ps) else p :: firstOf c f ps

/-- Cursor `c` passes its first packet. -/
def PoolQ.passFront (q : PoolQ) (c : Nat) : PoolQ := { q with pkts := firstOf c (fun p => p.passed c) q.pkts }

/-- Cursor `c` passes the packets that `f` selects; the others keep it. -/
def PoolQ.pass (q : PoolQ) (c : Nat) (f : Pkt → Bool) : PoolQ :=
  { q with pkts := q.pkts.filterMap fun p => if p.readers.contains c && f p then p.passed c else some p }

/-! ### Access to the groups -/

def Dev.onPort (d : Dev) (p : PortNo) (f : Port → Port) : Dev := { d with ports := upd d.ports p f }
def Dev.onStrand (d : Dev) (n : StrandNo) (f : Strand → Strand) : Dev := { d with strands := upd d.strands n f }
def Dev.onStream (d : Dev) (n : StreamNo) (f : Stream → Stream) : Dev := { d with streams := upd d.streams n f }
def Dev.onSys (d : Dev) (f : Sys → Sys) : Dev := { d with sys := f d.sys }
def Dev.onPly (d : Dev) (f : Ply → Ply) : Dev := { d with ply := f d.ply }
def Dev.onSkn (d : Dev) (f : Skn → Skn) : Dev := { d with skn := f d.skn }
def Dev.onSpn (d : Dev) (f : Spn → Spn) : Dev := { d with spn := f d.spn }
def Dev.onHnk (d : Dev) (f : Hnk → Hnk) : Dev := { d with hnk := f d.hnk }
def Dev.onSns (d : Dev) (f : Sns → Sns) : Dev := { d with sns := f d.sns }
def Dev.onDma (d : Dev) (f : Dma → Dma) : Dev := { d with dma := f d.dma }
def Dev.onAge (d : Dev) (f : Age → Age) : Dev := { d with age := f d.age }
def Dev.onTst (d : Dev) (f : Tst → Tst) : Dev := { d with tst := f d.tst }
def Dev.onNvm (d : Dev) (f : Nvm → Nvm) : Dev := { d with nvm := f d.nvm }
def Dev.onBus (d : Dev) (f : Bus → Bus) : Dev := { d with bus := f d.bus }
def Dev.onBob (d : Dev) (f : Bob → Bob) : Dev := { d with bob := f d.bob }

/-- Take a JTAG instruction (17_test.md R583): its data register is selected, and the pins follow it. -/
def Dev.jtagTake (d : Dev) (ir : JtagIr) (dr : Word) (pins highz : Bool) : Dev :=
  { d with jtag := { d.jtag with ir := ir, dr := dr, pinsFromCells := pins, highz := highz } }

/-- Strand number `n` of an image field. -/
def strandOf (n : Nat) : StrandNo := Fin.ofNat 64 n
/-- Stream ID of an image field. -/
def streamOf (n : Nat) : StreamNo := Fin.ofNat 64 n
/-- Port of a strand (04_creel_links.md R117). -/
def portOf (n : StrandNo) : PortNo := ⟨n.val / 4, by omega⟩
/-- Port slot of a strand (R117). -/
def slotOf (n : StrandNo) : Nat := n.val % 4

/-- All strands. -/
def allStrands : List StrandNo := List.finRange 64
/-- All streams. -/
def allStreams : List StreamNo := List.finRange 64
/-- All ports. -/
def allPorts : List PortNo := List.finRange 16
/-- All spindles. -/
def allSpindles : List SpindleNo := List.finRange 64

/-- Strands of a port. -/
def strandsOf (p : PortNo) : List StrandNo := allStrands.filter fun n => portOf n = p

/-- Bit `i` of a mask kept as a number. -/
def bitAt (m i : Nat) : Bool := m.testBit i

/-- The numbers whose bit is set among the first `n`. -/
def bitsOf (n m : Nat) : List Nat := (List.range n).filter (fun i => m.testBit i)

/-- The W1C rule: 1 clears, 0 leaves unchanged (00_scope.md, access codes). -/
def w1c (reg v mask : Word) : Word := reg &&& ~~~(v &&& mask)

end Sys2Proof.Machine
end

