-- ==== Sys2Proof/Machine/Flags.lean ====
section
/-! DEFINITION. The frame flags of 11_ply_link.md R384, the standing conditions of the fault summary
(16_guarantees_health_ageing.md R551, R552) and the pins they drive (R552, R553; 03 R105). -/

namespace Sys2Proof.Machine

/-- Flag bits of R384. -/
def flagWarming : Word := 0x0001
def flagSeeded : Word := 0x0002
def flagUnseeded : Word := 0x0004
def flagRetargeted : Word := 0x0008
def flagMismatch : Word := 0x0010
def flagDeferred : Word := 0x0020
def flagSubstituted : Word := 0x0040
def flagRepeated : Word := 0x0080
def flagCameraLost : Word := 0x0100
def flagFormatFault : Word := 0x0200
def flagHoldover : Word := 0x0400
def flagStepped : Word := 0x0800
def flagDegraded : Word := 0x1000
def flagSwitched : Word := 0x2000
def flagMarkMissed : Word := 0x4000
def flagSpareLow : Word := 0x8000

/-- A flag that is set when its condition holds. -/
def flagIf (b : Bool) (f : Word) : Word := if b then f else 0

/-- Time flag of a quality code (12_whorls.md R423). -/
def holdoverFlag (q : Nat) : Word := flagIf (decide (0x10 ≤ q) && decide (q ≤ 0x17)) flagHoldover

/-- W of 07_spindle_array.md R235 for the booted image; 60 with the default spare count before an image is loaded. -/
def Dev.wCount (d : Dev) : Nat :=
  match d.img with
  | some i => 64 - i.spareCount
  | none => 60

/-- Spindles in a state. -/
def Dev.countSpindles (d : Dev) (s : SpinState) : Nat :=
  (allSpindles.filter fun n => decide ((d.spn.spindles[n]).st = s)).length

/-- Spare count (07_spindle_array.md R262). -/
def Dev.spares (d : Dev) : Nat := d.countSpindles .spare

/-- The spare condition of 07_spindle_array.md R263. -/
def Dev.spareLow (d : Dev) : Bool :=
  match d.img with
  | some i => decide (d.spares < i.spareMin) || decide (d.countSpindles .working < d.wCount)
  | none => false

/-- The block is past the reset of R81 and of R589's step 2. -/
def Dev.released (d : Dev) : Bool :=
  match d.aon.phase with
  | .powerReset | .reset => false
  | _ => true

/-- FAULT_N may rise: the start path has reached its running state (16 R553). -/
def Dev.pathRuns (d : Dev) : Bool :=
  match d.aon.phase with
  | .romSafe | .running | .production => true
  | _ => false

/-- The summary bits whose condition is a standing one, with that condition (16 R551, R552; log 12). -/
def Dev.standing (d : Dev) : List (Nat × Bool) :=
  [ (0, decide (d.aon.phase = .romSafe) && decide (d.aon.bootSel ≠ 3)),
    (4, d.released && !d.aon.refclk),
    (6, d.released && d.age.temp.toList.any (fun t => decide (120 * 16 ≤ t))),
    (7, d.released && d.age.temp.toList.any (fun t => decide (130 * 16 ≤ t))),
    (9, match d.img with
        | some i => decide (d.spares < i.spareMin)
        | none => false),
    (10, match d.img with
         | some _ => decide (d.countSpindles .working + d.spares < d.wCount)
         | none => false),
    (28, decide (d.aon.phase = .romSafe) && decide (d.aon.bootSel = 3)) ]

/-- Set every summary bit whose standing condition holds (16 R552). -/
def Dev.raiseStanding (d : Dev) : Dev :=
  d.standing.foldl (fun e p => if p.2 then e.report p.1 else e) d

/-- FAULT_N level (16 R552, R553). -/
def Dev.faultNLevel (d : Dev) : Bool :=
  d.pathRuns && d.aon.refclk && decide (d.sys.fault &&& faultMask = 0)

/-- ALERT_N level (16 R552, R553): released during reset. -/
def Dev.alertNLevel (d : Dev) : Bool := !d.released || decide (d.sys.fault &&& alertMask = 0)

/-- A lane is in service: neither its generator nor a loopback is on (17 R576). -/
def Dev.laneServes (d : Dev) (lane : Fin 30) : Bool :=
  !(d.tst.lanes[lane]).genEn && decide ((d.tst.lanes[lane]).loop = 0)

/-- Drive the pins that follow the state: FAULT_N, ALERT_N (16 R552, R553), BYPA_HOLD and BYPB_HOLD (03 R105). -/
def Dev.drivePins (d : Dev) : Dev :=
  { d with pins := { d.pins with
      faultN := d.faultNLevel, alertN := d.alertNLevel,
      bypHold := d.aon.tier.map (fun t => decide (t ≠ .bypass)) } }

/-- What follows every command in the same step: standing conditions and pins. -/
def Dev.settle (d : Dev) : Dev := d.raiseStanding.drivePins

/-- Run an effect on the registers. -/
def State.run (s : State) (f : Dev → Dev) : State := { s with dev := (f s.dev).settle }

/-- Run an effect on the registers and the memories; the queue is not its concern. -/
def State.runM (s : State) (f : State → State) : State :=
  { pending := s.pending, dev := (f s).dev.settle, mem := (f s).mem }

/-- Run an effect on the registers that reads the memories. -/
def State.runR (s : State) (f : Mem → Dev → Dev) : State := { s with dev := (f s.mem s.dev).settle }

end Sys2Proof.Machine
end

