-- ==== Sys2Proof/Machine/Operands.lean ====
section
/-! DEFINITION. The operand forms of register and window accesses: masters, the address map, acceptance under
16_guarantees_health_ageing.md R559, the access log (02 R65, R70; 16 R560), LO/HI pairs (00 R5; 18 R588) and
complement pairs (00 R9; 18 R592). -/

namespace Sys2Proof

/-- The master indices of 13_skein_ring.md R474; the remote ring comes last. -/
def Master.ix : Master → Fin 9
  | .core n => ⟨n.val, by omega⟩
  | .dma => 4 | .jtag => 5 | .i2c => 6 | .eth => 7 | .ring => 8

/-- The diagnostic paths of 16_guarantees_health_ageing.md R558. -/
def Master.diag : Master → Bool
  | .jtag | .i2c | .eth | .ring => true
  | _ => false

/-- Path code of an access record (02_image_and_journal.md R65), 0 where none is logged. -/
def Master.path : Master → Nat
  | .jtag => 1 | .i2c => 2 | .ring => 3 | .eth => 4 | _ => 0

/-- PATH of SYS_CPAIR_ERR (18_registers.md). -/
def Master.errPath : Master → Nat
  | .core _ => 0 | .jtag => 1 | .i2c => 2 | .ring => 3 | .eth => 4 | .dma => 5

end Sys2Proof

namespace Sys2Proof.Machine

/-- Regions of the local address map (01_three_planes.md memory hierarchy; 13 R470; 18 R584). -/
inductive Region where
  | rom
  | bob (off : Nat)
  | store (off : Nat)
  | reg (off : Nat)
  | ring (win off : Nat)
  | fs (off : Nat)
  | unmapped
  deriving DecidableEq, Repr

/-- Region of a local address. -/
def regionOf (addr : Word) : Region :=
  let a := addr.toNat
  if a < 0x40000 then .rom
  else if 0x10000000 ≤ a ∧ a < 0x11800000 then .bob (a - 0x10000000)
  else if 0x20000000 ≤ a ∧ a < 0x22000000 then .store (a - 0x20000000)
  else if 0x40000000 ≤ a ∧ a < 0x60000000 then .reg (a - 0x40000000)
  else if 0x60000000 ≤ a ∧ a < 0x70000000 then
    .ring ((a - 0x60000000) / 0x1000000) ((a - 0x60000000) % 0x1000000)
  else if 0x80000000 ≤ a then .fs (a - 0x80000000)
  else .unmapped

/-- Local address of a register offset. -/
def regAddr (off : Nat) : Word := BitVec.ofNat 32 (0x40000000 + off)

/-- Bytes of the usable frame store (01 R37, 09 R327). -/
def Fst.usable (f : Fst) : Nat := if f.trained then 2 * f.gib * 2 ^ 30 / 8 * 7 else 0

/-- The mode column of R559: shutdown and SAFE_OFF together. -/
def Dev.stopping (d : Dev) : Bool := decide (d.sys.mode = .shutdown)

/-- Staging is open in this mode (02 R74). -/
def Dev.stagingMode (d : Dev) : Bool := decide (d.sys.mode = .standby) || decide (d.sys.mode = .depot)

/-- R559 for a diagnostic write of `v` to a register offset. -/
def Dev.acceptsReg (d : Dev) (off : Nat) (v : Word) : Bool :=
  let prod := decide (d.sys.mode = .production)
  if off < 0x10000 then true
  else if off < 0x20000 then d.stagingMode || prod
  else if off < 0x30000 then true
  else if off < 0x40000 then !(decide (0x300E0 ≤ off) && decide (off < 0x300F0) && d.stopping)
  else if off < 0x50000 then true
  else if off < 0x60000 then
    if off = 0x50010 ∨ off = 0x50014 then !d.stopping else d.stagingMode
  else if off < 0x90000 then true
  else if off = 0x400000 then decide (256 ≤ (v &&& 0x1FF).toNat) || prod
  else if off = 0x400010 then decide (256 ≤ d.bob.qsel.toNat) || prod
  else prod

/-- R559 for a diagnostic write to a region. -/
def Dev.acceptsDiag (d : Dev) (r : Region) (v : Word) : Bool :=
  let prod := decide (d.sys.mode = .production)
  match r with
  | .reg off => d.acceptsReg off v
  | .fs off => (decide (d.fst.bank = 0) && decide (off < 0x4000000)) || prod
  | .ring _ _ => true
  | _ => prod

/-- R589: what answers before step 2 of R86. -/
def Dev.answersAt (d : Dev) (r : Region) : Bool :=
  d.released || (match r with
    | .reg off => decide (off = 0) || decide (off = 4) || decide (off = 0x20)
    | _ => false)

/-- Whether a write is taken to its block: R589 for every master, R559 for a diagnostic path. -/
def Dev.accepts (d : Dev) (a : Access) (addr v : Word) : Bool :=
  d.answersAt (regionOf addr) && (!a.master.diag || d.acceptsDiag (regionOf addr) v)

/-- How an access ended: the R475 code and the result of the access record (R65). -/
structure Res where
  code : BitVec 4
  log : Nat
  detail : Byte := 0
  deriving DecidableEq, Repr

def Res.ok : Res := ⟨0, 0, 0⟩
/-- R9: rejected pair, answered OK and logged with result 1. -/
def Res.pairRejected : Res := ⟨0, 1, 0⟩
def Res.addrErr : Res := ⟨2, 2, 0⟩
def Res.busy : Res := ⟨6, 3, 0⟩

/-- Record a diagnostic or remote write (02 R65, R68, R70). -/
def Dev.logAccess (d : Dev) (a : Access) (addr : Word) (size : Nat) (value : Word) (len result : Nat) : Dev :=
  if a.master.diag && d.released then
    let rec1 : AccessRec := ⟨d.w0 / 1000000000 % 2 ^ 32, d.w0 % 1000000000, a.master.path, size, a.origin,
      if a.master = .eth then a.detail else 0, addr, value, len, result⟩
    let e := d.onJnl fun j =>
      { j with log := (rec1 :: j.log).take 64, logTotal := satNat 0xFFFFFFFF (j.logTotal + 1),
               logDropped := if 64 ≤ j.unsaved then satNat 0xFFFFFFFF (j.logDropped + 1) else j.logDropped,
               unsaved := j.unsaved + 1 }
    if 32 ≤ e.jnl.unsaved then e.jnlDue 2 else e
  else d

/-- Answer an access: the code and data, and SKN_LAST_ERR of a local master (13 R475). -/
def Dev.answer (d : Dev) (a : Access) (code : BitVec 4) (detail : Byte) (data : DWord) : Dev :=
  d.onBus fun b =>
    { b with answer := some ⟨a.master, code, detail, data⟩,
             lastErr := if code = 0 ∨ a.master = .ring then b.lastErr
                        else assocSet b.lastErr a.master (code, detail) }

/-- A write access to one register or window, for effects that touch no memory: acceptance, effect, log, answer
(16 R559, R560). `logged` is false for what R79 logs in its own way. -/
def Dev.write (d : Dev) (a : Access) (addr : Word) (size : Nat) (v : Word) (logged : Bool)
    (h : Dev → Dev × Res) : Dev :=
  if d.accepts a addr v then
    let (e, r) := h d
    let e1 := if logged then e.logAccess a addr size v size r.log else e
    let e2 := if r.log = 0 ∧ a.master.diag then e1.report 30 else e1
    e2.answer a r.code r.detail 0
  else
    let e1 := if logged then d.logAccess a addr size v size 2 else d
    e1.answer a 2 0 0

/-- A write access of `len` bytes whose effect reaches memories. -/
def State.writeN (s : State) (a : Access) (addr : Word) (size : Nat) (v : Word) (len : Nat) (logged : Bool)
    (h : State → State × Res) : State :=
  if s.dev.accepts a addr v then
    let (t, r) := h s
    let e1 := if logged then t.dev.logAccess a addr size v len r.log else t.dev
    let e2 := if r.log = 0 ∧ a.master.diag then e1.report 30 else e1
    { t with dev := e2.answer a r.code r.detail 0 }
  else
    let e1 := if logged then s.dev.logAccess a addr size v len 2 else s.dev
    { s with dev := e1.answer a 2 0 0 }

/-- A single-beat write access whose effect reaches memories. -/
def State.write (s : State) (a : Access) (addr : Word) (size : Nat) (v : Word) (logged : Bool)
    (h : State → State × Res) : State := s.writeN a addr size v size logged h

/-! ### LO/HI pairs (00 R5; 18 R588) -/

/-- Hold or latch a word for a master and offset. -/
def holdAt (l : List HiLatch) (m : Master) (off : Nat) (v : Word) : List HiLatch :=
  ⟨m, off, v⟩ :: l.filter fun x => !(decide (x.master = m) && decide (x.off = off))

/-- The word held for a master and offset. -/
def heldAt (l : List HiLatch) (m : Master) (off : Nat) : Option Word :=
  (l.find? fun x => decide (x.master = m) && decide (x.off = off)).map fun x => x.value

/-- Forget it. -/
def dropAt (l : List HiLatch) (m : Master) (off : Nat) : List HiLatch :=
  l.filter fun x => !(decide (x.master = m) && decide (x.off = off))

/-- A LO read latches HI for the reading master (R5). `off` is the offset of HI. -/
def Dev.latchHi (d : Dev) (m : Master) (off : Nat) (hi : Word) : Dev :=
  d.onBus fun b => { b with hi := holdAt b.hi m off hi }

/-- A LO write is held for the writing master (R588). `off` is the offset of LO. -/
def Dev.holdLo (d : Dev) (m : Master) (off : Nat) (v : Word) : Dev :=
  d.onBus fun b => { b with lo := holdAt b.lo m off v }

/-- The 64-bit value that a HI write commits: the master's held LO, or the current LO (R588), and the bus after it. -/
def Dev.joinLo (d : Dev) (m : Master) (off : Nat) (curLo hi : Word) : Dev × DWord :=
  let lo := (heldAt d.bus.lo m off).getD curLo
  (d.onBus fun b => { b with lo := dropAt b.lo m off }, hi ++ lo)

/-- LO half of a 64-bit value. -/
def loWord (x : DWord) : Word := x.truncate 32
/-- HI half of a 64-bit value. -/
def hiWord (x : DWord) : Word := (x >>> 32).truncate 32

/-! ### Complement pairs (00 R9; 18 R591, R592) -/

/-- A write of X: the pending value (R592), reserved fields kept zero (R6). -/
def Pair.pend {w : Nat} (p : Pair w) (mask v : BitVec w) : Pair w := { p with pending := v &&& mask }

/-- A write of X_C: whether it commits, and the pair after it (R592). -/
def Pair.commit {w : Nat} (p : Pair w) (v : BitVec w) : Bool × Pair w :=
  if v = ~~~p.pending then (true, ⟨p.pending, p.pending⟩) else (false, ⟨p.committed, p.committed⟩)

/-- Fields of SYS_MODE_REQ: MODE, LAYOUT, NOLIVE. -/
def modeReqMask : Word := 0x00010F07

/-- Record a rejected commit in SYS_CPAIR_ERR (18 SYS_CPAIR_ERR). -/
def Dev.pairError (d : Dev) (a : Access) (off : Nat) : Dev :=
  d.onSys fun y =>
    let e := y.cpairErr
    { y with cpairErr :=
        if e.getLsbD 31 then
          let n := satNat 15 ((e.toNat / 2 ^ 24) % 16 + 1)
          (e &&& 0xF0FFFFFF) ||| BitVec.ofNat 32 (n * 2 ^ 24)
        else BitVec.ofNat 32 (2 ^ 31 + a.master.errPath * 2 ^ 28 + 2 ^ 24 + off % 2 ^ 24) }

/-- The commit procedure of R592 for a pair inside the registers: `put` stores the pair, `act` acts on a committed
value and says how it ended. An action refused with an error code leaves the old committed value (log 16). -/
def Dev.commitPair {w : Nat} (d : Dev) (a : Access) (off : Nat) (p : Pair w) (v : BitVec w)
    (put : Dev → Pair w → Dev) (act : Dev → BitVec w → Dev × Res) : Dev × Res :=
  let (ok, q) := p.commit v
  if ok then
    let r := act (put d q) q.committed
    if r.2.code = 0 then r else (put r.1 ⟨p.committed, p.committed⟩, r.2)
  else ((put d q).pairError a off, Res.pairRejected)

end Sys2Proof.Machine
end

