-- ==== Sys2Proof/Machine/Lookup.lean ====
section
/-! DEFINITION. Reading the booted image: layouts, profiles, chains, active strands and ports (02 R53 to R57,
04 R116, R117, 05 R160, R162), and the sizes that admission and the rings use. -/

namespace Sys2Proof.Machine

/-- The layout of an ID. -/
def Image.layout (i : Image) (id : Nat) : Option LayoutCfg := i.layouts.find? fun l => decide (l.id = id)

/-- Port table entry of a port. -/
def Image.portCfg (i : Image) (p : Nat) : PortCfg := nth i.ports p ⟨0, 0, 0, false, [], []⟩

/-- Profile ID of a strand, 0xFFFF unused. -/
def Image.profileId (i : Image) (n : Nat) : Nat := nth (i.portCfg (n / 4)).profiles (n % 4) 0xFFFF

/-- Virtual channel of a strand, 0xFF unused. -/
def Image.vcOf (i : Image) (n : Nat) : Nat := nth (i.portCfg (n / 4)).vcs (n % 4) 0xFF

/-- Profile of a strand. -/
def Image.profile (i : Image) (n : Nat) : Option Profile := i.profiles.find? fun q => decide (q.id = i.profileId n)

/-- A profile with nothing in it, for a strand that has none. -/
def Profile.none : Profile :=
  { id := 0xFFFF, latency := 0, readback := 0, winFirst := 0, winLast := 0, width := 0, height := 0, dataType := 0,
    exposures := 1, mosaic := 0, period := 0, policy := 0, pwl := 0xFF, defects := 0xFFFF, limits := ⟨0, 0, 0, 0⟩,
    writeSeqOff := 0, readbackOff := 0, defaultExp := [] }

/-- Profile of a strand of the device, the empty one where there is none. -/
def Dev.profile (d : Dev) (n : Nat) : Profile := ((d.img.bind fun i => i.profile n)).getD Profile.none

/-- Capture entry of a strand (05 R160). -/
def Dev.capture (d : Dev) (n : Nat) : CaptureCfg :=
  match d.img with
  | some i => nth i.captures n ⟨0, 0, 0xFF, 0xFF, 0, 0, 0, 0⟩
  | none => ⟨0, 0, 0xFF, 0xFF, 0, 0, 0, 0⟩

/-- Layout of an ID in the booted image. -/
def Dev.layoutCfg (d : Dev) (id : Nat) : Option LayoutCfg := d.img.bind fun i => i.layout id

/-- The layout a strand runs under (01 R20). -/
def Dev.strandLayout (d : Dev) (n : StrandNo) : Option LayoutCfg := (d.lay.strand[n]).bind d.layoutCfg

/-- The layout an output stream runs under (01 R22). -/
def Dev.streamLayout (d : Dev) (st : StreamNo) : Option LayoutCfg := (d.lay.stream[st]).bind d.layoutCfg

/-- Entry of a stream in a layout. -/
def LayoutCfg.stream (l : LayoutCfg) (st : Nat) : Option StreamCfg := l.streams.find? fun e => decide (e.id = st)

/-- Strands of a layout's mask, ascending. -/
def LayoutCfg.strands (l : LayoutCfg) : List Nat := bitsOf 64 l.strandMask

/-- A strand is active: in the mask of the layout it runs under, on an enabled port, while the mode takes live
capture (05 R162; 03 R104: the pixel path is off in Standby and NOLIVE Depot). -/
def Dev.pathOn (d : Dev) : Bool :=
  match d.sys.mode with
  | .warmup | .drive | .survey | .shutdown => true
  | .depot => !d.sys.nolive
  | .production => d.tst.run.isSome
  | .standby => false

def Dev.active (d : Dev) (n : StrandNo) : Bool :=
  d.pathOn && (match d.img, d.strandLayout n with
    | some i, some l => bitAt l.strandMask n.val && (i.portCfg (portOf n).val).enabled
    | _, _ => false)

/-- A strand is selected to carry the test pattern in Production Test (17 R579). -/
def Dev.patternOn (d : Dev) (n : StrandNo) : Bool := decide (d.sys.mode = .production) && d.tst.patMask.getLsbD n.val

/-- A slot of a port is used (04 R117). -/
def Image.slotUsed (i : Image) (n : Nat) : Bool := decide (i.vcOf n ≠ 0xFF) && decide (i.profileId n ≠ 0xFFFF)

/-- The strand of a port that a virtual channel maps to, through a used slot (04 R117). -/
def Dev.strandAt (d : Dev) (p : PortNo) (vc : Nat) : Option StrandNo :=
  (strandsOf p).find? fun n => match d.img with
    | some i => i.slotUsed n.val && decide (i.vcOf n.val = vc)
    | none => false

/-- Ports that a layout powers: enabled and with a strand in the mask (04 R156, 05 R162). -/
def Image.layoutPorts (i : Image) (l : LayoutCfg) : BitVec 16 :=
  (List.range 16).foldl (fun m p =>
    if (i.portCfg p).enabled && (List.range 4).any (fun s => bitAt l.strandMask (4 * p + s)) then m ||| (1#16 <<< p)
    else m) 0

/-- Kernel chain of an ID. -/
def Image.chain (i : Image) (id : Nat) : Option ChainCfg := i.chains.find? fun c => decide (c.id = id)

/-- k, read amplification in 1/256 and tile store need of a stream's chain. -/
def Image.chainOf (i : Image) (e : StreamCfg) : ChainCfg := (i.chain e.chain).getD ⟨e.chain, 0, 0, 0, []⟩

/-- Flags of a stream entry (R56). -/
def StreamCfg.tnf (e : StreamCfg) : Bool := bitAt e.flags 0
def StreamCfg.irPlane (e : StreamCfg) : Bool := bitAt e.flags 1
def StreamCfg.overlay (e : StreamCfg) : Bool := bitAt e.flags 2

/-- Bytes per stored pixel of the main plane (09 R332). -/
def fmtBytes (f : Nat) : Nat := if f ≤ 1 then 4 else 2

/-- b of R41 and R332, with 2 bytes for a separate IR plane. -/
def StreamCfg.pixBytes (e : StreamCfg) : Nat := fmtBytes e.format + (if e.irPlane then 2 else 0)

/-- Link bits per pixel (08 R300, R301). -/
def StreamCfg.linkBits (e : StreamCfg) : Nat :=
  (match e.format with | 0 => 20 | 1 => 24 | 2 => 16 | _ => 12) + (if e.irPlane then 12 else 0)

/-- Bytes of a row of `w` pixels as packed on the link, padded to 4 (08 R300). -/
def packedRow (f w : Nat) : Nat :=
  let n := match f with | 0 => (w + 1) / 2 * 5 | 1 => 3 * w | 2 => 2 * w | _ => (w + 1) / 2 * 3
  (n + 3) / 4 * 4

/-- Payload bytes of one video line of width `w` (08 R300, R301). -/
def StreamCfg.lineBytes (e : StreamCfg) (w : Nat) : Nat :=
  packedRow e.format w + (if e.irPlane then packedRow 3 w else 0)

/-- Cells of a packet of `n` bytes (09 R305). -/
def cellsOf (n : Nat) : Nat := (n + 255) / 256

/-- Tile columns, tile rows and count of an output of a layout (07 R231). -/
def LayoutCfg.cols (l : LayoutCfg) (e : StreamCfg) : Nat := (e.width + l.tileW - 1) / l.tileW
def LayoutCfg.rows (l : LayoutCfg) (e : StreamCfg) : Nat := (e.height + l.tileH - 1) / l.tileH
def LayoutCfg.tiles (l : LayoutCfg) (e : StreamCfg) : Nat := l.cols e * l.rows e

/-- Origin and size of tile `t`: x, y, width, height (07 R231). -/
def LayoutCfg.tileRect (l : LayoutCfg) (e : StreamCfg) (t : Nat) : Nat × Nat × Nat × Nat :=
  let i := t % l.cols e
  let j := t / l.cols e
  (i * l.tileW, j * l.tileH, min l.tileW (e.width - i * l.tileW), min l.tileH (e.height - j * l.tileH))

/-- Cells of a tile packet (09 R310): its lines packed. -/
def LayoutCfg.tileCells (l : LayoutCfg) (e : StreamCfg) (t : Nat) : Nat :=
  let r := l.tileRect e t
  cellsOf (e.lineBytes r.2.2.1 * r.2.2.2)

/-- Cells of one band (09 R309): its tiles, in a full band. -/
def LayoutCfg.bandCells (l : LayoutCfg) (e : StreamCfg) : Nat :=
  (List.range (l.cols e)).foldl (fun x t => x + l.tileCells e t) 0

/-- Bits per sample of an image data type (04 R131, 06 R207). -/
def rawBits (dt : Nat) : Nat :=
  match dt with
  | 0x2A => 8 | 0x2B => 10 | 0x2C => 12 | 0x2D => 14 | 0x2E => 16 | 0x2F => 20 | 0x27 => 24 | _ => 0

/-- Mosaic of a strand. -/
def Image.mosaicOf (i : Image) (q : Profile) : Mosaic := nth i.mosaics q.mosaic ⟨1, 1, [1]⟩

/-- Channels present in a mosaic, codes 1 to 5 ascending (08 R271, 06 R222). -/
def Mosaic.channels (m : Mosaic) : List Nat :=
  [1, 2, 3, 4, 5].filter fun c => (List.range m.py).any fun y => (List.range m.px).any fun x =>
    decide (nth m.codes (8 * y + x) 0 = c)

/-- Channel code at a pixel (08 R271). -/
def Mosaic.at (m : Mosaic) (x y : Nat) : Nat := nth m.codes (8 * (y % m.py) + x % m.px) 0

/-- Carding entry of a strand (06 R202). -/
def Image.cardingOf (i : Image) (n : Nat) : CardingCfg := nth i.cardings n ⟨0, 1, 1, 0, 0, 0, 0, 0, 0⟩

/-- Row-profile bins of a strand (06 R224). -/
def CardingCfg.bins (c : CardingCfg) : Nat := if c.binHeight = 0 then 0 else (c.winH + c.binHeight - 1) / c.binHeight

/-- Payload length of a strand's statistics packet (06 R226). -/
def Image.statsLen (i : Image) (n : Nat) : Nat :=
  let c := i.cardingOf n
  let ch := match i.profile n with | some q => (i.mosaicOf q).channels.length | none => 0
  (0x80 + 8 * (c.zoneCols * c.zoneRows) * ch + 1024 + 2 * c.bins + 7) / 8 * 8

end Sys2Proof.Machine
end

