-- ==== Sys2Proof/Machine/Pool.lean ====
section
/-! DEFINITION. Operations on the queues of the bobbin pool: packets, cursors, cells and credit
(09_bobbin_pool_frame_store.md R305 to R325). -/

namespace Sys2Proof.Machine

/-- Cells of the pool. -/
def poolCells : Nat := 98304

/-! ### Packets and cells -/

/-- Cells a committed packet occupies; an abandon marker takes one (R305). -/
def Pkt.cells (p : Pkt) : Nat := if p.marker then 1 else cellsOf p.len

/-- The link table entry of the k-th cell of a packet (R305). -/
def Pkt.entry (p : Pkt) (k : Nat) : LinkEntry :=
  ⟨Config.cellPlace p.serial (k + 1), decide (k + 1 = p.cells), min 256 (p.len - 256 * k)⟩

/-- Cells held by a queue. -/
def PoolQ.cells (q : PoolQ) : Nat := q.pkts.foldl (fun n p => n + p.cells) 0

/-- A queue by number. -/
def Bob.queue (b : Bob) (n : Nat) : PoolQ := assocGet b.queues n PoolQ.empty

/-- Change a queue. -/
def Bob.onQueue (b : Bob) (n : Nat) (f : PoolQ → PoolQ) : Bob := { b with queues := assocSet b.queues n (f (b.queue n)) }

def Dev.onQueue (d : Dev) (n : Nat) (f : PoolQ → PoolQ) : Dev := d.onBob fun b => b.onQueue n f

/-- The replay buffer as queue 196 (R306): the blocks of the ply link that are not acknowledged. -/
def Ply.replayQueue (p : Ply) (q : PoolQ) : PoolQ :=
  { q with credit := 4096, pkts := p.buffer.map fun b => ⟨b.2.length, b.2, false, [1], 0, 0, b.1.toNat, 0⟩ }

/-- The health packets that wait as a device queue, 197; the device queues hold 2048 cells together (R306, R309; log 47). -/
def Ply.healthQueue (p : Ply) (q : PoolQ) : PoolQ :=
  { q with credit := 2048,
           pkts := (p.queue.filter fun x => decide (x.cls = 1)).map fun x => ⟨x.payload.length, x.payload, false, [1], 0, 0, 0, 0⟩ }

/-- What a queue holds, by number. -/
def Dev.heldQueue (d : Dev) (n : Nat) : PoolQ :=
  let q := d.bob.queue n
  if n = 196 then d.ply.replayQueue q else if n = 197 then d.ply.healthQueue q else q

/-- Cells on the free list: those neither in a queue nor leaked (R307, R325). -/
def Dev.freeCells (d : Dev) : Nat :=
  poolCells - d.bob.leaked - (sumOf d.bob.queues fun q => if q.1 = 196 ∨ q.1 = 197 then 0 else q.2.cells) -
    (d.heldQueue 196).cells - (d.heldQueue 197).cells

/-- Credit of a queue still to be used (R309). -/
def PoolQ.room (q : PoolQ) : Nat := q.credit - q.cells

/-! ### Commit -/

/-- Put a packet at the tail of a queue: it becomes visible whole (R314), and the committed-packet count rises (R317). -/
def Dev.putPkt (d : Dev) (n : Nat) (data : List Byte) (marker : Bool) (readers : List Nat) (frame unit : Nat) : Dev :=
  let p : Pkt := ⟨data.length, data, marker, readers, 0, d.bob.serial, frame, unit⟩
  (d.onQueue n fun q =>
    { q with pkts := if readers.isEmpty then q.pkts else q.pkts ++ [p], commits := q.commits + 1 }).onBob fun b =>
      { b with serial := b.serial + 1 }

/-- The producer of a queue needs a cell and holds no credit: the packet is rewound, and the exhaustion counted and reported
(R313, R315). -/
def Dev.exhausted (d : Dev) (n : Nat) : Dev := (d.onQueue n fun q => { q with exhausted := satAdd q.exhausted 1 }).raise 24 n 0

/-- Commit a packet to the cursors in `readers` (R314, R317), or rewind it for want of credit (R313). Answers whether it was
committed. -/
def Dev.commitUnit (d : Dev) (n : Nat) (data : List Byte) (marker : Bool) (readers : List Nat) (frame unit : Nat) : Dev × Bool :=
  if (if marker then 1 else cellsOf data.length) ≤ (d.bob.queue n).room then (d.putPkt n data marker readers frame unit, true)
  else (d.exhausted n, false)

/-- Commit a packet that holds no row or tile. -/
def Dev.commitPkt (d : Dev) (n : Nat) (data : List Byte) (readers : List Nat) : Dev × Bool :=
  d.commitUnit n data false readers 0 0

/-! ### Reading -/

/-- The first packet that cursor `c` has still to pass. -/
def PoolQ.front (q : PoolQ) (c : Nat) : Option Pkt := q.pkts.find? fun p => p.readers.contains c

/-- The word at the register cursor: up to 4 bytes of its packet, zero padded (R322). -/
def PoolQ.popWord (q : PoolQ) : Option (Word × PoolQ) :=
  (q.front 0).map fun p =>
    let w : Word := BitVec.ofNat 32 (fromLe ((p.data.drop p.popped).take 4))
    let k := p.popped + 4
    (w, { q with lastPop := w,
                 pkts := firstOf 0 (fun x => if x.len ≤ k then x.passed 0 else some { x with popped := k }) q.pkts })

/-- One pop of the register cursor: the word and the queue after it; on an empty queue the last value and UNDERRUN
(R322). -/
def PoolQ.pop (q : PoolQ) : Word × PoolQ :=
  match q.popWord with
  | some r => r
  | none => (q.lastPop, { q with underrun := true })

/-- BOB_DROP on a queue (R319). -/
def PoolQ.drop (q : PoolQ) : PoolQ :=
  match q.front 0 with
  | none => { q with emptyDrops := satAdd q.emptyDrops 1 }
  | some _ => q.passFront 0

/-- Selected queue of the BOB block. -/
def Bob.sel (b : Bob) : Nat := b.qsel.toNat % 512

/-- The queues a register-level consumer reads: statistics queues (core 0, R323), device queues and general queues
(R306). -/
def regQueue (n : Nat) : Bool := decide (64 ≤ n) && decide (n < 128) || decide (197 ≤ n)

/-- The selected queue. -/
def Dev.selQueue (d : Dev) : PoolQ := d.bob.queue d.bob.sel

/-- Put it back after a register access. -/
def Dev.setSelQueue (d : Dev) (q : PoolQ) : Dev := d.onQueue d.bob.sel fun _ => q

/-! ### The window (R323) -/

/-- The byte of a held packet at an offset of the window, if a cell of it lies there (R305). -/
def Pkt.windowByte (p : Pkt) (off : Nat) : Option Byte :=
  ((List.range p.cells).find? fun k => decide (Config.cellPlace p.serial k = off / 256) && decide (off % 256 < (p.entry k).count)).bind
    fun k => p.data[256 * k + off % 256]?

/-- Every packet the pool holds in a queue of its own. -/
def Bob.allPkts (b : Bob) : List Pkt := b.queues.flatMap fun q => q.2.pkts

/-- What the window reads at an offset: the packet that lies there, else what was written there, else nothing defined. -/
def Bob.windowByte (b : Bob) (off : Nat) : Option Byte :=
  (b.allPkts.findSome? fun p => p.windowByte off).or ((b.poked.find? fun p => decide (p.1 = off)).map Prod.snd)

/-- Bytes read through the window; a byte that no packet and no write defines is free (log 1). -/
def Dev.readWindow (d : Dev) (off n : Nat) : Dev × List Byte :=
  let f := d.freshBytes n
  (f.1, (List.range n).map fun k => (d.bob.windowByte (off + k)).getD (nth f.2 k 0))

/-- A packet after a write of a byte through the window. -/
def Pkt.poke (p : Pkt) (off : Nat) (v : Byte) : Pkt :=
  match (List.range p.cells).find? fun k => decide (Config.cellPlace p.serial k = off / 256) && decide (off % 256 < (p.entry k).count) with
  | some k => { p with data := p.data.set (256 * k + off % 256) v }
  | none => p

/-- Bytes written through the window, which only Production Test admits (R323). -/
def Bob.writeWindow (b : Bob) (off : Nat) (bs : List Byte) : Bob :=
  bs.zipIdx.foldl (fun x p =>
    { x with poked := assocSet x.poked (off + p.2) p.1,
             queues := x.queues.map fun q => (q.1, { q.2 with pkts := q.2.pkts.map fun y => y.poke (off + p.2) p.1 }) }) b

/-! ### Audit (R325) -/

/-- A damaged link table entry: every packet of the queue from it on is discarded and reported (R325; 01 R39), and its cells are
neither free nor reachable until the next audit. -/
def Dev.loseFrom (d : Dev) (n k : Nat) : Dev :=
  let q := d.bob.queue n
  if k < q.pkts.length then
    ((d.onQueue n fun x => { x with pkts := x.pkts.take k }).onBob fun b =>
      { b with leaked := b.leaked + ({ q with pkts := q.pkts.drop k }).cells }).raise 17 n 0
  else d

/-- The audit returns to the free list every cell that is neither free nor reachable (R325). -/
def Dev.ownershipAudit (d : Dev) : Dev := d.onBob fun b => { b with leaked := 0 }

end Sys2Proof.Machine
end

