-- ==== Sys2Proof/Machine/Admission.lean ====
section
/-! DEFINITION. Admission of a layout (01 R41; 07 R235, R236; 08 R302; 09 R309, R311; 10 R340, R341; 11 R392, R395)
and the credits and lane assignment it brings. Sums of rates are exact rationals. -/

namespace Sys2Proof.Machine

/-- Events of `n` per `t` ns as a rate per second. -/
def rate (n t : Nat) : Rat := (n * 1000000000 : Nat) / (t : Rat)

/-- Sum of a list. -/
def sumR (l : List Rat) : Rat := l.foldl (· + ·) 0
def sumN (l : List Nat) : Nat := l.foldl (· + ·) 0

/-- Line rate of a creel rate code in bit/s on the wire (04 R116). -/
def creelBaud (c : Nat) : Nat := match c with | 0 => 3125000000 | 1 => 6250000000 | _ => 12500000000

/-- Line rate of a ply rate code (11 R369). -/
def plyBaud (c : Nat) : Nat :=
  match c with | 0 => 3750000000 | 1 => 7500000000 | 2 => 10000000000 | 3 => 12500000000 | _ => 15000000000

/-- Profile of a strand of the image, the empty one where there is none. -/
def Image.prof (i : Image) (n : Nat) : Profile := (i.profile n).getD Profile.none

/-- Merged sample rate of a strand. -/
def Image.sampleRate (i : Image) (n : Nat) : Rat := let q := i.prof n; rate (q.width * q.height) q.period

/-- Strands of a layout that can be active: masked, on an enabled port. -/
def Image.liveStrands (i : Image) (l : LayoutCfg) : List Nat := l.strands.filter fun n => (i.portCfg (n / 4)).enabled

/-- Recorded strands of a layout. -/
def LayoutCfg.recorded (l : LayoutCfg) : List Nat := bitsOf 64 l.recordMask

/-- Recorded sample rate S_r. -/
def Image.recRate (i : Image) (l : LayoutCfg) : Rat := sumR (l.recorded.map i.sampleRate)

/-- Creel ceilings of R41, at the rate codes given per port. -/
def Image.creelOk (i : Image) (l : LayoutCfg) (rates : Nat → Nat) : Bool :=
  (List.range 16).all fun p =>
    let load := sumR ((l.strands.filter fun n => n / 4 = p).map fun n =>
      let q := i.prof n; rate (q.width * q.height * q.exposures * rawBits q.dataType) q.period)
    decide (load ≤ (8 : Rat) / 10 * (creelBaud (rates p) : Nat))

/-- Carding ceilings of R41. -/
def Image.cardOk (i : Image) (l : LayoutCfg) : Bool :=
  (List.range 16).all fun p =>
    let load := sumR ((l.strands.filter fun n => n / 4 = p).map fun n =>
      let q := i.prof n; rate (q.width * q.height * q.exposures) q.period)
    decide (load ≤ 1200000000)

/-- Spindle lane-operations per second that W spindles give at the life floor (R41, R235). -/
def Image.laneOps (i : Image) : Rat := (85 : Rat) / 100 * ((64 - i.spareCount) * 850000000 * 32 : Nat)

/-- Spindle ceiling of R41. -/
def Image.spindleOk (i : Image) (l : LayoutCfg) : Bool :=
  decide (sumR (l.streams.map fun e => rate (e.width * e.height * (i.chainOf e).k) e.period) ≤ i.laneOps)

/-- Frame-store ceiling of R41: peak bandwidth 68.264 GB/s at 8533 MT/s. -/
def Image.storeOk (i : Image) (l : LayoutCfg) : Bool :=
  let s := sumR (l.strands.map i.sampleRate)
  let sf (e : StreamCfg) : Rat :=
    if l.streaming then 0 else ((i.chainOf e).amp : Rat) / 256 * sumR (e.sources.map i.sampleRate)
  let load := 2 * s + 2 * sumR (l.streams.map sf) + 2 * i.recRate l +
    sumR (l.streams.map fun e => rate (e.width * e.height * e.pixBytes) e.period) +
    sumR ((l.streams.filter StreamCfg.tnf).map fun e => rate (e.width * e.height * e.pixBytes) e.period)
  decide (load ≤ (7 : Rat) / 10 * 7 / 8 * 68264000000)

/-- Hank ceiling of R41. -/
def Image.hankOk (i : Image) (l : LayoutCfg) : Bool := decide (2 * i.recRate l ≤ 2720000000)

/-- Ply ceiling at `w` lanes in bit/s (R41). -/
def plyCeiling (code w : Nat) : Rat := (9 : Rat) / 10 * (w * plyBaud code : Nat) * 8 / 10 * 496 / 512

/-- Ply ceiling of R41. -/
def Image.plyOk (i : Image) (l : LayoutCfg) (code : Nat) : Bool :=
  decide (sumR (l.streams.map fun e => rate (e.width * e.height * e.linkBits) e.period) + 16 * i.recRate l
    ≤ plyCeiling code i.ply.lanes)

/-- The six ceilings of R41. -/
def Image.ceilings (i : Image) (l : LayoutCfg) (rates : Nat → Nat) (ply : Nat) : Bool :=
  i.creelOk l rates && i.cardOk l && i.spindleOk l && i.storeOk l && i.hankOk l && i.plyOk l ply

/-- Lane-cycles of a tile (07 R234). -/
def tileCycles (w h k : Nat) : Nat := (w * h * k + 31) / 32

/-- The conditions of 07 R236. -/
def Image.r236 (i : Image) (l : LayoutCfg) : Bool :=
  let frame : List StreamCfg := if l.streaming then [] else l.streams
  let strm : List StreamCfg := if l.streaming then l.streams else []
  let hs (e : StreamCfg) := min l.tileH e.height
  let k (e : StreamCfg) := (i.chainOf e).k
  let ops (f : StreamCfg → Nat) (es : List StreamCfg) : Rat := (sumN (es.map f) : Nat)
  let tmin : Nat := (frame.map StreamCfg.period).foldl min (2 ^ 32)
  let dmin : Rat := (frame.map fun e => (e.period : Rat) / (l.rows e : Nat)).foldl min (2 ^ 32 : Nat)
  (l.streams.all fun e =>
    decide (((tileCycles (min l.tileW e.width) (hs e) (k e) : Nat) : Rat) / 850000000 + 2 / 1000000 ≤ 5 / 10000)) &&
  decide (ops (fun e => e.width * hs e * k e) strm ≤ i.laneOps / 1000) &&
  (frame.isEmpty || decide (ops (fun e => e.width * e.height * k e) frame ≤ i.laneOps * tmin / 1000000000)) &&
  (frame.all fun e => decide ((1000000 : Rat) ≤ (e.period : Rat) / (l.rows e : Nat))) &&
  (frame.isEmpty || decide (ops (fun e => e.width * hs e * k e) frame ≤ i.laneOps * dmin / 1000000000)) &&
  decide (sumN (l.streams.map l.tiles) ≤ 8192) &&
  (l.streams.all fun e => decide ((i.chainOf e).storeNeed ≤ 512))

/-- The reach limit of 08 R302. -/
def Image.reachOk (l : LayoutCfg) : Bool := !l.streaming || l.streams.all fun e => decide (Config.reach e.chain ≤ 128)

/-! ### Credits (09 R309) -/

/-- D of R309 for a strand: over the streaming streams that read it and their consecutive bands. -/
def LayoutCfg.depth (l : LayoutCfg) (n : Nat) : Nat :=
  (l.streams.flatMap fun e => (List.range 4).flatMap fun s =>
    if e.sources[s]? = some n then
      (List.range (l.rows e - 1)).map fun b =>
        (Config.footprint e.chain (b + 1) s).2 + 1 - (Config.footprint e.chain b s).1
    else []).foldl max 0

/-- A streaming-mode stream of the layout reads the strand (R308). -/
def LayoutCfg.streamed (l : LayoutCfg) (n : Nat) : Bool := l.streaming && l.streams.any fun e => e.sources.contains n

/-- Credits of every queue that a layout uses, by queue number (R309). -/
def Image.credits (i : Image) (l : LayoutCfg) : List (Nat × Nat) :=
  (l.strands.map fun n =>
    (n, ((if l.streamed n then l.depth n else 0) + 8) * cellsOf (2 * (i.prof n).width))) ++
  (l.strands.map fun n => (64 + n, 2 * cellsOf (i.statsLen n))) ++
  (l.streams.map fun e => (128 + e.id, 2 * l.bandCells e)) ++
  (if l.recordMask = 0 then [] else (List.range 4).map fun k => (192 + k, 1024))

/-- Cells of the fixed and layout-dependent credits (R311). -/
def Image.creditSum (i : Image) (l : LayoutCfg) : Nat := sumN ((i.credits l).map fun p => p.2) + 4096 + 2048

/-! ### Hank lanes (10 R340, R341, R362) -/

/-- Record load of a strand in bytes per second. -/
def Image.recordLoad (i : Image) (n : Nat) : Rat := let q := i.prof n; rate (2 * q.width * q.height + 32768) q.period

/-- Insert by descending load, ascending number on a tie. -/
def insertLoad (i : Image) (n : Nat) : List Nat → List Nat
  | [] => [n]
  | m :: l => if i.recordLoad m < i.recordLoad n then n :: m :: l else m :: insertLoad i n l

/-- Recorded strands in the order of R340. -/
def Image.recordOrder (i : Image) (ns : List Nat) : List Nat := ns.foldl (fun l n => insertLoad i n l) []

/-- Load of a lane. -/
def Image.laneLoad (i : Image) (ns : List Nat) : Rat := sumR (ns.map i.recordLoad)

/-- Place a strand on the least loaded of the lanes `ok` that holds fewer than 12 strands and, with a limit, stays
within it (R340, R362). Answers the lanes and the strands that fit nowhere. -/
def Image.place (i : Image) (ok : List (Fin 4)) (limit : Option Rat) (acc : Vector (List Nat) 4 × List Nat) (n : Nat) :
    Vector (List Nat) 4 × List Nat :=
  let fits (k : Fin 4) : Bool := decide ((acc.1[k]).length < 12) && (match limit with
    | some x => decide (i.laneLoad (acc.1[k]) + i.recordLoad n ≤ x)
    | none => true)
  let best := (ok.filter fits).foldl (fun (b : Option (Fin 4)) k => match b with
    | none => some k
    | some j => if i.laneLoad (acc.1[k]) < i.laneLoad (acc.1[j]) then some k else some j) none
  match best with
  | some k => (upd acc.1 k fun x => x ++ [n], acc.2)
  | none => (acc.1, acc.2 ++ [n])

/-- Lane assignment of a list of strands over the lanes `ok` (R340; R362 with the limit of 0.8 GB/s). -/
def Image.assignLanes (i : Image) (ok : List (Fin 4)) (limit : Option Rat) (ns : List Nat) :
    Vector (List Nat) 4 × List Nat :=
  (i.recordOrder ns).foldl (i.place ok limit) (Vector.replicate 4 [], [])

/-- R341. -/
def Image.lanesOk (i : Image) (l : LayoutCfg) : Bool :=
  let r := i.assignLanes (List.finRange 4) none l.recorded
  r.2.isEmpty && r.1.toList.all fun ns => decide (i.laneLoad ns ≤ 680000000)

/-! ### Shed rows (11 R392, R395) -/

/-- Shed row at `w` lanes: streams, record strands. -/
def Image.shedRow (i : Image) (l : LayoutCfg) (w : Nat) : DWord × DWord :=
  if i.ply.lanes ≤ w ∨ w = 0 then (0, 0)
  else match l.shed with
    | some rows => let r := nth rows (w - 1) (0, 0); (BitVec.ofNat 64 r.1, BitVec.ofNat 64 r.2)
    | none => (0, BitVec.ofNat 64 l.recordMask)

/-- Bytes of one full band on the link, with its video line headers (R395). -/
def LayoutCfg.bandBytes (l : LayoutCfg) (e : StreamCfg) : Nat :=
  min l.tileH e.height * (8 + e.lineBytes e.width)

/-- R395 at every width. -/
def Image.burstOk (i : Image) (l : LayoutCfg) (code : Nat) : Bool :=
  (List.range i.ply.lanes).all fun j =>
    let w := j + 1
    let live := l.streams.filter fun e => !((i.shedRow l w).1.getLsbD e.id)
    let t : Rat := if l.streaming ∧ !live.isEmpty then 45 / 100000 else 25 / 10000
    decide (((sumN (live.map l.bandBytes) + 65544 : Nat) : Rat) ≤ t * plyCeiling code w / 8)

/-- The admission of a layout at given lane rates (R41, R236, R302, R311, R341, R395). -/
def Image.admits (i : Image) (l : LayoutCfg) (rates : Nat → Nat) (ply : Nat) : Bool :=
  i.ceilings l rates ply && i.r236 l && Image.reachOk l && decide (i.creditSum l ≤ poolCells) && i.lanesOk l &&
    i.burstOk l ply

/-- Rate code of a creel port in this start: the plan's where it gives one for the booted generation, else the
image's (04 R149; 16 R567). -/
def Dev.creelRate (d : Dev) (p : Nat) : Nat :=
  match d.img with
  | some i =>
    let c := nth d.age.startPlan.creelRates p 0xFF
    if d.age.startPlan.valid ∧ d.age.startPlan.generation = i.generation ∧ c ≠ 0xFF then c else (i.portCfg p).rate
  | none => 0

/-- Rate code of the ply link in this start (11 R370; 16 R567). -/
def Dev.plyRate (d : Dev) : Nat :=
  match d.img with
  | some i =>
    if d.age.startPlan.valid ∧ d.age.startPlan.generation = i.generation ∧ d.age.startPlan.plyRate ≠ 0xFF then d.age.startPlan.plyRate
    else i.ply.rate
  | none => 0

/-- The device admits a layout when it activates it (01 R41). Ceilings use the rates in force. -/
def Dev.admits (d : Dev) (l : LayoutCfg) : Bool :=
  match d.img with
  | some i => i.admits l d.creelRate d.plyRate
  | none => false

end Sys2Proof.Machine
end

