-- ==== Sys2Proof/Machine/JournalFormat.lean ====
section
/-! DEFINITION. The byte layout of a journal record set, writing and reading it
(02_image_and_journal.md R61 to R67, R72, R632; 16_guarantees_health_ageing.md R568, R569). -/

namespace Sys2Proof.Machine

/-- NVM address of a slot of a journal bank (R43, journal section). -/
def slotAddr (bank slot : Nat) : Nat := 0x2000000 + bank * 0x400000 + slot * 0x4000

/-- A value of `n` bytes followed by its complement (R52). -/
def cpBytes (n v : Nat) : List Byte := le n v ++ le n (256 ^ n - 1 - v % 256 ^ n)

/-- Eight bytes of an exposure entry (11_ply_link.md R383). -/
def expBytes (e : Exposure) : List Byte := le 4 e.integ ++ le 2 e.again ++ le 2 e.dgain

/-- Four exposure entries, zero where none is held. -/
def exp4Bytes (l : List Exposure) : List Byte :=
  (List.range 4).flatMap fun i => expBytes (nth l i ⟨0, 0, 0⟩)

/-- The invalid seeds. -/
def ExpSeed.none : ExpSeed := ⟨false, false, 0, [], 0⟩
def EqSeed.none : EqSeed := ⟨false, 0, ⟨0, 0, 0, 0, 0⟩⟩

/-- 48 bytes of an exposure seed (R63). -/
def ExpSeed.bytes (e : ExpSeed) : List Byte :=
  le 1 ((if e.valid then 1 else 0) + (if e.converged then 2 else 0)) ++ le 1 e.entries.length ++ le 2 e.profile ++
    le 4 0 ++ exp4Bytes e.entries ++ le 4 e.settle ++ le 4 0

/-- 32 bytes of an equaliser seed (R63). -/
def EqSeed.bytes (e : EqSeed) : List Byte :=
  le 1 (if e.valid then 1 else 0) ++ le 1 e.rate ++
    [e.coeffs.peaking, e.coeffs.gain, e.coeffs.dfe1, e.coeffs.dfe2, e.coeffs.dfe3] ++ zeros 25

/-- 256 bytes of a margin plan (16 R568). -/
def Plan.bytes (p : Plan) : List Byte :=
  le 1 (if p.valid then 1 else 0) ++ le 1 1 ++ le 2 0 ++ le 4 p.number ++ le 4 p.generation ++ le 4 p.minutes ++
    le 2 p.spa ++ le 2 p.spb ++ le 2 p.avs ++ le 2 p.vmin ++ le 8 p.retired.toNat ++
    ((List.range 16).flatMap fun i => le 1 (nth p.creelRates i 0xFF)) ++ le 1 p.plyRate ++ le 1 p.cause ++
    le 2 p.slack ++ zeros 204

/-- 16 bytes of a fault event record: the named fields in order, then two zero bytes (R569; log 13). -/
def FaultEvent.bytes (e : FaultEvent) : List Byte :=
  le 4 e.minutes ++ le 2 e.start ++ le 1 e.bit ++ le 1 e.cls ++ le 2 e.source ++ le 4 e.detail ++ le 2 0

/-- The newest-first list as a ring of `n`: the record at ring position `p`, given the total ever added. -/
def ringAt {α : Type} (n total : Nat) (l : List α) (p : Nat) : Option α :=
  let i := (total + n - 1 - p) % n
  if i < l.length ∧ i < n then l[i]? else none

/-- 8192 bytes of the ageing history (16 R569). -/
def History.bytes (h : History) : List Byte :=
  le 4 h.minutes ++ le 4 h.sincePlan ++ le 4 h.starts ++ le 4 h.brownOuts ++ le 4 h.powerFails ++ le 4 h.plyEvents ++
    le 4 h.memCe ++ le 4 h.diagWrites ++ zeros 32 ++
    ((List.range 12).flatMap fun i => (List.range 16).flatMap fun k => le 4 (nth (nth h.hist i []) k 0)) ++
    ((List.range 12).flatMap fun i => le 8 (nth h.stress i 0)) ++
    ((List.range 80).flatMap fun i => let x := nth h.slack i (0, 0); le 2 x.1 ++ le 2 x.2) ++
    ((List.range 22).flatMap fun i =>
      let x := nth h.eyes i (0, 0, 0, 0); le 1 x.1 ++ le 1 x.2.1 ++ le 1 x.2.2.1 ++ le 1 x.2.2.2) ++
    ((List.range 16).flatMap fun i => let x := nth h.currents i (0, 0); le 4 x.1 ++ le 4 x.2) ++
    le 2 h.vmin ++ le 2 h.vminBase ++ le 2 h.vminWorst ++ le 2 0 ++
    le 4 h.eventTotal ++ le 2 (h.eventTotal % 400) ++ zeros 10 ++
    ((List.range 400).flatMap fun p =>
      match ringAt 400 h.eventTotal h.events p with
      | some e => e.bytes
      | none => zeros 16) ++ zeros 304

/-- 32 bytes of an access log record (R65). -/
def AccessRec.bytes (r : AccessRec) : List Byte :=
  le 4 r.sec ++ le 4 r.ns ++ le 1 r.path ++ le 1 r.size ++ le 2 r.origin.toNat ++ le 4 r.detail.toNat ++
    le 4 r.addr.toNat ++ le 4 r.value.toNat ++ le 4 r.len ++ le 2 r.result ++ le 2 0

/-- Equaliser seed of a lane in R62 order as it stands: the working set of a creel or ring lane (04 R153, 13 R458),
else the seed held. -/
def Dev.eqSeedNow (d : Dev) (i : Nat) : EqSeed :=
  if h : i < 16 then
    match (d.ports[i]).working with
    | some c => ⟨true, (d.ports[i]).rate, c⟩
    | none => nth d.jnl.eqSeeds i EqSeed.none
  else if h : 17 ≤ i ∧ i < 21 then
    match (d.skn.ports[i - 17]'(by omega)).coeffs with
    | some c => ⟨true, 1, c⟩
    | none => nth d.jnl.eqSeeds i EqSeed.none
  else nth d.jnl.eqSeeds i EqSeed.none

/-- The first 0x3FF8 bytes of a record set of a cause and sequence (R62). While no bank is active (ROM safe personality,
Production Test, an image still loading) the spec gives no image generation: it is written as 0 (DESIGN CHOICE, log 45). -/
def Dev.setBody (d : Dev) (cause seq : Nat) : List Byte :=
  le 4 0x4C4E524A ++ le 2 1 ++ le 2 cause ++ le 4 seq ++
    le 4 (match d.img with | some i => i.generation | none => 0) ++ (d.whl.timeNow 0).bytes ++
    cpBytes 1 d.jnl.pin ++ le 2 0 ++ cpBytes 2 (d.jnl.nodes[0]).toNat ++ cpBytes 2 (d.jnl.nodes[1]).toNat ++
    zeros 20 ++ ((List.range 64).flatMap fun i => (nth d.jnl.expSeeds i ExpSeed.none).bytes) ++
    ((List.range 32).flatMap fun i => (if i < 22 then d.eqSeedNow i else EqSeed.none).bytes) ++
    d.jnl.plan.bytes ++ d.jnl.history.bytes ++
    le 4 d.jnl.logTotal ++ le 4 d.jnl.logDropped ++ le 2 (d.jnl.logTotal % 64) ++ zeros 6 ++
    ((List.range 64).flatMap fun p =>
      match ringAt 64 d.jnl.logTotal d.jnl.log p with
      | some r => r.bytes
      | none => zeros 32) ++ zeros 1704

/-- A whole record set of 16 KiB with its CRC pair (R62). -/
def Dev.setBytes (d : Dev) (cause seq : Nat) : List Byte :=
  let b := d.setBody cause seq
  b ++ crcPair (crc32c b)

/-! ### Reading -/

/-- A number of `n` bytes at offset `o` of a byte reader. -/
def rdN (rd : Nat → Byte) (o n : Nat) : Nat := fromLe ((List.range n).map fun i => rd (o + i))

/-- `n` bytes at offset `o`. -/
def rdBytes (rd : Nat → Byte) (o n : Nat) : List Byte := (List.range n).map fun i => rd (o + i)

/-- A value whose complement follows it, none where the halves disagree (R52). -/
def rdCp (rd : Nat → Byte) (o n : Nat) : Option Nat :=
  if rdN rd o n + rdN rd (o + n) n = 256 ^ n - 1 then some (rdN rd o n) else none

def rdExp (rd : Nat → Byte) (o : Nat) : Exposure := ⟨rdN rd o 4, rdN rd (o + 4) 2, rdN rd (o + 6) 2⟩

def rdExpSeed (rd : Nat → Byte) (o : Nat) : ExpSeed :=
  { valid := (rdN rd o 1).testBit 0, converged := (rdN rd o 1).testBit 1, profile := rdN rd (o + 2) 2,
    entries := (List.range (min 4 (rdN rd (o + 1) 1))).map fun i => rdExp rd (o + 8 + 8 * i),
    settle := rdN rd (o + 0x28) 4 }

def rdEqSeed (rd : Nat → Byte) (o : Nat) : EqSeed :=
  { valid := rd o = 1, rate := rdN rd (o + 1) 1, coeffs := ⟨rd (o + 2), rd (o + 3), rd (o + 4), rd (o + 5), rd (o + 6)⟩ }

def rdPlan (rd : Nat → Byte) (o : Nat) : Plan :=
  if rdN rd o 1 = 1 then
    { valid := true, number := rdN rd (o + 4) 4, generation := rdN rd (o + 8) 4, minutes := rdN rd (o + 0xC) 4,
      spa := rdN rd (o + 0x10) 2, spb := rdN rd (o + 0x12) 2, avs := rdN rd (o + 0x14) 2,
      vmin := rdN rd (o + 0x16) 2, retired := BitVec.ofNat 64 (rdN rd (o + 0x18) 8),
      creelRates := (List.range 16).map fun i => rdN rd (o + 0x20 + i) 1, plyRate := rdN rd (o + 0x30) 1,
      cause := rdN rd (o + 0x31) 1, slack := rdN rd (o + 0x32) 2 }
  else Plan.none

/-- The newest-first list that a ring of `n` records holds. -/
def unring {α : Type} (n total : Nat) (at' : Nat → α) : List α :=
  (List.range (min n total)).map fun i => at' ((total + n - 1 - i) % n)

def rdEvent (rd : Nat → Byte) (o : Nat) : FaultEvent :=
  ⟨rdN rd o 4, rdN rd (o + 4) 2, rdN rd (o + 6) 1, rdN rd (o + 7) 1, rdN rd (o + 8) 2, rdN rd (o + 10) 4⟩

def rdHistory (rd : Nat → Byte) (o : Nat) : History :=
  { minutes := rdN rd o 4, sincePlan := rdN rd (o + 4) 4, starts := rdN rd (o + 8) 4,
    brownOuts := rdN rd (o + 0xC) 4, powerFails := rdN rd (o + 0x10) 4, plyEvents := rdN rd (o + 0x14) 4,
    memCe := rdN rd (o + 0x18) 4, diagWrites := rdN rd (o + 0x1C) 4,
    hist := (List.range 12).map fun i => (List.range 16).map fun k => rdN rd (o + 0x40 + 64 * i + 4 * k) 4,
    stress := (List.range 12).map fun i => rdN rd (o + 0x340 + 8 * i) 8,
    slack := (List.range 80).map fun i => (rdN rd (o + 0x3A0 + 4 * i) 2, rdN rd (o + 0x3A2 + 4 * i) 2),
    eyes := (List.range 22).map fun i =>
      (rdN rd (o + 0x4E0 + 4 * i) 1, rdN rd (o + 0x4E1 + 4 * i) 1, rdN rd (o + 0x4E2 + 4 * i) 1,
       rdN rd (o + 0x4E3 + 4 * i) 1),
    currents := (List.range 16).map fun i => (rdN rd (o + 0x538 + 8 * i) 4, rdN rd (o + 0x53C + 8 * i) 4),
    vmin := rdN rd (o + 0x5B8) 2, vminBase := rdN rd (o + 0x5BA) 2, vminWorst := rdN rd (o + 0x5BC) 2,
    events := unring 400 (rdN rd (o + 0x5C0) 4) fun p => rdEvent rd (o + 0x5D0 + 16 * p),
    eventTotal := rdN rd (o + 0x5C0) 4 }

def rdAccess (rd : Nat → Byte) (o : Nat) : AccessRec :=
  ⟨rdN rd o 4, rdN rd (o + 4) 4, rdN rd (o + 8) 1, rdN rd (o + 9) 1, BitVec.ofNat 16 (rdN rd (o + 10) 2),
   BitVec.ofNat 32 (rdN rd (o + 12) 4), BitVec.ofNat 32 (rdN rd (o + 16) 4), BitVec.ofNat 32 (rdN rd (o + 20) 4),
   rdN rd (o + 24) 4, rdN rd (o + 28) 2⟩

/-- The CRC pair of a set agrees with itself and with the content (R67). -/
def setPasses (rd : Nat → Byte) : Bool :=
  rdN rd 0x3FF8 4 + rdN rd 0x3FFC 4 = 0xFFFFFFFF ∧ crc32c (rdBytes rd 0 0x3FF8) = rdN rd 0x3FF8 4

/-- a is later than b modulo 2^32 (R59, R66). -/
def seqLater (a b : Nat) : Bool :=
  let x := (a + 2 ^ 32 - b % 2 ^ 32) % 2 ^ 32
  decide (1 ≤ x) && decide (x < 2 ^ 31)

/-- Insert by descending sequence. -/
def insertDesc (x : Nat × Nat × Nat) : List (Nat × Nat × Nat) → List (Nat × Nat × Nat)
  | [] => [x]
  | y :: l => if seqLater x.1 y.1 then x :: y :: l else y :: insertDesc x l

/-- Byte reader of a slot. -/
def Mem.slotReader (m : Mem) (bank slot : Nat) : Nat → Byte := fun o => m.nvmByte (slotAddr bank slot + o)

/-- A slot is erased. -/
def Mem.slotErased (m : Mem) (bank slot : Nat) : Bool :=
  !(m.nvm.any fun c => decide (slotAddr bank slot ≤ c.1) && decide (c.1 < slotAddr bank slot + 0x4000))

/-- Sequence, bank and slot of every slot with a correct magic, descending (R66). -/
def Mem.headers (m : Mem) : List (Nat × Nat × Nat) :=
  (List.range 512).foldl (fun l k =>
    let bank := k / 256
    let slot := k % 256
    if m.slotErased bank slot then l
    else
      let rd := m.slotReader bank slot
      if rdN rd 0 4 = 0x4C4E524A then insertDesc (rdN rd 8 4, bank, slot) l else l) []

/-- The passing sets, newest first (R66, R67). -/
def Mem.validSets (m : Mem) : List (Nat × Nat × Nat) :=
  m.headers.filter fun h => setPasses (m.slotReader h.2.1 h.2.2)

/-- A CP field of the current set, or of the newest older passing set that holds a valid pair (R632). -/
def Mem.cpField (m : Mem) (sets : List (Nat × Nat × Nat)) (o n : Nat) : Option Nat :=
  match sets with
  | [] => none
  | h :: l =>
    match rdCp (m.slotReader h.2.1 h.2.2) o n with
    | some v => some v
    | none => m.cpField l o n

/-- The current set itself has a broken pair at `o` (R632). -/
def Mem.cpBroken (m : Mem) (sets : List (Nat × Nat × Nat)) (o n : Nat) : Bool :=
  match sets with
  | [] => false
  | h :: _ => (rdCp (m.slotReader h.2.1 h.2.2) o n).isNone

/-- Target slot of a bank at start, and the sector to erase first, if any (R72). -/
def Mem.targetSlot (m : Mem) (bank : Nat) : Nat × Option Nat :=
  let t := match m.headers.find? (fun h => h.2.1 = bank) with
    | some h => (h.2.2 + 1) % 256
    | none => 0
  if m.slotErased bank t then (t, none)
  else
    match m.validSets.find? (fun h => h.2.1 = bank) with
    | some v => if v.2.2 / 4 = t / 4 then ((t / 4 + 1) % 64 * 4, some ((t / 4 + 1) % 64)) else (t, some (t / 4))
    | none => (t, some (t / 4))

/-- The journal in force after the scan of R66, with the fault bits it raises (R67, R632). -/
def Mem.scanJournal (m : Mem) (fitted : Bool) : Journal × List Nat :=
  if !fitted then (Journal.reset, [2])
  else
    let sets := m.validSets
    let t0 := m.targetSlot 0
    let t1 := m.targetSlot 1
    let base : Journal := { Journal.reset with
      slot := #v[t0.1, t1.1],
      erasing := (t0.2.toList.map fun x => (0, x)) ++ (t1.2.toList.map fun x => (1, x)) }
    match sets with
    | [] => (base, [2])
    | h :: _ =>
      let rd := m.slotReader h.2.1 h.2.2
      let broken := m.cpBroken sets 0x20 1 || m.cpBroken sets 0x24 2 || m.cpBroken sets 0x28 2
      ({ base with
         pin := (m.cpField sets 0x20 1).getD 0,
         nodes := #v[BitVec.ofNat 16 ((m.cpField sets 0x24 2).getD 0xFFFF),
                     BitVec.ofNat 16 ((m.cpField sets 0x28 2).getD 0xFFFF)],
         expSeeds := (List.range 64).map fun i => rdExpSeed rd (0x40 + 48 * i),
         eqSeeds := (List.range 22).map fun i => rdEqSeed rd (0xC40 + 32 * i),
         plan := rdPlan rd 0x1040, history := rdHistory rd 0x1140,
         log := unring 64 (rdN rd 0x3140 4) fun p => rdAccess rd (0x3150 + 32 * p),
         logTotal := rdN rd 0x3140 4, logDropped := rdN rd 0x3144 4, seq := h.1, changed := broken },
       if broken then [18] else [])

end Sys2Proof.Machine
end

