-- ==== Sys2Proof/Machine/BankParse.lean ====
section
/-! DEFINITION. Reading an image bank: header, section table and the contents of the sections as typed data
(02_image_and_journal.md R47 to R57 and the layout tables of the chapters that extend its sections). A reader is
total: what it reads of a malformed bank is judged by R58 afterwards. -/

namespace Sys2Proof.Machine

/-- A section table entry (R49). -/
structure Sect where
  typ : Nat
  flags : Nat
  off : Nat
  len : Nat
  crc : Nat
  deriving DecidableEq, Repr

/-- A byte reader with the number of bytes it may read. -/
structure Rd where
  get : Nat → Byte
  len : Nat

/-- A number of `n` bytes at `o`. -/
def Rd.n (r : Rd) (o n : Nat) : Nat := rdN r.get o n
/-- A signed number of `n` bytes at `o`. -/
def Rd.i (r : Rd) (o n : Nat) : Int := signed (8 * n) (r.n o n)
/-- `o` to `o + n` lies within the section. -/
def Rd.fits (r : Rd) (o n : Nat) : Bool := decide (o + n ≤ r.len)
/-- `n` bytes at `o` are zero. -/
def Rd.zero (r : Rd) (o n : Nat) : Bool := (List.range n).all fun k => decide (r.get (o + k) = 0)
/-- A value and its complement agree (R52). -/
def Rd.cp (r : Rd) (o n : Nat) : Bool := decide (r.n o n + r.n (o + n) n = 256 ^ n - 1)
/-- The reader from `o` on. -/
def Rd.from (r : Rd) (o : Nat) : Rd := ⟨fun k => r.get (o + k), r.len - o⟩

/-- Section table (R47, R49), at most 64 entries. -/
def Rd.sects (b : Rd) : List Sect :=
  (List.range (min 64 (b.n 0x12 2))).map fun k =>
    let o := 0x100 + 16 * k
    ⟨b.n o 2, b.n (o + 2) 2, b.n (o + 4) 4, b.n (o + 8) 4, b.n (o + 12) 4⟩

/-- Reader of the first section of a type; an empty one where it is absent. -/
def Rd.section (b : Rd) (t : Nat) : Rd :=
  match b.sects.find? fun s => decide (s.typ = t) with
  | some s => ⟨(b.from s.off).get, s.len⟩
  | none => ⟨fun _ => 0, 0⟩

/-- A section of a type is present. -/
def Rd.has (b : Rd) (t : Nat) : Bool := b.sects.any fun s => decide (s.typ = t)

/-- Exposure entry of 8 bytes. -/
def Rd.expo (r : Rd) (o : Nat) : Exposure := ⟨r.n o 4, r.n (o + 4) 2, r.n (o + 6) 2⟩

/-! ### Device parameters (type 1) -/

def Rd.port (v : Rd) (p : Nat) : PortCfg :=
  let o := 0x10 + 24 * p
  { rate := v.n o 1, minEye := v.n (o + 1) 1, i2cSpeed := v.n (o + 2) 1, enabled := (v.n (o + 3) 1).testBit 0,
    vcs := (List.range 4).map fun s => v.n (o + 4 + s) 1, profiles := (List.range 4).map fun s => v.n (o + 12 + 2 * s) 2 }

def Rd.captureAt (v : Rd) (n : Nat) : CaptureCfg :=
  let o := 0x190 + 16 * n
  let mode := v.n o 1
  { mode := mode, whorl := v.n (o + 1) 1, group := v.n (o + 2) 1, trigIn := v.n (o + 3) 1, period := v.n (o + 4) 4,
    phase := if mode = 2 then (v.n (o + 8) 4 : Int) else v.i (o + 8) 4, markDir := v.n (o + 12) 1,
    markRepeat := v.n (o + 13) 1 }

def Rd.cardAt (v : Rd) (n : Nat) : CardingCfg :=
  let o := 0x590 + 16 * n
  { block := v.n o 2, zoneCols := v.n (o + 2) 1, zoneRows := v.n (o + 3) 1, winX := v.n (o + 4) 2,
    winY := v.n (o + 6) 2, winW := v.n (o + 8) 2, winH := v.n (o + 10) 2, chanMask := v.n (o + 12) 1,
    binHeight := v.n (o + 13) 1 }

def Rd.crcAt (v : Rd) (o : Nat) : CrcCfg :=
  { poly := v.n o 4, init := v.n (o + 4) 4, xorOut := v.n (o + 8) 4, refIn := (v.n (o + 12) 1).testBit 0,
    refOut := (v.n (o + 12) 1).testBit 1 }

def Rd.convAt (v : Rd) (k : Nat) : ConvCfg :=
  let o := 0x9C8 + 16 * k
  { mode := v.n o 1, lockedW7 := v.n (o + 1) 1 = 1, turns := v.n (o + 2) 1, period := v.n (o + 4) 4,
    scan := (List.range (min 8 (v.n (o + 3) 1))).map fun j => v.n (o + 8 + j) 1 }

def Rd.inputAt (v : Rd) (k : Nat) : InputCfg :=
  let o := 0xA08 + 16 * k
  { kind := v.n o 1, gain := v.n (o + 1) 1, pull := v.n (o + 2) 1, actions := v.n (o + 3) 1, lower := v.n (o + 4) 2,
    upper := v.n (o + 6) 2, startConv := v.n (o + 12) 1, openThr := v.n (o + 14) 2 }

def Rd.bindAt (v : Rd) (k : Nat) : BindCfg :=
  let o := 0xB88 + 8 * k
  ⟨v.n o 1, v.n (o + 1) 1, v.n (o + 2) 1, v.n (o + 3) 1⟩

/-! ### Sensor profiles (type 3) -/

def Rd.profileAt (v : Rd) (o : Nat) : Profile :=
  let e := v.n (o + 0x0D) 1
  let x := v.n (o + 0x38) 4
  { id := v.n o 2, latency := v.n (o + 2) 1, readback := v.n (o + 3) 1, winFirst := v.n (o + 4) 2,
    winLast := v.n (o + 6) 2, width := v.n (o + 8) 2, height := v.n (o + 10) 2, dataType := v.n (o + 12) 1,
    exposures := e, mosaic := v.n (o + 14) 2, period := v.n (o + 16) 4, policy := v.n (o + 20) 1,
    pwl := v.n (o + 21) 1, defects := v.n (o + 22) 2,
    limits := ⟨v.n (o + 24) 4, v.n (o + 28) 4, v.n (o + 32) 2, v.n (o + 34) 2⟩,
    writeSeqOff := v.n (o + 0x30) 4, readbackOff := v.n (o + 0x34) 4,
    defaultExp := (List.range (min 4 e)).map fun k => v.expo (x + 8 * k) }

/-- Profiles stand first, up to the tables that they name by offset (log 14). -/
def Rd.profilesFrom (v : Rd) : (fuel i stop : Nat) → List Profile
  | 0, _, _ => []
  | fuel + 1, i, stop =>
    if 64 * (i + 1) ≤ stop then
      let next := 64 * (i + 1)
      let stop1 := ([v.n (64 * i + 0x30) 4, v.n (64 * i + 0x34) 4, v.n (64 * i + 0x38) 4].filter
        fun o => decide (next ≤ o)).foldl min stop
      v.profileAt (64 * i) :: v.profilesFrom fuel (i + 1) stop1
    else []

/-- The profiles, one more than R54 allows so that its limit can be judged. -/
def Rd.profiles (v : Rd) : List Profile := v.profilesFrom 33 0 v.len

/-! ### Layout descriptors (type 4) with shed tables (type 0xC) -/

def Rd.streamAt (v : Rd) (o : Nat) : StreamCfg :=
  { id := v.n o 1, priority := v.n (o + 1) 1, format := v.n (o + 2) 1,
    sources := (List.range (min 4 (v.n (o + 3) 1))).map fun s => v.n (o + 4 + s) 1, chain := v.n (o + 8) 2,
    width := v.n (o + 10) 2, height := v.n (o + 12) 2, flags := v.n (o + 14) 2, cropX := v.n (o + 16) 2,
    cropY := v.n (o + 18) 2, cropW := v.n (o + 20) 2, cropH := v.n (o + 22) 2, period := v.n (o + 32) 4 }

def Rd.layoutAt (v shed : Rd) (hasShed : Bool) (o : Nat) : LayoutCfg :=
  let so := v.n (o + 0x30) 4
  { id := v.n o 1, modeMask := v.n (o + 1) 1, streaming := v.n (o + 3) 1 = 1, digest := v.n (o + 8) 8,
    strandMask := v.n (o + 16) 8, recordMask := v.n (o + 32) 8, entryInterval := v.n (o + 40) 2,
    tileW := v.n (o + 42) 2, tileH := v.n (o + 44) 2, theta := v.n (o + 46) 1, admission := v.n (o + 52) 4,
    shed := if hasShed ∧ so ≠ 0xFFFFFFFF then
        some ((List.range 8).map fun w => (shed.n (so + 16 * w) 8, shed.n (so + 16 * w + 8) 8)) else none,
    streams := (List.range (min 64 (v.n (o + 2) 1))).map fun k => v.streamAt (o + 64 + 48 * k) }

/-- Offsets of the descriptors, one after the other by their length field. -/
def Rd.layoutOffs (v : Rd) : (fuel o : Nat) → List Nat
  | 0, _ => []
  | fuel + 1, o => if o + 64 ≤ v.len then o :: v.layoutOffs fuel (o + max 64 (v.n (o + 4) 4)) else []

def Rd.layoutStarts (v : Rd) : List Nat := v.layoutOffs 17 0

/-! ### Kernel parameter blocks (type 5) -/

/-- Library kernels (08 R267). -/
def kernelIds : List Nat := [0x01, 0x02, 0x03, 0x04, 0x08, 0x09, 0x0C, 0x0D, 0x0E, 0x14, 0x18]

/-- Bytes of a parameter set of a source-domain stage (08 R267). -/
def setSize (k : Nat) : Nat := match k with | 1 => 4 | 2 => 28 | 3 => 8 | _ => 24

def Rd.primAt (v : Rd) (o : Nat) : Primitive :=
  { polygon := v.n o 1 = 2, width := v.n (o + 2) 1, colour := (List.range 3).map fun k => v.n (o + 4 + 2 * k) 2,
    vertices := (List.range (min 8 (v.n (o + 1) 1))).map fun k => (v.n (o + 12 + 4 * k) 2, v.n (o + 14 + 4 * k) 2) }

/-- A stage with its parameters at `p`, a source-domain stage with `sets` parameter sets (08 R267); none for an unknown
kernel. -/
def Rd.stageAt (v : Rd) (k p sets : Nat) : Option Stage :=
  let s16 (o : Nat) : List Int := (List.range 12).map fun j => v.i (o + 2 * j) 2
  match k with
  | 0x01 => some (.demosaic ((List.range sets).map fun s => v.n (p + 4 * s) 1))
  | 0x02 => some (.irsep ((List.range sets).map fun s => (s16 (p + 28 * s), v.n (p + 28 * s + 24) 2)))
  | 0x03 => some (.wb ((List.range sets).map fun s => (List.range 4).map fun j => v.n (p + 8 * s + 2 * j) 2))
  | 0x04 => some (.ccm ((List.range sets).map fun s => s16 (p + 24 * s)))
  | 0x08 => some .cropscale
  | 0x09 => some (.warp (v.n p 2))
  | 0x0C => some (.ltm (v.n p 1) (v.n (p + 1) 1) ((List.range 256).map fun j => v.n (p + 4 + 2 * j) 2))
  | 0x0D => some (.tone (v.n p 2))
  | 0x0E => some (.transfer (v.n p 2))
  | 0x14 => some (.tnf (v.n p 1) (v.n (p + 2) 2) (v.n (p + 4) 2))
  | 0x18 => some (.overlay ((List.range (min 16 (v.n p 1))).map fun j => v.primAt (p + 4 + 48 * j)))
  | _ => none

/-- Kernel ID and parameter offset of the stages of a block. -/
def Rd.rawStages (b : Rd) : List (Nat × Nat) :=
  (List.range (min 16 (b.n 2 2))).map fun k => (b.n (0x10 + 8 * k) 2, b.n (0x14 + 8 * k) 4)

/-- Sources that a stream using a chain has, the most over all layouts: the parameter sets of its source-domain stages
(08 R267). -/
def sourcesUsing (ls : List LayoutCfg) (chain : Nat) : Nat :=
  (ls.flatMap fun l => (l.streams.filter fun e => decide (e.chain = chain)).map fun e => e.sources.length).foldl max 0

def Rd.chainAt (b : Rd) (ls : List LayoutCfg) : ChainCfg :=
  { id := b.n 0 2, k := b.n 8 4, amp := b.n 12 2, storeNeed := b.n 14 2,
    stages := b.rawStages.filterMap fun s => b.stageAt s.1 s.2 (sourcesUsing ls (b.n 0 2)) }

/-- Readers of the kernel parameter blocks. -/
def Rd.chainBlocks (v : Rd) : List Rd :=
  (List.range (min 64 (v.n 0 2))).map fun c => v.from (v.n (8 + 4 * c) 4)

def Rd.mosaicAt (v : Rd) (k : Nat) : Mosaic :=
  let o := v.n 4 4 + 72 * k
  { px := v.n o 1, py := v.n (o + 1) 1, codes := (List.range 64).map fun j => v.n (o + 4 + j) 1 }

def Rd.mosaics (v : Rd) : List Mosaic := (List.range (min 32 (v.n 2 2))).map v.mosaicAt

/-! ### PWL and tone-curve tables (type 9), defect maps (7), warp meshes (8) -/

/-- Directory entries: kind, ID, offset (06 R203). -/
def Rd.dir (v : Rd) : List (Nat × Nat × Nat) :=
  (List.range (v.n 0 2)).map fun k => (v.n (4 + 8 * k) 1, v.n (6 + 8 * k) 2, v.n (8 + 8 * k) 4)

def Rd.dirOf (v : Rd) (kind : Nat) : List (Nat × Nat) :=
  (v.dir.filter fun e => decide (e.1 = kind)).map fun e => (e.2.1, e.2.2)

def Rd.pwlAt (v : Rd) (o : Nat) : PwlTable :=
  { id := v.n o 1, width := v.n (o + 2) 1,
    knees := (List.range (min 32 (v.n (o + 1) 1))).map fun k =>
      (v.n (o + 4 + 12 * k) 4, v.n (o + 8 + 12 * k) 4, v.n (o + 12 + 12 * k) 4) }

def Rd.blockAt (v : Rd) (o : Nat) : CardBlock :=
  { id := v.n o 2, dynamicOn := (v.n (o + 2) 1).testBit 0, flickerOn := (v.n (o + 2) 1).testBit 1,
    tRel := v.n (o + 3) 1, tAbs := v.n (o + 4) 4, fAbs := v.n (o + 8) 4, fRel := v.n (o + 12) 1,
    ramp := (List.range 4).map fun e => (v.n (o + 0x18 + 8 * e) 4, v.n (o + 0x1C + 8 * e) 4),
    compander := (List.range 18).map fun k => v.n (o + 0x38 + 4 * k) 4,
    black := (List.range 4).map fun e => (List.range 64).map fun p => v.n (o + 0x80 + 256 * e + 4 * p) 3 }

def Rd.curveAt (v : Rd) (o n : Nat) : Curve := ⟨v.n o 2, (List.range n).map fun k => v.n (o + 4 + 2 * k) 2⟩

/-- Defect maps one after the other (06 R210). -/
def Rd.defectsFrom (v : Rd) : (fuel o : Nat) → List DefectMap
  | 0, _ => []
  | fuel + 1, o =>
    if o + 8 ≤ v.len then
      let n := min 16385 (v.n (o + 4) 4)
      ⟨v.n o 2, (List.range n).map fun k => (v.n (o + 8 + 4 * k) 2, v.n (o + 10 + 4 * k) 2)⟩ ::
        v.defectsFrom fuel (o + 8 + 4 * n)
    else []

/-- Offsets of the defect maps. -/
def Rd.defectOffs (v : Rd) : (fuel o : Nat) → List Nat
  | 0, _ => []
  | fuel + 1, o => if o + 8 ≤ v.len then o :: v.defectOffs fuel (o + 8 + 4 * min 16385 (v.n (o + 4) 4)) else []

/-- Bytes of a warp mesh (08 R282). -/
def meshLen (nx ny g : Nat) : Nat := 8 + 8 * nx * ny * g + (if 1 < g then (nx - 1) * (ny - 1) else 0)

/-- The warp mesh at `o` (08 R282). -/
def Rd.meshAt (v : Rd) (o : Nat) : WarpMesh :=
  let nx := v.n (o + 2) 2
  let ny := v.n (o + 4) 2
  let g := v.n (o + 6) 1
  let nodes := nx * ny
  { id := v.n o 2, nx := nx, ny := ny,
    grids := (List.range g).map fun q => (List.range nodes).map fun k =>
      (v.i (o + 8 + 8 * (q * nodes + k)) 4, v.i (o + 12 + 8 * (q * nodes + k)) 4),
    cells := if 1 < g then (List.range ((nx - 1) * (ny - 1))).map fun k => v.n (o + 8 + 8 * nodes * g + k) 1 else [] }

/-- Offsets of the warp meshes, one after the other (08 R282). -/
def Rd.meshOffs (v : Rd) : (fuel o : Nat) → List Nat
  | 0, _ => []
  | fuel + 1, o =>
    if o + 8 ≤ v.len then o :: v.meshOffs fuel (o + meshLen (v.n (o + 2) 2) (v.n (o + 4) 2) (v.n (o + 6) 1)) else []

def Rd.meshStarts (v : Rd) : List Nat := v.meshOffs 65536 0

/-! ### Ring and network parameters (type 0xA) -/

def Rd.whorlAt (v : Rd) (n : Nat) : WhorlCfg :=
  let o := 0x20 + 24 * n
  { source := v.n o 1, base := v.n (o + 1) 1, stepThr := v.n (o + 2) 2, kp := v.n (o + 4) 2, ki := v.n (o + 6) 2,
    offset := v.i (o + 8) 4, lockThr := v.n (o + 12) 2, lockCount := v.n (o + 14) 1, lossMs := v.n (o + 16) 4 }

def Rd.time (v : Rd) : TimeCfg :=
  { odoEnabled := (v.n 0 1).testBit 0, ptpEnabled := (v.n 0 1).testBit 1,
    whorls := (List.range 5).map v.whorlAt, edgeSize := v.n 0xA0 4, filter := v.n 0xA4 1,
    invert := (v.n 0xA5 1).testBit 0, hysteresis := v.n 0xA8 4, w7Source := v.n 0xB0 1, w7Input := v.n 0xB1 1,
    w7Period := v.n 0xB4 4, w7Kp := v.n 0xB8 2, w7Ki := v.n 0xBA 2,
    holdAges := (List.range 7).map fun k => v.n (0xC0 + 4 * k) 4, ptpProfile := v.n 0xE0 1,
    ptpTransport := v.n 0xE1 1, ptpDomain := v.n 0xE2 1, oneStep := v.n 0xE3 1 = 1, ringQueueMode := v.n 0xE4 1 = 1,
    ppsOut := v.n 0xE5 1, ppsWidth := v.n 0xE6 2, egress := v.i 0xE8 4, ingress := v.i 0xEC 4,
    ppsDelay := v.i 0xF0 4 }

def Rd.ring (v : Rd) : RingCfg :=
  { respTimeout := v.n 0x100 4, bcWait := v.n 0x104 2,
    segments := (List.range 256).map fun s => (v.n (0x110 + 2 * s) 1, v.n (0x111 + 2 * s) 1) }

/-! ### The whole image -/

/-- The image that a bank holds (a section absent takes the defaults of its rule). -/
def Rd.image (b : Rd) (bankB : Bool) : Image :=
  let v := b.section 1
  let t := b.section 9
  let lay := b.section 4
  let w := b.section 0xA
  let ls := lay.layoutStarts.map (lay.layoutAt (b.section 0xC) (b.has 0xC))
  { bankB := bankB, generation := b.n 8 4, digest := b.n 0x18 8, sequence := b.n 0x28 4, spareCount := v.n 0 1,
    spareMin := v.n 2 1, sinkOwner := v.n 4 1 = 1, defaultLayout := v.n 6 1, pfInput := v.n 7 1,
    pfThreshold := v.n 8 4, ports := (List.range 16).map v.port, captures := (List.range 64).map v.captureAt,
    cardings := (List.range 64).map v.cardAt, profiles := (b.section 3).profiles,
    layouts := ls, chains := (b.section 5).chainBlocks.map fun c => c.chainAt ls, mosaics := (b.section 5).mosaics,
    pwls := (t.dirOf 1).map fun e => { t.pwlAt e.2 with id := e.1 },
    blocks := (t.dirOf 2).map fun e => { t.blockAt e.2 with id := e.1 },
    tones := (t.dirOf 3).map fun e => { t.curveAt e.2 273 with id := e.1 },
    transfers := (t.dirOf 4).map fun e => { t.curveAt e.2 1025 with id := e.1 },
    defects := (b.section 7).defectsFrom 65536 0, meshes := (b.section 8).meshStarts.map (b.section 8).meshAt,
    time := if b.has 0xA then w.time else TimeCfg.rom, ring := if b.has 0xA then w.ring else RingCfg.rom,
    convs := (List.range 4).map v.convAt, inputs := (List.range 24).map v.inputAt,
    record := { depth := v.n 0x990 1, lazy := (v.n 0x991 1).testBit 0, crc := v.crcAt 0x994 },
    ply := { rate := v.n 0x9A8 1, lanes := v.n 0x9A9 1, ackTimeout := v.n 0x9AA 2, crc := v.crcAt 0x9AC },
    binds := if v.fits 0xB88 192 then (List.range 24).map v.bindAt else [] }

end Sys2Proof.Machine
end

