-- ==== Sys2Proof/Machine/Bank.lean ====
section
/-! DEFINITION. The validity check of an image bank (02_image_and_journal.md R58, with the conditions that the rules
named in it add), the order of the banks and their result codes (R59, R60), and the frame-store allocation of an
image (09_bobbin_pool_frame_store.md R329, R332). -/

namespace Sys2Proof.Machine

/-- No value occurs twice. -/
def noDup (l : List Nat) : Bool := l.Pairwise (· ≠ ·)

/-- Strictly ascending. -/
def strictUp (l : List Nat) : Bool := (l.zip (l.drop 1)).all fun p => decide (p.1 < p.2)

/-! ### Header (R47, R48, R59) -/

/-- The magic is right; else the bank counts as empty (R60). -/
def Rd.magic (b : Rd) : Bool := decide (b.n 0 4 = 0x4D495349)

/-- Condition 1. -/
def Rd.head1 (b : Rd) : Bool := b.magic && decide (b.n 4 2 = 1) && decide (b.n 6 2 = 0x100)

/-- header_ok of R59. -/
def Rd.headerOk (b : Rd) : Bool := b.head1 && b.cp 0x28 4

/-- newer(x, y) of R59. -/
def Rd.newer (x y : Rd) : Bool :=
  if !y.headerOk then x.headerOk
  else if !x.headerOk then false
  else if x.n 8 4 ≠ y.n 8 4 then decide (y.n 8 4 < x.n 8 4)
  else seqLater (x.n 0x28 4) (y.n 0x28 4)

/-- Image length. -/
def Rd.length (b : Rd) : Nat := b.n 0xC 4

/-- The computed digest (R48). -/
def Rd.digestOf (b : Rd) : Nat := crc64 (rdBytes b.get 0 0x18 ++ rdBytes b.get 0x30 (b.length - 0x30))

/-- Condition 2. -/
def Rd.cond2 (b : Rd) : Bool :=
  decide (b.n 8 4 ≠ 0) && decide (0x200 ≤ b.length) && decide (b.length ≤ 0x1000000) && decide (b.length % 256 = 0)

/-- Condition 5; the silicon revision is SYS_ID[15:0] = 0x0B00 (18 SYS_ID, R3). -/
def Rd.cond5 (b : Rd) : Bool := decide (b.n 0x10 2 ≤ 0x0B00)

/-- Condition 6. -/
def Rd.cond6 (b : Rd) : Bool :=
  (b.sects.all fun s => decide (s.off % 256 = 0) && decide (s.off + s.len ≤ b.length) &&
    decide (crc32c (rdBytes b.get s.off s.len) = s.crc)) &&
  decide ((b.sects.filter fun s => decide (0 < s.len)).Pairwise fun s t => s.off + s.len ≤ t.off ∨ t.off + t.len ≤ s.off)

/-- Condition 7 (R50, R51). -/
def Rd.cond7 (b : Rd) : Bool :=
  ([1, 2, 3, 4, 5, 6].all b.has) && noDup ((b.sects.map Sect.typ).filter fun t => decide (1 ≤ t) && decide (t ≤ 0xC)) &&
  b.sects.all fun s => (decide (1 ≤ s.typ) && decide (s.typ ≤ 0xC)) || s.flags.testBit 0

/-! ### Complement pairs, digests, identifiers -/

/-- Every stream entry of a layout section, as offsets. -/
def Rd.streamOffs (v : Rd) : List Nat :=
  v.layoutStarts.flatMap fun o => (List.range (min 64 (v.n (o + 2) 1))).map fun k => o + 64 + 48 * k

/-- Condition 8: every CP field of the image tables (R53, R54, R55, R56, R116, R500). -/
def Rd.cond8 (b : Rd) : Bool :=
  let v := b.section 1
  let q := b.section 3
  let l := b.section 4
  v.cp 0 1 && v.cp 2 1 && v.cp 4 1 && ((List.range 16).all fun p => v.cp (0x14 + 24 * p) 4) &&
    ((List.range 24).all fun k => v.cp (0xA0C + 16 * k) 4) &&
    ((List.range q.profiles.length).all fun k => q.cp (64 * k + 0x18) 12) &&
    (l.layoutStarts.all fun o => l.cp (o + 0x10) 8) && l.streamOffs.all fun o => l.cp (o + 0x10) 8

/-- Condition 9. -/
def Rd.cond9 (b : Rd) : Bool :=
  let l := b.section 4
  l.layoutStarts.all fun o =>
    decide (crc64 (rdBytes l.get (o + 0x10) (l.n (o + 4) 4 - 0x10)) = l.n (o + 8) 8)

/-- Condition 10. -/
def Image.cond10 (i : Image) : Bool :=
  noDup (i.layouts.map LayoutCfg.id) && i.layouts.all fun l =>
    noDup (l.streams.map StreamCfg.id) && noDup (l.streams.map StreamCfg.priority)

/-! ### Ranges and structures (condition 11) -/

/-- Device parameters (R53, R116, 05 R160, 06 R202, R343, R369, R500). -/
def Rd.devRanges (v : Rd) : Bool :=
  v.fits 0 0xB88 && decide (v.n 0 1 ≤ 8) && decide (v.n 2 1 ≤ v.n 0 1) && decide (v.n 4 1 ≤ 1) &&
    (decide (v.n 7 1 ≤ 7) || decide (v.n 7 1 = 0xFF)) && decide (v.n 8 4 < 2 ^ 20) && v.zero 0xC 4 &&
    ((List.range 16).all fun p =>
      let o := 0x10 + 24 * p
      decide (v.n o 1 ≤ 2) && decide (v.n (o + 2) 1 ≤ 2) && v.zero (o + 0x14) 4 &&
        (List.range 4).all fun s => decide (v.n (o + 4 + s) 1 ≤ 15) || decide (v.n (o + 4 + s) 1 = 0xFF)) &&
    ((List.range 64).all fun n => v.zero (0x190 + 16 * n + 0xE) 2 && v.zero (0x590 + 16 * n + 0xE) 2) &&
    decide (1 ≤ v.n 0x990 1) && decide (v.n 0x990 1 ≤ 64) && decide (v.n 0x991 1 < 2) && v.zero 0x992 2 && v.zero 0x9A1 7 &&
    decide (v.n 0x9A8 1 ≤ 4) && [1, 2, 4, 8].contains (v.n 0x9A9 1) && decide (20 ≤ v.n 0x9AA 2) &&
    decide (v.n 0x9AA 2 ≤ 200) && v.zero 0x9B9 15 &&
    ((List.range 4).all fun k =>
      let o := 0x9C8 + 16 * k
      let n := v.n (o + 3) 1
      decide (v.n o 1 ≤ 2) && decide (v.n (o + 1) 1 ≤ 1) && decide (1 ≤ v.n (o + 2) 1) && decide (1 ≤ n) &&
        decide (n ≤ 8) && decide (1000 ≤ v.n (o + 4) 4) && decide (v.n (o + 4) 4 ≤ 200000) &&
        (List.range 8).all fun j =>
          if j < n then decide (v.n (o + 8 + j) 1 < 24) else decide (v.n (o + 8 + j) 1 = 0xFF)) &&
    ((List.range 24).all fun k =>
      let o := 0xA08 + 16 * k
      let kind := v.n o 1
      decide (kind ≤ 2) && (decide (kind ≠ 1) || decide (k < 16)) && decide (v.n (o + 1) 1 ≤ 2) &&
        decide (v.n (o + 2) 1 ≤ 2) && decide (v.n (o + 3) 1 < 8) &&
        (!(v.n (o + 3) 1).testBit 0 || decide (kind = 1)) &&
        (decide (v.n (o + 12) 1 ≤ 3) || decide (v.n (o + 12) 1 = 0xFF)) && v.zero (o + 13) 1) &&
    (!v.fits 0xB88 192 || (List.range 24).all fun k =>
      let u := v.n (0xB88 + 8 * k) 1
      v.zero (0xB8C + 8 * k) 4 && (decide (u ≤ 3) || (decide (0x10 ≤ u) && decide (u ≤ 0x17)) || decide (u = 0xFF)))

/-- Sensor profiles (R54). -/
def Rd.profileRanges (v : Rd) (mosaics : Nat) : Bool :=
  let l := v.profiles
  decide (1 ≤ l.length) && decide (l.length ≤ 32) && noDup (l.map Profile.id) && l.zipIdx.all fun q =>
    let p := q.1
    let o := 64 * q.2
    decide (p.latency ≤ 3) && decide (p.readback ≤ 2) && decide (p.winFirst ≤ p.winLast) && decide (1 ≤ p.exposures) &&
      decide (p.exposures ≤ 4) && decide (rawBits p.dataType ≠ 0) && decide (p.mosaic < mosaics) &&
      decide (p.policy ≤ 1) && v.fits (v.n (o + 0x38) 4) (8 * p.exposures) && decide (p.writeSeqOff < v.len) &&
      (decide (p.readback = 0) || decide (p.readbackOff < v.len)) && v.zero (o + 0x3C) 4 &&
      p.defaultExp.all fun e => decide (p.limits.minInt ≤ e.integ) && decide (e.integ ≤ p.limits.maxInt) &&
        decide (e.again ≤ p.limits.maxAgain) && decide (e.dgain ≤ p.limits.maxDgain)

/-- Layout descriptors and stream entries (R55, R56). -/
def Rd.layoutRanges (v : Rd) (i : Image) : Bool :=
  decide (1 ≤ v.layoutStarts.length) && decide (v.layoutStarts.length ≤ 16) &&
    (v.layoutStarts.all fun o =>
      v.fits o (v.n (o + 4) 4) && decide (v.n (o + 4) 4 = 64 + 48 * v.n (o + 2) 1) && decide (v.n (o + 2) 1 ≤ 64) &&
        v.zero (o + 0x2F) 1 && v.zero (o + 0x38) 8 && decide (v.n (o + 3) 1 ≤ 1)) &&
    (v.streamOffs.all fun o =>
      let n := v.n (o + 3) 1
      decide (1 ≤ n) && decide (n ≤ 4) && v.zero (o + 0x24) 12 && (List.range 4).all fun s =>
        if s < n then decide (v.n (o + 4 + s) 1 < 64) else decide (v.n (o + 4 + s) 1 = 0xFF)) &&
    (i.layouts.any fun l => decide (l.id = i.defaultLayout)) &&
    i.layouts.all fun l =>
      decide (l.id ≤ 15) && decide (l.modeMask < 8) && decide (1 ≤ l.streams.length) &&
        decide (l.strands.length ≤ 32) && decide (l.recordMask &&& l.strandMask = l.recordMask) &&
        decide (1 ≤ l.entryInterval) && decide (l.entryInterval ≤ 1024) && decide (l.tileW % 32 = 0) &&
        decide (64 ≤ l.tileW) && decide (l.tileW ≤ 512) && decide (l.tileH % 8 = 0) && decide (16 ≤ l.tileH) &&
        decide (l.tileH ≤ 256) && l.streams.all fun e =>
          decide (e.id ≤ 63) && decide (e.format ≤ 3) && decide (e.flags < 8) && (i.chain e.chain).isSome

/-- The parameter sets of a stage lie in the block, and hold values in range with reserved bytes zero (08 R267, R297); `b` is
the block and `p` the offset of the stage's parameters. -/
def Stage.ranges (b : Rd) (p : Nat) : Stage → Bool
  | .demosaic q =>
    b.fits p (4 * q.length) && (q.all fun x => decide (1 ≤ x) && decide (x ≤ 8)) &&
      (List.range q.length).all fun s => b.zero (p + 4 * s + 1) 3
  | .irsep q => b.fits p (28 * q.length) && (List.range q.length).all fun s => b.zero (p + 28 * s + 26) 2
  | .wb q => b.fits p (8 * q.length)
  | .ccm q => b.fits p (24 * q.length)
  | .ltm gx gy _ =>
    b.fits p 516 && b.zero (p + 2) 2 && decide (1 ≤ gx) && decide (gx ≤ 32) && decide (1 ≤ gy) && decide (gy ≤ 32)
  | .tnf k _ _ => b.fits p 6 && b.zero (p + 1) 1 && decide (k ≤ 224)
  | .overlay ps =>
    decide (1 ≤ b.n p 1) && decide (b.n p 1 ≤ 16) && b.fits p (4 + 48 * b.n p 1) && b.zero (p + 1) 3 &&
      ps.zipIdx.all fun q =>
        let o := p + 4 + 48 * q.2
        let n := b.n (o + 1) 1
        b.zero (o + 3) 1 && b.zero (o + 10) 2 && b.zero (o + 0x2C) 4 && b.zero (o + 12 + 4 * n) (32 - 4 * n) &&
          (if b.n o 1 = 2 then decide (3 ≤ n) && decide (n ≤ 8) && decide (b.n (o + 2) 1 = 0)
           else decide (b.n o 1 = 1) && decide (n = 2) && decide (1 ≤ b.n (o + 2) 1) && decide (b.n (o + 2) 1 ≤ 16))
  | .warp _ | .tone _ | .transfer _ => b.fits p 4 && b.zero (p + 2) 2
  | .cropscale => true

/-- Kernel parameter blocks and mosaic descriptors (R57, 08 R267, R271). -/
def Rd.kernelRanges (v : Rd) (i : Image) : Bool :=
  v.fits 0 (8 + 4 * v.n 0 2) && decide (1 ≤ v.n 0 2) && decide (v.n 0 2 ≤ 64) && decide (1 ≤ v.n 2 2) && v.fits (v.n 4 4) (72 * v.n 2 2) && decide (v.n 2 2 ≤ 32) &&
    noDup (i.chains.map ChainCfg.id) &&
    (v.chainBlocks.all fun b =>
      decide (b.n 4 4 ≤ b.len) && decide (1 ≤ b.n 2 2) && decide (b.n 2 2 ≤ 16) &&
        decide (0x10 + 8 * b.n 2 2 ≤ b.n 4 4) && decide (1 ≤ b.n 14 2) && decide (b.n 14 2 ≤ 512) &&
        b.rawStages.zipIdx.all fun s =>
          kernelIds.contains s.1.1 && b.zero (0x12 + 8 * s.2) 2 &&
            (match ({ b with len := b.n 4 4 } : Rd).stageAt s.1.1 s.1.2 (sourcesUsing i.layouts (b.n 0 2)) with
             | some g => g.ranges { b with len := b.n 4 4 } s.1.2
             | none => false)) &&
    i.mosaics.zipIdx.all fun m =>
      let o := v.n 4 4 + 72 * m.2
      decide (1 ≤ m.1.px) && decide (m.1.px ≤ 8) && decide (1 ≤ m.1.py) && decide (m.1.py ≤ 8) && v.zero (o + 2) 2 &&
        v.zero (o + 0x44) 4 && (List.range 64).all fun j =>
          (decide (j % 8 < m.1.px) && decide (j / 8 < m.1.py)) || decide (nth m.1.codes j 0 = 0)

/-- Tables, defect maps and meshes lie within their sections and hold legal values (06 R203 to R205, R210; 08 R282,
R290). -/
def Rd.tableRanges (b : Rd) : Bool :=
  let t := b.section 9
  let d := b.section 7
  let m := b.section 8
  (!b.has 9 || (t.fits 0 (4 + 8 * t.n 0 2) && t.zero 2 2 &&
    ((List.range (t.n 0 2)).all fun k => t.zero (5 + 8 * k) 1) && ([1, 2, 3, 4].all fun k => noDup ((t.dirOf k).map Prod.fst)) &&
    t.dir.all fun e =>
      match e.1 with
      | 1 => t.fits e.2.2 4 && t.fits e.2.2 (4 + 12 * t.n (e.2.2 + 1) 1) && decide (1 ≤ t.n (e.2.2 + 1) 1) &&
          t.zero (e.2.2 + 3) 1 && decide (t.n (e.2.2 + 1) 1 ≤ 32) && decide (t.n (e.2.2 + 4) 4 = 0)
      | 2 => t.fits e.2.2 0x480 && t.zero (e.2.2 + 7) 1 && t.zero (e.2.2 + 11) 1 && t.zero (e.2.2 + 0xD) 11
      | 3 => t.fits e.2.2 550 && decide (t.n (e.2.2 + 2) 2 = 273)
      | 4 => t.fits e.2.2 2054 && decide (t.n (e.2.2 + 2) 2 = 1025)
      | _ => false)) &&
  (!b.has 7 || (decide (sumN ((d.defectsFrom 65536 0).map fun x => 8 + 4 * x.positions.length) ≤ d.len) &&
    ((d.defectOffs 65536 0).all fun o => d.zero (o + 2) 2) && (d.defectsFrom 65536 0).all fun x =>
      decide (x.positions.length ≤ 16384) && strictUp (x.positions.map fun p => p.2 * 65536 + p.1))) &&
  (!b.has 8 || (noDup (m.meshStarts.map fun o => m.n o 2) && m.meshStarts.all fun o =>
      let g := m.n (o + 6) 1
      decide (1 ≤ g) && decide (g ≤ 4) && m.zero (o + 7) 1 && m.fits o (meshLen (m.n (o + 2) 2) (m.n (o + 4) 2) g) &&
        (m.meshAt o).cells.all fun c => decide (c < g)))

/-- Ring and network parameters (12 R414, 13 R454). -/
def Rd.netRanges (w : Rd) : Bool :=
  w.fits 0 0x310 && w.zero 1 31 &&
    ((List.range 5).all fun n =>
      let o := 0x20 + 24 * n
      decide (w.n o 1 ≤ 4) && decide (w.n (o + 1) 1 ≤ 2) && decide (1 ≤ w.n (o + 2) 2) &&
        decide (w.n (o + 2) 2 ≤ 10000) && decide (1 ≤ w.n (o + 14) 1) && decide (w.n (o + 14) 1 ≤ 64) &&
        w.zero (o + 15) 1 && w.zero (o + 20) 4) &&
    decide (1 ≤ w.n 0xA4 1) && w.zero 0xA6 2 && w.zero 0xAC 4 && decide (w.n 0xB0 1 ≤ 3) &&
    decide (w.n 0xB1 1 ≤ if w.n 0xB0 1 = 2 then 3 else 7) && w.zero 0xB2 2 && decide (50000 ≤ w.n 0xB4 4) &&
    decide (w.n 0xB4 4 ≤ 25000000) && w.zero 0xBC 4 && strictUp ((List.range 7).map fun k => w.n (0xC0 + 4 * k) 4) &&
    w.zero 0xDC 4 && decide (w.n 0xE0 1 ≤ 1) && decide (w.n 0xE1 1 ≤ 1) && decide (w.n 0xE3 1 ≤ 1) &&
    decide (w.n 0xE4 1 ≤ 1) && (decide (w.n 0xE5 1 ≤ 5) || decide (w.n 0xE5 1 = 0xFF)) && decide (1 ≤ w.n 0xE6 2) &&
    w.zero 0xF4 12 && decide (100 ≤ w.n 0x100 4) && decide (w.n 0x100 4 ≤ 100000) && decide (1 ≤ w.n 0x104 2) &&
    decide (w.n 0x104 2 ≤ 100) && w.zero 0x106 10

/-- Condition 11. The ranges of capture and carding entries are judged for the strands of a strand mask, with condition 12
(05 R161, 06 R206; log 15), their reserved bytes for every entry. Reserved bytes are zero (00 R6). -/
def Rd.cond11 (b : Rd) (i : Image) : Bool :=
  (b.sects.all fun s => decide (s.flags < 2)) && decide (6 ≤ b.n 0x12 2) && decide (b.n 0x12 2 ≤ 64) && b.zero 0x30 208 && (b.section 1).devRanges &&
    (b.section 3).profileRanges i.mosaics.length && (b.section 4).layoutRanges i && (b.section 5).kernelRanges i &&
    b.tableRanges && (!b.has 0xA || (b.section 0xA).netRanges)

/-! ### Conditions that other rules add (condition 12) -/

/-- Strands in the mask of any layout. -/
def Image.maskedStrands (i : Image) : List Nat := (List.range 64).filter fun n => i.layouts.any fun l => bitAt l.strandMask n

/-- 04 R117. -/
def Image.r117 (i : Image) : Bool :=
  ((List.range 16).all fun p =>
    noDup (((List.range 4).filter fun s => i.slotUsed (4 * p + s)).map fun s => i.vcOf (4 * p + s))) &&
  ((List.range 64).all fun n => !i.slotUsed n || (i.profile n).isSome) && i.maskedStrands.all i.slotUsed

/-- Ranges of 05 R160 for one strand. -/
def CaptureCfg.ok (c : CaptureCfg) : Bool :=
  decide (c.mode ≤ 3) && decide (c.whorl ≤ 5) && (decide (c.group ≤ 7) || decide (c.group = 0xFF)) &&
    (if c.mode = 2 then decide (c.trigIn ≤ 3) else decide (c.trigIn = 0xFF)) &&
    (match c.mode with
     | 0 => decide (c.period = 0) && decide (c.phase = 0)
     | 2 => decide (c.period = 0) && decide (150000 ≤ c.phase)
     | 1 => decide (1 ≤ c.period) && decide (c.phase.natAbs < c.period)
     | _ => decide (1 ≤ c.period)) &&
    (decide (c.mode ≠ 3) || (decide (c.markDir ≤ 2) && decide (c.markRepeat ≤ 1)))

/-- Mode, whorl, period and phase agree (05 R161). -/
def CaptureCfg.agrees (a b : CaptureCfg) : Bool :=
  decide (a.mode = b.mode) && decide (a.whorl = b.whorl) && decide (a.period = b.period) && decide (a.phase = b.phase)

/-- 05 R161: the ranges for the strands of a strand mask, the sync groups over all 64 entries; and the last case of
12 R415. -/
def Image.r161 (i : Image) : Bool :=
  let cap (n : Nat) := nth i.captures n ⟨0, 0, 0xFF, 0xFF, 0, 0, 0, 0⟩
  (i.maskedStrands.all fun n => (cap n).ok) &&
  ((List.range 64).all fun n => decide (7 < (cap n).group) ||
    (decide ((cap n).mode ≠ 0) && decide ((cap n).mode ≠ 2) &&
      (List.range 64).all fun m => decide ((cap m).group ≠ (cap n).group) || (cap m).agrees (cap n))) &&
  i.layouts.all fun l => !(l.strands.any fun n => decide ((cap n).mode = 3)) || decide (l.modeMask &&& 5 = 0)

/-- 06 R202, R206 and R210 for one strand. -/
def Image.r206 (i : Image) (n : Nat) : Bool :=
  let c := i.cardingOf n
  let q := i.prof n
  let mo := i.mosaicOf q
  decide (1 ≤ c.zoneCols) && decide (c.zoneCols ≤ 32) && decide (1 ≤ c.zoneRows) && decide (c.zoneRows ≤ 32) &&
    decide (c.zoneCols ≤ c.winW) && decide (c.zoneRows ≤ c.winH) && decide (c.binHeight ≤ 16) &&
    decide (c.winX + c.winW ≤ q.width) && decide (c.winY + c.winH ≤ q.height) && decide (c.bins ≤ 4096) &&
    decide (64 ≤ q.width) && decide (q.width ≤ 4096) && decide (16 ≤ q.height) && decide (q.height ≤ 8192) &&
    (decide (q.pwl = 0xFF) || (match i.pwls.find? fun t => decide (t.id = q.pwl) with
      | some t => decide (t.width = rawBits q.dataType) && strictUp (t.knees.map fun k => k.1)
      | none => false)) &&
    (decide (q.defects = 0xFFFF) || i.defects.any fun m => decide (m.id = q.defects)) &&
    (match i.blocks.find? fun k => decide (k.id = c.block) with
     | some k =>
       ((k.compander.zip (k.compander.drop 1)).all fun p => decide (p.1 ≤ p.2)) &&
         decide (nth k.compander 17 0 ≤ 65536) && (List.range q.exposures).all fun e =>
           let r := nth k.ramp e (0, 0)
           decide (r.1 < r.2) && (List.range mo.py).all fun y => (List.range mo.px).all fun x =>
             decide (nth (nth k.black e []) (8 * y + x) 0 < r.1)
     | none => false)

/-- Kernel ID of a stage (08 R267). -/
def Stage.kid : Stage → Nat
  | .demosaic _ => 0x01 | .irsep _ => 0x02 | .wb _ => 0x03 | .ccm _ => 0x04 | .cropscale => 0x08 | .warp _ => 0x09
  | .ltm .. => 0x0C | .tone _ => 0x0D | .transfer _ => 0x0E | .tnf .. => 0x14 | .overlay _ => 0x18

/-- A stage is legal for a stream: parameter sets per source, named tables, TNF thresholds (08 R267, R268, R282). -/
def Image.stageOk (i : Image) (e : StreamCfg) : Stage → Bool
  | .demosaic q => decide (e.sources.length ≤ q.length)
  | .irsep q => decide (e.sources.length ≤ q.length)
  | .wb q => decide (e.sources.length ≤ q.length)
  | .ccm q => decide (e.sources.length ≤ q.length)
  | .warp m => match i.meshes.find? fun x => decide (x.id = m) with
    | some x => decide (x.grids.length = e.sources.length) && decide (x.nx = (e.width + 31) / 32 + 1) &&
        decide (x.ny = (e.height + 31) / 32 + 1)
    | none => false
  | .tone c => i.tones.any fun x => decide (x.id = c)
  | .transfer c => i.transfers.any fun x => decide (x.id = c)
  | .tnf _ a b => decide (a < b)
  | .cropscale | .ltm .. | .overlay _ => true

/-- 08 R268 and R286 for one stream. -/
def Image.r268 (i : Image) (e : StreamCfg) : Bool :=
  let c := i.chainOf e
  let ks := c.stages.map Stage.kid
  let mo := i.mosaicOf (i.prof (nth e.sources 0 0))
  strictUp ks && (ks.contains 8 != ks.contains 9) && (decide (e.sources.length ≤ 1) || ks.contains 9) &&
    (if e.format = 2 then
       decide (e.sources.length = 1) && decide (ks = [8]) && decide (e.cropW = e.width) && decide (e.cropH = e.height) &&
         decide (e.cropX % mo.px = 0) && decide (e.cropW % mo.px = 0) && decide (e.cropY % mo.py = 0) &&
         decide (e.cropH % mo.py = 0)
     else ks.contains 1) &&
    (decide (e.format ≠ 3) || (!(ks.any fun k => [0xC, 0xD, 0xE, 0x18].contains k) &&
      e.sources.all fun n => (i.mosaicOf (i.prof n)).channels.contains 5)) &&
    (ks.contains 0x14 == e.tnf) && (ks.contains 0x18 == e.overlay) &&
    (decide (e.format ≠ 0 ∧ e.format ≠ 3) || decide (e.width % 2 = 0)) && c.stages.all (i.stageOk e)

/-- 08 R272 for one mosaic. -/
def Mosaic.ok (m : Mosaic) : Bool :=
  let at' (x y : Nat) := m.at x y
  (List.range m.py).all fun y => (List.range m.px).all fun x =>
    decide (1 ≤ at' x y) && decide (at' x y ≤ 5) && m.channels.all fun c =>
      (List.range 5).any fun dy => (List.range 5).any fun dx => decide (at' (x + dx) (y + dy) = c)

/-- The base whorls of a copy lead to a whorl that is no copy (12 R415). -/
def TimeCfg.baseOk (t : TimeCfg) : (fuel n : Nat) → Bool
  | 0, _ => false
  | fuel + 1, n =>
    match n with
    | 0 => true
    | k + 1 => let w := nth t.whorls k ⟨0, 0, 0, 0, 0, 0, 0, 0, 0⟩; decide (w.source ≠ 4) || t.baseOk fuel w.base

/-- 12 R415. -/
def TimeCfg.r415 (t : TimeCfg) : Bool :=
  let src (n : Nat) := (nth t.whorls (n - 1) ⟨0, 0, 0, 0, 0, 0, 0, 0, 0⟩).source
  (decide (src 1 = 0) || (decide (src 1 = 1) && t.ptpEnabled)) && decide (src 2 ≠ 1) &&
    ([3, 4, 5].all fun n => decide (src n ≠ 1) && decide (src n ≠ 2)) && [1, 2, 3, 4, 5].all (t.baseOk 6)

/-- The chain of parents of a segment reaches segment 0 (13 R455). -/
def RingCfg.reaches (r : RingCfg) : (fuel s : Nat) → Bool
  | 0, _ => false
  | fuel + 1, s => decide (s = 0) ||
      (let p := (nth r.segments s (0xFF, 0)).1; decide (p ≠ 0xFF) && r.reaches fuel p)

/-- 13 R455. -/
def RingCfg.r455 (r : RingCfg) : Bool :=
  let used := (List.range 256).filter fun s => decide ((nth r.segments s (0xFF, 0)).1 ≠ 0xFF)
  decide ((nth r.segments 0 (0xFF, 0)).1 = 0xFF) && used.all (r.reaches 257) &&
    noDup (used.map fun s => let e := nth r.segments s (0xFF, 0); 256 * e.1 + e.2)

/-- 14 R501. -/
def Image.r501 (i : Image) : Bool :=
  let kind (k : Nat) := (nth i.inputs k InputCfg.off).kind
  (i.convs.all fun c => (c.scan.all fun k => decide (kind k ≠ 0)) && (!c.lockedW7 || decide (i.time.w7Source ≠ 0))) &&
    (decide (i.pfInput = 0xFF) || decide (kind (16 + i.pfInput) = 2)) &&
    (decide (i.time.w7Source ≠ 1) || decide (kind (16 + i.time.w7Input) = 2)) &&
    i.inputs.all fun k => decide (k.lower ≤ k.upper) && (decide (k.actions &&& 6 = 0) || decide (k.startConv ≤ 3))

/-- 15 R537. -/
def Image.r537 (i : Image) : Bool :=
  match i.binds with
  | a :: b :: _ => decide (a.user = 3) && decide (a.preset = 3) && decide (b.user = 3) && decide (b.preset = 1)
  | _ => true

/-- 11 R392: every shed table offset but 0xFFFFFFFF lies in the section, which an absent one has no room for, with room for
eight rows. -/
def Rd.r392 (b : Rd) : Bool :=
  let l := b.section 4
  l.layoutStarts.all fun o =>
    decide (l.n (o + 0x30) 4 = 0xFFFFFFFF) || (b.section 0xC).fits (l.n (o + 0x30) 4) 128

/-- Condition 12 but for the capacity of R330. -/
def Rd.cond12 (b : Rd) (i : Image) : Bool :=
  i.r117 && i.r161 && i.maskedStrands.all i.r206 && i.mosaics.all Mosaic.ok &&
    (i.layouts.all fun l => l.streams.all i.r268) && (!b.has 0xA || (i.time.r415 && i.ring.r455)) && i.r501 && i.r537 &&
    b.r392

/-! ### Frame-store allocation (09 R329, R331, R332) -/

/-- To the next 4 KiB boundary. -/
def up4k (n : Nat) : Nat := (n + 4095) / 4096 * 4096

/-- Slot size of an input ring. -/
def Image.inSlot (i : Image) (n : Nat) : Nat := let q := i.prof n; up4k (2 * q.width * q.height)

/-- Slot size of an output ring: the largest over all layouts. -/
def Image.outSlot (i : Image) (st : Nat) : Nat :=
  up4k ((i.layouts.flatMap fun l => (l.streams.filter fun e => decide (e.id = st)).map fun e =>
    e.width * e.height * e.pixBytes).foldl max 0)

/-- Stream IDs used by any layout. -/
def Image.usedStreams (i : Image) : List Nat :=
  (List.range 64).filter fun k => i.layouts.any fun l => (l.stream k).isSome

/-- Ring bases in order, strand n at n and stream at 64 + id, and the end of the allocation (R329). -/
def Image.allocation (i : Image) : List (Nat × Nat) × Nat :=
  let rings := (i.maskedStrands.map fun n => (n, 4 * i.inSlot n)) ++
    i.usedStreams.map fun st => (64 + st, 2 * i.outSlot st)
  rings.foldl (fun a r => (a.1 ++ [(r.1, a.2)], a.2 + r.2)) ([], 0x4000000)

/-! ### Result codes and selection (R58 to R60) -/

/-- The first failed condition of R58, 0xE for an empty bank, 0 for a valid one. `cap` is the usable frame store, none
while it is not yet trained (the capacity check of R330 then follows with FRAME_STORE_TRAINED). -/
def Rd.check (b : Rd) (cap : Option Nat) : Nat :=
  if !b.magic then 0xE
  else if !b.head1 then 1
  else if !b.cond2 then 2
  else if !(b.cp 0x18 8 && decide (b.digestOf = b.n 0x18 8)) then 3
  else if !b.cp 0x28 4 then 4
  else if !b.cond5 then 5
  else if !b.cond6 then 6
  else if !b.cond7 then 7
  else if !b.cond8 then 8
  else if !b.cond9 then 9
  else
    let i := b.image false
    if !i.cond10 then 10
    else if !b.cond11 i then 11
    else if !b.cond12 i then 12
    else match cap with
      | some n => if i.allocation.2 ≤ n then 0 else 12
      | none => 0

/-- Reader of an image bank of the NVM, bank A or B (R43). -/
def Mem.bank (m : Mem) (bankB : Bool) : Rd := ⟨fun o => m.nvmByte ((if bankB then 0x1000000 else 0) + o), 0x1000000⟩

/-- The R59 order: the first bank is B. -/
def Mem.firstB (m : Mem) (pin : Nat) : Bool :=
  if pin = 1 then false else if pin = 2 then true else (m.bank true).newer (m.bank false)

/-- The outcome of R59: result codes of A and B (R60), and the booted bank. When the first bank boots, the second is reported
0xF also where the order of R59 has already read its magic and found it invalid: 0xE and 0xF of R60 both fit, and the spec does
not choose (DESIGN CHOICE, log 45). -/
def Mem.selectBank (m : Mem) (pin : Nat) (cap : Option Nat) : Vector (BitVec 4) 2 × Option Bool :=
  let first := m.firstB pin
  let code (b : Bool) : BitVec 4 := BitVec.ofNat 4 ((m.bank b).check cap)
  let c1 := code first
  let place (x y : BitVec 4) : Vector (BitVec 4) 2 := if first then #v[y, x] else #v[x, y]
  if c1 = 0 then (place 0 0xF, some first)
  else
    let c2 := code (!first)
    (place c1 c2, if c2 = 0 then some (!first) else none)

end Sys2Proof.Machine
end

