-- ==== Sys2Proof/Machine/Sensor.lean ====
section
/-! DEFINITION. The carding arithmetic (spec/06_carding.md R207 to R227, R634): unpacking, decompanding, black level,
defects, HDR merge, storage compander and the statistics packet. -/

namespace Sys2Proof.Machine

/-! ### Unpacking (R207; the CSI-2 pixel packing, log 22) -/

/-- RAW8, RAW10, RAW12 and RAW14 samples of a payload: `k` samples per group of most significant bytes, then the low
bits of the group, least significant first. -/
def unpackGroups (k low : Nat) : (fuel : Nat) → List Byte → List Nat
  | 0, _ => []
  | fuel + 1, bs =>
    let n := k + (k * low + 7) / 8
    if bs.length < n then []
    else
      let lows := fromLe ((bs.take n).drop k)
      ((List.range k).map fun i => (nth bs i 0).toNat * 2 ^ low + lows / 2 ^ (low * i) % 2 ^ low) ++
        unpackGroups k low fuel (bs.drop n)

/-- Join pairs of half samples (RAW16, RAW20, RAW24). The spec names the CSI-2 packing alone (04 R133, R207); that the more
significant half comes first is taken from outside it (PRESUMED, log 22). -/
def pairUp (half : Nat) : List Nat → List Nat
  | a :: b :: l => (a * 2 ^ half + b) :: pairUp half l
  | _ => []

/-- Samples of a payload of `w`-bit pixels. -/
def unpack (w : Nat) (bs : List Byte) : List Nat :=
  match w with
  | 8 => bs.map BitVec.toNat
  | 10 => unpackGroups 4 2 bs.length bs
  | 12 => unpackGroups 2 4 bs.length bs
  | 14 => unpackGroups 4 6 bs.length bs
  | 16 => pairUp 8 (bs.map BitVec.toNat)
  | 20 => pairUp 10 (unpackGroups 4 2 bs.length bs)
  | 24 => pairUp 12 (unpackGroups 2 4 bs.length bs)
  | _ => []

/-! ### Decompanding and black level -/

/-- Full scale of the 24-bit linear domain. -/
def full24 : Nat := 2 ^ 24 - 1

/-- R208 with the knees of a table. -/
def PwlTable.apply (t : PwlTable) (x : Nat) : Nat :=
  let k := (t.knees.filter fun k => decide (k.1 ≤ x)).getLast?.getD (0, 0, 0)
  min full24 (k.2.1 + ((x - k.1) * k.2.2 + 2048) / 4096)

/-- PWL table of a profile; 0xFF names none (02 R54). -/
def Image.pwlOf (i : Image) (q : Profile) : Option PwlTable :=
  if q.pwl = 0xFF then none else i.pwls.find? fun t => decide (t.id = q.pwl)

/-- Carding block of a strand. -/
def Image.blockOf (i : Image) (n : Nat) : CardBlock :=
  (i.blocks.find? fun b => decide (b.id = (i.cardingOf n).block)).getD ⟨0, false, false, 0, 0, 0, 0, [], [], []⟩

/-- Black level of exposure `e` at column `x` and row `y` (R209). -/
def CardBlock.blackAt (b : CardBlock) (m : Mosaic) (e x y : Nat) : Nat :=
  nth (nth b.black e []) (8 * (y % m.py) + x % m.px) 0

/-- Ramp start and saturation level of exposure `e`. -/
def CardBlock.rampOf (b : CardBlock) (e : Nat) : Nat × Nat := nth b.ramp e (0, 0)

/-! ### Defects -/

/-- Defective columns of a row (R210); 0xFFFF names no map (02 R54). -/
def Image.defectCols (i : Image) (q : Profile) (y : Nat) : List Nat :=
  match i.defects.find? fun t => decide (q.defects ≠ 0xFFFF) && decide (t.id = q.defects) with
  | some t => (t.positions.filter fun p => decide (p.2 = y)).map Prod.fst
  | none => []

/-- The column of the neighbour of `x` at distance `dist` to the left or right in a row of `len` samples, mirrored where
it falls outside (R634). -/
def neighbour (len x dist : Nat) (right : Bool) : Option Nat :=
  let r := if x + dist < len then some (x + dist) else none
  let l := if dist ≤ x then some (x - dist) else none
  if right then (match r with | some k => some k | none => l) else (match l with | some k => some k | none => r)

/-- The rule of R211 at one distance: none where both neighbours are listed. -/
def pairAvg (vs listed : List Nat) (x dist : Nat) : Option Nat :=
  let at' (right : Bool) := (neighbour vs.length x dist right).filter fun k => !listed.contains k
  match at' false, at' true with
  | some a, some b => some ((nth vs a 0 + nth vs b 0 + 1) / 2)
  | some a, none | none, some a => some (nth vs a 0)
  | none, none => none

/-- Static defect correction of a line (R211). -/
def staticLine (px : Nat) (listed vs : List Nat) : List Nat :=
  vs.mapIdx fun x v =>
    if listed.contains x then ((pairAvg vs listed x px).orElse fun _ => pairAvg vs listed x (2 * px)).getD 0 else v

/-- Values of the neighbours that exist (R212, R634). -/
def neighbours (px : Nat) (vs : List Nat) (x : Nat) : List Nat :=
  [(px, false), (px, true), (2 * px, false), (2 * px, true)].filterMap fun p =>
    (neighbour vs.length x p.1 p.2).map fun k => nth vs k 0

/-- The dynamic test of one sample (R212). -/
def CardBlock.isDynamic (b : CardBlock) (v : Nat) (ns : List Nat) : Bool :=
  match ns with
  | [] => false
  | n :: l =>
    let hi := l.foldl max n
    let lo := l.foldl min n
    let t := max b.tAbs (hi * b.tRel / 256)
    decide (hi + t < v) || decide (v + t < lo)

/-- Dynamic defect correction of a line: the line and the count (R212). `ys` are the samples before black level. -/
def CardBlock.dynamicLine (b : CardBlock) (px e : Nat) (listed ys vs : List Nat) : List Nat × Nat :=
  if !b.dynamicOn then (vs, 0)
  else
    let hit := vs.mapIdx fun x v =>
      !listed.contains x && decide (nth ys x 0 < (b.rampOf e).2) && b.isDynamic v (neighbours px vs x)
    (vs.mapIdx fun x v => if nth hit x false then (pairAvg vs [] x px).getD v else v, (hit.filter fun h => h).length)

/-- One corrected exposure line (R197 stages 1 to 5): the values of the received samples up to W, the number of samples
received beyond W, and the static and dynamic corrections. -/
structure CardLine where
  vs : List Nat
  beyond : Nat
  static : Nat
  dynamic : Nat
  deriving DecidableEq, Repr

/-- Stages 1 to 5 on the payload of exposure `e` of row `y`. -/
def Image.cardLine (i : Image) (n e y : Nat) (payload : List Byte) : CardLine :=
  let q := i.prof n
  let b := i.blockOf n
  let m := i.mosaicOf q
  let xs := unpack (rawBits q.dataType) payload
  let ys := (xs.take q.width).map fun x => match i.pwlOf q with | some t => t.apply x | none => x
  let vs := ys.mapIdx fun x v => v - b.blackAt m e x y
  let listed := (i.defectCols q y).filter fun x => decide (x < vs.length)
  let d := b.dynamicLine m.px e listed ys (staticLine m.px listed vs)
  ⟨d.1, xs.length - q.width, listed.length, d.2⟩

/-! ### HDR merge -/

/-- s_e and q_e of R213 for the exposure entries of the frame. -/
def mergeScales (es : List Exposure) : List (Nat × Nat) :=
  let xs := es.map fun e => e.integ * e.again * e.dgain
  let ref := xs.foldl max 0
  if xs.any fun x => decide (x = 0) then xs.map fun _ => (65536, 256)
  else xs.map fun x => let s := (ref * 65536 + x / 2) / x; (s, max 1 (16777216 / s))

/-- One exposure of one sample (R214): scale, normalised value, weight, saturated or not. -/
structure MergeIn where
  s : Nat
  n : Nat
  w : Nat
  sat : Bool
  deriving DecidableEq, Repr

/-- R214 for exposure `e` with value `v` and black level `black`. -/
def CardBlock.mergeIn (b : CardBlock) (e v black : Nat) (sq : Nat × Nat) : MergeIn :=
  let u := v + black
  let r := b.rampOf e
  let f := if u ≤ r.1 then 256 else if r.2 ≤ u then 0 else 256 * (r.2 - u) / (r.2 - r.1)
  ⟨sq.1, min full24 ((v * sq.1 + 32768) / 65536), sq.2 * f, decide (r.2 ≤ u)⟩

/-- The flicker-aware selection of R215. -/
def CardBlock.flicker (b : CardBlock) (ins : List MergeIn) : Option Nat :=
  let free := ins.filter fun x => !x.sat
  match free with
  | x :: y :: rest =>
    let l := (y :: rest).foldl (fun a z => if z.s < a.s then z else a) x
    let t := max b.fAbs (l.n * b.fRel / 256)
    if b.flickerOn ∧ free.any fun z => decide (t < (if z.n ≤ l.n then l.n - z.n else z.n - l.n)) then some l.n else none
  | _ => none

/-- The merged value of one sample: value, all-saturated, flicker selection made (R215, R216). -/
def CardBlock.merge (b : CardBlock) (ins : List MergeIn) : Nat × Bool × Bool :=
  let allSat := ins.all fun x => x.sat
  match ins with
  | [x] => (x.n, allSat, false)
  | _ =>
    match b.flicker ins with
    | some m => (m, allSat, true)
    | none =>
      let w := sumN (ins.map fun x => x.w)
      let m := if 0 < w then (sumN (ins.map fun x => x.w * x.n) + w / 2) / w
               else (ins.foldl (fun (a : Option MergeIn) x => match a with
                 | none => some x
                 | some y => if y.s < x.s then some x else some y) none).elim 0 fun x => x.n
      (m, allSat, false)

/-- A merged row: per column of the active width the value, all-saturated, flicker selection, and whether every
exposure's sample was received (R214 to R216, R219). -/
def Image.mergeRow (i : Image) (n y : Nat) (es : List Exposure) (lines : List (List Nat)) :
    List (Nat × Bool × Bool × Bool) :=
  let q := i.prof n
  let b := i.blockOf n
  let m := i.mosaicOf q
  let sq := mergeScales (es.take q.exposures)
  (List.range q.width).map fun x =>
    let ins := lines.mapIdx fun e vs =>
      b.mergeIn e (nth vs x 0) (b.blackAt m e x y) (nth sq e (65536, 256))
    let r := b.merge ins
    (r.1, r.2.1, r.2.2, lines.all fun vs => decide (x < vs.length))

/-! ### Storage compander -/

/-- floor(log2 n), 0 for 0. -/
def log2 (n : Nat) : Nat := Nat.log2 n

/-- Segment, its start and its width in bits (R218). -/
def segmentOf (m : Nat) : Nat × Nat × Nat :=
  if m < 256 then (0, 0, 8) else let i := log2 m - 7; (i, 2 ^ (i + 7), i + 7)

/-- The storage code of a merged value (R218). -/
def CardBlock.compand (b : CardBlock) (m : Nat) (allSat : Bool) : Nat :=
  let (i, a, h) := segmentOf m
  let c0 := nth b.compander i 0
  let c1 := nth b.compander (i + 1) 0
  if allSat then 0xFFFF else min 0xFFFE (c0 + ((m - a) * (c1 - c0) + 2 ^ (h - 1)) / 2 ^ h)

/-- Bytes of a row of codes, little-endian in column order (R198). -/
def codeBytes (cs : List Nat) : List Byte := cs.flatMap fun c => le 2 c

/-- A row emitted with all codes C[0] (R219). -/
def Image.padRow (i : Image) (n : Nat) : List Byte :=
  codeBytes (List.replicate (i.prof n).width (nth (i.blockOf n).compander 0 0))

/-! ### Statistics -/

/-- A sample of the statistics window: zone, channel, row within the window, value, all-saturated. -/
structure StatSample where
  zone : Nat
  chan : Nat
  row : Nat
  m : Nat
  sat : Bool
  deriving DecidableEq, Repr

/-- Samples of the statistics window of a frame; `rows` oldest first (R222). -/
def Image.statSamples (i : Image) (n : Nat) (rows : List (List (Nat × Bool))) : List StatSample :=
  let c := i.cardingOf n
  let m := i.mosaicOf (i.prof n)
  (List.range c.winH).flatMap fun y => (((nth rows (c.winY + y) []).drop c.winX).take c.winW).mapIdx fun x s =>
    ⟨(x * c.zoneCols / c.winW) + c.zoneCols * (y * c.zoneRows / c.winH), m.at (c.winX + x) (c.winY + y), y, s.1, s.2⟩

/-- Histogram bin of a value (R223). -/
def histBin (m : Nat) : Nat :=
  if m < 512 then m / 32 else let e := log2 m; 16 * (e - 8) + m / 2 ^ (e - 4) % 16

/-- Zones of the packet: u32 sum, u16 saturated count, u16 sample count per channel, saturating (R222). -/
def Image.zoneBytes (i : Image) (n : Nat) (ss : List StatSample) : List Byte :=
  let c := i.cardingOf n
  (List.range (c.zoneCols * c.zoneRows)).flatMap fun z =>
    (i.mosaicOf (i.prof n)).channels.flatMap fun k =>
      let mine := ss.filter fun s => decide (s.zone = z) && decide (s.chan = k)
      le 4 (satNat 0xFFFFFFFF (sumN (mine.map fun s => s.m / 256))) ++
        le 2 (satNat 0xFFFF (mine.filter fun s => s.sat).length) ++ le 2 (satNat 0xFFFF mine.length)

/-- Samples of the channels that feed the histogram and the row profile. -/
def Image.maskedSamples (i : Image) (n : Nat) (ss : List StatSample) : List StatSample :=
  ss.filter fun s => bitAt (i.cardingOf n).chanMask (s.chan - 1)

/-- The histogram (R223). -/
def histBytes (ss : List StatSample) : List Byte :=
  (List.range 256).flatMap fun k => le 4 (satNat 0xFFFFFFFF (ss.filter fun s => decide (histBin s.m = k)).length)

/-- The row profile (R224). -/
def CardingCfg.profileBytes (c : CardingCfg) (ss : List StatSample) : List Byte :=
  (List.range c.bins).flatMap fun k =>
    let mine := ss.filter fun s => decide (s.row / c.binHeight = k)
    le 2 (if mine.isEmpty then 0 else (sumN (mine.map fun s => s.m / 256) + mine.length / 2) / mine.length)

/-- Flag bits that the statistics packet carries (R226). -/
def statFlags : Word := 0x4E3F

/-- The statistics packet of a closed frame (R226). -/
def Image.statsPacket (i : Image) (n : Nat) (f : Frame) : List Byte :=
  let c := i.cardingOf n
  let m := i.mosaicOf (i.prof n)
  let z := c.zoneCols * c.zoneRows
  let ch := m.channels
  let ss := i.statSamples n f.merged.reverse
  let ms := i.maskedSamples n ss
  let chSet := ch.foldl (fun x k => x + 2 ^ (k - 1)) 0
  let hist := 0x80 + 8 * z * ch.length
  let prof := hist + 1024
  let head1 := le 4 0x53544154 ++ le 1 n ++ le 1 (i.prof n).exposures ++ le 1 c.zoneCols ++ le 1 c.zoneRows ++
    le 4 f.num.toNat ++ le 2 chSet ++ le 2 c.bins ++ f.capture.bytes ++ exp4Bytes f.closing ++
    le 4 (f.flags &&& statFlags).toNat ++ leInt 4 f.deferral ++ leInt 4 f.markGap ++
    ([f.static, f.dynamic, f.flicker, f.allSat, f.padded, f.cut].flatMap fun x => le 4 (satNat 0xFFFFFFFF x)) ++
    le 2 (satNat 0xFFFF f.missing) ++ zeros 2 ++ le 4 0x80 ++ le 4 hist ++ le 4 prof ++ le 4 (i.statsLen n)
  let body := padTo 8 (i.zoneBytes n ss ++ histBytes ms ++ c.profileBytes ms)
  let k := crc32c (head1 ++ body)
  head1 ++ crcPair k ++ body

end Sys2Proof.Machine
end

