-- ==== Sys2Proof/Machine/Kernels.lean ====
section
/-! DEFINITION. The library kernels (spec/08_pixel_kernels.md R264 to R301): the samples of an output pixel as a
function of the stored input rows, the stage parameters and the previous output frame (R265). -/

namespace Sys2Proof.Machine

/-- x >> k with rounding term `r`, on an integer (R264). -/
def shr (x r : Int) (k : Nat) : Int := (x + r) / (2 ^ k : Nat)

/-- Entry of a list of numbers as an integer. -/
def nthInt (l : List Nat) (i x : Nat) : Int := (nth l i x : Nat)

/-- Bound to the 24-bit linear range. -/
def clamp24 (x : Int) : Nat := (max 0 (min (full24 : Int) x)).toNat

/-- The parameters of the source-domain stages for one source (R267, R269). -/
structure SourceParams where
  q : Nat
  irsep : Option (List Int × Nat)
  wb : List Nat
  ccm : Option (List Int)
  deriving DecidableEq, Repr

/-- Stage parameters of source slot `s` in a chain. -/
def ChainCfg.source (c : ChainCfg) (s : Nat) : SourceParams :=
  { q := (c.stages.findSome? fun t => match t with | .demosaic q => some (nth q s 6) | _ => none).getD 6,
    irsep := c.stages.findSome? fun t => match t with | .irsep l => l[s]? | _ => none,
    wb := (c.stages.findSome? fun t => match t with | .wb l => l[s]? | _ => none).getD [4096, 4096, 4096, 4096],
    ccm := c.stages.findSome? fun t => match t with | .ccm l => l[s]? | _ => none }

/-- One source as the kernels read it: its stored codes, mosaic, compander table and stage parameters. -/
structure SourceView where
  width : Nat
  height : Nat
  mosaic : Mosaic
  compander : List Nat
  params : SourceParams
  code : Nat → Nat → Nat

/-- R273: the linear value of a stored code. -/
def expandCode (c : List Nat) (x : Nat) : Nat :=
  if x = 0xFFFF ∨ nth c 17 0 ≤ x then full24
  else if x < nth c 0 0 then 0
  else
    let i := ((List.range 17).filter fun i => decide (nth c i 0 ≤ x) && decide (nth c i 0 < nth c (i + 1) 0)).getLast?.getD 0
    let a := if i = 0 then 0 else 2 ^ (i + 7)
    let h := if i = 0 then 8 else i + 7
    let d := nth c (i + 1) 0 - nth c i 0
    a + ((x - nth c i 0) * 2 ^ h + d / 2) / d

/-- R274: a coordinate brought into the active area without a change of its mosaic position. -/
def wrapInto (p n : Nat) (x : Int) : Nat :=
  if x < 0 then (x + p * ((-x + p - 1) / p)).toNat
  else if (n : Int) ≤ x then (x - p * ((x - n + 1 + p - 1) / p)).toNat
  else x.toNat

/-- Stored code at a position, wrapped under R274. -/
def SourceView.codeAt (v : SourceView) (x y : Int) : Nat :=
  v.code (wrapInto v.mosaic.px v.width x) (wrapInto v.mosaic.py v.height y)

/-- Expanded sample s(x, y). -/
def SourceView.s (v : SourceView) (x y : Int) : Int := expandCode v.compander (v.codeAt x y)

/-- Mosaic channel at a position (R271). -/
def SourceView.chan (v : SourceView) (x y : Int) : Nat :=
  v.mosaic.at (wrapInto v.mosaic.px v.width x) (wrapInto v.mosaic.py v.height y)

/-- Absolute value. -/
def iabs (x : Int) : Int := x.natAbs

/-- Direction of R276: 1 horizontal, 2 vertical, 0 none. -/
def SourceView.direction (v : SourceView) (x y : Int) : Nat :=
  let gh := iabs (v.s (x - 1) y - v.s (x + 1) y) + iabs (2 * v.s x y - v.s (x - 2) y - v.s (x + 2) y)
  let gv := iabs (v.s x (y - 1) - v.s x (y + 1)) + iabs (2 * v.s x y - v.s x (y - 2) - v.s x (y + 2))
  if 8 * gh < v.params.q * gv then 1 else if 8 * gv < v.params.q * gh then 2 else 0

/-- Offsets of the 5 x 5 window. -/
def window5 : List (Int × Int) :=
  ([-2, -1, 0, 1, 2] : List Int).flatMap fun dy => ([-2, -1, 0, 1, 2] : List Int).map fun dx => (dx, dy)

/-- The value of channel `k` at a pixel (R277). -/
def SourceView.channel (v : SourceView) (x y : Int) (dir k : Nat) : Nat :=
  if v.chan x y = k then (v.s x y).toNat
  else
    let full := window5.filter fun o => decide (v.chan (x + o.1) (y + o.2) = k)
    let part := full.filter fun o =>
      if dir = 1 then decide (iabs o.2 ≤ iabs o.1) else if dir = 2 then decide (iabs o.1 ≤ iabs o.2) else true
    let use := if part.isEmpty then full else part
    let weight (o : Int × Int) : Int := if max (iabs o.1) (iabs o.2) = 1 then 4 else 1
    let w := (use.map weight).foldl (· + ·) 0
    (((use.map fun o => weight o * v.s (x + o.1) (y + o.2)).foldl (· + ·) 0 + w / 2) / w).toNat

/-- A row of a 3 x 4 matrix in s3.12 applied to four values (R278, R280). -/
def matRow (m : List Int) (row : Nat) (xs : List Nat) : Nat :=
  clamp24 (shr (((List.range 4).map fun k => nth m (4 * row + k) 0 * nthInt xs k 0).foldl (· + ·) 0) 2048 12)

/-- The vector (R, G, B, IR) of a source pixel after the source-domain stages (R275 to R280). -/
def SourceView.pixel (v : SourceView) (x y : Int) : List Nat :=
  let has (k : Nat) : Bool := v.mosaic.channels.contains k
  if v.codeAt x y = 0xFFFF then [1, 2, 3, 5].map fun k => if has k then full24 else 0
  else
    let dir := v.direction x y
    let ch (k : Nat) : Nat := if has k then v.channel x y dir k else 0
    let ir := ch 5
    let rgb := [ch 1, ch 2, ch 3]
    let rgb1 := match v.params.irsep with
      | some p => (List.range 3).map fun j => matRow p.1 j (rgb ++ [ir])
      | none => rgb
    let gain (j x : Nat) : Nat := min full24 ((x * nth v.params.wb j 4096 + 2048) / 4096)
    let rgb2 := rgb1.mapIdx gain
    let c2 := gain 3 (ch 4)
    let rgb3 := match v.params.ccm with
      | some m => (List.range 3).map fun j => matRow m j (rgb2 ++ [c2])
      | none => rgb2
    rgb3 ++ [ir]

/-! ### Geometry -/

/-- A stream as the kernels run it (R270): its entry, chain, sources, mesh, curves and the gains of the frame. -/
structure KernelView where
  entry : StreamCfg
  chain : ChainCfg
  sources : List SourceView
  mesh : Option WarpMesh
  tone : Option (List Nat)
  transfer : Option (List Nat)
  ltm : Option (Nat × Nat)
  gains : List Nat
  /-- TNF parameters k_max, t0, t1, none where the tile passes unfiltered (R296) -/
  tnf : Option (Nat × Nat × Nat)
  /-- samples of the previous frame at (u, v): main plane, IR plane -/
  prev : Nat → Nat → List Nat × Nat
  prims : List Primitive

/-- Source slot of an output pixel and its position in 1/4096 pixel of the crop window (R281, R283). -/
def KernelView.place (k : KernelView) (u v : Nat) : Nat × Int × Int :=
  match k.mesh with
  | none =>
    let e := k.entry
    (0, (((2 * u + 1) * e.cropW * 4096 / (2 * e.width) : Nat) : Int) - 2048,
      (((2 * v + 1) * e.cropH * 4096 / (2 * e.height) : Nat) : Int) - 2048)
  | some m =>
    let i := u / 32
    let j := v / 32
    let s := nth m.cells (j * (m.nx - 1) + i) 0
    let g := nth m.grids s []
    let fu : Int := u % 32
    let fv : Int := v % 32
    let node (a b : Nat) : Int × Int := nth g ((j + b) * m.nx + i + a) (0, 0)
    let mix (f : Int × Int → Int) : Int :=
      shr (f (node 0 0) * (32 - fu) * (32 - fv) + f (node 1 0) * fu * (32 - fv) + f (node 0 1) * (32 - fu) * fv +
        f (node 1 1) * fu * fv) 512 10
    (s, mix Prod.fst, mix Prod.snd)

/-- The four weights of a phase (R284). -/
def cubicWeights (p : Int) : List Int :=
  let w := [-p ^ 3 + 128 * p ^ 2 - 4096 * p, 3 * p ^ 3 - 320 * p ^ 2 + 524288, -3 * p ^ 3 + 256 * p ^ 2 + 4096 * p,
    p ^ 3 - 64 * p ^ 2].map fun x => shr x 16 5
  let diff := 16384 - w.foldl (· + ·) 0
  let top := w.foldl max (nth w 0 0)
  w.set (w.findIdx fun x => decide (x = top)) (top + diff)

/-- The sampled (R, G, B, IR) of an output pixel (R284, R285). -/
def KernelView.sample (k : KernelView) (u v : Nat) : List Nat :=
  let pl := k.place u v
  match k.sources[pl.1]? with
  | none => [0, 0, 0, 0]
  | some src =>
    let xi := pl.2.1 / 4096
    let yi := pl.2.2 / 4096
    let wx := cubicWeights (pl.2.1 % 4096 / 64)
    let wy := cubicWeights (pl.2.2 % 4096 / 64)
    let e := k.entry
    let tap (a b : Nat) : List Nat :=
      src.pixel (e.cropX + max 0 (min ((e.cropW : Int) - 1) (xi - 1 + a)))
        (e.cropY + max 0 (min ((e.cropH : Int) - 1) (yi - 1 + b)))
    let taps := (List.range 4).map fun b => (List.range 4).map fun a => tap a b
    (List.range 4).map fun c =>
      let h (r : Nat) : Int := ((List.range 4).map fun a => nth wx a 0 * nthInt (nth (nth taps r []) a []) c 0).foldl (· + ·) 0
      clamp24 (shr (((List.range 4).map fun r => nth wy r 0 * h r).foldl (· + ·) 0) (2 ^ 27) 28)

/-! ### Output domain -/

/-- Linear luma (R287). -/
def luma (p : List Nat) : Nat := (13933 * nth p 0 0 + 46871 * nth p 1 0 + 4732 * nth p 2 0 + 32768) / 65536

/-- Node and fraction of R289 along one axis. -/
def ltmAxis (u cell grid : Nat) : Nat × Nat :=
  let g := if 2 * u + 1 ≤ cell then 0 else (2 * u + 1 - cell) * 256 / (2 * cell)
  if grid ≤ g / 256 + 1 then (grid - 1, 0) else (g / 256, g % 256)

/-- The gain at a pixel (R289), 4096 without LTM (R269). -/
def KernelView.gainAt (k : KernelView) (u v : Nat) : Nat :=
  match k.ltm with
  | none => 4096
  | some (gx, gy) =>
    let (i, fx) := ltmAxis u ((k.entry.width + gx - 1) / gx) gx
    let (j, fy) := ltmAxis v ((k.entry.height + gy - 1) / gy) gy
    let g (a b : Nat) : Nat := nth k.gains (b * gx + a) 4096
    (g i j * (256 - fx) * (256 - fy) + (if fx = 0 then 0 else g (i + 1) j * fx * (256 - fy)) +
      (if fy = 0 then 0 else g i (j + 1) * (256 - fx) * fy) +
      (if fx = 0 ∨ fy = 0 then 0 else g (i + 1) (j + 1) * fx * fy) + 32768) / 65536

/-- TONE (R291, R269). -/
def toneMap (t : Option (List Nat)) (l : Nat) : Nat :=
  match t with
  | none => l / 256
  | some e =>
    let p : Nat × Nat × Nat :=
      if l < 256 then (l / 16, l / 16 * 16, 4)
      else
        let o := log2 l
        let n := (l - 2 ^ o) / 2 ^ (o - 4)
        (16 + 16 * (o - 8) + n, 2 ^ o + n * 2 ^ (o - 4), o - 4)
    let a : Int := nthInt e p.1 0
    let b : Int := nthInt e (p.1 + 1) 0
    (max 0 (min 65535 (a + shr ((b - a) * ((l : Int) - p.2.1)) (2 ^ (p.2.2 - 1) : Nat) p.2.2))).toNat

/-- TRANSFER (R292, R269). -/
def transferMap (t : Option (List Nat)) (v : Nat) : Nat :=
  match t with
  | none => v
  | some e =>
    let a : Int := nthInt e (v / 64) 0
    let b : Int := nthInt e (v / 64 + 1) 0
    (max 0 (min 65535 (a + shr ((b - a) * (v % 64 : Nat)) 32 6))).toNat

/-- R', G', B' of an output pixel: LTM gain, tone and transfer (R289 to R292). -/
def KernelView.display (k : KernelView) (u v : Nat) (p : List Nat) : List Nat :=
  let g := k.gainAt u v
  (p.take 3).map fun l => transferMap k.transfer (toneMap k.tone (min full24 ((l * g + 2048) / 4096)))

/-- The IR 12-bit value of an output pixel (R278). -/
def KernelView.ir12 (k : KernelView) (u v : Nat) (p : List Nat) : Nat :=
  let g := match k.sources[(k.place u v).1]? with
    | some s => (s.params.irsep.map Prod.snd).getD 256
    | none => 256
  min 4095 ((nth p 3 0 * g + 2 ^ 19) / 2 ^ 20)

/-- Full-range luma, Cb and Cr of one pixel (R293). -/
def ycc (d : List Nat) : Nat × Int × Int :=
  let yf : Int := ((13933 * nth d 0 0 + 46871 * nth d 1 0 + 4732 * nth d 2 0 + 32768) / 65536 : Nat)
  let c (x k : Int) : Int := max 64 (min 960 (512 + shr ((x - yf) * k) (2 ^ 21) 22))
  ((64 + shr (yf * 219) 8192 14).toNat, c (nthInt d 2 0) 30904, c (nthInt d 0 0) 36414)

/-- Main-plane samples of an output pixel before TNF: (Y, C) with C the pair's Cb at an even and Cr at an odd column,
(R, G, B), the raw code, or the IR value (R286, R293, R294). -/
def KernelView.convert (k : KernelView) (u v : Nat) : List Nat :=
  match k.entry.format with
  | 0 =>
    let a := ycc (k.display (u / 2 * 2) v (k.sample (u / 2 * 2) v))
    let b := ycc (k.display (u / 2 * 2 + 1) v (k.sample (u / 2 * 2 + 1) v))
    if u % 2 = 0 then [a.1, ((a.2.1 + b.2.1 + 1) / 2).toNat] else [b.1, ((a.2.2 + b.2.2 + 1) / 2).toNat]
  | 1 => (k.display u v (k.sample u v)).map fun x => (x * 255 + 32768) / 65536
  | 2 => match k.sources with
    | s :: _ => [s.codeAt (k.entry.cropX + u) (k.entry.cropY + v)]
    | [] => [0]
  | _ => [k.ir12 u v (k.sample u v)]

/-- Blend factor of R295. -/
def tnfAlpha (p : Nat × Nat × Nat) (d : Nat) : Nat :=
  if d ≤ p.2.1 then p.1 else if p.2.2 ≤ d then 0 else p.1 * (p.2.2 - d) / (p.2.2 - p.2.1)

/-- Distance of two values. -/
def dist (a b : Nat) : Nat := if a ≤ b then b - a else a - b

/-- One filtered sample (R295). -/
def tnfBlend (cur prev alpha : Nat) : Nat := ((cur : Int) + shr (((prev : Int) - cur) * alpha) 128 8).toNat

/-- Main-plane samples after TNF (R295). -/
def KernelView.filtered (k : KernelView) (u v : Nat) : List Nat :=
  let cur := k.convert u v
  match k.tnf with
  | none => cur
  | some p =>
    let prev := (k.prev u v).1
    match k.entry.format with
    | 0 =>
      let w := if u % 2 = 0 then u + 1 else u - 1
      let d := dist (nth cur 0 0) (nth prev 0 0)
      let d2 := dist (nth (k.convert w v) 0 0) (nth (k.prev w v).1 0 0)
      [tnfBlend (nth cur 0 0) (nth prev 0 0) (tnfAlpha p d),
       tnfBlend (nth cur 1 0) (nth prev 1 0) (tnfAlpha p (max d d2))]
    | 1 =>
      let a := tnfAlpha p (dist (nth cur 1 0) (nth prev 1 0))
      cur.mapIdx fun i x => tnfBlend x (nth prev i 0) a
    | _ => [tnfBlend (nth cur 0 0) (nth prev 0 0) (tnfAlpha p (dist (nth cur 0 0) (nth prev 0 0)))]

/-- The IR plane sample after TNF (R293, R295). -/
def KernelView.irPlane (k : KernelView) (u v : Nat) : Nat :=
  let cur := k.ir12 u v (k.sample u v)
  match k.tnf with
  | none => cur
  | some p => let prev := (k.prev u v).2; tnfBlend cur prev (tnfAlpha p (dist cur prev))

/-! ### Overlay -/

/-- Coverage of a segment (R298). -/
def coversSegment (w : Nat) (p0 p1 : Int × Int) (cx cy : Int) : Bool :=
  let dx := p1.1 - p0.1
  let dy := p1.2 - p0.2
  let ex := cx - p0.1
  let ey := cy - p0.2
  let t := ex * dx + ey * dy
  let l2 := dx * dx + dy * dy
  let ww : Int := (16 * w) ^ 2
  if t ≤ 0 ∨ l2 = 0 then decide (4 * (ex * ex + ey * ey) ≤ ww)
  else if l2 ≤ t then decide (4 * ((cx - p1.1) ^ 2 + (cy - p1.2) ^ 2) ≤ ww)
  else decide (4 * (ex * dy - ey * dx) ^ 2 ≤ ww * l2)

/-- An edge of a polygon is crossed by the ray in +x (R298). -/
def crossesEdge (cx cy : Int) (a b : Int × Int) : Bool :=
  if decide (cy < a.2) = decide (cy < b.2) then false
  else
    let l := (cx - a.1) * (b.2 - a.2)
    let r := (cy - a.2) * (b.1 - a.1)
    if a.2 < b.2 then decide (l < r) else decide (r < l)

/-- Coverage of a primitive at a pixel centre (R298). -/
def Primitive.covers (p : Primitive) (u v : Nat) : Bool :=
  let cx : Int := 16 * u + 8
  let cy : Int := 16 * v + 8
  let pts : List (Int × Int) := p.vertices.map fun a => ((a.1 : Int), (a.2 : Int))
  if p.polygon then
    ((pts.zip (pts.drop 1 ++ pts.take 1)).filter fun e => crossesEdge cx cy e.1 e.2).length % 2 = 1
  else coversSegment p.width (nth pts 0 (0, 0)) (nth pts 1 (0, 0)) cx cy

/-- The last primitive that meets a test (R299). -/
def lastPrim (ps : List Primitive) (f : Primitive → Bool) : Option Primitive := (ps.filter f).getLast?

/-- Main-plane samples of a finished output pixel (R299). -/
def KernelView.main (k : KernelView) (u v : Nat) : List Nat :=
  let x := k.filtered u v
  match k.entry.format with
  | 0 =>
    let y := (lastPrim k.prims fun p => p.covers u v).elim (nth x 0 0) fun p => nth p.colour 0 0
    let w := if u % 2 = 0 then u + 1 else u - 1
    let c := (lastPrim k.prims fun p => p.covers u v || p.covers w v).elim (nth x 1 0) fun p =>
      nth p.colour (1 + u % 2) 0
    [y, c]
  | _ => (lastPrim k.prims fun p => p.covers u v).elim x fun p => p.colour.take x.length

/-! ### Storage and packing -/

/-- A pixel as the output ring stores it (09 R332). -/
def storePixel (format : Nat) (s : List Nat) : List Byte :=
  if format = 1 then (s.take 3).flatMap (fun x => le 1 x) ++ zeros 1 else s.flatMap fun x => le 2 x

/-- A stored pixel read back. -/
def loadPixel (format : Nat) (b : List Byte) : List Nat :=
  if format = 1 then (b.take 3).map BitVec.toNat
  else if format = 0 then [fromLe (b.take 2), fromLe ((b.drop 2).take 2)] else [fromLe (b.take 2)]

/-- Mid-grey samples of a format (07 R254). -/
def greyPixel (format : Nat) : List Nat :=
  match format with | 0 => [0x200, 0x200] | 1 => [0x80, 0x80, 0x80] | 2 => [0x8000] | _ => [0x800]

/-- Pack a row of pixels of a format (R300), without the padding. -/
def packRow (format : Nat) (px : List (List Nat)) : List Byte :=
  match format with
  | 0 => (List.range ((px.length + 1) / 2)).flatMap fun t =>
      let a := nth px (2 * t) [0, 0]
      let b := nth px (2 * t + 1) [0, 0]
      le 5 (nth a 1 0 + nth a 0 0 * 2 ^ 10 + nth b 1 0 * 2 ^ 20 + nth b 0 0 * 2 ^ 30)
  | 1 => px.flatMap fun p => (p.take 3).flatMap fun x => le 1 x
  | 2 => px.flatMap fun p => le 2 (nth p 0 0)
  | _ => (List.range ((px.length + 1) / 2)).flatMap fun t =>
      le 3 (nth (nth px (2 * t) []) 0 0 + nth (nth px (2 * t + 1) []) 0 0 * 4096)

/-- The pixels of a packed row of `w` of them (R300). -/
def unpackRow (format w : Nat) (bs : List Byte) : List (List Nat) :=
  (List.range w).map fun x => match format with
    | 0 =>
      let g := fromLe ((bs.drop (x / 2 * 5)).take 5) / 2 ^ (20 * (x % 2))
      [g / 2 ^ 10 % 2 ^ 10, g % 2 ^ 10]
    | 1 => ((bs.drop (3 * x)).take 3).map BitVec.toNat
    | 2 => [fromLe ((bs.drop (2 * x)).take 2)]
    | _ => [fromLe ((bs.drop (x / 2 * 3)).take 3) / 2 ^ (12 * (x % 2)) % 2 ^ 12]

/-- The payload of a video line: main line, then the IR plane line, each padded to 4 bytes (R300, R301). -/
def packLine (format : Nat) (px : List (List Nat)) (ir : Option (List Nat)) : List Byte :=
  padTo 4 (packRow format px) ++ (match ir with
    | some l => padTo 4 (packRow 3 (l.map fun x => [x]))
    | none => [])

end Sys2Proof.Machine
end

