-- ==== Sys2Proof/Machine/Links.lean ====
section
/-! DEFINITION. Shared operations of the creel back channel and of the ply link's training state
(04 R134 to R149, R156; 11 R374, R392; 01 R27). -/

namespace Sys2Proof.Machine

/-! ### Creel back channel -/

/-- A message that gets no reply and is never resent (04 R136). -/
def BcMsg.noReply : BcMsg → Bool
  | .linkCfg cmd _ _ => decide (cmd ≠ 3)
  | _ => false

/-- Put a message on the back channel: with the next tag at once, or into the queue when 8 requests are unanswered
(04 R136). A SYNC_REQ takes its t1 as it leaves (R144). The spec does not say whether the messages that get no reply are
numbered: they leave with tag 0 and take no number (DESIGN CHOICE, log 43). -/
def Port.send (p : Port) (now : Nat) (m : BcMsg) : Port :=
  if m.noReply then { p with sent := (0, m) :: p.sent }
  else if p.outstanding.length < 8 then
    { p with nextTag := p.nextTag + 1, outstanding := p.outstanding ++ [⟨p.nextTag, m, 0, now⟩],
             sent := (p.nextTag, m) :: p.sent, syncT1 := if m = .syncReq then some (2 * now) else p.syncT1 }
  else { p with queued := p.queued ++ [m] }

/-- Send a message on a port. -/
def Dev.bcSend (d : Dev) (p : PortNo) (m : BcMsg) : Dev := d.onPort p fun x => x.send d.whl.tim m

/-- LINK_CFG with a command code, the rate of the port and its number (04 R135). -/
def Dev.linkCfg (d : Dev) (p : PortNo) (cmd : Nat) : Dev :=
  d.onPort p fun x => x.send d.whl.tim (.linkCfg cmd x.rate p.val)

/-- Seed of a lane in R62 order, when valid at a rate (02 R64). -/
def Dev.eqSeedFor (d : Dev) (lane rateCode : Nat) : Option EqCoeffs :=
  let e := nth d.jnl.eqSeeds lane ⟨false, 0, ⟨0, 0, 0, 0, 0⟩⟩
  if e.valid ∧ e.rate = rateCode then some e.coeffs else none

/-- Start training at step 1 (04 R148, R149, R155): `retrain` sends RETRAIN and starts from the working set. -/
def Dev.startPort (d : Dev) (p : PortNo) (retrain : Bool) : Dev :=
  let r := d.creelRate p.val
  let e := d.onPort p fun x =>
    { x with step := .ts1, rate := r, attempts := 0, seeded := true, upAcked := false, lastSeq := none,
             startCoeffs := if retrain then x.working.or (d.eqSeedFor p.val r) else d.eqSeedFor p.val r,
             syncAcked := false, locked := false, inited := false, syncT1 := none }
  e.linkCfg p (if retrain then 4 else 1)

/-- The port holds a lock that it can lose (04 R154): its receiver has aligned and the lane is trained or on its way. -/
def Port.locksHeld (x : Port) : Bool := decide (x.step = .trained) || decide (x.step = .ts2) || decide (x.step = .linkUp)

/-- Drive POC_EN (04 R156): a rising port starts training and its trip blanking (14 R514). A trained port whose POC_EN falls
loses its lock in the same command (`State.dropFallen`). A tripped port stays low (14 R513). -/
def Dev.setPoc (d : Dev) (mask : BitVec 16) : Dev :=
  let want := mask &&& ~~~d.sns.trip
  let rise := want &&& ~~~d.pins.pocEn
  let d1 := { d with pins := { d.pins with pocEn := want } }
  allPorts.foldl (fun e p =>
    if rise.getLsbD p.val then
      (e.onSns fun s => { s with pocRise := (upd s.pocRise p fun _ => some e.whl.tim), blanked := s.blanked ||| (1#16 <<< p.val) }).startPort p false
    else if (want.getLsbD p.val) || (e.ports[p]).locksHeld then e
    else e.onPort p fun x => { x with step := .off }) d1

/-! ### Ply training state -/

/-- Lanes 0 to count - 1 as a mask. -/
def laneMask (n : Nat) : Byte := BitVec.ofNat 8 (2 ^ n - 1)

/-- Lanes in a mask. -/
def laneCount (m : Byte) : Nat := (bitsOf 8 m.toNat).length

/-- Put an ordered set or block on the forward lanes. -/
def Ply.emit (p : Ply) (x : PlySym) : Ply := { p with sent := x :: p.sent }

/-- Start at step 1 of 11 R374 on every configured lane. -/
def Ply.train (p : Ply) : Ply :=
  ({ p with st := .training, map := 0, up := 0, lockedMask := 0, gotLock := false }).emit (.ts1 (laneMask p.count))

/-- Start ply training (03 R86 step 6) when the link is down. -/
def Dev.trainPly (d : Dev) : Dev :=
  match d.img with
  | some i => if d.ply.st = .down then d.onPly fun p => { p with rate := d.plyRate, count := i.ply.lanes }.train else d
  | none => d

/-- Electrical idle (03 R104, R111): what waits in the doffer is dropped, and its cursor passes every packet. -/
def Dev.idlePly (d : Dev) : Dev :=
  if d.ply.st = .down then d else
    (d.onPly fun p =>
      ({ p with st := .down, map := 0, buffer := [], resend := [], rest := [], queue := [], replayTop := none,
                replayRun := 0, retraining := 0 }).emit .idle).onBob fun b =>
      { b with queues := b.queues.map fun q => (q.1, q.2.pass 1 fun _ => true) }

/-- The arbiter selects the shed row for a width; the doffer applies it at the next block boundary (01 R27). -/
def Dev.selectShed (d : Dev) (w : Nat) : Dev :=
  match d.img, d.layoutCfg d.sys.activeLayout.toNat with
  | some i, some l =>
    let e := d.issueDecision
    let row := i.shedRow l w
    e.onPly fun p => { p with shedNext := some (row.1, row.2, e.sys.decision) }
  | _, _ => d

end Sys2Proof.Machine
end

