-- ==== Sys2Proof/Machine/Check.lean ====
section
/-! DEFINITION. The check units (15_dma_check_units.md R534 to R540; 18_registers.md CHK, R598). -/

namespace Sys2Proof.Machine

/-- Parameters of a preset of R536: W, poly, init, xorout, reflection. -/
def chkPreset (n : Nat) : Option (Nat × Nat × Nat × Nat × Bool) :=
  match n with
  | 1 => some (32, 0x1EDC6F41, 0xFFFFFFFF, 0xFFFFFFFF, true)
  | 2 => some (32, 0x04C11DB7, 0xFFFFFFFF, 0xFFFFFFFF, true)
  | 3 => some (64, 0x42F0E1EBA9EA3693, 0xFFFFFFFFFFFFFFFF, 0xFFFFFFFFFFFFFFFF, true)
  | 4 => some (16, 0x1021, 0xFFFF, 0, true)
  | _ => none

/-- PRESET field of CHK_CFGn. -/
def ChkUnit.presetField (u : ChkUnit) : Nat := u.cfg.toNat / 2 ^ 12 % 16

/-- The parameters that a restart loads (R536): a preset's, or the registers as written for 0 and the reserved ones. -/
def ChkUnit.params (u : ChkUnit) : ChkParams :=
  let alive := u.cfg.getLsbD 10
  let gap := u.cfg.toNat / 2 ^ 16 % 256
  match chkPreset u.presetField with
  | some (w, p, i, x, r) =>
    ⟨w, BitVec.ofNat 64 p, BitVec.ofNat 64 i, BitVec.ofNat 64 x, r, r, alive, gap⟩
  | none => ⟨u.cfg.toNat % 128, u.poly, u.init, u.xorOut, u.cfg.getLsbD 8, u.cfg.getLsbD 9, alive, gap⟩

/-- Restart a unit (R534, R536): reg := init, no alive baseline; W outside 1 to 64 or a reserved PRESET sets CONFIG. -/
def ChkUnit.restart (u : ChkUnit) : ChkUnit :=
  let p := u.params
  { u with act := p, reg := BitVec.ofNat 64 (p.init.toNat % 2 ^ p.w), baseline := false,
           config := u.config || decide (p.w = 0) || decide (64 < p.w) || decide (5 ≤ u.presetField) }

/-- Feed data bytes in CRC mode (R534). -/
def ChkUnit.feedCrc (u : ChkUnit) (bs : List Byte) : ChkUnit :=
  if u.act.w = 0 ∨ 64 < u.act.w then u
  else { u with reg := BitVec.ofNat 64 (bs.foldl (crcByte u.act.w u.act.poly.toNat u.act.refIn) u.reg.toNat) }

/-- Judge one alive value (R540). -/
def ChkUnit.judge (u : ChkUnit) (v : Nat) : ChkUnit :=
  let s := (v + 2 ^ u.act.w - u.last.toNat) % 2 ^ u.act.w
  let u1 := { u with last := BitVec.ofNat 64 v, baseline := true }
  if !u.baseline then u1
  else if s = 1 then u1
  else if s = 0 then { u1 with repeats := satNat 0xFF (u.repeats + 1) }
  else if s ≤ u.act.gap + 1 then { u1 with lost := satNat 0xFFFF (u.lost + (s - 1)) }
  else { u1 with errors := satNat 0xFF (u.errors + 1) }

/-- Feed the bytes of one write (R535). -/
def ChkUnit.feed (u : ChkUnit) (bs : List Byte) : ChkUnit :=
  if u.act.alive then
    if (u.act.w = 16 ∨ u.act.w = 32) ∧ bs.length * 8 = u.act.w then u.judge (fromLe bs) else { u with config := true }
  else u.feedCrc bs

/-- CHK_RESULTn: the CRC result or the last alive value (R534, R540). -/
def ChkUnit.result (u : ChkUnit) : DWord :=
  if u.act.alive then u.last
  else if u.act.w = 0 ∨ 64 < u.act.w then 0
  else BitVec.ofNat 64 (crcOut u.act.w u.act.xorOut.toNat u.act.refOut u.reg.toNat)

/-- Bind a unit: user and preset, CHK_CFGn from the entry, restart (R598). -/
def ChkUnit.bindTo (u : ChkUnit) (b : BindCfg) : ChkUnit :=
  { u with user := b.user, preset := b.preset % 16,
           cfg := BitVec.ofNat 32 (b.gap % 256 * 2 ^ 16 + b.preset % 16 * 2 ^ 12 + (if b.mode = 1 then 2 ^ 10 else 0)) }.restart

/-- Change a unit. -/
def Dev.onChk (d : Dev) (u : Fin 24) (f : ChkUnit → ChkUnit) : Dev := { d with chk := upd d.chk u f }

/-- Units 0 and 1 bound to core 3 with PRESET 3 and PRESET 1 (R539), all others unbound. -/
def bootUnits : Vector ChkUnit 24 :=
  Vector.ofFn fun k =>
    if k.val = 0 then ChkUnit.reset.bindTo ⟨3, 3, 0, 0⟩
    else if k.val = 1 then ChkUnit.reset.bindTo ⟨3, 1, 0, 0⟩
    else ChkUnit.reset

/-- Units 2 to 23 bound from the image's table (R537). -/
def Dev.bindUnits (d : Dev) (bs : List BindCfg) : Dev :=
  { d with chk := Vector.ofFn fun k =>
      if 2 ≤ k.val then
        match bs[k.val]? with
        | some b => if b.user = 0xFF then d.chk[k] else (d.chk[k]).bindTo b
        | none => d.chk[k]
      else d.chk[k] }

/-- A master may write a register of a unit (R538); `data` for CHK_DATAn of a DMA-bound unit. -/
def Dev.chkMay (d : Dev) (m : Master) (u : Fin 24) (data : Bool) : Bool :=
  let user := (d.chk[u]).user
  if user ≤ 3 then
    match m with
    | .core n => decide (n.val = user)
    | _ => false
  else if 0x10 ≤ user ∧ user ≤ 0x17 then
    match m with
    | .core _ => !data
    | .dma => data && (match d.dma.serving with | some c => decide (c.val + 0x10 = user) | none => false)
    | _ => false
  else false

/-- A register write to a unit: done, or refused with FOREIGN (R538). -/
def Dev.chkWrite (d : Dev) (a : Access) (u : Fin 24) (off size : Nat) (v : Word) (data : Bool) (f : ChkUnit → ChkUnit) : Dev :=
  d.write a (regAddr (0x80000 + 0x40 * u.val + off)) size v true fun e =>
    if e.chkMay a.master u data then (e.onChk u f, Res.ok)
    else (e.onChk u fun x => { x with foreign := true }, Res.addrErr)

/-- CHK_DATA (R535, R540). -/
def execChkData (a : Access) (u : Fin 24) (bytes : List Byte) (s : State) : Host.Outcome State Fault Refusal :=
  .next (s.run fun d => d.chkWrite a u 0x20 bytes.length (BitVec.ofNat 32 (fromLe bytes)) true fun x => x.feed bytes)

/-- CHK_RESTART: bit 0 restarts the unit (R534, R536). -/
def execChkRestart (a : Access) (u : Fin 24) (v : Word) (s : State) : Host.Outcome State Fault Refusal :=
  .next (s.run fun d => d.chkWrite a u 0x24 4 v false fun x => if v.getLsbD 0 then x.restart else x)

end Sys2Proof.Machine
end

