-- ==== Sys2Proof/Machine/Journal.lean ====
section
/-! DEFINITION. When and where journal sets are written (02_image_and_journal.md R68 to R73). -/

namespace Sys2Proof.Machine

/-- 60 s in TIM cycles. -/
def minute : Nat := 60 * 500000000

/-- A set of the cause may be written now (R69, R73, R113): the limit of 60 s holds for all but periodic and
power-fail sets, and the hold of a power-fail warning for all but the set of an orderly shutdown. -/
def Dev.mayWriteSet (d : Dev) (cause : Nat) : Bool :=
  d.nvm.fitted && d.jnl.writing.isNone && !d.jnl.closed &&
    (!d.jnl.held || decide (d.sys.shutdownStep = 4)) &&
    (decide (cause ≤ 1) || (match d.jnl.lastSet with
      | some t => decide (t + minute ≤ d.whl.tim)
      | none => true))

/-- JOURNAL_PERIODIC_DUE: at a 60 s mark with changed content a set of cause 0 falls due (R68); a trigger that
waits is served by it (R69). -/
def journalPeriodicDue (d : Dev) : Dev :=
  if d.released && d.jnl.changed && !d.jnl.held && !d.jnl.closed then
    { d with jnl := { d.jnl with due := if d.jnl.due = some 1 then some 1 else some 0 } }
  else d

def execJournalPeriodicDue (s : State) : Host.Outcome State Fault Refusal := .next (s.run journalPeriodicDue)

/-- JOURNAL_SET_WRITE: the due set is programmed, all pages but the trailer page, into the target slot of the bank
of its sequence (R61, R69, R71, R72). The set holds all content as it stands. -/
def journalSetWrite (s : State) : State :=
  let d := s.dev
  match d.jnl.due with
  | none => s
  | some cause =>
    let seq := (d.jnl.seq + 1) % 2 ^ 32
    let bank : Fin 2 := Fin.ofNat 2 seq
    let slot := d.jnl.slot[bank]
    if d.mayWriteSet cause && !(d.jnl.erasing.any fun e => decide (e = (bank.val, slot / 4))) then
      let bs := d.setBytes cause seq
      let j := { d.jnl with
        writing := some (bank.val, slot, seq, bs.drop 0x3F00), due := none, changed := false, unsaved := 0,
        lastSet := if cause ≤ 1 then d.jnl.lastSet else some d.whl.tim,
        held := d.jnl.held || decide (cause = 1),
        closed := d.jnl.closed || decide (d.sys.shutdownStep = 4) }
      { s with dev := { d with jnl := j },
               mem := { s.mem with nvm := Memory.write 0xFF s.mem.nvm (slotAddr bank slot) (bs.take 0x3F00) } }
    else s

def execJournalSetWrite (s : State) : Host.Outcome State Fault Refusal := .next (s.runM journalSetWrite)

/-- Steps 5 to 7 of the shutdown table once the set is programmed (03 R113): ply link idle, BYPx_HOLD low, ring and
Ethernet ports stopped, SAFE_OFF. -/
def Dev.finishShutdown (d : Dev) : Dev :=
  { d with
    ply := { d.ply with st := .down, map := 0, sent := .idle :: d.ply.sent },
    aon := { d.aon with tier := Vector.replicate 2 .bypass },
    skn := { d.skn with stopped := true, ports := d.skn.ports.map fun p => { p with up := false } },
    whl := { d.whl with ptp := { d.whl.ptp with stopped := true } },
    sys := { d.sys with safeOff := true, shutdownStep := 7 } }

/-- A slot of a bank has been written, whole or torn: the next slot is the target, and after the first slot of a sector the
next sector of the bank is erased (R72). -/
def Journal.leaveSlot (j : Journal) (bank slot : Nat) : Journal :=
  { j with
    writing := none, slot := upd j.slot (Fin.ofNat 2 bank) fun _ => (slot + 1) % 256,
    erasing := if slot % 4 = 0 then j.erasing ++ [(bank, (slot / 4 + 1) % 64)] else j.erasing }

/-- A set of cause 1 falls due; a program in progress is given up for it, its slot left torn (R73 steps 1 and 3; log 18). -/
def Dev.lastGasp (d : Dev) : Dev :=
  d.onJnl fun j =>
    match j.writing with
    | some (bank, slot, _, _) => { j.leaveSlot bank slot with due := some 1 }
    | none => { j with due := some 1 }

/-- Steps 1 and 3 of R73. While the hold of an earlier warning stands, or the last set of a shutdown has been begun (03 R113),
no further set is written: the one written or in progress serves. -/
def Dev.powerFailSet (d : Dev) : Dev :=
  if d.jnl.held || d.jnl.closed then { d with jnl := { d.jnl with held := true } } else d.lastGasp

/-- JOURNAL_SET_PROGRAMMED: the trailer page completes the set (R71); after the first slot of a sector the next sector
of the bank is erased (R72). A programming error is reported (16 R551 bit 2). During an orderly shutdown steps 5 to 7
follow (03 R113). -/
def journalSetProgrammed (ok : Bool) (s : State) : State :=
  match s.dev.jnl.writing with
  | none => s
  | some (bank, slot, seq, trailer) =>
    let j := s.dev.jnl
    let j1 := { j.leaveSlot bank slot with seq := if ok then seq else j.seq, changed := j.changed || !ok }
    let d := { s.dev with jnl := j1 }
    let d1 := if ok then d else d.report 2
    { s with
      dev := if d1.sys.shutdownStep = 4 ∧ d1.jnl.closed then d1.finishShutdown else d1,
      mem := if ok then { s.mem with nvm := Memory.write 0xFF s.mem.nvm (slotAddr bank slot + 0x3F00) trailer }
             else s.mem }

def execJournalSetProgrammed (ok : Bool) (s : State) : Host.Outcome State Fault Refusal :=
  .next (s.runM (journalSetProgrammed ok))

/-- SECTOR_ERASE_DONE: the sector under erase reads erased (R72), or the failure is reported. -/
def sectorEraseDone (ok : Bool) (s : State) : State :=
  match s.dev.jnl.erasing with
  | [] => s
  | (bank, sector) :: l =>
    let d := { s.dev with jnl := { s.dev.jnl with erasing := l } }
    { s with
      dev := if ok then d else d.report 2,
      mem := if ok then { s.mem with nvm := Memory.fill 0xFF s.mem.nvm (slotAddr bank (4 * sector)) 0x10000 0xFF }
             else s.mem }

def execSectorEraseDone (ok : Bool) (s : State) : Host.Outcome State Fault Refusal :=
  .next (s.runM (sectorEraseDone ok))

/-- POWER_FAIL_RECOVERED: journal sets are written again (R73 step 4). -/
def powerFailRecovered (d : Dev) : Dev := { d with jnl := { d.jnl with held := false } }

def execPowerFailRecovered (s : State) : Host.Outcome State Fault Refusal := .next (s.run powerFailRecovered)

end Sys2Proof.Machine
end

