-- ==== Sys2Proof/Machine/Staging.lean ====
section
/-! DEFINITION. Staging a new image, and the bank pin (02_image_and_journal.md R74 to R80). -/

namespace Sys2Proof.Machine

/-- NVM_STAGE_CTRL, NVM_STAGE_GO. -/
def stageCtrl : Nat := 0x50020
def stageGoOff : Nat := 0x5002C

/-- NVM base of the inactive bank (R44, R80). -/
def Nvm.stageBase (v : Nvm) : Nat := if v.inactiveB then 0x1000000 else 0

/-- Bytes of a bank (R43). -/
def bankBytes : Nat := 0x1000000

/-- Erase `n` bytes of a present NVM from `a` on (R46). -/
def Mem.erase (m : Mem) (v : Nvm) (a n : Nat) : Mem :=
  if v.fitted then { m with nvm := Memory.fill 0xFF m.nvm a n 0xFF } else m

/-- Program bytes of a present NVM from `a` on (R46). -/
def Mem.program (m : Mem) (v : Nvm) (a : Nat) (bs : List Byte) : Mem :=
  if v.fitted then { m with nvm := Memory.write 0xFF m.nvm a bs } else m

/-- Bytes of whole sectors that cover the length of a session, within the bank. -/
def Session.span (x : Session) : Nat := min bankBytes ((x.length + 0xFFFF) / 0x10000 * 0x10000)

/-- An access may use the session: it comes from the path and origin that opened it (R75). -/
def Session.ownedBy (x : Session) (a : Access) : Bool :=
  decide (x.owner.master = a.master) && decide (x.owner.origin = a.origin) && decide (x.owner.detail = a.detail)

/-- One of the two access log records of a session (R79): NVM_STAGE_CTRL with a length. -/
def Dev.logStage (d : Dev) (a : Access) (v : Word) (len result : Nat) : Dev :=
  d.logAccess a (regAddr stageCtrl) 4 v len result

/-- Close the session with a status; `logged` writes its second record here (R77, R79). -/
def Dev.closeStage (d : Dev) (st : StageStatus) (logged : Bool) : Dev :=
  match d.nvm.session with
  | none => d
  | some x =>
    let d1 := d.onNvm fun v => { v with session := none, status := st }
    if logged then
      let r := d1.freshWord
      r.1.logStage x.owner r.2 x.total 0
    else d1

/-- Abort an open session (R74). A session whose COMMIT was logged has its second record (R79). -/
def Dev.abortStage (d : Dev) : Dev := d.closeStage .aborted (decide (d.nvm.status ≠ .verifying))

/-- The session that an OPEN starts: nothing written, the held header erased. -/
def Session.fresh (a : Access) (length : Nat) (pinNew : Bool) : Session :=
  ⟨a, length, pinNew, [], List.replicate 256 0xFF, none, 0⟩

/-- A write of `v` to NVM_STAGE_CTRL that opens a session: it starts, and the erase of the inactive bank begins (R74 to
R76); an open session of another owner answers BUSY, one of the same owner is aborted first. The erase goes up from the first
sector of the bank, whose header is gone from here on, so that an interrupted staging leaves no valid magic (R77, 03 R115;
log 42). -/
def State.openStage (s : State) (a : Access) (v : Word) (length : Nat) (pinNew : Bool) : State :=
  s.write a (regAddr stageCtrl) 4 v true fun t =>
    if !t.dev.stagingMode then (t, Res.addrErr)
    else if t.dev.nvm.session.any fun x => !x.ownedBy a then (t, Res.busy)
    else
      ({ t with
        dev := t.dev.abortStage.onNvm fun v =>
          { v with status := .erasing, session := some (Session.fresh a length pinNew) },
        mem := t.mem.erase t.dev.nvm t.dev.nvm.stageBase (min 0x10000 (Session.fresh a length pinNew).span) }, Res.ok)

/-- STAGE_OPEN. The logged value is free: the spec gives NVM_STAGE_CTRL no bit layout (log 1). -/
def stageOpen (a : Access) (length : Nat) (pinNew : Bool) (s : State) : State :=
  let f := s.dev.freshWord
  { s with dev := f.1 }.openStage a f.2 length pinNew

def execStageOpen (a : Access) (length : Nat) (pinNew : Bool) (s : State) : Host.Outcome State Fault Refusal :=
  .next (s.runM (stageOpen a length pinNew))

/-- STAGE_ERASE_DONE: the sectors read erased and the status is READY, or PROGRAM_FAIL closes the session (R76, R77). An
absent NVM (R46) never ends an erase: the session stays as it is until R74 aborts it (DESIGN CHOICE, log 42). -/
def stageEraseDone (ok : Bool) (s : State) : State :=
  match s.dev.nvm.session with
  | none => s
  | some x =>
    if s.dev.nvm.status = .erasing ∧ s.dev.nvm.fitted then
      if ok then
        { s with dev := s.dev.onNvm fun v => { v with status := .ready },
                 mem := s.mem.erase s.dev.nvm s.dev.nvm.stageBase x.span }
      else { s with dev := (s.dev.closeStage .programFail true).report 3 }
    else s

def execStageEraseDone (ok : Bool) (s : State) : Host.Outcome State Fault Refusal :=
  .next (s.runM (stageEraseDone ok))

/-- Pages of a GO. -/
def goPages (off count : Nat) : List Nat := (List.range (count / 256)).map fun k => off / 256 + k

/-- A GO is out of range: it overlaps written pages or lies beyond the length (R77) or beyond the inactive bank, the one
place a session may write (R44). The spec asks for multiples of 256 and does not say what else does (R76): an offset or a
count that is none also gives RANGE (DESIGN CHOICE, log 42). -/
def Session.outOfRange (x : Session) (off count : Nat) : Bool :=
  decide (min bankBytes x.length < off + count) || decide (off % 256 ≠ 0) || decide (count % 256 ≠ 0) ||
    (goPages off count).any fun p => x.pages.contains p

/-- A GO programs `bs` at bank offset `off`: bytes of the first page are held, the rest goes to the NVM (R76 step 4). -/
def stageProgram (off : Nat) (bs : List Byte) (s : State) : State :=
  let put (x : Session) : Session :=
    { x with pages := x.pages ++ goPages off bs.length, busy := some (off, bs.length), total := x.total + bs.length,
             header := if off = 0 then bs.take 256 else x.header }
  let low := if off = 0 then 256 else 0
  { s with
    dev := s.dev.onNvm fun v => { v with status := .programming, session := v.session.map put },
    mem := s.mem.program s.dev.nvm (s.dev.nvm.stageBase + off + low) (bs.drop low) }

/-- STAGE_GO: a buffer half is programmed, or the status reads RANGE and the session stays open (R76, R77). The spec is silent
on three cases (DESIGN CHOICE, log 42): a GO with no session open answers ADDR_ERR, one while the status reads neither READY
nor RANGE answers BUSY, and one of no bytes answers OK and does nothing. -/
def stageGo (a : Access) (half : Bool) (count : Nat) (s : State) : State :=
  let off := s.dev.nvm.offset.toNat
  let buf := Memory.readN 0 s.mem.stage (if half then 0x4000 else 0) count
  s.write a (regAddr stageGoOff) 4 0 false fun t =>
    match t.dev.nvm.session with
    | none => (t, Res.addrErr)
    | some x =>
      if !x.ownedBy a then (t, Res.busy)
      else if t.dev.nvm.status ≠ .ready ∧ t.dev.nvm.status ≠ .range then (t, Res.busy)
      else if x.outOfRange off count then
        ({ t with dev := t.dev.onNvm fun v => { v with status := .range } }, Res.ok)
      else if count = 0 then (t, Res.ok)
      else (stageProgram off buf t, Res.ok)

def execStageGo (a : Access) (half : Bool) (count : Nat) (s : State) : Host.Outcome State Fault Refusal :=
  .next (s.runM (stageGo a half count))

/-- STAGE_PROGRAM_DONE: READY, or PROGRAM_FAIL closes the session (R76, R77). -/
def stageProgramDone (ok : Bool) (d : Dev) : Dev :=
  if d.nvm.status = .programming then
    if ok then d.onNvm fun v => { v with status := .ready, session := v.session.map fun x => { x with busy := none } }
    else (d.closeStage .programFail true).report 3
  else d

def execStageProgramDone (ok : Bool) (s : State) : Host.Outcome State Fault Refusal := .next (s.run (stageProgramDone ok))

/-- Every page of the length is written (R76 step 5). -/
def Session.complete (x : Session) : Bool := (List.range ((x.length + 255) / 256)).all fun p => x.pages.contains p

/-- A write of `v` to NVM_STAGE_CTRL that commits: the bank is read back and checked, units 0 and 1 restarted (R76 step 6;
15 R539), or INCOMPLETE closes the session. The spec is silent on a COMMIT with no session, which answers ADDR_ERR, and on one
while the erase or a program is under way, which gives INCOMPLETE (DESIGN CHOICE, log 42). The second log record is written here with the total length (R79). -/
def Dev.commitStage (d : Dev) (a : Access) (v : Word) : Dev :=
  d.write a (regAddr stageCtrl) 4 v false fun e =>
    match e.nvm.session with
    | none => (e, Res.addrErr)
    | some x =>
      if !x.ownedBy a then (e, Res.busy)
      else if e.nvm.status = .verifying then (e, Res.busy)
      else
        let e1 := e.logStage a v x.total 0
        if x.complete ∧ (e.nvm.status = .ready ∨ e.nvm.status = .range) then
          (((e1.onNvm fun w => { w with status := .verifying }).onChk 0 ChkUnit.restart).onChk 1 ChkUnit.restart, Res.ok)
        else (e1.closeStage .incomplete false, Res.ok)

/-- STAGE_COMMIT. -/
def stageCommit (a : Access) (d : Dev) : Dev :=
  let f := d.freshWord
  f.1.commitStage a f.2

def execStageCommit (a : Access) (s : State) : Host.Outcome State Fault Refusal := .next (s.run (stageCommit a))

/-- The held header with the sequence pair of R76 step 6. -/
def Nvm.stagedHeader (v : Nvm) (x : Session) : List Byte :=
  x.header.take 0x28 ++ cpBytes 4 (v.activeSeq + 1) ++ x.header.drop 0x30

/-- The staged bank as the check of R76 step 6 reads it. -/
def Mem.stagedBank (m : Mem) (v : Nvm) (x : Session) : Rd :=
  let h := v.stagedHeader x
  ⟨fun o => if o < 256 then nth h o 0xFF else m.nvmByte (v.stageBase + o), 0x1000000⟩

/-- The bank pin of the next start; a changed one causes a journal set (R68, R79). -/
def Dev.pinBank (d : Dev) (n : Nat) : Dev :=
  if d.jnl.pin = n then d else (d.onJnl fun j => { j with pin := n }).jnlDue 4

/-- The bank pin that a commit of a session leaves, in the journal and in NVM_PIN (R78). -/
def Dev.setPin (d : Dev) (n : Nat) : Dev :=
  { d with pairs := { d.pairs with nvmPin := ⟨BitVec.ofNat 32 n, BitVec.ofNat 32 n⟩ } }.pinBank n

/-- STAGE_COMMIT_DONE: R58 on the staged bank; the header is programmed, the pin cleared or set, a journal set caused
and the status DONE; or VERIFY_FAIL or PROGRAM_FAIL closes the session (R76 to R78). -/
def stageCommitDone (ok : Bool) (s : State) : State :=
  match s.dev.nvm.session with
  | none => s
  | some x =>
    if s.dev.nvm.status = .verifying ∧ s.dev.nvm.fitted then
      if (s.mem.stagedBank s.dev.nvm x).check (some s.dev.fst.usable) ≠ 0 then
        { s with dev := (s.dev.closeStage .verifyFail false).report 3 }
      else if ok then
        let d := s.dev.closeStage .done false
        { s with
          dev := d.setPin (if x.pinNew then (if d.nvm.inactiveB then 2 else 1) else 0),
          mem := s.mem.program s.dev.nvm s.dev.nvm.stageBase (s.dev.nvm.stagedHeader x) }
      else { s with dev := (s.dev.closeStage .programFail false).report 3 }
    else s

def execStageCommitDone (ok : Bool) (s : State) : Host.Outcome State Fault Refusal :=
  .next (s.runM (stageCommitDone ok))

/-- STAGE_TIMEOUT: the session is aborted (R74). -/
def execStageTimeout (s : State) : Host.Outcome State Fault Refusal := .next (s.run Dev.abortStage)

/-- NVM_PIN: a commit of NVM_PIN_C pins a bank for the next start and causes a journal set (R79, R68; 18 R592). Code 3 names no
bank: the pair commits and the pin in force stays (DESIGN CHOICE, log 42). -/
def nvmPin (a : Access) (v : Word) (d : Dev) : Dev :=
  d.write a (regAddr 0x50014) 4 v true fun e =>
    e.commitPair a 0x50014 e.pairs.nvmPin v (fun x p => { x with pairs := { x.pairs with nvmPin := p } }) fun x w =>
      (if w.toNat % 4 = 3 then x else x.pinBank (w.toNat % 4), Res.ok)

def execNvmPin (a : Access) (v : Word) (s : State) : Host.Outcome State Fault Refusal := .next (s.run (nvmPin a v))

end Sys2Proof.Machine
end

