-- ==== Sys2Proof/Machine/Layout.lean ====
section
/-! DEFINITION. The layout switch at frame boundaries (01 R20 to R24, R28; 03 R97, R101; 09 R309, R312, R325;
10 R340, R342, R362; 13 R490). -/

namespace Sys2Proof.Machine

/-- Bit of the R55 mode mask for a mode; none for modes that adopt no layout. -/
def Mode.maskBit : Mode → Option Nat
  | .drive => some 0 | .survey => some 1 | .depot => some 2 | _ => none

/-- The mode mask of a layout includes a mode. -/
def LayoutCfg.allows (l : LayoutCfg) (m : Mode) : Bool :=
  match m.maskBit with
  | some b => bitAt l.modeMask b
  | none => false

/-- A frame of the strand is in progress (01 R20). -/
def Strand.inFrame (g : Strand) : Bool := g.frames.any fun f => f.isOpen

/-- Compressor lanes in service. -/
def Dev.goodLanes (d : Dev) : List (Fin 4) := (List.finRange 4).filter fun k => !(d.hnk.lanes[k]).quarantined

/-- The compressor lane of a strand. -/
def Hnk.laneOf (h : Hnk) (n : Nat) : Option (Fin 4) := (List.finRange 4).find? fun k => (h.lanes[k]).strands.contains n

/-- Change a lane, a strand's record state. -/
def Dev.onLane (d : Dev) (k : Fin 4) (f : HankLane → HankLane) : Dev := d.onHnk fun h => { h with lanes := upd h.lanes k f }
def Dev.onHankStrand (d : Dev) (n : StrandNo) (f : HankStrand → HankStrand) : Dev :=
  d.onHnk fun h => { h with strands := upd h.strands n f }

/-- End a strand's segment: its next recorded frame opens with a RESTART entry hank (10 R355, R356). -/
def HankStrand.endSegment (x : HankStrand) : HankStrand := { x with needEntry := true, restart := true, window := [] }
def Dev.endSegment (d : Dev) (n : StrandNo) : Dev := d.onHankStrand n HankStrand.endSegment

/-- A lane abandons the frame it is compressing (10 R363). -/
def Dev.abandonHank (d : Dev) (k : Fin 4) : Dev :=
  match (d.hnk.lanes[k]).cur with
  | some c =>
    ((d.onLane k fun l => { l with cur := none, losses := l.losses + 1 }).endSegment c.strand).raise 15 c.strand.val 1
  | none => d

/-- A strand under a new assignment for layout `id`: its frames of that layout go to lane `new`, and the first of them opens with
an entry hank unless the strand had that lane before (10 R342, R362). Its frames of other layouts stay on their lane (R338),
unless that lane is out of service. -/
def HankStrand.assign (x : HankStrand) (id : Nat) (old new : Option (Fin 4)) (good : List (Fin 4)) : HankStrand :=
  let others := x.laneFor.filter fun p => decide (p.1 ≠ id)
  let stay := others.filter fun p => good.contains p.2
  let moved := (others.filter fun p => !good.contains p.2).map Prod.fst
  match new with
  | some k =>
    let fresh := (if old = some k then [] else [id]) ++ moved
    { x with laneFor := (id, k) :: moved.map (fun j => (j, k)) ++ stay,
             entryFor := fresh ++ x.entryFor.filter fun j => !fresh.contains j }
  | none => { x with laneFor := stay }

/-- Assign the recorded strands `ns` of layout `id` to lanes (10 R340, R342, R362): one that fits nowhere is not recorded, is
reported, and enters the shed set (R365). -/
def Dev.assignHank (d : Dev) (id : Nat) (ns : List Nat) : Dev :=
  match d.img with
  | none => d
  | some i =>
    let good := d.goodLanes
    let r := i.assignLanes good (if good.length = 4 then none else some 800000000) ns
    let lost := BitVec.ofNat 64 (r.2.foldl (fun m n => m ||| 2 ^ n) 0)
    let h := d.hnk
    let h1 := { h with
      lanes := Vector.ofFn fun k => { h.lanes[k] with strands := r.1[k] }, unplaced := lost,
      strands := Vector.ofFn fun n =>
        let new := (List.finRange 4).find? fun k => (r.1[k]).contains n.val
        let x := (h.strands[n]).assign id (h.laneOf n.val) new good
        if lost.getLsbD n.val && !h.unplaced.getLsbD n.val then x.endSegment else x }
    let d1 := { d with hnk := h1 }
    r.2.foldl (fun e n => e.raise 15 n 0) d1

/-- During a switch each queue holds the larger of its old and new credit (09 R312). -/
def Bob.raiseCredits (b : Bob) (cs : List (Nat × Nat)) : Bob :=
  cs.foldl (fun x c => x.onQueue c.1 fun q => { q with credit := max q.credit c.2 }) b

/-- Sum of the larger credits of R312, with the fixed ones. -/
def Bob.switchSum (b : Bob) (cs : List (Nat × Nat)) : Nat :=
  sumN (((b.raiseCredits cs).queues.filter fun q => decide (q.1 < 196)).map fun q => q.2.credit) + 4096 + 2048

/-- Once the switch is complete, a queue drops to its credit under the active layout when the last packet that was committed
before has been freed (R312). -/
def Dev.trimCredits (d : Dev) : Dev :=
  match d.img, d.layoutCfg d.sys.activeLayout.toNat, d.lay.pending with
  | some i, some l, none =>
    let cs := i.credits l
    d.onBob fun b => { b with queues := b.queues.map fun q =>
      if q.1 < 196 ∧ q.2.pkts.all (fun p => decide (b.mark ≤ p.serial)) then (q.1, { q.2 with credit := assocGet cs q.1 0 }) else q }
  | _, _, _ => d

/-- A re-plan starts with its cause bit of R568, or the running one serves the trigger (16 R564). -/
def Dev.startReplan (d : Dev) (cause : Nat) : Dev := d.onAge fun g => { g with replan := some (g.replan.getD 0 ||| cause) }

/-- The mode becomes `m`: a staging session is aborted on a change (02 R74); Depot entry starts the ageing scans and
the re-plan (03 R104; 16 R561, R564). -/
def Dev.setMode (d : Dev) (m : Mode) (nolive : Bool) : Dev :=
  if d.sys.mode = m ∧ d.sys.nolive = nolive then d.onSys fun y => { y with transition := none }
  else
    let d1 := d.abortStage.onSys fun y => { y with mode := m, nolive := nolive, transition := none }
    if m = .depot then
      (d1.startReplan 1).onAge fun g => { g with eyeBusy := true, vminBusy := g.vminBusy || nolive }
    else d1

/-- Ends the transition that the adoption of a layout completes (03 R97). -/
def Dev.endTransition (d : Dev) (id : Nat) : Dev :=
  match d.sys.transition with
  | some t => if t.layout = id ∧ d.sys.mode ≠ .warmup then d.setMode t.target false else d
  | none => d

/-- When every strand has adopted the pending layout it is the active one, its shed row for the current width is
selected (01 R28) and the transition ends. A stream that the layout does not hold runs under it from now on, so that its first
frame under a later layout is a switch (01 R22). -/
def Dev.finishAdoption (d : Dev) : Dev :=
  match d.lay.pending with
  | none => d
  | some id =>
    if d.lay.strand.all fun x => decide (x = some id) then
      let absent (st : StreamNo) : Bool := match d.layoutCfg id with | some l => (l.stream st.val).isNone | none => false
      let d1 := { d with lay := { d.lay with pending := none,
                                             stream := Vector.ofFn fun st => if absent st then some id else d.lay.stream[st] },
                         bob := { d.bob with mark := d.bob.serial },
                         sys := { d.sys with activeLayout := BitVec.ofNat 8 id } }
      (d1.selectShed (laneCount d1.ply.map)).trimCredits.endTransition id
    else d

/-- A strand adopts the pending layout at its frame boundary (01 R20), or at once without a frame in progress (R21). -/
def Dev.adoptStrand (d : Dev) (n : StrandNo) : Dev :=
  match d.lay.pending with
  | none => d
  | some id => ({ d with lay := { d.lay with strand := upd d.lay.strand n fun _ => some id } }).finishAdoption

/-- A frame of the strand was in progress when an activation fires at TIM count `now`: one that starts in the same cycle or
later belongs to the new layout (01 R20). -/
def Strand.heldBack (g : Strand) (now : Nat) : Bool := g.frames.any fun f => f.isOpen && decide (f.start < now)

/-- The open frame of a strand that adopts a layout is processed under it (01 R20). -/
def Strand.retake (g : Strand) (id : Nat) : Strand :=
  { g with frames := g.frames.map fun f => if f.isOpen then { f with layout := id } else f }

/-- Raise the pending switch (01 R20 to R23): every strand without an earlier frame in progress adopts at once, credits rise to
the larger value, lanes are assigned and the ownership audit runs (09 R325). A stream that runs under no layout yet takes the
new one now, so that the first layout after a start or after the pixel path was quiet sets no LAYOUT_SWITCHED: the spec does
not say whether it does (DESIGN CHOICE, log 44). -/
def Dev.raiseSwitch (d : Dev) (l : LayoutCfg) : Dev :=
  let cs := match d.img with | some i => i.credits l | none => []
  let d1 := { d with
    bob := { (d.bob.raiseCredits cs) with leaked := 0 },
    lay := { d.lay with
      pending := some l.id,
      strand := Vector.ofFn fun n => if (d.strands[n]).heldBack d.whl.tim then d.lay.strand[n] else some l.id,
      stream := d.lay.stream.map fun x => match x with | some y => some y | none => some l.id },
    strands := d.strands.map fun (g : Strand) => if g.heldBack d.whl.tim then g else g.retake l.id }
  (d1.assignHank l.id l.recorded).finishAdoption

/-- Why an activation of a layout is not served: not admitted (01 R41), or the larger credits do not fit (09 R312). -/
def Dev.canSwitch (d : Dev) (l : LayoutCfg) : Bool :=
  d.admits l && (match d.img with
    | some i => decide (d.bob.switchSum (i.credits l) ≤ poolCells)
    | none => false)

/-- The mode whose mask bit a firing is judged by: the target of a transition, else the present mode (03 R101,
13 R490). -/
def Dev.modeFor (d : Dev) : Mode :=
  match d.sys.transition with
  | some t => t.target
  | none => d.sys.mode

/-- The digest a firing is compared with: the staged one, or, with nothing staged, that of the image's layout
(01 R24). -/
def Dev.stagedMatches (d : Dev) (l : LayoutCfg) (digest : DWord) : Bool :=
  match d.lay.staged with
  | some (id, g) => decide (id = l.id) && decide (g = digest)
  | none => decide (BitVec.ofNat 64 l.digest = digest)

/-- LAYOUT_ACTIVATE fires (01 R24, R41; 03 R101; 09 R312; 13 R490): the switch is raised, or the firing is ignored and
reported. During a transition it replaces the target layout. -/
def Dev.fireLayout (d : Dev) (id : Nat) (digest : DWord) : Dev :=
  match d.layoutCfg id with
  | none => d.raise 23 id 0
  | some l =>
    if d.stagedMatches l digest && l.allows d.modeFor && d.canSwitch l then
      let d1 := d.onSys fun y => { y with transition := y.transition.map fun t => { t with layout := id } }
      let d2 := if d1.pathOn then d1.setPoc (d1.pins.pocEn ||| (match d1.img with | some i => i.layoutPorts l | none => 0))
                else d1
      d2.raiseSwitch l
    else d.raise 23 id 0

end Sys2Proof.Machine
end

