-- ==== Sys2Proof/Machine/Whorls.lean ====
section
/-! DEFINITION. The servoed whorls W1 to W5, the distance whorl W6 and the phase whorl W7
(spec/12_whorls.md R410 to R424, R434, R435, R445 to R451), without the effects that a step, a mark or a turn has
on other blocks. -/

namespace Sys2Proof.Machine

/-! ### Servo -/

/-- 2^-16 ppb for a bound in ppb. -/
def ppbUnit : Int := 65536

/-- The increment for a rate `y` in 2^-16 ppb (12 R417): 0x200_0000_0000 x (1 + y x 10^-9), to the nearest unit. -/
def incOf (y : Int) : Nat := ((2 ^ 41 : Int) + roundDiv (2 ^ 41 * y) (ppbUnit * 1000000000)).toNat % 2 ^ 48

/-- y of R417 from the I term and P, all in 2^-16 ppb. -/
def servoRate (integ p : Int) : Int := bound (500000 * ppbUnit) (-(integ + p))

/-- One sample through the PI loop (R417). -/
def Servo.pi (v : Servo) (c : WhorlCfg) (theta : Int) : Servo :=
  let i := v.integ + c.ki * theta
  let p := bound (200000 * ppbUnit) (c.kp * theta * 256)
  { v with integ := i, inc := incOf (servoRate i p) }

/-- Move a whorl by `delta` ns and count the step (R420). -/
def Servo.stepBy (v : Servo) (delta : Int) : Servo :=
  { v with acc := (((v.acc : Int) + delta * accUnit) % (accWrap : Nat)).toNat, epoch := (v.epoch + 1) % 65536,
           steps := satNat 0xFFFF (v.steps + 1) }

/-- What a sample does to its whorl: the servo after it and the step it made, if any (R417 to R421). `acq` is the
step at acquisition. -/
def Servo.sample (v : Servo) (c : WhorlCfg) (theta acq : Int) (now : Nat) : Servo × Option Int :=
  let v0 := { v with theta := theta }
  let big : Bool := decide ((c.stepThr * 1000 : Nat) ≤ theta.natAbs)
  let use (u : Servo) : Servo × Option Int :=
    let u1 := { u.pi c theta with first := none, lastValid := now }
    match u.st with
    | .holdover => ({ u1 with st := .tracking, good := 0 }, none)
    | .locked =>
      if 2 * c.lockThr < theta.natAbs then ({ u1 with st := .tracking, good := 0 }, none) else (u1, none)
    | _ =>
      if theta.natAbs ≤ c.lockThr then
        if c.lockCount ≤ u.good + 1 then ({ u1 with st := .locked, good := 0 }, none)
        else ({ u1 with good := u.good + 1 }, none)
      else ({ u1 with good := 0 }, none)
  match v.st with
  | .free | .localTime => (v, none)
  | .acquiring =>
    ({ (v0.stepBy acq) with st := .tracking, good := 0, first := none, lastValid := now }, some acq)
  | _ =>
    match v.first with
    | none => if big then ({ v0 with first := some theta }, none) else use v0
    | some f =>
      if big then
        if (decide (0 < f) == decide (0 < theta)) && decide ((theta - f).natAbs < c.stepThr * 1000) then
          ({ (v0.stepBy (-theta)) with st := .tracking, good := 0, first := none, lastValid := now }, some (-theta))
        else ({ v0 with first := some theta, disc := satAdd v.disc 1 }, none)
      else use { v0 with disc := satAdd v.disc 1 }

/-- The increment in HOLDOVER: P removed (R421). -/
def Servo.toHoldover (v : Servo) : Servo :=
  { v with st := .holdover, first := none, good := 0, inc := incOf (servoRate v.integ 0) }

/-- The step that acquisition makes: −θ, and under source 3 also the whole seconds of the base whorl (R418, R435). -/
def Whl.acqStep (w : Whl) (n : Nat) (theta : Int) : Int :=
  let c := w.cfgOf n
  if c.source = 3 then
    let base := w.nsOf c.base
    let sec : Int := (base + 500000000) / 1000000000 * 1000000000
    sec + w.cfg.ppsDelay - (w.nsOf n : Int)
  else -theta

/-- Whorls that copy Wn (R434). -/
def Whl.copies (w : Whl) (n : Nat) : List (Fin 5) :=
  (List.finRange 5).filter fun k => decide ((w.cfgOf (k.val + 1)).source = 4) && decide ((w.cfgOf (k.val + 1)).base = n)

/-- One sample for Wn: the whorls after it and the steps made, whorl number and Δ in ns (R417 to R420, R434). -/
def Whl.sample (w : Whl) (n : Nat) (theta : Int) : Whl × List (Nat × Int) :=
  let r := (w.servo[servoIx n]).sample (w.cfgOf n) theta (w.acqStep n theta) w.tim
  let w1 := { w with servo := upd w.servo (servoIx n) fun _ => r.1 }
  match r.2 with
  | none => (w1, [])
  | some delta =>
    let cs := w.copies n
    ({ w1 with servo := cs.foldl (fun sv k => upd sv k fun v => { v with epoch := (v.epoch + 1) % 65536 }) w1.servo },
     (n, delta) :: cs.map fun k => (k.val + 1, delta))

/-- Thresholds of the holdover ages that have been reached (R422). -/
def Whl.holdAge (w : Whl) (v : Servo) : Nat :=
  (w.cfg.holdAges.filter fun ms => decide (ms * 500000 ≤ w.tim - v.lastValid)).length

/-- The R422 code of a servo of its own. -/
def Whl.ownQuality (w : Whl) (v : Servo) : Nat :=
  match v.st with
  | .locked => 0 | .tracking => 1 | .acquiring => 2 | .holdover => 0x10 + w.holdAge v | .free => 0x20
  | .localTime => 0x30

/-- The R422 code of W1 and W2, of W0 when `n` is 0: W2 with ring source takes the origin's code where higher. -/
def Whl.baseQuality (w : Whl) (n : Nat) : Nat :=
  if n = 0 then 0x30
  else
    let q := w.ownQuality w.servo[servoIx n]
    if n = 2 ∧ (w.cfgOf 2).source = 2 then max q w.originQuality else q

/-- The time-quality code of Wn (R422); a source 4 whorl takes its base's. -/
def Whl.quality (w : Whl) (n : Nat) : Nat :=
  if n = 0 then 0x30 else if (w.cfgOf n).source = 4 then w.baseQuality (w.cfgOf n).base else w.baseQuality n

/-- Servo states at the start: FREE with source 0 or 4, else ACQUIRING (R413, R418). W1 to W5 equal W0. -/
def Whl.startServos (w : Whl) : Whl :=
  { w with servo := Vector.ofFn fun k =>
      { Servo.reset with
        acc := 2 * w.tim * accUnit,
        st := if (w.cfgOf (k.val + 1)).source = 0 ∨ (w.cfgOf (k.val + 1)).source = 4 then .free else .acquiring } }

/-- A second boundary of Wn passes in the next cycles: time to the next whole second in ns. -/
def Whl.toSecond (w : Whl) (n : Nat) : Nat := 1000000000 - w.nsOf n % 1000000000

/-- The 16 bytes as the four register words SEC_LO, SEC_HI, NS, FRAC and epoch (18 WHL). -/
def timeWords (t : WhorlTime) : List Word :=
  [BitVec.ofNat 32 t.sec, BitVec.ofNat 32 (t.sec / 2 ^ 32), BitVec.ofNat 32 t.ns,
   BitVec.ofNat 32 (t.frac + t.epoch * 65536)]

/-- Latch all eight whorls (R411). -/
def Whl.latchAll (w : Whl) : Whl :=
  { w with snap := (List.range 6).flatMap fun n => timeWords (w.timeNow n), snap6 := BitVec.ofInt 64 w.w6.pos,
           snap7 := w.w7.turn ++ w.w7.phase }

/-- SNAPSHOT: bit 0 of WHL_SNAP latches all eight whorls in one TIM cycle (R411). -/
def execSnapshot (a : Access) (s : State) : Host.Outcome State Fault Refusal :=
  .next (s.run fun d => d.write a (regAddr 0x20000) 4 1 true fun e => (e.onWhl Whl.latchAll, Res.ok))

/-! ### W6 -/

/-- Position in whole um, rounded down (R445). -/
def W6.um (w : W6) : Int := w.pos / 65536

/-- Steps added in the last `n` TIM cycles, in 2^-16 um (R447). -/
def W6.moved (w : W6) (now n : Nat) : Int :=
  (w.moves.filter fun m => decide (now < m.1 + n)).foldl (fun x m => x + m.2) 0

/-- Velocity in 2^-16 um per second (R447). -/
def W6.velocity (w : W6) (now : Nat) : Int := w.moved now 5000000 * 100

/-- 2^16 um units for whole um. -/
def umUnit : Int := 65536

/-- The direction of a quadrature edge: levels (a, b) before and after. A leads forward: 00, 10, 11, 01 (R445). -/
def quadDir (a b a' b' : Bool) : Int :=
  if a = a' then (if b = b' then 0 else if a = b' then 1 else -1)
  else if a' = b then -1 else 1

/-- W6 after a decoded edge, a signed 64-bit position (R445). -/
def W6.edge (w : W6) (now : Nat) (size : Nat) (invert a b : Bool) : W6 :=
  let dir := quadDir w.a w.b a b * (if invert then -1 else 1)
  let stp := dir * size
  { w with a := a, b := b, pos := (BitVec.ofInt 64 (w.pos + stp)).toInt,
           moves := (now, stp) :: w.moves.filter fun m => decide (now < m.1 + 5000000000) }

/-- The errors of the last second (R446), after one more. -/
def W6.error (w : W6) (now : Nat) (a b : Bool) : W6 :=
  { w with a := a, b := b, errs := satAdd w.errs 1,
           errTimes := (now :: w.errTimes.filter fun t => decide (now < t + 500000000)).take 16 }

/-! ### W7 -/

/-- The sources of W7 (R414). -/
def Whl.w7From (w : Whl) (source input : Nat) : Bool :=
  decide (w.cfg.w7Source = source) && decide (w.cfg.w7Input = input)

/-- The lock judgement of one source event with phase error `e` in 2^-32 turn (R451): the phase whorl, and whether it
left lock. -/
def W7.judge (w : W7) (e : Int) : W7 × Bool :=
  let near : Bool := decide (e.natAbs ≤ 2 ^ 26)
  let far : Bool := decide (2 ^ 28 < e.natAbs)
  if w.locked then
    if far then ({ w with locked := false, coasting := true, good := 0 }, true) else (w, false)
  else
    let g := if near then w.good + 1 else 0
    if 8 ≤ g then ({ w with locked := true, coasting := false, good := 8 }, false) else ({ w with good := g }, false)

/-- One source event (R450): the servo corrects phase and period by a law the spec gives no formula for
(`Config.w7Servo`, log 9), and the event is judged for lock. -/
def W7.event (w : W7) (kp ki : Nat) (e : Int) (now : Nat) : W7 × Bool :=
  let r := Config.w7Servo kp ki w.integ e w.period
  let j := { w with period := r.1, phase := r.2.1, integ := r.2.2, lastEvent := some now }.judge e
  j

/-- The phase error at an event that marks the turn: the phase as a signed part of a turn. -/
def W7.error (w : W7) : Int := w.phase.toInt

/-- A source event that measures the phase (R450); a loss of lock is reported (16 R551 bit 19). -/
def Dev.w7Event (d : Dev) (e : Int) : Dev :=
  let r := d.whl.w7.event d.whl.cfg.w7Kp d.whl.cfg.w7Ki e d.whl.tim
  let d1 := d.onWhl fun w => { w with w7 := r.1 }
  if r.2 then d1.raise 19 7 0 else d1

/-- The source event of an input edge, when W7 follows that input (R450). -/
def Dev.w7Input (d : Dev) (source input : Nat) : Dev :=
  if d.whl.w7From source input then d.w7Event d.whl.w7.error else d

/-- W7_PHASE_CORRECTION: core 0 writes WHL_W7_FWPH; the held period and this correction apply as one source event.
Accepted only from core 0 and only while the W7 source is 3 (18 WHL). -/
def w7PhaseCorrection (a : Access) (v : Word) (d : Dev) : Dev :=
  d.write a (regAddr 0x20390) 4 v true fun e =>
    if a.master = .core 0 ∧ e.whl.cfg.w7Source = 3 then
      let w := e.whl.w7
      let j := { w with period := if w.held = 0 then w.period else w.held.toNat, phase := w.phase + v,
                        lastEvent := some e.whl.tim }.judge v.toInt
      let e1 := e.onWhl fun x => { x with w7 := j.1 }
      (if j.2 then e1.raise 19 7 0 else e1, Res.ok)
    else (e, Res.addrErr)

def execW7PhaseCorrection (a : Access) (v : Word) (s : State) : Host.Outcome State Fault Refusal :=
  .next (s.run (w7PhaseCorrection a v))

/-- W7_LOCK_LOSS: four nominal periods without an event end the lock; W7 runs on at its last period (R451). -/
def w7LockLoss (d : Dev) : Dev :=
  if d.whl.w7.locked then
    (d.onWhl fun w => { w with w7 := { w.w7 with locked := false, coasting := true, good := 0 } }).raise 19 7 0
  else d

def execW7LockLoss (s : State) : Host.Outcome State Fault Refusal := .next (s.run w7LockLoss)

/-- WHORL_LOSS_TIMEOUT: TRACKING or LOCKED falls to HOLDOVER (R418, R421), reported as TIME (16 R551 bit 19). -/
def whorlLossTimeout (n : Fin 5) (d : Dev) : Dev :=
  match (d.whl.servo[n]).st with
  | .tracking | .locked =>
    (d.onWhl fun w => { w with servo := upd w.servo n Servo.toHoldover }).raise 19 (n.val + 1) 0
  | _ => d

def execWhorlLossTimeout (n : Fin 5) (s : State) : Host.Outcome State Fault Refusal := .next (s.run (whorlLossTimeout n))

/-- PPS_OUT_PULSE: a pulse of the configured width at a whole second of the selected whorl (R436). -/
def ppsOutPulse (d : Dev) : Dev :=
  if d.released && decide (d.whl.cfg.ppsOut ≤ 5) then
    { d with pins := { d.pins with ppsOut := d.whl.cfg.ppsWidth :: d.pins.ppsOut } }
  else d

def execPpsOutPulse (s : State) : Host.Outcome State Fault Refusal := .next (s.run ppsOutPulse)

/-- ODO_Z_EDGE: W6 latched, the index counted; W6 unchanged (R446). -/
def odoZEdge (d : Dev) : Dev :=
  if d.whl.cfg.odoEnabled then d.onWhl fun w => { w with w6 := { w.w6 with z := w.w6.pos, index := satAdd w.w6.index 1 } }
  else d

def execOdoZEdge (s : State) : Host.Outcome State Fault Refusal := .next (s.run odoZEdge)

end Sys2Proof.Machine
end

