-- ==== Sys2Proof/Machine/Modes.lean ====
section
/-! DEFINITION. Operating modes, requests and transitions, and the orderly shutdown (03_start_modes_bypass.md R94 to
R104, R113; 11 R396). -/

namespace Sys2Proof.Machine

/-- A strand is live: its port is trained and its first valid frame was delivered (R97, R98). -/
def Dev.strandLive (d : Dev) (n : Nat) : Bool :=
  (d.strands[strandOf n]).live && decide ((d.ports[portOf (strandOf n)]).step = .trained)

/-- Every strand of a layout is live. -/
def Dev.allLive (d : Dev) (l : LayoutCfg) : Bool := l.strands.all d.strandLive

/-- The pixel path is switched off (R97, R104): POC_EN low, no layout pending, no output frame in progress, and every
stream starts again from WARMING frames (R91). -/
def Dev.quiet (d : Dev) : Dev :=
  let d1 := d.setPoc 0
  { d1 with
    lay := { d1.lay with pending := none, stream := Vector.replicate 64 none },
    streams := d1.streams.map fun st => { st with frames := [], prev := none, live := false } }

/-- Warm-up is complete when every strand of its target layout is live (R98). -/
def Dev.checkWarm (d : Dev) : Dev :=
  match d.sys.mode, d.sys.transition with
  | .warmup, some t =>
    match d.layoutCfg t.layout with
    | some l => if d.allLive l then d.setMode t.target false else d
    | none => d
  | _, _ => d

/-- Warm-up is entered on the way to `m` (R97, R98; R86 steps 6 to 12). POC_EN is high on the ports of the target layout alone: a
port of the old layout outside it loses POC_EN at once, which the spec does not say in so many words (R156; DESIGN CHOICE,
log 44). With the pixel path off until now no camera counts as lost (R98). -/
def Dev.enterWarmup (d : Dev) (m : Mode) (l : LayoutCfg) : Dev :=
  let d0 := if d.pathOn then d else { d with strands := d.strands.map fun g => { g with lost := false } }
  let d1 := (d0.setMode .warmup false).onSys fun y => { y with transition := some ⟨m, l.id⟩, warmupStart := d.whl.tim }
  let ports := match d1.img with | some i => i.layoutPorts l | none => 0
  (((d1.raiseSwitch l).setPoc ports).trainPly).checkWarm

/-- Production Test (R103). -/
def Dev.enterProduction (d : Dev) : Dev :=
  let d1 := d.quiet.setMode .production false
  { d1 with aon := { d1.aon with phase := .production } }

/-- Depot with NOLIVE (R97, R104). -/
def Dev.enterNolive (d : Dev) : Dev := d.quiet.idlePly.setMode .depot true

/-- An orderly shutdown is accepted: step 1 of R113. It ends any transition (R100). -/
def Dev.startShutdown (d : Dev) : Dev :=
  if d.sys.mode = .shutdown then d
  else (d.setMode .shutdown false).onSys fun y => { y with shutdownStep := 1 }

/-- The vehicle is not stationary: decoded edges moved W6 by 10 mm or more in 10 s, the odometer being enabled (R99). -/
def Dev.moving (d : Dev) : Bool :=
  d.whl.cfg.odoEnabled && decide ((10000 * umUnit : Int) ≤ (d.whl.w6.moved d.whl.tim 5000000000).natAbs)

/-- Mode of an R94 code that names one. -/
def Mode.ofCode (n : Nat) : Option Mode :=
  match n with
  | 0 => some .standby | 2 => some .drive | 3 => some .survey | 4 => some .depot | 5 => some .production
  | 7 => some .shutdown | _ => none

/-- The transition from the present mode is in the table of R97. A request for the present mode, Drive, Survey or Depot, is a
layout switch though the table lists no such row (DESIGN CHOICE, log 44). -/
def Dev.legal (d : Dev) (m : Mode) (nolive jtag : Bool) : Bool :=
  match d.sys.mode, m with
  | .shutdown, _ | .production, _ | _, .warmup => false
  | .standby, .standby => false
  | .standby, .production => jtag
  | _, .production => false
  | .depot, .depot => !d.sys.nolive && !nolive
  | _, _ => true

/-- The answer to a request (R96) for mode `m` with a layout. -/
def Dev.judgeMode (d : Dev) (m : Option Mode) (layout : Nat) (nolive jtag : Bool) : BitVec 3 :=
  if m = some .shutdown then 0
  else if d.aon.phase = .romSafe then (if m = some .standby then 0 else 5)
  else if d.aon.phase = .loading then 4
  else if d.sys.transition.isSome && !(decide (d.sys.mode = .warmup) && decide (m = some .standby)) then 4
  else
    match m with
    | none => 1
    | some m =>
      if !d.legal m nolive jtag then 1
      else if m = .standby ∨ m = .production then 0
      else
        match d.layoutCfg layout with
        | none => 2
        | some l =>
          if !l.allows m then 2
          else if m = .depot ∧ d.moving then 3
          else if !(decide (m = .depot) && nolive) && !d.canSwitch l then 2
          else 0

/-- A request that is refused because its layout is not admitted is also reported (01 R41; 16 R551 bit 23; log 19). -/
def Dev.reportLayout (d : Dev) (m : Option Mode) (layout : Nat) (result : BitVec 3) : Dev :=
  match m, d.layoutCfg layout with
  | some m, some l => if result = 2 ∧ l.allows m then d.raise 23 layout 0 else d
  | _, _ => d

/-- A switch to another layout while the mode stays or goes over without a Warm-up: the ports of the layout are powered and the
switch is raised (R97, R101). -/
def Dev.serveLayout (d : Dev) (m : Mode) (l : LayoutCfg) : Dev :=
  let d1 := d.onSys fun y => { y with transition := some ⟨m, l.id⟩ }
  let d2 := d1.setPoc (d1.pins.pocEn ||| (match d1.img with | some i => i.layoutPorts l | none => 0))
  d2.raiseSwitch l

/-- Serve an accepted request (R97, R100). -/
def Dev.serveMode (d : Dev) (m : Mode) (layout : Nat) (nolive : Bool) : Dev :=
  match m with
  | .standby => (d.quiet.setMode .standby false)
  | .production => d.enterProduction
  | .shutdown => d.startShutdown
  | .warmup => d
  | .drive | .survey | .depot =>
    if m = .depot ∧ nolive then d.enterNolive
    else
      match d.layoutCfg layout with
      | none => d
      | some l =>
        if d.sys.mode = .standby ∨ (d.sys.mode = .depot ∧ (d.sys.nolive ∨ !d.allLive l)) then d.enterWarmup m l
        else d.serveLayout m l

/-- A counted request and its answer in SYS_MODE_STATUS (R96). -/
def Dev.request (d : Dev) (m : Option Mode) (layout : Nat) (nolive jtag : Bool) : Dev :=
  let r := d.judgeMode m layout nolive jtag
  let d1 := (d.reportLayout m layout r).onSys fun y => { y with reqCount := y.reqCount + 1, result := r }
  match m, r with
  | some m, 0 => d1.serveMode m layout nolive
  | _, _ => d1

/-- MODE_REQUEST: a commit of SYS_MODE_REQ_C is one request (R95; 18 R592). -/
def modeRequest (a : Access) (v : Word) (d : Dev) : Dev :=
  d.write a (regAddr 0xC) 4 v true fun e =>
    e.commitPair a 0xC e.pairs.modeReq v (fun x p => { x with pairs := { x.pairs with modeReq := p } }) fun x w =>
      (x.request (Mode.ofCode (w.toNat % 8)) (w.toNat / 256 % 16) (w.getLsbD 16) (decide (a.master = .jtag)), Res.ok)

/-- LAYOUT_REQ: the sink's request is one for the present mode with that layout; it never changes the mode (R102), and
its result goes into the health packet (11 R396). During a return-lane check it is ignored (17 R577). -/
def layoutReq (layout : Byte) (d : Dev) : Dev :=
  if d.tst.rlCheck.isSome then d else
  let m := d.sys.mode
  let r : BitVec 3 :=
    if d.aon.phase = .romSafe then 5
    else if d.sys.transition.isSome ∨ m = .warmup then 4
    else match d.layoutCfg layout.toNat with
      | none => 2
      | some l =>
        if !l.allows m then 2
        else if d.sys.nolive then 1
        else if m = .depot ∧ d.moving then 3
        else if !d.canSwitch l then 2
        else 0
  let d1 := (d.reportLayout (some m) layout.toNat r).onSys fun y =>
    { y with reqCount := y.reqCount + 1, result := r, layoutReqResult := r.zeroExtend 8, layoutReqId := layout }
  match r, d1.layoutCfg layout.toNat with
  | 0, some l => d1.serveLayout m l
  | _, _ => d1

def execLayoutReq (layout : Byte) (s : State) : Host.Outcome State Fault Refusal := .next (s.run (layoutReq layout))

/-- A strand counts as a lost camera until its first valid frame (R98). -/
def Dev.loseCamera (d : Dev) (n : Nat) : Dev := (d.onStrand (strandOf n) fun g => { g with lost := true }).raise 12 n 0

/-- WARMUP_TIMEOUT: 2 s after Warm-up was entered every strand without a valid frame counts as a lost camera and the
mode becomes the target (R98). -/
def warmupTimeout (d : Dev) : Dev :=
  match d.sys.mode, d.sys.transition with
  | .warmup, some t =>
    let ns := match d.layoutCfg t.layout with | some l => l.strands | none => []
    ((ns.filter fun n => !d.strandLive n).foldl Dev.loseCamera d).setMode t.target false
  | _, _ => d

def execWarmupTimeout (s : State) : Host.Outcome State Fault Refusal := .next (s.run warmupTimeout)

/-- SHUTDOWN_DRAINED: steps 3 and 4 of R113: POC_EN low, staging aborted and the last journal set due; without an NVM the
sequence ends here. -/
def shutdownDrained (d : Dev) : Dev :=
  if d.sys.mode = .shutdown ∧ d.sys.shutdownStep = 1 then
    let d1 := (d.quiet.abortStage.lastGasp).onSys fun y => { y with shutdownStep := 4 }
    if d1.nvm.fitted then d1 else d1.finishShutdown
  else d

/-- PTEST: the Production Test request through JTAG, from Standby (R94, R97; 17 R583). It does not count as a request. -/
def ptest (d : Dev) : Dev :=
  let e := d.jtagTake .ptest 0 false false
  if e.judgeMode (some .production) 0 false true = 0 then e.enterProduction else e

end Sys2Proof.Machine
end

