-- ==== Sys2Proof/Machine/OutFrames.lean ====
section
/-! DEFINITION. Output frames: their formation, the release and deadlines of their bands, substitution and the repeat
threshold (spec/07_spindle_array.md R231 to R233, R246 to R254; 09 R331 to R334; 01 R20 to R22). -/

namespace Sys2Proof.Machine

/-! ### Frames and ring slots -/

/-- A frame of a strand by number. -/
def Strand.frame (g : Strand) (num : Word) : Option Frame := g.frames.find? fun f => decide (f.num = num)

/-- Change the frame of a number. -/
def Strand.onFrame (g : Strand) (num : Word) (f : Frame → Frame) : Strand :=
  { g with frames := g.frames.map fun x => if x.num = num then f x else x }

/-- Change the output frame of a key. -/
def Stream.onOut (g : Stream) (key : Nat) (f : OutFrame → OutFrame) : Stream :=
  { g with frames := g.frames.map fun x => if x.key = key then f x else x }

def Dev.onOut (d : Dev) (st : StreamNo) (key : Nat) (f : OutFrame → OutFrame) : Dev := d.onStream st fun g => g.onOut key f

/-- The output frame of a key. -/
def Stream.out (g : Stream) (key : Nat) : Option OutFrame := g.frames.find? fun x => decide (x.key = key)

/-- Usable address of input ring slot `slot` of a strand (09 R329, R331). -/
def Dev.inBase (d : Dev) (n slot : Nat) : Nat :=
  assocGet d.fst.bases n 0 + slot * (match d.img with | some i => i.inSlot n | none => 0)

/-- Usable address of output ring slot `slot` of a stream (09 R329, R332). -/
def Dev.outBase (d : Dev) (st slot : Nat) : Nat :=
  assocGet d.fst.bases (64 + st) 0 + slot * (match d.img with | some i => i.outSlot st | none => 0)

/-- Address of the main-plane pixel (u, v) of a slot at `base`, and of its IR plane value (09 R332). -/
def StreamCfg.mainAddr (e : StreamCfg) (base u v : Nat) : Nat := base + (v * e.width + u) * fmtBytes e.format
def StreamCfg.irAddr (e : StreamCfg) (base u v : Nat) : Nat :=
  base + e.width * e.height * fmtBytes e.format + 2 * (v * e.width + u)

/-- Stored bytes of a tile, main plane rows and then IR plane rows, in output order. -/
def Mem.readTile (m : Mem) (e : StreamCfg) (base : Nat) (r : Nat × Nat × Nat × Nat) : List Byte :=
  let rows := List.range r.2.2.2
  (rows.flatMap fun y => Memory.readN 0 m.fs (e.mainAddr base r.1 (r.2.1 + y)) (r.2.2.1 * fmtBytes e.format)) ++
    (if e.irPlane then rows.flatMap fun y => Memory.readN 0 m.fs (e.irAddr base r.1 (r.2.1 + y)) (2 * r.2.2.1) else [])

/-- Put the stored bytes of a tile into a slot. -/
def Mem.writeTile (m : Mem) (e : StreamCfg) (base : Nat) (r : Nat × Nat × Nat × Nat) (bs : List Byte) : Mem :=
  let w := r.2.2.1 * fmtBytes e.format
  let fs1 := (List.range r.2.2.2).foldl
    (fun fs y => Memory.write 0 fs (e.mainAddr base r.1 (r.2.1 + y)) ((bs.drop (y * w)).take w)) m.fs
  let ir := bs.drop (r.2.2.2 * w)
  let fs2 := if e.irPlane then (List.range r.2.2.2).foldl
    (fun fs y => Memory.write 0 fs (e.irAddr base r.1 (r.2.1 + y)) ((ir.drop (y * 2 * r.2.2.1)).take (2 * r.2.2.1))) fs1
    else fs1
  { m with fs := fs2 }

/-- The mid-grey bytes of a tile (R254). -/
def StreamCfg.greyTile (e : StreamCfg) (r : Nat × Nat × Nat × Nat) : List Byte :=
  let n := r.2.2.1 * r.2.2.2
  (List.replicate n (storePixel e.format (greyPixel e.format))).flatten ++
    (if e.irPlane then (List.replicate n (le 2 0x800)).flatten else [])

/-! ### The previous frame -/

/-- Tiles of an output frame not computed from its own source (R251). -/
def OutFrame.notOwn (f : OutFrame) : List Nat :=
  (List.range f.tiles.length).filter fun t =>
    match f.tiles[t]? with
    | some x => decide (x.st = .substituted) || decide (x.st = .filled)
    | none => false

/-- Tiles of an output frame in a state. -/
def OutFrame.count (f : OutFrame) (st : TileSt) : Nat := (f.tiles.filter fun t => decide (t.st = st)).length

/-- Record of the slot 0 source frame of an output frame. -/
def Dev.slot0 (d : Dev) (f : OutFrame) : Option (StrandNo × Frame) :=
  match f.sources with
  | p :: _ => ((d.strands[strandOf p.1]).frame p.2).map fun x => (strandOf p.1, x)
  | [] => none

/-- Layout and entry of a stream's frame. -/
def Dev.cfgOf (d : Dev) (st : StreamNo) (f : OutFrame) : Option (LayoutCfg × StreamCfg) :=
  (d.layoutCfg f.layout).bind fun l => (l.stream st.val).map fun e => (l, e)

/-- A previous frame exists for a stream entry of a layout (R249): same size, format and tile size. -/
def PrevFrame.fits (p : PrevFrame) (l : LayoutCfg) (e : StreamCfg) : Bool :=
  decide (p.width = e.width) && decide (p.height = e.height) && decide (p.format = e.format) &&
    decide (p.tileW = l.tileW) && decide (p.tileH = l.tileH) && (p.irPlane == e.irPlane)

/-- A repeated frame delivers the source frame of its previous frame (R251; 11 R391). -/
def PrevFrame.repeats (p : PrevFrame) (prior : Option PrevFrame) : PrevFrame :=
  match prior with
  | some o =>
    { p with sourceNum := o.sourceNum, capture := o.capture, whorl := o.whorl, quality := o.quality, w6 := o.w6,
             exposures := o.exposures, flags := o.flags }
  | none => { p with sourceNum := 0xFFFFFFFF }

/-- An output frame as the previous frame of the next one (R249, R251; 11 R391); `prior` is its own previous frame. -/
def Dev.asPrev (d : Dev) (st : StreamNo) (f : OutFrame) (prior : Option PrevFrame) : Option PrevFrame :=
  (d.cfgOf st f).map fun c =>
    let s := d.slot0 f
    let cap := s.map Prod.snd
    let own : PrevFrame := {
      num := f.num, sourceNum := f.num,
      width := c.2.width, height := c.2.height, format := c.2.format, tileW := c.1.tileW, tileH := c.1.tileH,
      irPlane := c.2.irPlane, ringSlot := f.ringSlot, notOwn := f.notOwn, repeated := f.repeated,
      capture := (cap.map fun x => x.capture).getD ⟨0, 0, 0, 0⟩, whorl := (cap.map fun x => x.whorl).getD 0,
      quality := (cap.map fun x => x.quality).getD 0, w6 := (cap.map fun x => x.w6).getD 0,
      exposures := (cap.map fun x => x.closing).getD [], flags := (cap.map fun x => x.flags).getD 0,
      ltmAcc := f.ltmAcc, gains := f.gains }
    if f.repeated then own.repeats (prior.filter fun p => p.fits c.1 c.2) else own

/-- The output frames of a stream before the one with a key, oldest first. -/
def Stream.before (g : Stream) (key : Nat) : List OutFrame := g.frames.filter fun f => decide (f.key < key)

/-- The output frame before the one with a key, delivered or still on its way. -/
def Dev.prevAt (d : Dev) (st : StreamNo) (key : Nat) : Option PrevFrame :=
  let g := d.streams[st]
  (g.before key).foldl (fun p f => (d.asPrev st f p).or p) g.prev

/-- The previous frame that exists under R249 for band `b` of an output frame: that band of it was handed over. -/
def Dev.prevFor (d : Dev) (st : StreamNo) (f : OutFrame) (b : Nat) : Option PrevFrame :=
  match d.cfgOf st f with
  | some (l, e) =>
    if ((d.streams[st]).before f.key).all fun x => decide (b < x.handed) then
      (d.prevAt st f.key).filter fun p => p.fits l e
    else none
  | none => none

/-! ### Formation and release -/

/-- Grid and gain table of an LTM stage. -/
def ChainCfg.ltm (c : ChainCfg) : Option (Nat × Nat × List Nat) :=
  c.stages.findSome? fun t => match t with | .ltm gx gy tab => some (gx, gy, tab) | _ => none

/-- The gains of a frame from the previous one (08 R288). -/
def ltmGains (gx gy : Nat) (tab : List Nat) (prev : Option PrevFrame) : List Nat :=
  (List.range (gx * gy)).map fun c => match prev with
    | none => 4096
    | some p =>
      let a := nth p.ltmAcc c (0, 0)
      if a.2 = 0 then nth p.gains c 4096 else nth tab (histBin ((a.1 + a.2 / 2) / a.2 * 256)) 4096

/-- The newest frame of a strand that an output frame of layout `l` may read: valid, not abandoned (R253; 03 R89). In
frame mode it must also be closed and be the strand's newest frame (R232; log 24). -/
def Strand.usable (g : Strand) (l : LayoutCfg) : Option Frame :=
  match g.frames with
  | f :: _ =>
    if f.valid ∧ !f.abandoned ∧ f.layout = l.id ∧ g.live ∧ (l.streaming ∨ !f.isOpen) then some f else none
  | [] => none

/-- Source frames of a stream in slot order, when every source has one. -/
def Dev.sourceFrames (d : Dev) (l : LayoutCfg) (e : StreamCfg) : Option (List (Nat × Frame)) :=
  e.sources.mapM fun n => ((d.strands[strandOf n]).usable l).map fun f => (n, f)

/-- Every source row that band `b` of a chain reads has been committed (R232). -/
def bandReady (chain b : Nat) (fs : List (Nat × Frame)) : Bool :=
  (fs.mapIdx fun s p => decide ((Config.footprint chain b s).2 < p.2.rowsDone)).all fun x => x

/-- A new tile. -/
def Tile.new : Tile :=
  { st := .waiting, rerun := false, shadowed := false, first := none, firstBy := none, otherTrapped := false }

/-- Release band `b` of an output frame now: its tiles become ready and its hand-over time is set (R232, R233). -/
def Dev.releaseBand (d : Dev) (l : LayoutCfg) (e : StreamCfg) (close : Nat) (f : OutFrame) : OutFrame :=
  let b := f.released.length
  let h := if l.streaming then d.whl.tim + 500000 else close + e.period * (b + 1) / (2 * l.rows e)
  { f with
    released := f.released ++ [d.whl.tim], deadlines := f.deadlines ++ [h],
    spareLow := f.spareLow || d.spareLow,
    tiles := f.tiles.mapIdx fun t x => if t / l.cols e = b ∧ x.st = .waiting then { x with st := .ready } else x }

/-- Release every band that is due, in order (log 24). -/
def Dev.releaseDue (d : Dev) (l : LayoutCfg) (e : StreamCfg) (fs : List (Nat × Frame)) (f : OutFrame) : OutFrame :=
  let close := (fs.map fun p => p.2.close).foldl max 0
  (List.range (l.rows e)).foldl (fun g b =>
    if g.released.length = b ∧ (!l.streaming ∨ bandReady e.chain b fs) then d.releaseBand l e close g else g) f

/-- The output frame has been formed from a slot 0 frame already. -/
def Stream.used (g : Stream) (num : Word) : Bool :=
  g.frames.any (fun f => decide (f.num = num)) || (match g.prev with | some p => decide (p.num = num) | none => false)

/-- Form the next output frame of a stream when its sources allow it: it exists from the release of its first band
(R253), takes the layout of its sources (01 R22) and every stage parameter (08 R270). -/
def Dev.tryForm (d : Dev) (l : LayoutCfg) (e : StreamCfg) : Dev :=
  match d.sourceFrames l e with
  | none => d
  | some fs =>
    let st := streamOf e.id
    let g := d.streams[st]
    let num := (fs.head?.map fun p => p.2.num).getD 0
    if g.used num ∨ (l.streaming ∧ !bandReady e.chain 0 fs) then d
    else
      let switched : Bool := (d.lay.stream[st]).any fun x => decide (x ≠ l.id)
      let f0 : OutFrame :=
        { key := g.nextKey, layout := l.id, num := num, sources := fs.map fun p => (p.1, p.2.num),
          tiles := List.replicate (l.tiles e) Tile.new, released := [], deadlines := [], handed := 0, repeated := false,
          substituted := false, spareLow := false, switched := switched, degraded := false, ringSlot := g.nextKey % 2,
          sentLines := [], ltmAcc := [], gains := [],
          firstValid := fs.any (fun p => p.2.firstValid), opened := none, lost := false }
      let prev := if switched then none else (d.prevAt st g.nextKey).filter fun p => p.fits l e
      let f1 := match (d.img.bind fun i => (i.chainOf e).ltm) with
        | some (gx, gy, tab) => { f0 with gains := ltmGains gx gy tab prev, ltmAcc := List.replicate (gx * gy) (0, 0) }
        | none => f0
      let f2 := d.releaseDue l e fs f1
      let d1 := d.onStream st fun g => { g with frames := g.frames ++ [f2], nextKey := g.nextKey + 1 }
      { d1 with lay := { d1.lay with stream := upd d1.lay.stream st fun _ => some l.id } }

/-- Source frames of a formed output frame that are still recorded. -/
def Dev.sourcesOf (d : Dev) (f : OutFrame) : List (Nat × Frame) :=
  f.sources.filterMap fun p => ((d.strands[strandOf p.1]).frame p.2).map fun x => (p.1, x)

/-- Release what has fallen due in the frames of a stream (R232). -/
def Dev.releaseStream (d : Dev) (st : StreamNo) : Dev :=
  let rel (f : OutFrame) : OutFrame := match d.cfgOf st f with
    | some (l, e) => if f.released.length < l.rows e then d.releaseDue l e (d.sourcesOf f) f else f
    | none => f
  d.onStream st fun g => { g with frames := g.frames.map rel }

/-- Rows of a strand were committed or its frame closed: its streams form and release what is due. -/
def Dev.advanceStreams (d : Dev) (n : StrandNo) : Dev :=
  match (d.strands[n]).frames with
  | [] => d
  | f :: _ =>
    let d1 := allStreams.foldl (fun x st => if (x.streams[st]).frames.isEmpty then x else x.releaseStream st) d
    match d1.layoutCfg f.layout with
    | none => d1
    | some l => (l.streams.filter fun e => e.sources.contains n.val).foldl (fun x e => x.tryForm l e) d1

/-! ### Line packets of streaming mode (01 R29; 09 R307, R308) -/

/-- Every tile of band `b` has come to its end. -/
def OutFrame.bandDone (f : OutFrame) (cols b : Nat) : Bool :=
  decide (b < f.handed) || (List.range cols).all fun i => match f.tiles[b * cols + i]? with
    | some x => decide (x.st = .complete) || decide (x.st = .substituted) || decide (x.st = .filled)
    | none => true

/-- A band still to be computed of a streaming stream that reads the strand needs a row: of the stream's output frame of that
source frame, or of the one it may still form from the strand's newest frame. -/
def Dev.rowNeeded (d : Dev) (l : LayoutCfg) (n : StrandNo) (num : Nat) (newest : Bool) (row : Nat) (e : StreamCfg) : Bool :=
  let st := streamOf e.id
  match (d.streams[st]).frames.find? fun f => f.sources.any fun p => decide (p.1 = n.val) && decide (p.2.toNat = num) with
  | some f =>
    (List.range (l.rows e)).any fun b => !f.bandDone (l.cols e) b && (e.sources.zipIdx.any fun p =>
      decide (p.1 = n.val) && decide ((Config.footprint e.chain b p.2).1 ≤ row) && decide (row ≤ (Config.footprint e.chain b p.2).2))
  | none => newest && !(d.streams[st]).used (BitVec.ofNat 32 num)

/-- The spindles' cursor has still to pass a packet of a line queue. A marker is passed as soon as they come to it (R320). -/
def Dev.lineNeeded (d : Dev) (n : StrandNo) (p : Pkt) : Bool :=
  !p.marker && match (d.strands[n]).frame (BitVec.ofNat 32 p.frame) with
  | some f => !f.abandoned && (match d.layoutCfg f.layout with
    | some l =>
      let newest : Bool := match (d.strands[n]).frames with | g :: _ => decide (g.num = f.num) | [] => false
      (l.streams.filter fun e => e.sources.contains n.val).any fun e => d.rowNeeded l n p.frame newest p.unit e
    | none => false)
  | none => false

/-- The spindles' cursor of a line queue moves on (R307). -/
def Dev.sweepLines (d : Dev) (n : StrandNo) : Dev :=
  if (d.bob.queue n.val).pkts.isEmpty then d else d.onQueue n.val fun q => q.pass 3 fun p => !d.lineNeeded n p

/-- Cursors of a line packet that outlive its commit (R308): the spindles' where a streaming-mode stream of the layout reads the
strand. -/
def Dev.lineReaders (d : Dev) (n : StrandNo) (f : Frame) : List Nat :=
  match d.layoutCfg f.layout with
  | some l => if l.streamed n.val && f.valid then [3] else []
  | none => []

/-- Commit a row of a frame to the strand's line queue (R314); the frame-store writer reads it in the same command. -/
def Dev.commitLine (d : Dev) (n : StrandNo) (f : Frame) (row : Nat) (data : List Byte) : Dev × Bool :=
  let e := d.sweepLines n
  e.commitUnit n.val data false (e.lineReaders n f) f.num.toNat row

/-- Put an abandon marker into the strand's line queue (06 R221; R305). -/
def Dev.commitMarker (d : Dev) (n : StrandNo) (f : Frame) : Dev :=
  (d.commitUnit n.val [] true (d.lineReaders n f) f.num.toNat 0).1

/-- The row of a source frame that a line packet holds. -/
def Dev.poolRow (d : Dev) (n : Nat) (num : Word) (row : Nat) : Option (List Byte) :=
  ((d.bob.queue n).pkts.find? fun p => !p.marker && decide (p.frame = num.toNat) && decide (p.unit = row)).map Pkt.data

/-! ### Substitution -/

/-- Change one tile. -/
def OutFrame.onTile (f : OutFrame) (t : Nat) (g : Tile → Tile) : OutFrame :=
  { f with tiles := f.tiles.mapIdx fun i x => if i = t then g x else x }

/-- The doffer's cursor passes the tile packet of a tile, if there is one. -/
def Dev.dropTilePkt (d : Dev) (st : StreamNo) (key t : Nat) : Dev :=
  if (d.bob.queue (128 + st.val)).pkts.isEmpty then d
  else (d.onQueue (128 + st.val) fun q => q.pass 1 fun p => decide (p.frame = key) && decide (p.unit = t)).trimCredits

/-- A tile is to take the previous frame's, which it does at its H (R249); it occupies no pool cells (09 R310). -/
def Dev.markSubst (d : Dev) (st : StreamNo) (key t : Nat) : Dev :=
  (d.onOut st key fun x => x.onTile t fun y => { y with st := .substituted, first := none }).dropTilePkt st key t

/-- Bands already handed to the doffer hold a tile. -/
def OutFrame.isHanded (f : OutFrame) (cols t : Nat) : Bool := decide (t / cols < f.handed)

/-- A tile is substituted or filled. -/
def Tile.replaced (x : Tile) : Bool := decide (x.st = .substituted) || decide (x.st = .filled)

/-- The frame crosses the repeat threshold: every tile not handed over is substituted and re-runs are cancelled
(R250). -/
def Dev.repeatFrame (d : Dev) (st : StreamNo) (key : Nat) : Dev :=
  match (d.streams[st]).out key with
  | none => d
  | some f =>
    match d.cfgOf st f with
    | none => d
    | some (l, e) =>
      ((List.range f.tiles.length).filter fun t => !f.isHanded (l.cols e) t &&
        !(match f.tiles[t]? with | some x => x.replaced | none => true)).foldl (fun x t => x.markSubst st key t)
        (d.onOut st key fun x => { x with repeated := true })

/-- A tile of a frame was substituted or filled: SUBSTITUTED, and the threshold judged after it (R250, R251; the tile that
crosses counts as substituted before the crossing, log 24). -/
def Dev.judgeRepeat (d : Dev) (st : StreamNo) (key : Nat) : Dev :=
  let d1 := d.onOut st key fun x => { x with substituted := x.substituted || !x.repeated }
  match (d1.streams[st]).out key with
  | some f => match d1.layoutCfg f.layout with
    | some l => if !f.repeated ∧ f.tiles.length * l.theta / 256 < f.notOwn.length then d1.repeatFrame st key else d1
    | none => d1
  | none => d1

/-- Substitute one tile at once (R246, R249). -/
def Dev.substitute (d : Dev) (st : StreamNo) (key t : Nat) : Dev := (d.markSubst st key t).judgeRepeat st key

/-- The bytes of a substituted tile come into the current slot at H: from the previous frame, or mid-grey without one or where
its read failed (R249, R254; 09 R334). -/
def State.pourTile (s : State) (st : StreamNo) (key t : Nat) (unreadable : Bool) : State :=
  match (s.dev.streams[st]).out key with
  | none => s
  | some f =>
    match s.dev.cfgOf st f with
    | none => s
    | some (l, e) =>
      let r := l.tileRect e t
      let prev := if unreadable then none else s.dev.prevFor st f (t / l.cols e)
      let bs := match prev with
        | some p => s.mem.readTile e (s.dev.outBase st.val p.ringSlot) r
        | none => e.greyTile r
      { s with
        dev := (s.dev.onOut st key fun x => x.onTile t fun y =>
            { y with st := if prev.isSome then TileSt.substituted else .filled }).onSpn fun p =>
          if prev.isSome then { p with substitutions := satAdd p.substitutions 1 } else { p with fills := satAdd p.fills 1 },
        mem := s.mem.writeTile e (s.dev.outBase st.val f.ringSlot) r bs }

/-- A tile that is complete, or has failed for good. -/
def Tile.ended (x : Tile) : Bool := decide (x.st = .complete) || x.replaced

/-- A source frame is lost to the output frames that read it: every tile of theirs that is not complete fails and is substituted
at once, without a re-run; bands still to be released are released now (R246, R253; log 24). -/
def Dev.failSource (d : Dev) (n : StrandNo) (num : Word) : Dev :=
  allStreams.foldl (fun x st =>
    ((x.streams[st]).frames.filter fun f => f.sources.contains (n.val, num)).foldl (fun y f =>
      match y.cfgOf st f with
      | none => y
      | some (l, e) =>
        let y1 := y.onOut st f.key fun g =>
          (List.range (l.rows e)).foldl (fun g b => if g.released.length = b then y.releaseBand l e y.whl.tim g else g) g
        (List.range f.tiles.length).foldl (fun z t =>
          match ((z.streams[st]).out f.key).bind fun g => g.tiles[t]? with
          | some w => if w.ended then z else z.substitute st f.key t
          | none => z) y1) x) d

/-! ### Input slots (09 R331, R333) -/

/-- A tile that is not complete reads the slot of a source frame. -/
def Dev.spindlesHold (d : Dev) (n : StrandNo) (num : Word) : Bool :=
  allStreams.any fun st => (d.streams[st]).frames.any fun f =>
    f.sources.contains (n.val, num) && f.tiles.any fun x => !x.ended

/-- The hank compressor holds the slot of a frame: it waits for its lane, or is being compressed. -/
def Dev.hankHolds (d : Dev) (n : StrandNo) (num : Word) : Bool :=
  ((d.hnk.strands[n]).waiting.any fun w => decide (w.2 = num)) ||
    d.hnk.lanes.toList.any fun l => l.cur.any fun c => decide (c.strand = n) && decide (c.frame = num)

/-- An input slot is held until the spindles and the hank compressor have released its frame, or the frame is abandoned
(R331). -/
def Dev.slotHeld (d : Dev) (n : StrandNo) (f : Frame) : Bool :=
  !f.abandoned && (d.spindlesHold n f.num || d.hankHolds n f.num)

/-- The strands whose record is shed: by the row in force (11 R392) or for want of a lane (10 R362). -/
def Dev.shedRecord (d : Dev) (n : Nat) : Bool := d.ply.shedRec.getLsbD n || d.hnk.unplaced.getLsbD n

/-- The hank compressor loses a frame whose slot is taken (10 R363): the one it is compressing ends its segment; one that waits is
a loss of its own, unless its strand is in the shed set and it would not be recorded. -/
def Dev.hankLoses (d : Dev) (n : StrandNo) (num : Word) : Dev :=
  let d1 := (List.finRange 4).foldl (fun e k =>
    if (e.hnk.lanes[k]).cur.any fun c => decide (c.strand = n) && decide (c.frame = num) then e.abandonHank k else e) d
  if (d1.hnk.strands[n]).waiting.any fun w => decide (w.2 = num) then
    let d2 := d1.onHankStrand n fun x => { x with waiting := x.waiting.filter fun y => decide (y.2 ≠ num) }
    if d2.shedRecord n.val then d2
    else match d2.hnk.laneOf n.val with
      | some k => (d2.onLane k fun l => { l with losses := l.losses + 1 }).raise 15 n.val 0
      | none => d2.raise 15 n.val 0
  else d1

/-- The frame-store writer needs an input slot and takes it from the frame that holds it (R333): the tiles that still read it fail,
attributed to the input, and the hank compressor loses the frame. -/
def Dev.takeSlot (d : Dev) (n : StrandNo) (f : Frame) : Dev :=
  if d.slotHeld n f then (d.failSource n f.num).hankLoses n f.num else d

end Sys2Proof.Machine
end

