-- ==== Sys2Proof/Machine/Spindles.lean ====
section
/-! DEFINITION. The spindle scheduler (spec/07_spindle_array.md R228 to R248, R256 to R263). -/

namespace Sys2Proof.Machine

/-! ### Spindles -/

/-- Cluster B (R228). -/
def inB (n : SpindleNo) : Bool := decide (32 ≤ n.val)

/-- Clock of a spindle in MHz (R228). -/
def Dev.clockOf (d : Dev) (n : SpindleNo) : Nat := if inB n then d.spn.spb else d.spn.spa

/-- Change a spindle. -/
def Dev.onSpindle (d : Dev) (n : SpindleNo) (f : Spindle → Spindle) : Dev :=
  d.onSpn fun p => { p with spindles := upd p.spindles n f }

/-- A spindle in a state and without a job. -/
def Dev.idleIn (d : Dev) (st : SpinState) (n : SpindleNo) : Bool :=
  let s := d.spn.spindles[n]
  decide (s.st = st) && s.job.isNone

/-- Idle spindles of a state in a cluster, lowest number first. -/
def Dev.idlesIn (d : Dev) (st : SpinState) (b : Bool) : List SpindleNo :=
  allSpindles.filter fun n => d.idleIn st n && (inB n == b)

/-- The idle WORKING spindle that has been idle longest, lowest number on a tie (R239), among some. -/
def Dev.longestIdle (d : Dev) (ns : List SpindleNo) : Option SpindleNo :=
  ns.foldl (fun (b : Option SpindleNo) n => match b with
    | none => some n
    | some m => if (d.spn.spindles[n]).idleSince < (d.spn.spindles[m]).idleSince then some n else some m) none

/-- The last band of an output frame is still to be handed over. -/
def Dev.bandsLeft (d : Dev) (st : StreamNo) (f : OutFrame) : Bool :=
  (d.cfgOf st f).any fun c => decide (f.handed < c.1.rows c.2)

/-- Mark SPARE_LOW in every output frame whose interval, from its first band's release to its last band's hand-over, is open
(R263). -/
def Dev.markSpareLow (d : Dev) : Dev :=
  if d.spareLow then
    allStreams.foldl (fun e st => if (e.streams[st]).frames.isEmpty then e else
      e.onStream st fun g => { g with frames := g.frames.map fun f => { f with spareLow := f.spareLow || d.bandsLeft st f } }) d
  else d

/-- A SPARE that is idle serves an owed promotion (R260), a decision of the arbiter (01 R25). -/
def Dev.payOwed (d : Dev) (n : SpindleNo) : Dev :=
  if 0 < d.spn.owed ∧ d.idleIn .spare n then
    (((d.onSpindle n fun s => { s with st := .working }).onSpn fun p => { p with owed := p.owed - 1 }).numberDecision).markSpareLow
  else d

/-- A spindle becomes idle. -/
def Dev.freeSpindle (d : Dev) (n : SpindleNo) : Dev :=
  (d.onSpindle n fun s => { s with job := none, idleSince := d.whl.tim }).payOwed n

/-- Promote a spare for a WORKING spindle that was quarantined (R260), a decision of the arbiter (01 R25). -/
def Dev.promote (d : Dev) (n : SpindleNo) : Dev :=
  match d.idlesIn .spare (inB n) ++ d.idlesIn .spare (!inB n) with
  | m :: _ => (d.onSpindle m fun s => { s with st := .working }).numberDecision
  | [] => d.onSpn fun p => { p with owed := p.owed + 1 }

/-- Quarantine a spindle with its trap cause (R243, R258, R635): the third quarantine of a start holds it without a
self-test. Its promotion is a step of its own (R248). Answers whether it was WORKING. -/
def Dev.quarantine (d : Dev) (n : SpindleNo) (trap : Nat) : Dev × Bool :=
  let s := d.spn.spindles[n]
  let q := satNat 255 (s.quarantines + 1)
  let d1 := ((d.onSpindle n fun s =>
    { s with st := if 3 ≤ q then .held else .quarantined, quarantines := q, lastTrap := trap }).numberDecision).raise 8 n.val trap
  ((if 3 ≤ q then d1.numberDecision else d1), decide (s.st = .working))

/-- Promotion after a quarantine, with the SPARE_LOW marks that follow (R260, R263). -/
def Dev.afterQuarantine (d : Dev) (n : SpindleNo) (worked : Bool) : Dev :=
  (if worked then d.promote n else d).markSpareLow

/-- SELF_TEST_DONE: a pass makes the spindle a SPARE, promoted at once where one is owed; a failure holds it (R258,
R260). -/
def selfTestDone (n : SpindleNo) (pass : Bool) (d : Dev) : Dev :=
  if (d.spn.spindles[n]).st = .quarantined then
    let d1 := d.numberDecision
    if pass then ((d1.onSpindle n fun s => { s with st := .spare, idleSince := d.whl.tim }).payOwed n).markSpareLow
    else (d1.onSpindle n fun s => { s with st := .held }).raise 8 n.val 0
  else d

def execSelfTestDone (n : SpindleNo) (pass : Bool) (s : State) : Host.Outcome State Fault Refusal :=
  .next (s.run (selfTestDone n pass))

/-- Assignment of spindle states (R256) for the spindles a plan retires. -/
def assignSpindles (retired : BitVec 64) (spare : Nat) : SpindleNo → SpinState :=
  let left := allSpindles.filter fun n => !retired.getLsbD n.val
  let w := 64 - spare
  let spares :=
    if left.length < 64 then left.drop w
    else ((List.range 32).flatMap fun k => [Fin.ofNat 64 (31 - k), Fin.ofNat 64 (63 - k)]).take spare
  fun n => if retired.getLsbD n.val then .retired else if spares.contains n then .spare else .working

/-- Assign the states of R256 from the margin plan in force. Without an image there is no spare count, and no spindle is a SPARE
(DESIGN CHOICE, log 45). -/
def Dev.assignStates (d : Dev) (retired : BitVec 64) : Dev :=
  let spare := match d.img with | some i => i.spareCount | none => 0
  d.onSpn fun p => { p with
    spindles := Vector.ofFn fun n => { p.spindles[n] with st := assignSpindles retired spare n }, owed := 0 }

/-! ### Kernel view of a tile -/

/-- A curve of an ID. -/
def curveOf (cs : List Curve) (id : Nat) : Option (List Nat) := (cs.find? fun c => decide (c.id = id)).map fun c => c.entries

/-- A code of a source row as the spindles read it (01 R29): in streaming mode from the line packet in the bobbin pool, and from
the input ring slot at `base` in frame mode or where the pool holds the row no longer (log 24). -/
def State.sourceCode (s : State) (l : LayoutCfg) (base width : Nat) (n : Nat) (num : Word) (x y : Nat) : Nat :=
  match (if l.streaming then s.dev.poolRow n num y else none) with
  | some row => fromLe ((row.drop (2 * x)).take 2)
  | none => fromLe (Memory.readN 0 s.mem.fs (base + 2 * (y * width + x)) 2)

/-- The kernels' view of an output frame's tile (08 R270): its sources, and the previous frame from the output ring; the temporal
filter is off where R296 says so. -/
def State.kernelView (s : State) (i : Image) (st : StreamNo) (f : OutFrame) (l : LayoutCfg) (e : StreamCfg) (t : Nat) :
    KernelView :=
  let c := i.chainOf e
  let prev := s.dev.prevFor st f (t / l.cols e)
  let base := (prev.map fun p => s.dev.outBase st.val p.ringSlot).getD 0
  { entry := e, chain := c,
    sources := f.sources.mapIdx fun k p =>
      let q := i.prof p.1
      let slot := (((s.dev.strands[strandOf p.1]).frame p.2).map fun x => x.slot).getD 0
      let b := s.dev.inBase p.1 slot
      { width := q.width, height := q.height, mosaic := i.mosaicOf q, compander := (i.blockOf p.1).compander,
        params := c.source k, code := s.sourceCode l b q.width p.1 p.2 },
    mesh := (c.stages.findSome? fun x => match x with | .warp m => some m | _ => none).bind fun m =>
      i.meshes.find? fun w => decide (w.id = m),
    tone := (c.stages.findSome? fun x => match x with | .tone m => some m | _ => none).bind (curveOf i.tones),
    transfer := (c.stages.findSome? fun x => match x with | .transfer m => some m | _ => none).bind (curveOf i.transfers),
    ltm := c.ltm.map fun x => (x.1, x.2.1), gains := f.gains,
    tnf :=
      if f.firstValid ∨ f.switched ∨ prev.isNone ∨ (prev.any fun p => p.repeated || p.notOwn.contains t) then none
      else c.stages.findSome? fun x => match x with | .tnf k a b => some (k, a, b) | _ => none,
    prev := fun u v =>
      (loadPixel e.format (Memory.readN 0 s.mem.fs (e.mainAddr base u v) (fmtBytes e.format)),
       fromLe (Memory.readN 0 s.mem.fs (e.irAddr base u v) 2)),
    prims := (c.stages.findSome? fun x => match x with | .overlay l => some l | _ => none).getD [] }

/-- Output bytes of a tile in output order: main plane, then IR plane. -/
def KernelView.tileBytes (k : KernelView) (r : Nat × Nat × Nat × Nat) : List Byte :=
  let rows := List.range r.2.2.2
  let cols := List.range r.2.2.1
  (rows.flatMap fun y => cols.flatMap fun x => storePixel k.entry.format (k.main (r.1 + x) (r.2.1 + y))) ++
    (if k.entry.irPlane then rows.flatMap fun y => cols.flatMap fun x => le 2 (k.irPlane (r.1 + x) (r.2.1 + y)) else [])

/-- Add the pixels of a completed tile to the local tone map (08 R287). -/
def KernelView.accumulate (k : KernelView) (r : Nat × Nat × Nat × Nat) (acc : List (Nat × Nat)) : List (Nat × Nat) :=
  match k.ltm with
  | none => acc
  | some (gx, gy) =>
    let cw := (k.entry.width + gx - 1) / gx
    let chh := (k.entry.height + gy - 1) / gy
    (List.range r.2.2.2).foldl (fun a y => (List.range r.2.2.1).foldl (fun a x =>
      let u := r.1 + x
      let v := r.2.1 + y
      a.modify (v / chh * gx + u / cw) fun p => ((p.1 + luma (k.sample u v) / 256) % 2 ^ 32, (p.2 + 1) % 2 ^ 32)) a) acc

/-! ### Dispatch -/

/-- Credit cells of the stream's tile queue in use: tiles dispatched and not yet handed over (R310; log 25). -/
def Dev.tileCellsUsed (d : Dev) (st : StreamNo) : Nat :=
  sumN ((d.streams[st]).frames.map fun f => match d.cfgOf st f with
    | some (l, e) => sumN ((List.range f.tiles.length).map fun t =>
        match f.tiles[t]? with
        | some x =>
          if f.isHanded (l.cols e) t then 0
          else if x.st = .running ∨ x.st = .heldForShadow ∨ x.st = .complete then l.tileCells e t else 0
        | none => 0)
    | none => 0)

/-- A tile of the ready queue with its key of R238: H, priority, stream, tile, and the output frame's key. -/
structure Ready where
  h : Nat
  priority : Nat
  st : StreamNo
  tile : Nat
  key : Nat
  deriving DecidableEq, Repr

/-- R238: `a` runs before `b`. -/
def Ready.before (a b : Ready) : Bool :=
  if a.h ≠ b.h then decide (a.h < b.h)
  else if a.priority ≠ b.priority then decide (b.priority < a.priority)
  else if a.st ≠ b.st then decide (a.st < b.st)
  else if a.tile ≠ b.tile then decide (a.tile < b.tile)
  else decide (a.key < b.key)

/-- Ready tiles whose stream's tile queue holds the credit (R239, R310). -/
def Dev.readyTiles (d : Dev) : List Ready :=
  allStreams.flatMap fun st => (d.streams[st]).frames.flatMap fun f => match d.cfgOf st f with
    | none => []
    | some (l, e) =>
      let room := (d.bob.queue (128 + st.val)).credit - d.tileCellsUsed st
      ((List.range f.tiles.length).filter fun t =>
        (match f.tiles[t]? with | some x => decide (x.st = .ready) | none => false) &&
          decide (l.tileCells e t ≤ room)).map fun t =>
        ⟨nth f.deadlines (t / l.cols e) 0, e.priority, st, t, f.key⟩

/-- The first ready tile in the order of R238. -/
def firstReady (rs : List Ready) : Option Ready :=
  rs.foldl (fun (b : Option Ready) r => match b with
    | none => some r
    | some x => if r.before x then some r else some x) none

/-- Start a job on a spindle. -/
def Dev.startJob (d : Dev) (n : SpindleNo) (st : StreamNo) (key t : Nat) (shadow : Bool) : Dev :=
  d.onSpindle n fun s => { s with job := some ⟨st, key, t, shadow, d.whl.tim⟩ }

/-- Candidates for a shadow copy in the order of R244. -/
def Dev.shadowFor (d : Dev) (n : SpindleNo) : Option SpindleNo :=
  match d.idlesIn .spare (!inB n) ++ d.idlesIn .spare (inB n) with
  | m :: _ => some m
  | [] => d.longestIdle (d.idlesIn .working (!inB n))

/-- TILE_DISPATCH: the first tile with credit goes to the longest idle WORKING spindle, every 64th with a shadow copy
(R238, R239, R244). No tile runs while a self-test of 17 R582 has been started. -/
def tileDispatch (d : Dev) : Dev :=
  match d.longestIdle (allSpindles.filter fun n => d.idleIn .working n), firstReady d.readyTiles with
  | some n, some r =>
    let d1 := (d.startJob n r.st r.key r.tile false).onSpn fun p => { p with dispatched := p.dispatched + 1 }
    let d2 := d1.onOut r.st r.key fun f => f.onTile r.tile fun x => { x with st := .running }
    if d2.spn.dispatched % 64 = 0 then
      match d2.shadowFor n with
      | some m =>
        (d2.startJob m r.st r.key r.tile true).onOut r.st r.key fun f => f.onTile r.tile fun x => { x with shadowed := true }
      | none => d2.onSpn fun p => { p with skipped := satAdd p.skipped 1 }
    else d2
  | _, _ => d

def execTileDispatch (s : State) : Host.Outcome State Fault Refusal := .next (s.run tileDispatch)

/-! ### Failure and re-run -/

/-- Lane-cycles of a tile of an output frame (R234). -/
def Dev.cyclesOf (d : Dev) (st : StreamNo) (f : OutFrame) (t : Nat) : Nat :=
  match d.cfgOf st f, d.img with
  | some (l, e), some i => let r := l.tileRect e t; tileCycles r.2.2.1 r.2.2.2 (i.chainOf e).k
  | _, _ => 0

/-- H - t is at least the worst-case time of the tile at a spindle's clock (R234, R246), in exact arithmetic:
`left` TIM cycles of 2 ns, `cyc` cycles at `mhz`. -/
def fitsIn (left cyc mhz : Nat) : Bool := decide (cyc * 1000 + 2000 * mhz ≤ 2 * left * mhz)

/-- The re-run candidate of R247 for a failed spindle. -/
def Dev.rerunOn (d : Dev) (n : SpindleNo) (left cyc : Nat) : Option SpindleNo :=
  (d.idlesIn .spare (!inB n) ++ d.idlesIn .spare (inB n) ++ d.idlesIn .working (!inB n) ++ d.idlesIn .working (inB n)).find?
    fun m => fitsIn left cyc (d.clockOf m)

/-- Deadline of a tile. -/
def OutFrame.h (f : OutFrame) (cols t : Nat) : Nat := nth f.deadlines (t / cols) 0

/-- A tile fails on a spindle: it is re-run under R246 and R247, or substituted at once. -/
def State.failTile (s : State) (n : SpindleNo) (st : StreamNo) (key t : Nat) : State :=
  match (s.dev.streams[st]).out key with
  | none => s
  | some f =>
    match s.dev.cfgOf st f, f.tiles[t]? with
    | some (l, e), some x =>
      if x.st ≠ .running ∧ x.st ≠ .heldForShadow then s
      else
        let h := f.h (l.cols e) t
        let cand := if x.rerun ∨ f.repeated then none
                    else s.dev.rerunOn n (h - s.dev.whl.tim) (s.dev.cyclesOf st f t)
        match cand with
        | some m =>
          { s with dev := (s.dev.startJob m st key t false).onOut st key fun g => g.onTile t fun y =>
              { y with st := .running, rerun := true, shadowed := false, first := none, firstBy := none, otherTrapped := false } }
        | none => { s with dev := s.dev.substitute st key t }
    | _, _ => s

/-- The tile packet of a tile, from its bytes in output order: its lines packed (09 R310; 08 R300, R301). -/
def StreamCfg.packTile (e : StreamCfg) (r : Nat × Nat × Nat × Nat) (bs : List Byte) : List Byte :=
  let w := r.2.2.1
  let k := fmtBytes e.format
  let ir := bs.drop (r.2.2.2 * w * k)
  (List.range r.2.2.2).flatMap fun y =>
    packLine e.format ((List.range w).map fun x => loadPixel e.format ((bs.drop ((y * w + x) * k)).take k))
      (if e.irPlane then some ((List.range w).map fun x => fromLe ((ir.drop (2 * (y * w + x))).take 2)) else none)

/-- Commit a tile's output to its frame ring and, packed, to its tile queue (R241, 01 R30; 08 R287; 09 R310). -/
def State.commitTile (s : State) (st : StreamNo) (f : OutFrame) (l : LayoutCfg) (e : StreamCfg) (t : Nat) (bs : List Byte) :
    State :=
  let r := l.tileRect e t
  let acc := match s.dev.img with
    | some i => (s.kernelView i st f l e t).accumulate r f.ltmAcc
    | none => f.ltmAcc
  { s with
    dev := (s.dev.onOut st f.key fun g => { (g.onTile t fun x => { x with st := .complete, first := none }) with ltmAcc := acc }).putPkt
      (128 + st.val) (e.packTile r bs) false [1] f.key t,
    mem := s.mem.writeTile e (s.dev.outBase st.val f.ringSlot) r bs }

/-- One copy of a shadowed tile trapped (R245): the tile completes from the other copy where that is done, waits for it
where it still runs, and fails where both trapped. -/
def State.copyTrapped (s : State) (n : SpindleNo) (j : Job) : State :=
  match (s.dev.streams[j.stream]).out j.key with
  | none => s
  | some f =>
    match s.dev.cfgOf j.stream f, f.tiles[j.tile]? with
    | some (l, e), some x =>
      if x.st ≠ .running ∧ x.st ≠ .heldForShadow then s
      else match x.shadowed, x.first, x.otherTrapped with
        | true, some bs, _ => s.commitTile j.stream f l e j.tile bs
        | true, none, false =>
          { s with dev := s.dev.onOut j.stream j.key fun g => g.onTile j.tile fun y => { y with otherTrapped := true } }
        | _, _, _ => s.failTile n j.stream j.key j.tile
    | _, _ => s

/-- A spindle traps with a cause attributed to it (R242, R243, R248): it is quarantined, the re-run is placed, then a
spare is promoted. -/
def State.trap (s : State) (n : SpindleNo) (code : Nat) : State :=
  match (s.dev.spn.spindles[n]).job with
  | none => s
  | some j =>
    let d1 := s.dev.onSpindle n fun x => { x with job := none, idleSince := s.dev.whl.tim }
    let q := d1.quarantine n code
    let s1 := ({ s with dev := q.1 }).copyTrapped n j
    { s1 with dev := s1.dev.afterQuarantine n q.2 }

/-- A failure attributed to the input: no spindle is quarantined (R242). -/
def State.inputFailure (s : State) (n : SpindleNo) : State :=
  match (s.dev.spn.spindles[n]).job with
  | none => s
  | some j => ({ s with dev := s.dev.freeSpindle n }).copyTrapped n j

/-- A tile's input slot was taken (09 R333): it is substituted at once, without a re-run (R246). -/
def State.inputLost (s : State) (n : SpindleNo) : State :=
  match (s.dev.spn.spindles[n]).job with
  | none => s
  | some j =>
    let d1 := s.dev.freeSpindle n
    match ((d1.streams[j.stream]).out j.key).bind fun f => f.tiles[j.tile]? with
    | some x => { s with dev := if x.ended then d1 else d1.substitute j.stream j.key j.tile }
    | none => { s with dev := d1 }

/-- TILE_FAILURE (R242): LAST_TRAP takes the code of R635; an uncorrectable or parity error is reported (01 R39). -/
def tileFailure (n : SpindleNo) (cause : TileCause) (s : State) : State :=
  let ue (x : State) : State := { x with dev := x.dev.raise 17 n.val 0 }
  if (s.dev.spn.spindles[n]).job.isNone then s
  else match cause with
    | .localStore => ue (s.trap n 1)
    | .illegalOp => s.trap n 2
    | .fetchOutside => s.trap n 3
    | .outputParity => ue (s.trap n 5)
    | .inputUncorrectable => ue (s.inputFailure n)
    | .inputRewound => s.inputFailure n
    | .inputSlotTaken => s.inputLost n

def execTileFailure (n : SpindleNo) (cause : TileCause) (s : State) : Host.Outcome State Fault Refusal :=
  .next (s.runM (tileFailure n cause))

/-- TILE_WATCHDOG: the tile ran longer than twice its worst-case time (R242). -/
def execTileWatchdog (n : SpindleNo) (s : State) : Host.Outcome State Fault Refusal := .next (s.runM fun t => t.trap n 4)

/-- Stop a copy: its spindle is reset and stays in its state (R241, R245). -/
def Dev.stopJobs (d : Dev) (st : StreamNo) (key t : Nat) : Dev :=
  allSpindles.foldl (fun e n => match (e.spn.spindles[n]).job with
    | some j => if j.stream = st ∧ j.key = key ∧ j.tile = t then e.freeSpindle n else e
    | none => e) d

/-- The H of a tile arrives (R241, R245): a held original is taken and its shadow stopped and counted as skipped; a tile
not complete fails with DEADLINE and is substituted; whatever still runs for it is stopped. -/
def State.expireTile (s : State) (st : StreamNo) (key t : Nat) : State :=
  match (s.dev.streams[st]).out key with
  | none => s
  | some f =>
    match s.dev.cfgOf st f, f.tiles[t]? with
    | some (l, e), some x =>
      let stopped : State := { s with dev := s.dev.stopJobs st key t }
      match x.st, x.first with
      | .heldForShadow, some bs =>
        ({ stopped with dev := stopped.dev.onSpn fun p => { p with skipped := satAdd p.skipped 1 } }).commitTile st f l e t bs
      | .complete, _ | .substituted, _ | .filled, _ => stopped
      | _, _ =>
        let d1 := (stopped.dev.onSpn fun p => { p with deadlines := satAdd p.deadlines 1 }).raise 11 st.val t
        { stopped with dev := d1.substitute st key t }
    | _, _ => s

/-- A copy of a tile is complete with its output bytes (R241, R245). -/
def State.copyDone (s : State) (n : SpindleNo) (j : Job) (bs : List Byte) (f : OutFrame) (l : LayoutCfg) (e : StreamCfg)
    (x : Tile) : State :=
  if !x.shadowed ∨ x.otherTrapped then s.commitTile j.stream f l e j.tile bs
  else match x.first, x.firstBy with
    | some old, some m =>
      if crc64 old = crc64 bs then s.commitTile j.stream f l e j.tile (if j.shadow then old else bs)
      else
        let q1 := s.dev.quarantine n 6
        let q2 := q1.1.quarantine m 6
        let orig := if j.shadow then m else n
        let s1 := ({ s with dev := q2.1 }).failTile orig j.stream j.key j.tile
        { s1 with dev := (s1.dev.afterQuarantine n q1.2).afterQuarantine m q2.2 }
    | _, _ =>
      { s with dev := s.dev.onOut j.stream j.key fun g => g.onTile j.tile fun y =>
          { y with st := if j.shadow then .running else .heldForShadow, first := some bs, firstBy := some n } }

/-- TILE_COMPLETE: the last output word of a tile is committed (R241): its bytes are those of the kernels (08) unless a
hardware fault altered them. Single-bit errors corrected in its local store are counted (01 R38). -/
def tileComplete (n : SpindleNo) (altered : Option (List Byte)) (corrected : Nat) (s : State) : State :=
  match (s.dev.spn.spindles[n]).job, s.dev.img with
  | some j, some i =>
    let s1 := { s with dev := (s.dev.freeSpindle n).countCorrected 1 corrected }
    match (s.dev.streams[j.stream]).out j.key with
    | none => s1
    | some f =>
      match s.dev.cfgOf j.stream f, f.tiles[j.tile]? with
      | some (l, e), some x =>
        if x.st ≠ .running ∧ x.st ≠ .heldForShadow then s1
        else if f.h (l.cols e) j.tile < s.dev.whl.tim then s1.expireTile j.stream j.key j.tile
        else
          let bs := altered.getD ((s.kernelView i j.stream f l e j.tile).tileBytes (l.tileRect e j.tile))
          s1.copyDone n j bs f l e x
      | _, _ => s1
  | _, _ => s

def execTileComplete (n : SpindleNo) (altered : Option (List Byte)) (s : State) (corrected : Nat := 0) :
    Host.Outcome State Fault Refusal :=
  .next (s.runM (tileComplete n altered corrected))

end Sys2Proof.Machine
end

