-- ==== Sys2Proof/Machine/Health.lean ====
section
/-! DEFINITION. The fault summary, watchdogs, thermal and supply response, ageing monitors, re-plans
(spec/16_guarantees_health_ageing.md R551 to R569; 18 SYS, AGE, R593; 19 R606). -/

namespace Sys2Proof.Machine

/-! ### Fault summary and watchdogs -/

/-- FAULT_SUM_CLEAR: W1C; a bit whose condition holds is set again when the command settles (R552). -/
def faultSumClear (a : Access) (v : Word) (d : Dev) : Dev :=
  d.write a (regAddr 0x20) 4 v true fun e => (e.onSys fun y => { y with fault := w1c y.fault v 0x7FFFFFFF }, Res.ok)

def execFaultSumClear (a : Access) (v : Word) (s : State) : Host.Outcome State Fault Refusal :=
  .next (s.run (faultSumClear a v))

/-- Set the summary bits of a word. -/
def Dev.raiseAll (d : Dev) (v : Word) : Dev := (bitsOf 31 v.toNat).foldl Dev.report d

/-- FAULT_SET: core 2 only (18 SYS). -/
def faultSet (a : Access) (v : Word) (d : Dev) : Dev :=
  d.write a (regAddr 0x24) 4 v true fun e => if a.master = .core 2 then (e.raiseAll v, Res.ok) else (e, Res.addrErr)

def execFaultSet (a : Access) (v : Word) (s : State) : Host.Outcome State Fault Refusal := .next (s.run (faultSet a v))

/-- A write of SYS_WDOGn: it services the watchdog from core n only (18 SYS). -/
def Dev.serviceWdog (d : Dev) (m : Master) (n : Fin 4) : Dev × Res :=
  if m = .core n then (d.onSys fun y => { y with serviced := upd y.serviced n (· + 1) }, Res.ok) else (d, Res.addrErr)

/-- WATCHDOG_SERVICE (R557). -/
def execWatchdogService (a : Access) (n : Fin 4) (s : State) : Host.Outcome State Fault Refusal :=
  .next (s.run fun d => d.write a (regAddr (0x30 + 4 * n.val)) 4 1 true fun e => e.serviceWdog a.master n)

/-- CORE_WATCHDOG_EXPIRY: the core alone is reset and restarts from control SRAM; CORE is set, on its second expiry also
CORE_FAIL (R551, R557). -/
def coreWatchdogExpiry (n : Fin 4) (d : Dev) : Dev :=
  if d.sys.coreRun[n] then
    let again := decide (0 < (d.sys.wdog[n]).toNat)
    let d1 := d.onSys fun y => { y with wdog := upd y.wdog n fun c => satAdd c 1, coreRestarts := upd y.coreRestarts n (· + 1) }
    let d2 := d1.raise 25 n.val 0
    if again then d2.raise 26 n.val 0 else d2
  else d

def execCoreWatchdogExpiry (n : Fin 4) (s : State) : Host.Outcome State Fault Refusal := .next (s.run (coreWatchdogExpiry n))

/-! ### Temperature and supply -/

/-- THERMAL_SAMPLE: present and highest temperatures; the thermal bits follow as standing conditions (R552, R556). -/
def thermalSample (t : List Int) (d : Dev) : Dev :=
  if d.released then
    let e := d.onAge fun a =>
      let now : Vector Int 12 := Vector.ofFn fun k => nth t k.val a.temp[k]
      { a with temp := now, tempMax := if a.tempSeen then Vector.ofFn fun k => max a.tempMax[k] now[k] else now, tempSeen := true }
    { e with fst := { e.fst with hot := e.age.temp.any fun x => decide (85 * 16 < x) } }
  else d

def execThermalSample (t : List Int) (s : State) : Host.Outcome State Fault Refusal := .next (s.run (thermalSample t))

/-- Command an AVS target (R556, R567; 19 R606). -/
def Dev.commandAvs (d : Dev) (mv : Nat) : Dev :=
  d.onAge fun a => { a with avsTarget := mv, avsOk := false, avsRetried := false }

/-- Cores 0 to 2 are released at step 6 of R86 once AVS_OK is set or the retry of R556 has ended (19 R606). -/
def Dev.releaseCores (d : Dev) : Dev :=
  if decide (d.aon.phase = .running) && (d.age.avsOk || d.age.avsEnded) then
    d.onSys fun y => { y with coreRun := Vector.replicate 4 true }
  else d

/-- AVS_TIMEOUT: one retry, then 0.85 V and SUPPLY (R556). -/
def avsTimeout (d : Dev) : Dev :=
  if !d.released || d.age.avsOk then d
  else if d.age.avsRetried then (((d.commandAvs 850).onAge fun a => { a with avsEnded := true }).report 5).releaseCores
  else d.onAge fun a => { a with avsRetry := true, avsRetried := true }

def execAvsTimeout (s : State) : Host.Outcome State Fault Refusal := .next (s.run avsTimeout)

/-- AVS_TARGET_REACHED (19 R606). -/
def avsTargetReached (mv : Nat) (d : Dev) : Dev :=
  if d.released then (d.onAge fun a => { a with avsRead := mv, avsOk := true }).releaseCores else d

def execAvsTargetReached (mv : Nat) (s : State) : Host.Outcome State Fault Refusal := .next (s.run (avsTargetReached mv))

/-! ### Monitors -/

/-- DELAY_MONITOR_SAMPLE: latest and lowest slack, and the delay trends (R561, R569). -/
def delayMonitorSample (slacks : List Nat) (d : Dev) : Dev :=
  if d.released then
    let now := (List.range 80).map fun k => nth slacks k (nth d.age.slack k 0)
    (d.onAge fun a =>
      { a with slack := now, slackSeen := true,
               slackMin := if a.slackSeen then (List.range 80).map fun k => min (nth a.slackMin k 0) (nth now k 0) else now }).onHist
      fun h => { h with slack := (List.range 80).map fun k => (nth now k 0, (nth h.slack k (0, 0)).2) }
  else d

def execDelayMonitorSample (slacks : List Nat) (s : State) : Host.Outcome State Fault Refusal :=
  .next (s.run (delayMonitorSample slacks))

/-- Upper bounds of the bands of R562 in degrees C. -/
def bandBounds : List Int := [0, 20, 40, 60, 70, 80, 90, 100, 105, 110, 115, 120, 125, 130]

/-- Weights of the bands of R562. -/
def bandWeights : List Nat := [1, 3, 20, 106, 323, 643, 1234, 2285, 3550, 4716, 6220, 8144, 10592, 13686, 19864]

/-- Band of a temperature in 1/16 degree C. -/
def bandOf (t : Int) : Nat := (bandBounds.filter fun b => decide (b * 16 ≤ t)).length

/-- Histogram band: < 0 split into < -20 and -20 to 0 (R569). -/
def histBand (t : Int) : Nat := if t < -320 then 0 else bandOf t + 1

/-- One powered minute of the counters of R562 and R569. -/
def History.minute (h : History) (temps : Vector Int 12) : History :=
  let t (k : Nat) : Int := temps.toList.getD k 0
  { h with
    minutes := satNat 0xFFFFFFFF (h.minutes + 1), sincePlan := satNat 0xFFFFFFFF (h.sincePlan + 1),
    hist := (List.range 12).map fun k =>
      (nth h.hist k []).mapIdx fun b n => if b = histBand (t k) then satNat 0xFFFFFFFF (n + 1) else n,
    stress := (List.range 12).map fun k => nth h.stress k 0 + nth bandWeights (bandOf (t k)) 0 }

/-- The first case of R563. -/
def History.stressed (h : History) : Bool :=
  decide (60000 ≤ h.minutes) && decide (11394 * h.minutes < 10 * h.stress.foldl max 0)

/-- The end of a month for one port (R563): baseline and latest mean, from the month's sum and minute count. The baseline
is the first complete month: one with a sample in each minute, or one that follows a recorded month (log 31). -/
def monthEnd (old : Nat × Nat) (m : Nat × Nat) : Nat × Nat :=
  if m.2 = 0 then old
  else
    let mean := m.1 / m.2
    (if old.1 = 0 ∧ (old.2 ≠ 0 ∨ m.2 = 43200) then mean else old.1, mean)

/-- The second case of R563. -/
def drifted (c : Nat × Nat) : Bool := decide (c.1 ≠ 0) && decide (15 * c.1 < 100 * ((c.2 : Int) - c.1).natAbs)

/-- The minute's camera currents (R561): the latest settled code of every trained port. -/
def Dev.sampleCurrents (d : Dev) : Dev :=
  d.onAge fun a =>
    { a with currents := (List.range 16).map fun n =>
        let c := nth a.currents n (0, 0)
        if (d.ports[(Fin.ofNat 16 n : PortNo)]).step = .trained then
          match nth a.lastCode n none with
          | some x => (c.1 + x, c.2 + 1)
          | none => c
        else c }

/-- MINUTE_TICK: the counters, the monthly currents, the tests of R563 and the 60,000 minutes of R564. -/
def minuteTick (d : Dev) : Dev :=
  if !d.released then d
  else
    let d1 := (d.onHist fun h => h.minute d.age.temp).sampleCurrents
    let h1 := d1.jnl.history
    let month := decide (h1.minutes % 43200 = 0)
    let cs := (List.range 16).map fun n => monthEnd (nth h1.currents n (0, 0)) (nth d1.age.currents n (0, 0))
    let d2 := if month then (d1.onHist fun h => { h with currents := cs }).onAge fun a => { a with currents := List.replicate 16 (0, 0) }
      else d1
    let d3 := if h1.stressed then d2.report 27 else d2
    let d4 := if month then ((List.range 16).filter fun n => drifted (nth cs n (0, 0))).foldl (fun e n => e.raise 27 n 0) d3 else d3
    if 60000 ≤ h1.sincePlan then d4.startReplan 2 else d4

def execMinuteTick (s : State) : Host.Outcome State Fault Refusal := .next (s.run minuteTick)

/-! ### AGE_CTRL (R593) -/

/-- Depot with NOLIVE. -/
def Dev.inNolive (d : Dev) : Bool := decide (d.sys.mode = .depot) && d.sys.nolive

/-- One AGE_CTRL bit: its operation starts or is joined, or outside its mode it is ignored and counted (R593). -/
def Dev.ageBit (d : Dev) (may : Bool) (f : Dev → Dev) : Dev :=
  if may then f d else d.onAge fun a => { a with ignored := satAdd a.ignored 1 }

/-- A write of AGE_CTRL. -/
def Dev.ageCtrl (d : Dev) (v : Word) : Dev :=
  let depot := decide (d.sys.mode = .depot)
  let d1 := if v.getLsbD 0 then d.ageBit depot fun e => e.startReplan 1 else d
  let d2 := if v.getLsbD 1 then d1.ageBit d.inNolive fun e => e.onAge fun a => { a with vminBusy := true } else d1
  if v.getLsbD 2 then d2.ageBit depot fun e => e.onAge fun a => { a with eyeBusy := true } else d2

/-- A write of AGE_CTRL as a command. -/
def ageCtrlWrite (a : Access) (v : Word) (d : Dev) : Dev :=
  d.write a (regAddr 0x10004) 4 v true fun e => (e.ageCtrl v, Res.ok)

/-- REPLAN: through AGE_CTRL, or due by itself (R564). -/
def replan (a : Option Access) (d : Dev) : Dev :=
  match a with
  | some a => ageCtrlWrite a 1 d
  | none =>
    if !d.released then d
    else if d.sys.mode = .depot then d.startReplan 1
    else if 60000 ≤ d.jnl.history.sincePlan then d.startReplan 2
    else d

def execReplan (a : Option Access) (s : State) : Host.Outcome State Fault Refusal := .next (s.run (replan a))

/-- VMIN_PROBE through AGE_CTRL. -/
def execVminProbe (a : Access) (s : State) : Host.Outcome State Fault Refusal := .next (s.run (ageCtrlWrite a 2))

/-- EYE_SCAN through AGE_CTRL. -/
def execEyeScan (a : Access) (s : State) : Host.Outcome State Fault Refusal := .next (s.run (ageCtrlWrite a 4))

/-- VMIN_PROBE_DONE: the lowest voltage and the worst SRAM type (R561, R569). -/
def vminProbeDone (mv worst : Nat) (d : Dev) : Dev :=
  if d.age.vminBusy then
    (d.onAge fun a => { a with vminBusy := false }).onHist fun h =>
      { h with vmin := mv, vminBase := if h.vminBase = 0 then mv else h.vminBase, vminWorst := worst }
  else d

def execVminProbeDone (mv worst : Nat) (s : State) : Host.Outcome State Fault Refusal := .next (s.run (vminProbeDone mv worst))

/-- EYE_SCAN_DONE: the eye trends (R561, R569) and the eye margins of the creel ports. -/
def eyeScanDone (eyes : List (Option (Nat × Nat))) (d : Dev) : Dev :=
  if d.age.eyeBusy then
    let d1 := (d.onAge fun a => { a with eyeBusy := false }).onHist fun h =>
      (eyes.zipIdx).foldl (fun x p => match p.1 with | some e => x.setEye p.2 e.1 e.2 | none => x) h
    { d1 with ports := Vector.ofFn fun p =>
        match nth eyes p.val none with
        | some e => { d1.ports[p] with eyeH := e.1, eyeV := e.2 }
        | none => d1.ports[p] }
  else d

def execEyeScanDone (eyes : List (Option (Nat × Nat))) (s : State) : Host.Outcome State Fault Refusal :=
  .next (s.run (eyeScanDone eyes))

/-! ### The re-plan (R565 to R568) -/

/-- s(f) of a slack `s0` measured at `f0` (R565), which may be negative. -/
def slackAt (s0 f0 f : Nat) : Int := 1000 - (((1000 - (s0 : Int)) * f + f0 - 1) / f0)

/-- Slack of spindle `n` in a measurement, at `f` MHz. -/
def Dev.spindleSlack (d : Dev) (ss : List Nat) (n : SpindleNo) (f : Nat) : Int := slackAt (nth ss n.val 0) (max 1 (d.clockOf n)) f

/-- Every domain monitor reads 80 or more. -/
def domainsOk (ss : List Nat) : Bool := (List.range 16).all fun k => decide (80 ≤ nth ss (64 + k) 0)

/-- The working state of a re-plan. -/
structure Planning where
  retired : BitVec 64
  v : Nat
  slacks : List Nat
  ageing : Bool
  cause : Nat
  deriving DecidableEq, Repr

/-- Minimum SRAM voltage of R565. -/
def Dev.planVmin (d : Dev) : Nat := if d.jnl.history.vmin = 0 then 760 else d.jnl.history.vmin

/-- Spindles HELD now, as a mask. -/
def Dev.heldMask (d : Dev) : BitVec 64 :=
  allSpindles.foldl (fun m n => if (d.spn.spindles[n]).st = .held then m ||| (1#64 <<< n.val) else m) 0

/-- A measured row meets the targets in Depot with NOLIVE (R565). -/
def Dev.rowFits (d : Dev) (r : SlackRow) : Bool :=
  decide (650 ≤ r.mv) && decide (r.mv ≤ 850) && decide (r.mv % 5 = 0) && decide (d.planVmin + 40 ≤ r.mv) && domainsOk r.slacks &&
    allSpindles.all fun n => decide (80 ≤ d.spindleSlack r.slacks n 850)

/-- The row of the lowest voltage among those given. -/
def lowestRow (rs : List SlackRow) : Option SlackRow :=
  rs.foldl (fun o r => match o with | some x => if r.mv < x.mv then some r else some x | none => some r) none

/-- The voltage of the plan (R565). -/
def Dev.planVoltage (d : Dev) (rows : List SlackRow) (old : Plan) : Planning :=
  let retired := old.retired ||| d.heldMask
  let present := match rows.find? fun r => decide (r.mv = d.age.avsTarget) with
    | some r => r.slacks
    | none => ((rows.head?).map fun r => r.slacks).getD d.age.slack
  if d.inNolive then
    match lowestRow (rows.filter d.rowFits) with
    | some r => ⟨retired, r.mv, r.slacks, false, 0⟩
    | none =>
      let ss := ((rows.find? fun r => decide (r.mv = 850)).map fun r => r.slacks).getD present
      ⟨retired, 850, ss, true, 16⟩
  else ⟨retired, if domainsOk present then old.avs else min 850 (old.avs + 10), present, false, 0⟩

/-- Spindles below the floor at 850 MHz are retired (R565). -/
def Dev.planRetire (d : Dev) (p : Planning) : Planning :=
  allSpindles.foldl (fun q n =>
    if !q.retired.getLsbD n.val && decide (d.spindleSlack q.slacks n 850 < 80) then
      { q with retired := q.retired ||| (1#64 <<< n.val), ageing := true, cause := q.cause ||| 8 }
    else q) p

/-- Highest clock of a cluster that leaves every spindle not retired 80 or more (R565, R566). -/
def Dev.planClock (d : Dev) (p : Planning) (b : Bool) : Nat :=
  let ns := allSpindles.filter fun n => decide (inB n = b) && !p.retired.getLsbD n.val
  (((List.range 16).map fun k => 1000 - 10 * k).find? fun f => ns.all fun n => decide (80 ≤ d.spindleSlack p.slacks n f)).getD 850

/-- Every layout of the image meets R41 at the given rates. -/
def Image.ceilingsAll (i : Image) (rates : Nat → Nat) (ply : Nat) : Bool := i.layouts.all fun l => i.ceilings l rates ply

/-- One creel port lowered one step where its eye is small (R565). `acc` holds the rate codes and whether a step was taken
and one was not. -/
def Dev.planPort (d : Dev) (i : Image) (ply : Nat) (acc : List Nat × Bool × Bool) (p : PortNo) : List Nat × Bool × Bool :=
  let x := d.ports[p]
  if x.trainedSincePlan && decide (x.eyeH < (i.portCfg p.val).minEye + 4) then
    let eff (l : List Nat) (k : Nat) : Nat := if nth l k 0xFF = 0xFF then (i.portCfg k).rate else nth l k 0xFF
    let low := acc.1.set p.val (eff acc.1 p.val - 1)
    if 0 < eff acc.1 p.val ∧ i.ceilingsAll (eff low) ply then (low, true, acc.2.2) else (acc.1, acc.2.1, true)
  else acc

/-- Rates of the plan: creel codes, ply code, a step taken, a step not admissible (R565, R567). -/
def Dev.planRates (d : Dev) (i : Image) (old : Plan) : List Nat × Nat × Bool × Bool :=
  let same := decide (old.generation = i.generation) && old.valid
  let creel := if same then old.creelRates else List.replicate 16 0xFF
  let ply := if same then old.plyRate else 0xFF
  let effPly := if ply = 0xFF then i.ply.rate else ply
  let r := allPorts.foldl (d.planPort i effPly) (creel, false, false)
  let eff (k : Nat) : Nat := if nth r.1 k 0xFF = 0xFF then (i.portCfg k).rate else nth r.1 k 0xFF
  if 4 ≤ d.jnl.history.plyEvents then
    if 0 < effPly ∧ i.ceilingsAll eff (effPly - 1) then (r.1, effPly - 1, true, r.2.2) else (r.1, ply, r.2.1, true)
  else (r.1, ply, r.2.1, r.2.2)

/-- The plan that a re-plan produces, and whether AGEING is set (R565, R568). -/
def Dev.newPlan (d : Dev) (rows : List SlackRow) : Plan × Bool :=
  let old := if d.jnl.plan.valid then d.jnl.plan else Plan.none
  let p := d.planRetire (d.planVoltage rows old)
  let spa := d.planClock p false
  let spb := d.planClock p true
  let rates := match d.img with
    | some i => d.planRates i old
    | none => (old.creelRates, old.plyRate, false, false)
  let live := allSpindles.filter fun n => !p.retired.getLsbD n.val
  let low := live.foldl (fun (x : Int) n => min x (d.spindleSlack p.slacks n (if inB n then spb else spa)))
    ((List.range 16).foldl (fun (x : Int) k => min x ((nth p.slacks (64 + k) 0 : Nat) : Int)) 1000)
  ({ valid := true, number := (old.number + 1) % 2 ^ 32, generation := ((d.img.map fun i => i.generation).getD 0),
     minutes := d.jnl.history.minutes, spa := spa, spb := spb, avs := p.v, vmin := d.planVmin, retired := p.retired,
     creelRates := rates.1, plyRate := rates.2.1,
     cause := (d.age.replan.getD 0) ||| p.cause ||| (if rates.2.2.1 then 4 else 0) ||| (if rates.2.2.2 then 16 else 0),
     slack := low.toNat }, p.ageing || rates.2.2.2)

/-- The plan takes effect at once in Depot with NOLIVE (R567). -/
def Dev.adoptPlan (d : Dev) (p : Plan) : Dev :=
  (((d.onSpn fun s => { s with spa := p.spa, spb := p.spb }).commandAvs p.avs).assignStates p.retired)

/-- REPLAN_DONE: the plan goes to the journal (02 R68), and takes effect at once in Depot with NOLIVE, else at the next start
(R567). -/
def replanDone (rows : List SlackRow) (d : Dev) : Dev :=
  match d.age.replan with
  | none => d
  | some _ =>
    let r := d.newPlan rows
    let first := !d.jnl.plan.valid
    let d1 := (d.onJnl fun j => { j with plan := r.1 }).onHist fun h =>
      { h with sincePlan := 0, plyEvents := 0,
               slack := if first then h.slack.map fun s => (s.1, s.1) else h.slack }
    let d2 := { (d1.jnlDue 3) with ports := d1.ports.map fun (x : Port) => { x with trainedSincePlan := false } }
    let d3 := if d.inNolive then d2.adoptPlan r.1 else d2
    let d4 := d3.onAge fun a => { a with replan := none, planPending := !d.inNolive }
    if r.2 then d4.report 27 else d4

def execReplanDone (rows : List SlackRow) (s : State) : Host.Outcome State Fault Refusal := .next (s.run (replanDone rows))

end Sys2Proof.Machine
end

