-- ==== Sys2Proof/Machine/RegViews.lean ====
section
/-! DEFINITION. What a read of each register shows, without side effects (18_registers.md R584 to R598, R636; the
field tables of 02 R60, 07 R635, 09 R321, 13 R470 to R492, 14 R508, 15 R517 to R531, 17 R574 to R582). Offsets count
from the block. -/

namespace Sys2Proof.Machine

/-- What a register shows: a word; the LO word of a 64-bit value, whose HI word the read latches (00 R5); a HI word,
which reads as latched; a register whose fields the spec names without bit places (a word that depends on them alone,
log 1); a register of unstated contents (a free word, log 1); nothing (R586). -/
inductive RegVal where
  | word (w : Word)
  | lo (x : DWord)
  | hi
  | fields (l : List Nat)
  | free
  | absent
  deriving DecidableEq, Repr

/-- A word from a number. -/
def RegVal.nat (n : Nat) : RegVal := .word (BitVec.ofNat 32 n)
/-- A bit. -/
def bit1 (b : Bool) : Nat := if b then 1 else 0
/-- A 64-bit value at offset `o`, read at `off`. -/
def RegVal.wide (off o : Nat) (x : DWord) : RegVal := if off = o then .lo x else .hi
/-- `off` lies in a table of `n` entries of `stride` bytes at `base`: the index and the offset in the entry. -/
def inTable (off base stride n : Nat) : Option (Nat × Nat) :=
  if base ≤ off ∧ off < base + stride * n then some ((off - base) / stride, (off - base) % stride) else none

/-- An integer as a field value: its two's complement of 64 bits. -/
def natOf (x : Int) : Nat := (BitVec.ofInt 64 x).toNat

/-- Sign-preserving word of an integer, saturated to 32 bits. -/
def sat32 (x : Int) : Word := BitVec.ofInt 32 (max (-2147483648) (min 2147483647 x))

/-- SYS_MODE_STATUS. -/
def Dev.modeStatus (d : Dev) : Word :=
  BitVec.ofNat 32 (d.sys.reqCount.toNat * 2 ^ 24 + d.sys.result.toNat * 2 ^ 20 +
    (match d.sys.transition with | some t => t.layout % 16 * 2 ^ 16 | none => 0) +
    d.sys.activeLayout.toNat * 2 ^ 8 + bit1 (decide (d.aon.phase = .romSafe)) * 2 ^ 5 + bit1 d.sys.safeOff * 2 ^ 4 +
    bit1 d.sys.transition.isSome * 2 ^ 3 + d.sys.mode.code)

def Dev.viewSys (d : Dev) (off : Nat) : RegVal :=
  match off with
  | 0x00 => .word 0x16640B00
  | 0x04 => .nat (d.aon.i2ca.toNat * 2 ^ 10 + d.aon.bootSel.toNat * 2 ^ 8 + d.aon.cause.toNat)
  | 0x08 => .word d.pairs.modeReq.committed
  | 0x0C => .word (~~~d.pairs.modeReq.committed)
  | 0x10 => .word d.modeStatus
  | 0x14 => .word d.sys.cpairErr
  | 0x18 => .word d.pairs.swrst.committed
  | 0x1C => .word (~~~d.pairs.swrst.committed)
  | 0x20 => .word d.sys.fault
  | 0x24 => .word 0
  | _ => match inTable off 0x30 4 4 with
    | some (n, _) => .nat (d.sys.wdog[Fin.ofNat 4 n]).toNat
    | none => .absent

def Dev.viewAge (d : Dev) (off : Nat) : RegVal :=
  let h := d.jnl.history
  match off with
  | 0x00 => .nat (d.jnl.plan.number % 2 ^ 16 * 2 ^ 16 + bit1 d.age.avsRetry * 64 + bit1 d.age.avsOk * 32 +
      bit1 d.age.eyeBusy * 16 + bit1 d.age.vminBusy * 8 + bit1 d.age.planPending * 4 + bit1 d.jnl.plan.valid * 2 +
      bit1 d.age.replan.isSome)
  | 0x04 => .word 0
  | 0x08 => .nat (d.age.avsRead % 1024 * 2 ^ 16 + d.age.avsTarget % 1024)
  | 0x0C => .nat (d.spn.spb % 1024 * 2 ^ 16 + d.spn.spa % 1024)
  | 0x10 => .lo (BitVec.ofNat 64 (allSpindles.foldl (fun m n =>
      if (d.spn.spindles[n]).st = .retired then m + 2 ^ n.val else m) 0))
  | 0x14 => .hi
  | 0x18 => .nat h.minutes
  | 0x1C => .nat h.sincePlan
  | 0x20 => .nat (h.vmin % 1024)
  | _ =>
    match inTable off 0x40 4 12, inTable off 0x80 4 80, inTable off 0x200 8 12, inTable off 0x300 4 22,
      inTable off 0x380 4 16 with
    | some (n, _), _, _, _, _ =>
      .nat ((d.age.tempMax[Fin.ofNat 12 n] % 65536).toNat * 65536 + (d.age.temp[Fin.ofNat 12 n] % 65536).toNat)
    | _, some (n, _), _, _, _ => .nat (nth d.age.slackMin n 0 % 1024 * 65536 + nth d.age.slack n 0 % 1024)
    | _, _, some (n, o), _, _ => .wide o 0 (BitVec.ofNat 64 (nth h.stress n 0))
    | _, _, _, some (n, _), _ =>
      let e := nth h.eyes n (0, 0, 0, 0)
      .nat (e.1 % 256 + e.2.1 % 256 * 2 ^ 8 + e.2.2.1 % 256 * 2 ^ 16 + e.2.2.2 % 256 * 2 ^ 24)
    | _, _, _, _, some (n, _) => .nat ((nth h.currents n (0, 0)).2 % 2 ^ 20)
    | _, _, _, _, _ => .absent

/-- WHL_STATEn. -/
def Whl.stateWord (w : Whl) (n : Nat) : Word :=
  if n = 0 then 0x3005
  else
    let v := w.servo[servoIx n]
    BitVec.ofNat 32 (v.steps % 2 ^ 16 * 2 ^ 16 + w.quality n % 256 * 2 ^ 8 + (w.cfgOf n).source % 16 * 16 + v.st.code)

/-- WHL_SAQ_CTRL to WHL_SAQ_LATECOUNT of a master. -/
def SaqRegs.view (r : SaqRegs) (off : Nat) : RegVal :=
  match off with
  | 0x800 => .word r.sel
  | 0x804 => .word 0
  | 0x810 => .word r.ctrl
  | 0x814 => .lo (r.dueHi ++ r.dueLo)
  | 0x818 => .hi
  | 0x81C => .word r.dueNs
  | 0x820 => .lo (r.periodHi ++ r.periodLo)
  | 0x824 => .hi
  | 0x828 => .word r.arg0
  | 0x82C => .lo (r.arg2 ++ r.arg1)
  | 0x830 => .hi
  | 0x834 => .word r.lateness
  | 0x838 => .word r.lateCount
  | _ => .absent

/-- Words of the group that a master latched by reading WHL_SECn_LO (12 R411), zero before. -/
def Dev.groupWord (d : Dev) (m : Master) (n k : Nat) : Word :=
  match d.bus.groups.find? fun g => decide (g.1 = m) && decide (g.2.1 = n) with
  | some g => nth g.2.2 k 0
  | none => 0

def Dev.viewWhl (d : Dev) (m : Master) (off : Nat) : RegVal :=
  let w := d.whl
  if off = 0x808 then .word w.saqResult
  else if 0x800 ≤ off then (w.saqRegs[m.ix]).view off
  else
    match inTable off 0x100 0x40 6, inTable off 0x400 4 24 with
    | some (n, o), _ =>
      let v := w.servo[servoIx n]
      match o with
      | 0x00 => .word (nth (timeWords (w.timeNow n)) 0 0)
      | 0x04 => .word (d.groupWord m n 1)
      | 0x08 => .word (d.groupWord m n 2)
      | 0x0C => .word (d.groupWord m n 3)
      | 0x10 => .lo (BitVec.ofNat 64 (if n = 0 then 0x20000000000 else v.inc))
      | 0x14 => .hi
      | 0x18 => .word (w.stateWord n)
      | 0x1C => .word (if n = 0 then 0 else sat32 v.theta)
      | 0x20 => .word (if n = 0 then 0 else sat32 (roundDiv v.integ 65536))
      | 0x24 => .word (if n = 0 then 0 else v.disc)
      | 0x28 | 0x2C => .word 0
      | _ => .absent
    | _, some (k, _) =>
      if k % 4 = 0 then .lo (nth w.snap (k + 1) 0 ++ nth w.snap k 0) else if k % 4 = 1 then .hi else .word (nth w.snap k 0)
    | _, _ =>
      match off with
      | 0x000 => .word 0
      | 0x300 => .lo (BitVec.ofInt 64 w.w6.pos)
      | 0x308 => .word (sat32 (w.w6.velocity w.tim / 65536))
      | 0x30C => .word w.w6.errs
      | 0x310 => .lo (BitVec.ofInt 64 w.w6.z)
      | 0x318 => .word w.w6.index
      | 0x320 => .lo d.pairs.w6.committed
      | 0x328 => .lo (~~~d.pairs.w6.committed)
      | 0x304 | 0x314 | 0x324 | 0x32C | 0x464 | 0x46C => .hi
      | 0x380 => .word w.w7.phase
      | 0x384 => .word w.w7.turn
      | 0x388 => .nat (bit1 w.w7.coasting * 2 + bit1 w.w7.locked)
      | 0x38C | 0x390 => .word 0
      | 0x460 => .lo w.snap6
      | 0x468 => .lo w.snap7
      | _ => .absent

/-- The R492 payload as 12 words. -/
def auditBytes (t : AuditToken) : List Byte :=
  le 4 t.lap ++ le 1 t.segment ++ le 1 t.refLayout ++ le 2 t.silent ++ le 4 t.refGen ++ le 4 t.layoutMismatch ++
    le 8 t.refDigest.toNat ++ le 4 t.nodes ++ le 4 t.mismatch ++ le 4 t.lowest ++ le 4 t.minGen ++ le 4 t.maxGen ++
    le 4 t.lowestLayout

/-- Word `k` of a byte layout. -/
def wordAt (bs : List Byte) (k : Nat) : Word := BitVec.ofNat 32 (fromLe ((bs.drop (4 * k)).take 4))

/-- The tally of R486. -/
def Tally.bytes (t : Tally) : List Byte :=
  le 4 t.reached ++ le 4 t.acked ++ le 4 t.lowest ++ le 1 t.code ++ le 1 t.detail ++ le 2 t.missed

/-- A late-error entry (R479). -/
def LateErr.bytes (e : LateErr) : List Byte :=
  [e.tag] ++ le 1 e.code.toNat ++ [e.detail] ++ le 1 e.master ++ le 2 e.node.toNat ++ le 2 0 ++ le 4 e.addr.toNat ++
    le 4 e.ns.toNat

/-- The device is head of the segment of its ring A (13 R456). -/
def Skn.headA (k : Skn) : Bool := decide (k.pins[0] ≠ 0xFFFF) && decide ((k.pins[0]).toNat % 256 = 0)

def Dev.viewSkn (d : Dev) (off : Nat) : RegVal :=
  let k := d.skn
  let node (r : Fin 2) : RegVal :=
    .nat (((k.ids[r]).map BitVec.toNat).getD 0 + bit1 k.enumd[r] * 2 ^ 16 + bit1 (decide (k.pins[r] ≠ 0xFFFF)) * 2 ^ 17)
  match inTable off 0 4 16, inTable off 0x80 0x10 4, inTable off 0x110 4 4, inTable off 0x200 4 64,
    inTable off 0x300 4 4, inTable off 0x400 4 12 with
  | some (n, _), _, _, _, _, _ => .word (k.win[Fin.ofNat 16 n])
  | _, some (n, o), _, _, _, _ =>
    let e := nth k.served n (0, 0, 0, 0)
    match o with
    | 0 => .nat (e.1.toNat + e.2.1.toNat * 2 ^ 16)
    | 4 => .word e.2.2.1
    | 8 => .word (loWord e.2.2.2)
    | _ => .word (hiWord e.2.2.2)
  | _, _, some (n, _), _, _, _ => .word (wordAt k.bcResult.bytes n)
  | _, _, _, some (n, _), _, _ => .word (k.bcData[Fin.ofNat 64 n])
  | _, _, _, _, some (n, _), _ =>
    .word (match d.lay.staged with
      | some (id, g) => nth [BitVec.ofNat 32 id, 0, loWord g, hiWord g] n 0
      | none => 0)
  | _, _, _, _, _, some (n, _) => .word (match k.lapDone with | some (_, t) => wordAt (auditBytes t) n | none => 0)
  | _, _, _, _, _, _ =>
    match off with
    | 0x40 => .nat (bit1 k.leqUnder * 2 ^ 31 + bit1 k.leq.isEmpty * 2 ^ 30 + bit1 k.leqOvf * 2 ^ 29 +
        k.leq.length * 2 ^ 16 + k.leqDiscarded)
    | 0x44 | 0x48 | 0x4C => .word (match k.leq with | e :: _ => wordAt e.bytes ((off - 0x44) / 4) | [] => 0)
    | 0x60 => .nat (bit1 k.rescueValid * 2 ^ 31 + bit1 k.rescueOvf * 2 ^ 30 + k.rescueCount % 2 ^ 16 * 2 ^ 8 + k.rescueLen)
    | 0x64 => .nat k.rescueNode.toNat
    | 0x68 => .word k.rescueAddr
    | 0x6C => .lo k.rescueData
    | 0x70 => .hi
    | 0xC0 => node 0
    | 0xC4 => node 1
    | 0xC8 => .nat ((if k.junction then 2 else if k.headA then 1 else 0) + bit1 (!k.junction) * 4)
    | 0xCC => .nat (bit1 (k.ports[0]).up + bit1 (k.ports[1]).up * 2 + bit1 (k.ports[2]).up * 4 +
        bit1 (k.ports[3]).up * 8 + bit1 k.retimerSeen * 16)
    | 0xD0 => .nat (k.count[0] + k.count[1] * 2 ^ 16)
    | 0xE0 => .word d.pairs.sknPinA.committed
    | 0xE4 => .word (~~~d.pairs.sknPinA.committed)
    | 0xE8 => .word d.pairs.sknPinB.committed
    | 0xEC => .word (~~~d.pairs.sknPinB.committed)
    | 0x100 => .word k.bcDest
    | 0x104 => .word k.bcAddr
    | 0x108 => .word k.bcLen
    | 0x10C => .word 0
    | 0x120 => .nat (bit1 k.bcBusy + bit1 k.bcDone * 2 + bit1 k.bcTimeout * 4)
    | _ => if 0x320 ≤ off ∧ off < 0x340 then .word 0 else .absent

def Dev.viewNvm (d : Dev) (off : Nat) : RegVal :=
  match off with
  | 0x00 => .nat ((d.nvm.codes[1]).toNat * 2 ^ 12 + (d.nvm.codes[0]).toNat * 2 ^ 8 + d.nvm.booted.toNat)
  | 0x10 => .word d.pairs.nvmPin.committed
  | 0x14 => .word (~~~d.pairs.nvmPin.committed)
  | 0x20 => .fields (match d.nvm.session with | some x => [x.length, bit1 x.pinNew] | none => [])
  | 0x24 => .fields [d.nvm.status.code]
  | 0x28 => .word d.nvm.offset
  | 0x2C => .word 0
  | _ => .absent

/-- Scan list as eight bytes, 0xFF beyond the count (14 R500). -/
def ConvCfg.scanWord (c : ConvCfg) : DWord := BitVec.ofNat 64 (fromLe ((List.range 8).map fun j => BitVec.ofNat 8 (nth c.scan j 0xFF)))

/-- Input masks SNS_ABOVE and SNS_BELOW. -/
def Sns.mask (s : Sns) (f : SenseIn → Bool) : Nat :=
  (List.finRange 24).foldl (fun m k => if f s.inp[k] then m + 2 ^ k.val else m) 0

/-- Seconds and nanoseconds words of a W0 time. -/
def secWord (ns : Nat) : Word := BitVec.ofNat 32 (ns / 1000000000)
def nsWord (ns : Nat) : Word := BitVec.ofNat 32 (ns % 1000000000)

def Dev.viewSns (d : Dev) (off : Nat) : RegVal :=
  let s := d.sns
  match inTable off 0x40 0x20 4, inTable off 0xC0 4 4, inTable off 0x100 0x10 4, inTable off 0x200 4 24,
    inTable off 0x300 8 24 with
  | some (n, o), _, _, _, _ =>
    let c := s.conv[Fin.ofNat 4 n]
    match o with
    | 0x00 | 0x08 => .word c.res
    | 0x0C => .word c.dmaNs
    | 0x10 => .word (secWord c.ts)
    | 0x14 => .word (nsWord c.ts)
    | 0x18 => .word (secWord c.cts)
    | 0x1C => .word (nsWord c.cts)
    | _ => .absent
  | _, some (n, _), _, _, _ =>
    let c := s.conv[Fin.ofNat 4 n]
    .nat (bit1 c.busy * 2 ^ 31 + bit1 (c.cfg.lockedW7 && decide (c.cfg.mode ≠ 0) && !d.whl.w7.locked) * 2 ^ 30 + c.settle % 4 * 2 ^ 28 + c.ignored % 2 ^ 16)
  | _, _, some (n, o), _, _ =>
    let v := s.conv[Fin.ofNat 4 n]
    let c := v.next.getD v.cfg
    match o with
    | 0x0 => .nat (c.mode + bit1 c.lockedW7 * 4 + c.turns * 2 ^ 8 + (c.scan.length - 1) * 2 ^ 16)
    | 0x4 => .nat c.period
    | 0x8 => .lo v.scanRaw
    | _ => .hi
  | _, _, _, some (n, _), _ =>
    let v := s.inp[Fin.ofNat 24 n]
    let c := v.next.getD v.cfg
    .nat (c.gain + c.pull * 4 + c.actions * 16 + (if 3 < c.startConv then 7 else c.startConv) * 2 ^ 8 + c.openThr * 2 ^ 16)
  | _, _, _, _, some (n, o) =>
    let p := d.pairs.win[Fin.ofNat 24 n]
    .word (if o = 0 then p.committed else ~~~p.committed)
  | _, _, _, _, _ =>
    match off with
    | 0x00 => .word 0
    | 0xD0 => .nat s.trip.toNat
    | 0xD4 => .nat ((List.finRange 16).foldl (fun m p => m + min 3 s.trips[p] * 4 ^ p.val) 0)
    | 0xD8 => .nat (s.mask SenseIn.above)
    | 0xDC => .nat (s.mask SenseIn.below)
    | _ => .absent

/-- DMA_STATn. -/
def Chan.stat (c : Chan) : Nat :=
  bit1 c.err * 2 ^ 17 + bit1 c.done * 2 ^ 16 + c.code % 16 * 2 ^ 8 + bit1 c.backward * 16 + bit1 c.dir * 8 + c.st.code

/-- PACE of a channel. -/
def Chan.pace (c : Chan) : Nat := c.ctrl.toNat / 64 % 8

/-- A channel is ready for service: active and software-started, or paced with its request asserted (15 R522). -/
def Dev.chanReady (d : Dev) (k : Fin 8) : Bool :=
  let c := d.dma.ch[k]
  (decide (c.st = .active) && decide (c.pace = 0)) ||
    (decide (c.st = .armed ∨ c.st = .active) && decide (1 ≤ c.pace) && decide (c.pace ≤ 4) &&
      (d.sns.conv[Fin.ofNat 4 (c.pace - 1)]).res.getLsbD 31)

def Dev.viewDma (d : Dev) (off : Nat) : RegVal :=
  match inTable off 0 0x100 8 with
  | some (n, o) =>
    let c := d.dma.ch[Fin.ofNat 8 n]
    match o with
    | 0x00 => .word c.src
    | 0x04 => .word c.dst
    | 0x08 => .word c.len
    | 0x0C => .word c.ctrl
    | 0x10 => .word 0
    | 0x14 => .nat c.stat
    | 0x18 => .nat c.remain
    | 0x1C => .word c.errAddr
    | _ => .absent
  | none =>
    match off with
    | 0x800 => .nat (bit1 d.dma.rescueValid * 2 ^ 31 + bit1 d.dma.rescueOvf * 2 ^ 30 + d.dma.rescueCh * 2 ^ 16 + d.dma.rescueCount)
    | 0x804 => .word d.dma.rescueAddr
    | 0x808 => .lo d.dma.rescueData
    | 0x80C => .hi
    | 0x810 => .nat (d.dma.ovfCount * 2 ^ 16 + d.dma.startIgn)
    | 0x814 => .nat ((List.finRange 8).foldl (fun m k => if d.chanReady k then m + 2 ^ (4 + k.val) else m) 0 +
        bit1 d.dma.serving.isSome * 8 + (d.dma.serving.map Fin.val).getD 0)
    | _ => .absent

def Dev.viewChk (d : Dev) (off : Nat) : RegVal :=
  match inTable off 0 0x40 24 with
  | some (n, o) =>
    let u := d.chk[Fin.ofNat 24 n]
    match o with
    | 0x00 => .word u.cfg
    | 0x08 => .lo u.poly
    | 0x10 => .lo u.init
    | 0x18 => .lo u.xorOut
    | 0x28 => .lo u.result
    | 0x0C | 0x14 | 0x1C | 0x2C => .hi
    | 0x20 | 0x24 => .word 0
    | 0x30 => .nat (u.errors * 2 ^ 24 + u.repeats * 2 ^ 16 + u.lost)
    | 0x34 => .nat (bit1 u.foreign * 4 + bit1 u.config * 2 + bit1 u.baseline)
    | 0x38 => .nat (u.preset * 2 ^ 8 + u.user)
    | _ => .absent
  | none => .absent

/-- The R127 counters in the order of the register map (log 17). -/
def CrlErrs.words (e : CrlErrs) : List Word :=
  [e.hdrCorrected, e.hdrUncorrectable, e.crc, e.code, e.openPacket, e.gap, e.controlCrc, e.aborted,
   e.unknown, e.unmapped]

def Dev.viewCrl (d : Dev) (p : PortNo) (off : Nat) : RegVal :=
  let x := d.ports[p]
  match inTable off 0x48 4 8 with
  | some (k, _) => .word (x.reqEntries[Fin.ofNat 8 k])
  | none =>
    match off with
    | 0x40 => .word x.reqCtl
    | 0x44 => .word x.reqTarget
    | 0x68 => .word 0
    | _ =>
      if 0x10 ≤ off ∧ off < 0x38 then .word (nth x.errs.words ((off - 0x10) / 4) 0)
      else if off % 4 ≠ 0 then .absent
      else if off = 0 then .fields [bit1 (decide (x.step = .trained)), x.step.code, x.rate, x.attempts, bit1 x.locked]
      else if 0x80 ≤ off ∧ off < 0x90 then
        .fields ([x.outstanding.length, x.resends.toNat, x.late.toNat] ++
          (strandsOf p).flatMap fun n => [(d.strands[n]).withheld.toNat, (d.strands[n]).dropped.toNat])
      else if 0xA0 ≤ off ∧ off < 0xB0 then .fields [natOf x.offset, natOf x.delay, natOf x.trim]
      else if 0xC0 ≤ off ∧ off < 0xCC then
        .fields ((match x.working with
          | some c => [c.peaking.toNat, c.gain.toNat, c.dfe1.toNat, c.dfe2.toNat, c.dfe3.toNat]
          | none => []) ++ [x.eyeH, x.eyeV])
      else .absent

/-- CRD_STATUS and CRD_SLOTs: the open frame of every slot and the FIFO overflows; the counts of a slot's newest frame. -/
def Dev.viewCrd (d : Dev) (p : PortNo) (off : Nat) : RegVal :=
  let frame (s : Nat) : Option Frame := (d.strands[strandOf (4 * p.val + s)]).frames.head?
  if off = 0 then
    .fields (((List.range 4).map fun s => match frame s with
      | some f => if f.isOpen then f.num.toNat + 1 else 0
      | none => 0) ++ [(d.card[p]).overflows.toNat])
  else match inTable off 0x100 0x40 4 with
    | some (s, o) =>
      if o % 4 ≠ 0 then .absent
      else match frame s with
        | some f => .fields [o, f.static, f.dynamic, f.flicker, f.padded, f.cut, f.missing,
            (d.strands[strandOf (4 * p.val + s)]).mismatches.toNat]
        | none => .fields [o, 0, 0, 0, 0, 0, 0, (d.strands[strandOf (4 * p.val + s)]).mismatches.toNat]
    | none => .absent

/-- Ready-list depth (07 R239): tiles released and not yet dispatched. -/
def Dev.readyDepth (d : Dev) : Nat :=
  sumN (d.streams.toList.map fun st =>
    sumN (st.frames.map fun f => (f.tiles.filter fun t => decide (t.st = .ready)).length))

def Dev.viewSpn (d : Dev) (off : Nat) : RegVal :=
  match off with
  | 0x00 => .fields [d.spares, d.countSpindles .working, d.readyDepth]
  | 0x04 => .word d.spn.skipped
  | 0x08 => .word d.spn.deadlines
  | 0x0C => .word d.spn.substitutions
  | 0x10 => .word d.spn.fills
  | 0x14 => .word d.sys.decision
  | _ => .absent

def Dev.viewSpindle (d : Dev) (off : Nat) : RegVal :=
  let s := d.spn.spindles[Fin.ofNat 64 (off / 0x400)]
  if off % 0x400 = 0 then .nat (s.lastTrap * 2 ^ 16 + s.quarantines * 2 ^ 8 + s.st.code) else .absent

/-- Registers of the selected queue (09 R321, R322, Register-level consumers). -/
def Dev.viewBob (d : Dev) (q : PoolQ) (off : Nat) : RegVal :=
  match off with
  | 0x00 => .word d.bob.qsel
  | 0x04 => .nat (bit1 q.underrun * 2 ^ 31 + bit1 (q.front 0).isNone * 2 ^ 30 +
      bit1 (regQueue d.bob.sel || q.bound) * 2 ^ 29 + (d.heldQueue d.bob.sel).cells)
  | 0x08 => .nat (match q.front 0 with | some p => p.len | none => 0)
  | 0x10 => .word 0
  | 0x14 => .word d.bob.err
  | 0x20 => .nat (d.heldQueue d.bob.sel).credit
  | 0x24 => .nat d.freeCells
  | 0x28 => .word (d.bob.queue d.bob.sel).exhausted
  | _ => .absent

def Dev.viewFst (d : Dev) (off : Nat) : RegVal :=
  match off with
  | 0x00 => .nat d.fst.bank
  | 0x04 => .word d.fst.rsel
  | 0x08 => .fields [assocGet d.fst.bases d.fst.rsel.toNat 0]
  | 0x20 => .fields [d.fst.passes.toNat, bit1 d.fst.hot]
  | _ => match inTable off 0x10 4 4 with
    | some (k, _) => .word (d.fst.ecc[Fin.ofNat 4 k])
    | none => .absent

def Dev.viewPly (d : Dev) (off : Nat) : RegVal :=
  let p := d.ply
  match off with
  | 0x00 => .nat (p.replayRun * 2 ^ 20 + p.st.code * 2 ^ 16 + p.rate * 2 ^ 12 + p.count * 2 ^ 8 +
      (bitsOf 8 p.map.toNat).length)
  | 0x04 => .word (p.retraining ++ p.lockedMask ++ p.up ++ p.map)
  | 0x08 => .nat (p.nextSeq - 1).toNat
  | 0x0C => .nat p.acked.toNat
  | 0x10 => .nat p.buffer.length
  | 0x14 => .lo (BitVec.ofNat 64 (fromLe p.downReason.toList))
  | 0x18 | 0x44 | 0x4C => .hi
  | 0x40 => .lo p.shedStreams
  | 0x48 => .lo (p.shedRec ||| d.hnk.unplaced)
  | 0x50 => .nat (p.healthSeq - 1)
  | 0x60 => .word 0
  | _ => match inTable off 0x20 4 5 with
    | some (k, _) => .word (p.counts[Fin.ofNat 5 k])
    | none => .absent

/-- TST_LANE_CTRLn. -/
def TestLane.ctrl (l : TestLane) : Nat :=
  l.loop.toNat * 2 ^ 8 + l.pattern.toNat * 16 + bit1 l.invert * 4 + bit1 l.chkEn * 2 +
    bit1 (l.genEn && decide (l.loop ≠ 3))

/-- TST registers; BITS, ERRS and LOSS follow the control word in order (17 R574; log 17). -/
def Dev.viewTst (d : Dev) (off : Nat) : RegVal :=
  match inTable off 0x100 0x20 30 with
  | some (n, o) =>
    let l := d.tst.lanes[Fin.ofNat 30 n]
    match o with
    | 0x00 => .nat l.ctrl
    | 0x04 => .lo (BitVec.ofNat 64 l.snapBits)
    | 0x08 => .hi
    | 0x0C => .nat l.snapErrs
    | 0x10 => .nat l.snapLosses
    | _ => .absent
  | none =>
    match off with
    | 0x10 => .word d.tst.patCtrl
    | 0x14 => .word d.tst.patValue
    | 0x18 => .lo d.tst.patMask
    | 0x1C => .hi
    | 0x20 | 0x24 => .fields (bit1 d.tst.bistRan :: d.tst.bist.toList)
    | _ => .absent

/-- ETH_PTP: port state, master identity and counters; the timestamp queue is read by its own words. -/
def Dev.viewEth (d : Dev) (off : Nat) : RegVal :=
  let p := d.whl.ptp
  if 0x40 ≤ off ∧ off < 0x60 ∧ off % 4 = 0 then
    .fields ([bit1 p.stopped, (p.master.map fun m => m.gmIdentity + 1).getD 0] ++ p.counts.toList.map BitVec.toNat)
  else .absent

/-- HNK_LANEn: strands, suspect count, consecutive mismatches, quarantine, losses. -/
def Dev.viewHnk (d : Dev) (off : Nat) : RegVal :=
  if off < 0x80 ∧ off % 0x20 = 0 then
    let l := d.hnk.lanes[Fin.ofNat 4 (off / 0x20)]
    .fields ([l.suspect, l.mismatches, bit1 l.quarantined, l.losses] ++ l.strands)
  else .absent

end Sys2Proof.Machine
end

