-- ==== Sys2Proof/Machine/RingBase.lean ====
section
/-! DEFINITION. The skein ring below its messages: ports, segments, routing, transactions of the bridge and the late-error
queue (spec/13_skein_ring.md R452 to R465, R474 to R481; 17 R576). -/

namespace Sys2Proof.Machine

/-! ### Interfaces and ports -/

/-- Interface of a port: 0 ring A, 1 ring B. -/
def ringOf (p : Fin 4) : Fin 2 := ⟨p.val / 2, by omega⟩

/-- Port of an interface that sends east or west (R458). -/
def portFor (r : Fin 2) (west : Bool) : Fin 4 := ⟨2 * r.val + (if west then 1 else 0), by split <;> omega⟩

/-- Interface of a flag. -/
def ringIx (b : Bool) : Fin 2 := if b then 1 else 0

/-- Test lane of a ring port (17 R571). -/
def ringLane (p : Fin 4) : Fin 30 := ⟨25 + p.val, by omega⟩

/-- The node takes part on an interface (03 R105, R109, R113). -/
def Dev.ringOn (d : Dev) (r : Fin 2) : Bool := decide (d.aon.tier[r] = .full) && !d.skn.stopped

/-- A message arrives at a port of a node that takes part. -/
def Dev.ringIn (d : Dev) (p : Fin 4) : Bool := d.ringOn (ringOf p) && (d.skn.ports[p]).up

/-- Change a port. -/
def Dev.onRPort (d : Dev) (p : Fin 4) (f : RPort → RPort) : Dev := d.onSkn fun k => { k with ports := upd k.ports p f }

/-- Count a discarded message on a port (R460, R464). -/
def Dev.discardMsg (d : Dev) (p : Fin 4) : Dev := d.onRPort p fun x => { x with discarded := satAdd x.discarded 1 }

/-- Put a message on a port (log 7). -/
def Dev.putMsg (d : Dev) (p : Fin 4) (m : RingMsg) : Dev := d.onSkn fun k => { k with sent := (p, m) :: k.sent }

/-! ### Node IDs and segments -/

def segOf (id : Half) : Nat := id.toNat / 256
def posOf (id : Half) : Nat := id.toNat % 256

/-- Node ID on an interface, 0xFFFF while it has none; a dual node uses that of ring A (R453). -/
def Dev.nodeId (d : Dev) (r : Fin 2) : Half :=
  if d.skn.junction ∧ r = 1 then (d.skn.ids[1]).getD 0xFFFF else ((d.skn.ids[0]).orElse fun _ => d.skn.ids[1]).getD 0xFFFF

/-- The ID addresses this device (R453). -/
def Dev.isMe (d : Dev) (id : Half) : Bool := decide (d.skn.ids[0] = some id) || decide (d.skn.ids[1] = some id)

/-- Parent segment and junction position of a segment (R454). -/
def Dev.segEntry (d : Dev) (s : Nat) : Nat × Nat := nth ((d.img.map fun i => i.ring).getD RingCfg.rom).segments s (0xFF, 0)

/-- A segment is used. -/
def Dev.segUsed (d : Dev) (s : Nat) : Bool := decide (s = 0) || decide ((d.segEntry s).1 ≠ 0xFF)

/-- The child of segment `c` whose subtree holds segment `s`, looked for over at most `fuel` parents. -/
def Dev.childTo (d : Dev) (c : Nat) : (fuel s : Nat) → Option Nat
  | 0, _ => none
  | fuel + 1, s =>
    let p := (d.segEntry s).1
    if s = 0 ∨ p = 0xFF then none else if p = c then some s else d.childTo c fuel p

/-- Segment `s` is `c` or lies in its subtree. -/
def Dev.inSubtree (d : Dev) (c s : Nat) : Bool := decide (s = c) || (d.childTo c 256 s).isSome

/-- Position in the segment of interface `r` to which a message for `dest` is routed first (R465). -/
def Dev.targetPos (d : Dev) (r : Fin 2) (dest : Half) : Nat :=
  let c := segOf (d.nodeId r)
  if segOf dest = c then posOf dest
  else match d.childTo c 256 (segOf dest) with
    | some ch => (d.segEntry ch).2
    | none => 0

/-- Direction with fewer hops to a position, east on a tie (R464). -/
def Dev.goesWest (d : Dev) (r : Fin 2) (target : Nat) : Bool :=
  let n := d.skn.count[r]
  let pos := posOf (d.nodeId r)
  decide ((pos + n - target) % n < (target + n - pos) % n)

/-- Interface on which the device sends to `dest` (R464, R465); `wantB` is RING_B of a window (R470). -/
def Dev.ringTo (d : Dev) (dest : Half) (wantB : Bool) : Fin 2 :=
  let k := d.skn
  if k.junction then (if d.inSubtree (segOf (d.nodeId 1)) (segOf dest) then 1 else 0)
  else if wantB || !k.enumd[0] || (!(k.ports[0]).up && !(k.ports[1]).up) then 1 else 0

/-- NODE_ABSENT at the source (R475). -/
def Dev.absent (d : Dev) (r : Fin 2) (dest : Half) : Bool :=
  !d.skn.enumd[r] || !d.ringOn r || !d.segUsed (segOf dest) ||
    (decide (segOf dest = segOf (d.nodeId r)) && decide (d.skn.count[r] ≤ posOf dest))

/-! ### Forwarding -/

/-- Send a message on an interface in its direction; a down port reverses it once (R464). -/
def Dev.sendMsg (d : Dev) (r : Fin 2) (m : RingMsg) : Dev :=
  let p := portFor r m.west
  let q := portFor r (!m.west)
  if (d.skn.ports[p]).up then d.putMsg p m
  else if m.wrapped then d.discardMsg p
  else if (d.skn.ports[q]).up then d.putMsg q { m with west := !m.west, wrapped := true, hops := 0 }
  else d.discardMsg q

/-- Forward a message that arrived at a port (R463, R464). -/
def Dev.forward (d : Dev) (p : Fin 4) (m : RingMsg) : Dev :=
  if 255 ≤ m.hops + 1 then d.discardMsg p else d.sendMsg (ringOf p) { m with hops := m.hops + 1 }

/-- Originate a message on an interface with the direction to its destination (R464, R465). -/
def Dev.originate (d : Dev) (r : Fin 2) (m : RingMsg) : Dev :=
  d.sendMsg r { m with west := d.goesWest r (d.targetPos r m.dest), wrapped := false, ringB := decide (r = 1), hops := 0,
                       src := d.nodeId r }

/-- Answer a message on the interface it arrived on (R464). -/
def Dev.reply (d : Dev) (r : Fin 2) (m : RingMsg) (mtype : Byte) (code : BitVec 4) (detail : Byte) (payload : List Byte) :
    Dev :=
  d.originate r { m with mtype := mtype, dest := m.src, len := payload.length, code := code.zeroExtend 8, detail := detail,
                         payload := payload }

/-- Message types whose absence a junction answers (R475). -/
def isRequest (m : RingMsg) : Bool := decide (m.mtype = 1 ∨ m.mtype = 2 ∨ m.mtype = 3 ∨ m.mtype = 8)

/-- Pass on a unicast message that is not addressed to this device: a junction moves it to its other interface, its hop
count restarting at 0 and nothing else changed (R465), or answers NODE_ABSENT for an unenumerated child (R475). -/
def Dev.passOn (d : Dev) (p : Fin 4) (m : RingMsg) : Dev :=
  let r := ringOf p
  let child := segOf (d.nodeId 1)
  let s := segOf m.dest
  let cross : Bool := d.skn.junction && decide (s ≠ segOf (d.nodeId r)) &&
    (if r = 0 then d.inSubtree child s else !d.inSubtree child s)
  if cross then
    if r = 0 ∧ !d.skn.enumd[1] then
      if isRequest m then d.reply 0 m (if m.mtype = 3 then 6 else 4) 1 0 [] else d.discardMsg p
    else d.sendMsg (if r = 0 then 1 else 0) { m with hops := 0 }
  else d.forward p m

/-! ### Port state (R458, R466) -/

/-- A port changes state: the head of its segment learns it by LINK_EVENT (R466), or notes it when it is this device. -/
def Dev.linkChanged (d : Dev) (p : Fin 4) (up : Bool) : Dev :=
  let r := ringOf p
  let id := d.nodeId r
  if !d.ringOn r ∨ id = 0xFFFF then d
  else if posOf id = 0 then d.onSkn fun k => { k with enumDue := upd k.enumDue r fun _ => true }
  else
    d.originate r
      { mtype := 0x19, west := false, wrapped := false, ringB := false, hops := 0, tag := 0,
        dest := BitVec.ofNat 16 (segOf id * 256), src := 0, addr := 0, len := 2, code := 0, detail := 0,
        payload := [BitVec.ofNat 8 p.val, if up then 1 else 0] }

/-- A port goes down: reported as RING (16 R551). -/
def Dev.ringDown (d : Dev) (p : Fin 4) : Dev :=
  if (d.skn.ports[p]).up then
    ((d.onRPort p fun x => { x with up := false, ldlyT1 := none, delays := [] }).raise 21 p.val 0).linkChanged p false
  else d

/-! ### Transactions (R474 to R481) -/

/-- Transactions of a master that are outstanding. -/
def Skn.outstanding (k : Skn) (m : Master) : Nat := (k.txns.filter fun t => decide (t.master = m) && !t.dead).length

/-- Tag of a master and slot (R461). -/
def tagOf (m : Master) (slot : Nat) : Byte := BitVec.ofNat 8 (m.ix.val % 8 * 32 + slot)

/-- The lowest slot no transaction uses, else the lowest whose requester has gone (log 33). -/
def Skn.freeTag (k : Skn) (m : Master) : Byte :=
  let used (s : Nat) : Bool := k.txns.any fun t => decide (t.tag = tagOf m s)
  let gone (s : Nat) : Bool := k.txns.any fun t => decide (t.tag = tagOf m s) && t.dead
  match (List.range 32).find? fun s => !used s with
  | some s => tagOf m s
  | none => tagOf m (((List.range 32).find? gone).getD 0)

/-- Message of a transaction (R462). -/
def Txn.msg (t : Txn) : RingMsg :=
  { mtype := if t.write then (if t.posted then 3 else 2) else 1, west := false, wrapped := false, ringB := t.ringB, hops := 0,
    tag := t.tag, dest := t.node, src := 0, addr := t.addr, len := t.len, code := 0, detail := 0,
    payload := t.data }

/-- Log a late error (R479) and count it for the master's fence (R480). -/
def Dev.logLate (d : Dev) (t : Txn) (code : BitVec 4) (detail : Byte) : Dev :=
  let e : LateErr := ⟨t.tag, code, detail, t.master.ix.val, t.node, t.addr, BitVec.ofNat 32 (d.w0 % 1000000000)⟩
  d.onSkn fun k =>
    let k1 := { k with postedFails := assocSet k.postedFails t.master (satNat 0xFFFF (assocGet k.postedFails t.master 0 + 1)) }
    if 16 ≤ k.leq.length then { k1 with leqOvf := true, leqDiscarded := satNat 0xFFFF (k.leqDiscarded + 1) }
    else { k1 with leq := k.leq ++ [e] }

/-- A request failed at its requester: a bus error with the failing far address and direction; later requests of its burst
that still wait are not issued (R471, R475). -/
def Dev.failTxn (d : Dev) (t : Txn) (code : BitVec 4) (detail : Byte) : Dev :=
  let d1 := d.onSkn fun k => { k with stalled := k.stalled.filter fun x => decide (x.burst ≠ t.burst) }
  if t.posted then d1.logLate t code detail
  else (d1.answer ⟨t.master, 0, 0⟩ code detail 0).onBus fun b => { b with ringFail := some (t.addr, t.write) }

/-- Issue a transaction: NODE_ABSENT at once, or its message goes out (R464, R474, R475). A ring that has stayed
unenumerated is reported (R456). -/
def Dev.issueTxn (d : Dev) (t : Txn) : Dev :=
  let r := d.ringTo t.node t.ringB
  if d.absent r t.node then (if d.skn.enumd[r] then d else d.raise 21 r.val 0).failTxn t 1 0
  else
    let t1 := { t with tag := d.skn.freeTag t.master }
    (d.onSkn fun k => { k with txns := (k.txns.filter fun x => decide (x.tag ≠ t1.tag)) ++ [t1] }).originate r t1.msg

/-- Issue what waits, oldest first, as far as slots allow. -/
def Dev.issueStalled (d : Dev) : Dev :=
  d.skn.stalled.foldl (fun e t =>
    if e.skn.outstanding t.master < 32 ∧ t ∈ e.skn.stalled then
      (e.onSkn fun k => { k with stalled := k.stalled.erase t }).issueTxn t
    else e) d

/-- A posted write of the master is outstanding (R480). -/
def Skn.postedOpen (k : Skn) (m : Master) : Bool :=
  k.txns.any (fun t => decide (t.master = m) && t.posted && !t.dead) ||
    k.stalled.any fun t => decide (t.master = m) && t.posted

end Sys2Proof.Machine
end

