-- ==== Sys2Proof/Machine/Exposure.lean ====
section
/-! DEFINITION. Exposure control: write windows, requests, the write log and the reports (05_strands_exposure.md R180 to
R196, R633; 18 R636). Times are W0 ns. -/

namespace Sys2Proof.Machine

/-- a is later than b modulo 2^32 (R166). -/
def later (a b : Word) : Bool := decide (1 ≤ (a - b).toNat) && decide ((a - b).toNat < 2 ^ 31)

/-- Exposure count E of a strand. -/
def Dev.expCount (d : Dev) (n : StrandNo) : Nat := (d.profile n.val).exposures

/-- The period P of R182 in ns, rounded down (log 20). -/
def Dev.periodOf (d : Dev) (n : StrandNo) : Nat :=
  let g := d.strands[n]
  if 8 ≤ g.starts.length then 2 * (nth g.starts 0 0 - nth g.starts 7 0) / 7 else (d.profile n.val).period

/-- The row time r of R182 in ns; before a frame has ended the nominal period over the active height (log 20). -/
def Dev.rowTime (d : Dev) (n : StrandNo) : Nat :=
  let g := d.strands[n]
  let q := d.profile n.val
  if g.rowSpan = 0 then q.period / q.height else 2 * g.rowSpan / q.height

/-- S(G) of R183: the start of frame G where it has arrived, else a prediction from the latest start. -/
def Dev.startOf (d : Dev) (n : StrandNo) (f : Word) : Int :=
  let g := d.strands[n]
  match g.frames.find? fun x => decide (x.num = f) with
  | some x => (2 * x.start : Nat)
  | none => ((match g.starts with | t :: _ => 2 * t | [] => d.w0 : Nat) : Int) + (f - g.frameNo).toInt * d.periodOf n

/-- Opening and closing of the write window of frame G (R183). -/
def Dev.windowOpens (d : Dev) (n : StrandNo) (f : Word) : Int := d.startOf n f + (d.profile n.val).winFirst * d.rowTime n
def Dev.windowCloses (d : Dev) (n : StrandNo) (f : Word) : Int :=
  d.startOf n f + ((d.profile n.val).winLast + 1) * d.rowTime n

/-- Write latency L as a frame count. -/
def Dev.latency (d : Dev) (n : StrandNo) : Word := BitVec.ofNat 32 (d.profile n.val).latency

/-- The target frame under R184 for a request that arrives now: F, or F' with the retarget mark. -/
def Dev.targetFor (d : Dev) (n : StrandNo) (f : Word) : Word × Bool :=
  let limit : Int := (d.w0 + 200000 : Nat)
  if limit ≤ d.windowCloses n (f - d.latency n) then (f, false)
  else
    let latest := (d.strands[n]).frameNo
    let gap := limit - d.windowCloses n latest
    let p : Int := d.periodOf n
    let k : Nat := if gap ≤ 0 then 0 else ((gap + p - 1) / p).toNat
    (latest + BitVec.ofNat 32 k + d.latency n, true)

/-- Clamp one entry to the limits (R186): the value and whether it changed. -/
def ExpLimits.clamp (l : ExpLimits) (e : Exposure) : Exposure × Bool :=
  let c : Exposure := ⟨max l.minInt (min l.maxInt e.integ), min l.maxAgain e.again, min l.maxDgain e.dgain⟩
  (c, decide (c ≠ e))

/-- Apply named entries to the last requested values (R181, R186): all E values, and the CLAMPED bit. -/
def Dev.namedValues (d : Dev) (n : StrandNo) (named : List (Nat × Exposure)) : List Exposure × Bool :=
  let q := d.profile n.val
  let old := (d.strands[n]).requested
  let base := (List.range q.exposures).map fun i => nth old i ⟨0, 0, 0⟩
  named.foldl (fun (acc : List Exposure × Bool) p =>
    if p.1 < q.exposures then
      let c := q.limits.clamp p.2
      (acc.1.set p.1 c.1, acc.2 || c.2)
    else (acc.1, true)) (base, false)

/-- Report a result (R189): to core 0's queue of 32 (18 R636), or to the sink through the health packet. -/
def Dev.reportReq (d : Dev) (n : StrandNo) (internal : Bool) (tag : Half) (code : Byte) (named frame : Word) : Dev :=
  if internal then
    d.onPort (portOf n) fun p =>
      if p.results.length < 32 then { p with results := p.results ++ [⟨tag, code, frame⟩] } else { p with resultOvf := true }
  else d.onPly fun p => { p with results := p.results ++ [(n.val, code, named, frame)] }

/-- Report a request of a strand with a code and the frame it targets. -/
def Dev.reportTarget (d : Dev) (n : StrandNo) (r : ExpReq) (code : Byte) : Dev :=
  d.reportReq n r.internal r.tag code r.named r.target

/-! ### The write log -/

/-- The write whose values hold from frame `num` on (R187, R190): the last applied one for it, else for the latest frame after
`prev` that was passed over. -/
def Strand.appliedWrite (g : Strand) (prev num : Word) : Option WriteRec :=
  (g.writeLog.filter fun x => x.applied && later x.frame prev && !later x.frame num).foldl
    (fun (b : Option WriteRec) x => match b with
      | some y => if later x.frame y.frame then some x else some y
      | none => some x) none

/-- The write log at frame `num` (R190): the values written for it, else those applied to the previous frame `prev`. -/
def Strand.logAt (g : Strand) (prev num : Word) : List Exposure := (g.appliedWrite prev num).elim g.applied WriteRec.values

/-- Exposure flags of the frame `num`, and whether the strand has converged with it (R192, R195; 03 R92). -/
def Strand.exposureFlags (g : Strand) (prev num : Word) : Word × Bool :=
  let w := g.appliedWrite prev num
  let done := !g.unconverged || w.any fun r => r.sink
  ((if done then 0 else if g.seeded then flagSeeded else flagUnseeded) |||
    flagIf (w.any fun r => r.retargeted) flagRetargeted, done)

/-- Number of the frame before the newest one, 0 for the first. -/
def Strand.prevNum (g : Strand) : Word := match g.frames with | _ :: f :: _ => f.num | _ => 0

/-- The newest frame takes its entries and exposure flags from the write log again, while it is open and no issue of its record
has left (01 R17; a write latency of 0 reaches the frame in progress, log 20). -/
def Strand.refreshOpen (g : Strand) (e : Nat) : Strand :=
  match g.frames with
  | f :: fs =>
    if f.isOpen ∧ !f.issued then
      let keep := f.flags &&& ~~~(flagSeeded ||| flagUnseeded ||| flagRetargeted ||| flagMismatch)
      let es := (g.logAt g.prevNum f.num).take e
      { g with frames := { f with
          opening := es,
          flags := keep ||| (g.exposureFlags g.prevNum f.num).1 |||
            flagIf (f.readback.any fun r => decide (r ≠ es)) flagMismatch } :: fs }
    else g
  | [] => g

/-- Send the write sequence of a request (R188): the writes go out, and the write log takes the values as the sensor
holds them (`Config.sensorRound`, log 8). -/
def Dev.sendWrite (d : Dev) (n : StrandNo) (r : ExpReq) : Dev :=
  let id := (d.profile n.val).id
  (d.bcSend (portOf n) (.expWrite (slotOf n) r.target r.entries)).onStrand n fun g =>
    ({ g with
      writeLog := ⟨r.target, r.entries.map (Config.sensorRound id), r.retargeted, !r.internal, true⟩ :: g.writeLog,
      pending := g.pending.map fun x => if x = r then { x with sent := true } else x }).refreshOpen (d.expCount n)

/-- Judge a request under R184, R186 and R187 at this moment, and send its writes when its window is open (R188). A request
that was accepted before a loss of lock keeps its target where it can (R194), and is reported again only when it is retargeted
(R189). -/
def Dev.judgeReq (d : Dev) (n : StrandNo) (r : ExpReq) : Dev :=
  let t := d.targetFor n r.target
  let r1 := { r with target := t.1, retargeted := r.retargeted || t.2, sent := false, judged := true }
  let code : Byte := (if t.2 then 1 else 0) + (if r.clamped then 0x80 else 0)
  let old := (d.strands[n]).pending.filter fun x => decide (x.target = t.1)
  let d1 := old.foldl (fun e x => e.reportTarget n x 2) d
  let d1' := d1.onStrand n fun g => { g with pending := (g.pending.filter fun x => decide (x.target ≠ t.1)) ++ [r1] }
  let d2 := if r.judged && !t.2 then d1' else d1'.reportTarget n r1 code
  if d2.windowOpens n (t.1 - d2.latency n) ≤ (d2.w0 : Int) then d2.sendWrite n r1 else d2

/-- Distinct target frames pending or held (R185, R633). -/
def Strand.targets (g : Strand) : Nat := ((g.pending.map fun r => r.target) ++ g.heldReqs.map fun r => r.target).eraseDups.length

/-- An exposure request arrives (R180, R181, R185, R186, R633). -/
def Dev.arrive (d : Dev) (n : StrandNo) (internal : Bool) (tag : Half) (f : Word) (named : List (Nat × Exposure)) : Dev :=
  let g := d.strands[n]
  let reject (code : Byte) : Dev := d.reportReq n internal tag code f f
  let owner := match d.img with | some i => i.sinkOwner | none => false
  if owner = internal then reject 4
  else if named.isEmpty then reject 7
  else if !d.active n then reject 8
  else if later f g.frameNo ∧ 64 < (f - g.frameNo).toNat then reject 5
  else if 8 ≤ g.targets then reject 6
  else
    let v := d.namedValues n named
    let r : ExpReq := ⟨internal, tag, f, f, v.1, v.2, false, false, false⟩
    let d1 := d.onStrand n fun g => { g with requested := v.1 }
    if g.windowless then d1.onStrand n fun g => { g with heldReqs := g.heldReqs ++ [r] } else d1.judgeReq n r

/-- EXPOSURE_REQ: one message of a return-lane request; the last one closes the assembly (R181).
During a return-lane check it is ignored (17 R577). -/
def exposureReq (n : StrandNo) (index : Fin 4) (last : Bool) (frame : Word) (e : Exposure) (d : Dev) : Dev :=
  if d.tst.rlCheck.isSome then d else
  let old := assocGet (d.strands[n]).assembly frame []
  let all := old ++ [(index.val, e)]
  if last then
    (d.onStrand n fun g => { g with assembly := g.assembly.filter fun x => decide (x.1 ≠ frame) }).arrive n false 0 frame all
  else d.onStrand n fun g => { g with assembly := assocSet g.assembly frame all }

def execExposureReq (n : StrandNo) (index : Fin 4) (last : Bool) (frame : Word) (e : Exposure) (s : State) :
    Host.Outcome State Fault Refusal := .next (s.run (exposureReq n index last frame e))

/-- EXPOSURE_ASSEMBLY_TIMEOUT: an assembly left open for 1 ms is discarded and reported (R181). -/
def exposureAssemblyTimeout (n : StrandNo) (frame : Word) (d : Dev) : Dev :=
  if (d.strands[n]).assembly.any fun x => decide (x.1 = frame) then
    (d.onStrand n fun g => { g with assembly := g.assembly.filter fun x => decide (x.1 ≠ frame) }).reportReq n false 0 7
      frame frame
  else d

def execExposureAssemblyTimeout (n : StrandNo) (frame : Word) (s : State) : Host.Outcome State Fault Refusal :=
  .next (s.run (exposureAssemblyTimeout n frame))

/-- The entries that the request registers of a port name (18 R636). -/
def Port.regEntries (p : Port) : List (Nat × Exposure) :=
  (bitsOf 4 (p.reqCtl.toNat / 16)).map fun i =>
    let a := p.reqEntries[Fin.ofNat 8 (2 * i)]
    let b := p.reqEntries[Fin.ofNat 8 (2 * i + 1)]
    (i, ⟨a.toNat, b.toNat % 65536, b.toNat / 65536⟩)

/-- EXPOSURE_REQUEST_GO: core 0 posts the request that the registers hold; 0 does nothing; another master receives
ADDR_ERR (18 R636). -/
def exposureRequestGo (a : Access) (p : PortNo) (v : Word) (d : Dev) : Dev :=
  d.write a (regAddr (0x100068 + 0x10000 * p.val)) 4 v true fun e =>
    if a.master = .core 0 then
      if v.getLsbD 0 then
        let x := e.ports[p]
        (e.arrive (strandOf (4 * p.val + x.reqCtl.toNat % 4)) true (BitVec.ofNat 16 (x.reqCtl.toNat / 65536)) x.reqTarget
          x.regEntries, Res.ok)
      else (e, Res.ok)
    else (e, Res.addrErr)

def execExposureRequestGo (a : Access) (p : PortNo) (v : Word) (s : State) : Host.Outcome State Fault Refusal :=
  .next (s.run (exposureRequestGo a p v))

/-- A read of CRL_EXPRES: the oldest result is popped and its frame latched for the master (18 R636). -/
def Dev.popExpRes (d : Dev) (m : Master) (p : PortNo) : Dev × Word :=
  let x := d.ports[p]
  let ovf : Word := if x.resultOvf then 0x40000000 else 0
  match x.results with
  | [] => (d.onPort p fun x => { x with resultOvf := false }, ovf)
  | r :: rs =>
    let d1 := (d.onPort p fun x => { x with results := rs, resultOvf := false }).onBus fun b =>
      { b with expFrame := (m, p.val, r.frame) :: b.expFrame.filter fun y => !(decide (y.1 = m) && decide (y.2.1 = p.val)) }
    (d1, 0x80000000 ||| ovf ||| BitVec.ofNat 32 (r.code.toNat * 65536 + r.tag.toNat))

/-- CRL_EXPRES_POP. -/
def crlExpresPop (a : Access) (p : PortNo) (d : Dev) : Dev :=
  if d.released then
    let r := d.popExpRes a.master p
    r.1.answer a 0 0 (r.2.zeroExtend 64)
  else d.answer a 2 0 0

def execCrlExpresPop (a : Access) (p : PortNo) (s : State) : Host.Outcome State Fault Refusal :=
  .next (s.run (crlExpresPop a p))

/-- WRITE_WINDOW_OPEN: the window of frame F − L opens, and the write sequence for F goes out (R188). -/
def writeWindowOpen (n : StrandNo) (frame : Word) (d : Dev) : Dev :=
  match (d.strands[n]).pending.find? fun r => decide (r.target = frame) && !r.sent with
  | some r => d.sendWrite n r
  | none => d

def execWriteWindowOpen (n : StrandNo) (frame : Word) (s : State) : Host.Outcome State Fault Refusal :=
  .next (s.run (writeWindowOpen n frame))

/-- Held requests are judged in order of arrival at the first close (R633). -/
def Dev.judgeHeld (d : Dev) (n : StrandNo) : Dev :=
  let rs := (d.strands[n]).heldReqs
  rs.foldl (fun e r => e.judgeReq n r) (d.onStrand n fun g => { g with heldReqs := [], windowless := false })

/-- Requests whose target frame has closed or been passed over leave the pending list; one whose writes never went out
is reported NOT_APPLIED (R189, R194). -/
def Dev.retire (d : Dev) (n : StrandNo) (num : Word) : Dev :=
  let gone := (d.strands[n]).pending.filter fun r => !later r.target num
  let d1 := (gone.filter fun r => !r.sent).foldl (fun e r => e.reportTarget n r 3) d
  d1.onStrand n fun g => { g with pending := g.pending.filter fun r => later r.target num }

/-- The entries a strand starts with: its accepted seed, else the profile's default (02 R64; 03 R92). -/
def Dev.startExposure (d : Dev) (n : StrandNo) : List Exposure × Bool :=
  let q := d.profile n.val
  let e := nth d.jnl.expSeeds n.val ExpSeed.none
  if e.valid ∧ e.profile = q.id then (e.entries, true) else (q.defaultExp, false)

/-- The warm-up or relock write with the sensor's initialisation (03 R92, R93): it applies from the frame L after the
next frame start (log 20). -/
def Dev.warmWrite (d : Dev) (n : StrandNo) : Dev :=
  let g := d.strands[n]
  let s := d.startExposure n
  let first : Bool := !g.written
  let es := if first then s.1 else (match g.applied with | [] => g.requested | l => l)
  let d1 := d.bcSend (portOf n) (.sensorInit (slotOf n))
  (d1.bcSend (portOf n) (.expWrite (slotOf n) 0 es)).onStrand n fun g =>
    { g with written := true, writtenFrom := 0, warm := some es, inited := true, requested := es, seeded := if first then s.2 else g.seeded }

/-- The settled exposure of a converged strand becomes its seed (02 R63; 05 R195; log 20). -/
def Dev.keepSeed (d : Dev) (n : StrandNo) (es : List Exposure) : Dev :=
  if (d.strands[n]).unconverged then d
  else
    let e : ExpSeed := ⟨true, true, (d.profile n.val).id, es, d.w0 / 1000000000 % 2 ^ 32⟩
    d.onJnl fun j => { j with expSeeds := ((List.range 64).map fun k => nth j.expSeeds k ExpSeed.none).set n.val e }

end Sys2Proof.Machine
end

