-- ==== Sys2Proof/Machine/Triggers.lean ====
section
/-! DEFINITION. Exposure starts, the busy state and distance marks (05_strands_exposure.md R169 to R178; 12 R445 to
R449). The slave timer counts W0 ns, to which SYNC_SET holds it (R144 to R147). -/

namespace Sys2Proof.Machine

/-- Time at which a start falls due: its slave time once a TRIGGER was made for it. -/
def Trig.time (t : Trig) : Nat := if t.slave = 0 then t.due else t.slave

/-- A start takes its place, in order of time, among those that wait. -/
def Strand.arm (g : Strand) (t : Trig) : Strand :=
  { g with armed := (g.armed.filter fun u => decide (u.time ≤ t.time)) ++ t :: (g.armed.filter fun u => decide (t.time < u.time)) }

/-- Send a TRIGGER for a start (R135) and hold it until its slave time. -/
def Dev.sendTrigger (d : Dev) (n : StrandNo) (t : Trig) : Dev :=
  (d.bcSend (portOf n) (.trigger (slotOf n) t.slave)).onStrand n fun g => g.arm t

/-- The strand takes no further start now: busy, or a start already waits for its slave time (log 21). -/
def Strand.occupied (g : Strand) : Bool := g.busy.isSome || !g.armed.isEmpty

/-- The slave timer of the strand's port is locked (R147). -/
def Dev.timerLocked (d : Dev) (n : StrandNo) : Bool := (d.ports[portOf n]).locked

/-- Count a withheld trigger (R172), a dropped one (R173 to R175). -/
def Dev.withhold (d : Dev) (n : StrandNo) : Dev := d.onStrand n fun g => { g with withheld := satAdd g.withheld 1 }
def Dev.dropStart (d : Dev) (n : StrandNo) : Dev := d.onStrand n fun g => { g with dropped := satAdd g.dropped 1 }

/-- Hold a deferred start (R174, R175, R178): one at most; a further one is dropped, or merged for a mark. -/
def Dev.deferStart (d : Dev) (n : StrandNo) (t : Trig) : Dev :=
  match (d.strands[n]).deferred with
  | none => d.onStrand n fun g => { g with deferred := some { t with deferred := true } }
  | some u =>
    (d.onStrand n fun g => { g with deferred := some { u with merged := u.merged + (if t.mark.isSome then 1 else 0) } }).dropStart n

/-- A start of mode 1 or 2 meets an occupied strand (R174, R175). -/
def Dev.applyPolicy (d : Dev) (n : StrandNo) (t : Trig) : Dev :=
  if (d.strands[n]).deferred.isSome then d.dropStart n
  else if (d.profile n.val).policy = 0 then d.deferStart n t
  else d.dropStart n

/-- A start of mode 1 falls due 150 us ahead (R169, R171, R172, R174). In an orderly shutdown no trigger is issued
(03 R113). -/
def Dev.startDue (d : Dev) (n : StrandNo) (t : Trig) : Dev :=
  if d.sys.mode = .shutdown ∨ !d.active n then d
  else if !d.timerLocked n then d.withhold n
  else if (d.strands[n]).occupied then d.applyPolicy n t
  else d.sendTrigger n t

/-- A start that waits for its moment gets its TRIGGER once the strand takes one and the timer is locked, while 100 us remain
before it (R142, R147, R170). -/
def Dev.serveQueued (d : Dev) (n : StrandNo) : Dev :=
  let g := d.strands[n]
  match g.armed.find? fun t => decide (t.slave = 0) with
  | some t =>
    if g.busy.isNone && (g.armed.all fun u => decide (u.slave = 0)) && d.timerLocked n && decide (d.w0 + 100000 ≤ t.due) &&
        decide (d.sys.mode ≠ .shutdown) then
      (d.onStrand n fun g => { g with armed := g.armed.filter fun u => decide (u ≠ t) }).sendTrigger n { t with slave := t.due }
    else d
  | none => d

/-- The busy state ends: a deferred start is sent 150 us ahead (R174). -/
def Dev.endBusy (d : Dev) (n : StrandNo) : Dev :=
  let d1 := d.onStrand n fun g => { g with busy := none }
  match (d1.strands[n]).deferred with
  | none => d1.serveQueued n
  | some t =>
    let d2 := d1.onStrand n fun g => { g with deferred := none }
    if d2.sys.mode = .shutdown then d2
    else if d2.timerLocked n then d2.sendTrigger n { t with slave := d2.w0 + 150000 }
    else d2.withhold n

/-- Strands of a capture mode that are active. -/
def Dev.modeStrands (d : Dev) (mode : Nat) : List StrandNo :=
  allStrands.filter fun n => decide ((d.capture n.val).mode = mode) && d.active n

/-- TRIG_IN_EDGE: the edge is timestamped and schedules a start of each mode 2 strand on that input (R170); the TRIGGER
leaves at once where the strand is free and its timer locked, else the start waits to fall due (R172, R174). An edge of W7's
input is a source event (12 R450). -/
def trigInEdge (i : Fin 4) (d : Dev) : Dev :=
  let d1 := (d.onWhl fun w => { w with trigIn := upd w.trigIn i fun _ => some w.tim }).w7Input 2 i.val
  let ns := (d1.modeStrands 2).filter fun n => decide ((d1.capture n.val).trigIn = i.val)
  ns.foldl (fun e n =>
    let due := (e.w0 + (e.capture n.val).phase).toNat
    if e.sys.mode = .shutdown then e
    else if e.timerLocked n && !(e.strands[n]).occupied then e.sendTrigger n ⟨due, due, false, none, false, 0⟩
    else e.onStrand n fun g => g.arm ⟨due, 0, false, none, false, 0⟩) d1

def execTrigInEdge (i : Fin 4) (s : State) : Host.Outcome State Fault Refusal := .next (s.run (trigInEdge i))

/-! ### Marks -/

/-- Spacing of a mode 3 strand's grid, at least 1 um. -/
def CaptureCfg.spacing (c : CaptureCfg) : Int := max 1 c.period

/-- Position of mark `k` in um (R176). -/
def CaptureCfg.markUm (c : CaptureCfg) (k : Int) : Int := c.phase + k * c.spacing

/-- Marks crossed forward when W6 goes from `x` to `y` (2^-16 um), in order; in reverse when y < x (R449). -/
def CaptureCfg.crossed (c : CaptureCfg) (x y : Int) : List Int :=
  let ix (z : Int) : Int := (z - c.phase * 65536) / (c.spacing * 65536)
  if x ≤ y then (List.range (ix y - ix x).toNat).map fun (k : Nat) => ix x + 1 + (k : Int)
  else (List.range (ix x - ix y).toNat).map fun (k : Nat) => ix x - (k : Int)

/-- A crossing in this direction is qualified (R176). -/
def CaptureCfg.qualifies (c : CaptureCfg) (forward : Bool) : Bool :=
  decide (c.markDir = 2) || (if forward then decide (c.markDir = 0) else decide (c.markDir = 1))

/-- An ARMED mark fires: it becomes DISARMED, a ONCE mark counts as fired, and without a committed trigger one is
committed at once, 100 us ahead (R177), or deferred while the strand is busy (R178). -/
def Dev.fireMark (d : Dev) (n : StrandNo) (k : Int) : Dev :=
  let c := d.capture n.val
  let had := (d.strands[n]).committed.contains k
  let d1 := d.onStrand n fun g =>
    { g with disarmed := k :: g.disarmed, fired := if c.markRepeat = 0 then k :: g.fired else g.fired,
             committed := g.committed.filter fun x => decide (x ≠ k) }
  if had ∨ d1.sys.mode = .shutdown then d1
  else
    let t : Trig := ⟨d1.w0, d1.w0 + 100000, false, some (c.markUm k), true, 0⟩
    if !d1.timerLocked n then d1.withhold n
    else if (d1.strands[n]).busy.isSome then d1.deferStart n t
    else d1.sendTrigger n t

/-- W6 has changed from `x` for one strand: crossings fire ARMED marks, and EVERY marks at least H away arm again
(R449). -/
def Dev.crossMarks (d : Dev) (x : Int) (n : StrandNo) : Dev :=
  let c := d.capture n.val
  let y := d.whl.w6.pos
  let ks := if c.qualifies (decide (x ≤ y)) then c.crossed x y else []
  let d1 := ks.foldl (fun e k => if (e.strands[n]).disarmed.contains k then e else e.fireMark n k) d
  if c.markRepeat = 0 then d1
  else d1.onStrand n fun g =>
    { g with disarmed := g.disarmed.filter fun k =>
        decide ((y - c.markUm k * 65536).natAbs < d1.whl.cfg.hysteresis * 65536) }

/-- ODOMETER_EDGE: an edge moves W6 and its marks (R445, R449); a change of both inputs is an odometer error, and
sixteen within 1 s are reported (R446). -/
def odometerEdge (a b : Bool) (d : Dev) : Dev :=
  let w := d.whl
  if !w.cfg.odoEnabled then d
  else if a ≠ w.w6.a ∧ b ≠ w.w6.b then
    let d1 := d.onWhl fun w => { w with w6 := w.w6.error w.tim a b }
    if 16 ≤ d1.whl.w6.errTimes.length then d1.report 20 else d1
  else if a = w.w6.a ∧ b = w.w6.b then d
  else
    let d1 := d.onWhl fun w => { w with w6 := w.w6.edge w.tim w.cfg.edgeSize w.cfg.invert a b }
    (d1.modeStrands 3).foldl (fun e n => e.crossMarks w.w6.pos n) d1

def execOdometerEdge (odoA odoB : Bool) (s : State) : Host.Outcome State Fault Refusal :=
  .next (s.run (odometerEdge odoA odoB))

/-- The next mark that can fire in the direction of travel, with its distance in 2^-16 um (R177). -/
def Dev.nextMark (d : Dev) (n : StrandNo) : Option (Int × Int) :=
  let c := d.capture n.val
  let v := d.whl.w6.velocity d.whl.tim
  let y := d.whl.w6.pos
  let unit : Int := c.spacing * 65536
  let i0 : Int := (y - c.phase * 65536) / unit
  let free (k : Int) : Bool := !((d.strands[n]).disarmed.contains k) && !((d.strands[n]).committed.contains k)
  if v = 0 ∨ !c.qualifies (decide (0 < v)) then none
  else
    let cand : List Int := (List.range ((d.strands[n]).disarmed.length + (d.strands[n]).committed.length + 1)).map
      fun (k : Nat) => if 0 < v then i0 + 1 + (k : Int) else i0 - (k : Int)
    (cand.find? free).map fun k => (k, (c.markUm k * 65536 - y).natAbs)

/-- MARK_COMMIT: when the predicted time to the next crossing falls below 1 ms, a TRIGGER is committed for the predicted
time, or 100 us ahead where that is nearer (R177). -/
def markCommit (n : StrandNo) (d : Dev) : Dev :=
  if (d.capture n.val).mode ≠ 3 ∨ !d.active n ∨ d.sys.mode = .shutdown ∨ !d.timerLocked n then d
  else
    match d.nextMark n with
    | none => d
    | some (k, dist) =>
      let dt : Nat := (dist * 1000000000 / (d.whl.w6.velocity d.whl.tim).natAbs).toNat
      if 1000000 ≤ dt then d
      else
        let near : Bool := decide (dt < 100000)
        let at' := d.w0 + (if near then 100000 else dt)
        (d.sendTrigger n ⟨at', at', false, some ((d.capture n.val).markUm k), near, 0⟩).onStrand n fun g =>
          { g with committed := k :: g.committed }

def execMarkCommit (n : StrandNo) (s : State) : Host.Outcome State Fault Refusal := .next (s.run (markCommit n))

/-- A mode 2 start for which no TRIGGER could be sent falls due (R172, R174): withheld, or under the policy of a busy strand. A
strand that became free too late for a TRIGGER at that time gets one for 100 us from now, the nearest that R142 allows (DESIGN
CHOICE, log 46). -/
def Dev.fallDue (d : Dev) (n : StrandNo) (t : Trig) : Dev :=
  if d.sys.mode = .shutdown then d
  else if !d.timerLocked n then d.withhold n
  else if (d.strands[n]).busy.isSome then d.applyPolicy n t
  else d.sendTrigger n { t with slave := d.w0 + 100000 }

/-- EXPOSURE_START: the time of the strand's first start arrives. A start whose TRIGGER was sent makes the strand busy (R173),
or waits for a strand that is busy still (R174, R178; log 21); one without a TRIGGER falls due; a committed mark that W6 has not
crossed did not fire and stays armed (R177). -/
def exposureStart (n : StrandNo) (d : Dev) : Dev :=
  match (d.strands[n]).armed with
  | [] => d
  | t :: ts =>
    let d1 := d.onStrand n fun g => { g with armed := ts }
    if t.slave = 0 then d1.fallDue n t
    else if (d1.strands[n]).busy.isSome then
      if t.mark.isSome then d1.deferStart n t else d1.applyPolicy n t
    else
      let c := d1.capture n.val
      let waits := match t.mark with
        | some m => (d1.strands[n]).committed.any fun k => decide (c.markUm k = m)
        | none => false
      d1.onStrand n fun g =>
        { g with busy := some ({ t with missed := t.missed && !waits }, false),
                 shot := some (d1.whl.timeNow c.whorl, if d1.whl.cfg.odoEnabled then d1.whl.w6.um else 0,
                               d1.whl.quality c.whorl),
                 committed := match t.mark with
                   | some m => g.committed.filter fun k => decide (c.markUm k ≠ m)
                   | none => g.committed }

def execExposureStart (n : StrandNo) (s : State) : Host.Outcome State Fault Refusal := .next (s.run (exposureStart n))

/-- BUSY_TIMEOUT: a start that produced no frame ends its busy state and counts as dropped (R173). -/
def busyTimeout (n : StrandNo) (d : Dev) : Dev :=
  match (d.strands[n]).busy with
  | some (_, false) => (d.dropStart n).endBusy n
  | _ => d

def execBusyTimeout (n : StrandNo) (s : State) : Host.Outcome State Fault Refusal := .next (s.run (busyTimeout n))

/-- W6_PRESET: a commit sets W6, re-arms every mark and clears the fired state; the next frame of every mode 3 strand
carries TIME_STEPPED (R448). A change of W6 over an ARMED mark in a qualified direction fires it (R449; log 21). -/
def w6Preset (a : Access) (v : DWord) (d : Dev) : Dev :=
  d.write a (regAddr 0x2032C) 4 (hiWord v) true fun e =>
    e.commitPair a 0x2032C e.pairs.w6 v (fun x p => { x with pairs := { x.pairs with w6 := p } }) fun x w =>
      let old := x.whl.w6.pos
      let x1 := x.onWhl fun t => { t with w6 := { t.w6 with pos := w.toInt } }
      let x2 := { x1 with strands := Vector.ofFn fun n =>
        if (x1.capture n.val).mode = 3 then
          { x1.strands[n] with disarmed := [], fired := [], committed := [], presetFlag := true }
        else x1.strands[n] }
      ((x2.modeStrands 3).foldl (fun y n => y.crossMarks old n) x2, Res.ok)

def execW6Preset (a : Access) (v : DWord) (s : State) : Host.Outcome State Fault Refusal := .next (s.run (w6Preset a v))

end Sys2Proof.Machine
end

