-- ==== Sys2Proof/Machine/Carding.lean ====
section
/-! DEFINITION. Forward-lane packets and the frames of the strands (spec/04_creel_links.md R124 to R133;
05 R162 to R168, R190 to R195; 06 R197 to R201, R218 to R221, R225). -/

namespace Sys2Proof.Machine

/-! ### Packets -/

/-- Change the error counters of a port. -/
def Dev.onErrs (d : Dev) (p : PortNo) (f : CrlErrs → CrlErrs) : Dev := d.onPort p fun x => { x with errs := f x.errs }

/-- Mark the open frame of a strand as non-conforming (04 R128). -/
def Dev.nonConform (d : Dev) (n : StrandNo) : Dev :=
  d.onStrand n fun g => { g with frames := g.frames.map fun f => if f.isOpen then { f with nonConforming := true } else f }

/-- Mark the open frames of every strand of a port (04 R128). -/
def Dev.nonConformPort (d : Dev) (p : PortNo) : Dev := (strandsOf p).foldl (fun e n => e.nonConform n) d

/-- The sequence byte of a packet: a gap is counted and marks every open frame of the port (04 R124, R127, R128). -/
def Dev.takeSeq (d : Dev) (p : PortNo) (seq : Byte) : Dev :=
  let skip : Bool := (d.ports[p]).lastSeq.any fun l => decide (seq ≠ l + 1)
  let d1 := d.onPort p fun x => { x with lastSeq := some seq }
  if skip then (d1.onErrs p fun e => { e with gap := satAdd e.gap 1 }).nonConformPort p else d1

/-- The framing of a CSI-2 packet (04 R124, R127). -/
def Dev.takeHead (d : Dev) (p : PortNo) (h : PacketHead) : Dev :=
  let d1 := d.takeSeq p h.seq
  if h.corrected then d1.onErrs p fun e => { e with hdrCorrected := satAdd e.hdrCorrected 1 } else d1

/-- A port carries packets only while its lane is trained (04 R148). -/
def Dev.trained (d : Dev) (p : PortNo) : Bool := decide ((d.ports[p]).step = .trained)

/-- An accepted packet of an active strand: the device after the framing and the strand; packets of unmapped channels and
inactive strands are counted and discarded (04 R132). -/
def Dev.accept (d : Dev) (p : PortNo) (h : PacketHead) (vc : Nat) : Dev × Option StrandNo :=
  if d.trained p then
    let d1 := d.takeHead p h
    match d1.strandAt p vc with
    | none => (d1.onErrs p fun e => { e with unmapped := satAdd e.unmapped 1 }, none)
    | some n =>
      if d1.active n then (d1, some n) else (d1.onErrs p fun e => { e with foreign := satAdd e.foreign 1 }, none)
  else (d, none)

/-- A discarded packet of a virtual channel (04 R128). -/
def Dev.discarded (d : Dev) (p : PortNo) (vc : Nat) : Dev :=
  match d.strandAt p vc with
  | some n => d.nonConform n
  | none => d

/-- A control packet arrives on a lane that sends idle blocks (step 7 of R148 on). -/
def Dev.hears (d : Dev) (p : PortNo) : Bool :=
  decide ((d.ports[p]).step = .trained) || decide ((d.ports[p]).step = .linkUp)

/-- A damaged packet is discarded and counted; one of a virtual channel marks its frame, one without is a control packet
(R126 to R128). -/
def Dev.damaged (d : Dev) (p : PortNo) (h : PacketHead) (vc : Option (Fin 16)) (f : CrlErrs → CrlErrs) : Dev :=
  match vc with
  | some c => if d.trained p then ((d.takeHead p h).onErrs p f).discarded p c.val else d
  | none => if d.hears p then (d.takeSeq p h.seq).onErrs p f else d

/-- PACKET_DISCARD: the packet is discarded and counted (R127), and the frames it affects are marked (R128). -/
def packetDiscard (p : PortNo) (h : PacketHead) (cause : DiscardCause) (d : Dev) : Dev :=
  match cause with
  | .headerUncorrectable =>
    if d.trained p then
      ((d.takeHead p h).onErrs p fun e => { e with hdrUncorrectable := satAdd e.hdrUncorrectable 1 }).nonConformPort p
    else d
  | .crc vc => d.damaged p h (some vc) fun e => { e with crc := satAdd e.crc 1 }
  | .codeViolation vc => d.damaged p h vc fun e => { e with code := satAdd e.code 1 }
  | .openPacket vc => d.damaged p h vc fun e => { e with openPacket := satAdd e.openPacket 1 }
  | .controlCrc => d.damaged p h none fun e => { e with controlCrc := satAdd e.controlCrc 1 }

def execPacketDiscard (p : PortNo) (h : PacketHead) (cause : DiscardCause) (s : State) : Host.Outcome State Fault Refusal :=
  .next (s.run (packetDiscard p h cause))

/-- ABORTED_PACKET: a packet ended with K30.7 is discarded and counted (R126). -/
def abortedPacket (p : PortNo) (h : PacketHead) (vc : Option (Fin 16)) (d : Dev) : Dev :=
  d.damaged p h vc fun e => { e with aborted := satAdd e.aborted 1 }

def execAbortedPacket (p : PortNo) (h : PacketHead) (vc : Option (Fin 16)) (s : State) : Host.Outcome State Fault Refusal :=
  .next (s.run (abortedPacket p h vc))

/-- A packet of an active strand that is only counted (R131). -/
def Dev.countPacket (d : Dev) (p : PortNo) (h : PacketHead) (vc : Fin 16) (f : CrlErrs → CrlErrs) : Dev :=
  match d.accept p h vc.val with
  | (e, some _) => e.onErrs p f
  | (e, none) => e

def execLineStart (p : PortNo) (h : PacketHead) (vc : Fin 16) (s : State) : Host.Outcome State Fault Refusal :=
  .next (s.run fun d => d.countPacket p h vc fun e => { e with lineMarks := satAdd e.lineMarks 1 })

def execLineEnd (p : PortNo) (h : PacketHead) (vc : Fin 16) (s : State) : Host.Outcome State Fault Refusal :=
  .next (s.run fun d => d.countPacket p h vc fun e => { e with lineMarks := satAdd e.lineMarks 1 })

def execGenericShortPacket (p : PortNo) (h : PacketHead) (vc : Fin 16) (_dt : Byte) (s : State) :
    Host.Outcome State Fault Refusal :=
  .next (s.run fun d => d.countPacket p h vc fun e => { e with generic := satAdd e.generic 1 })

/-- NULL_BLANKING_PACKET: discarded silently (R131). -/
def execNullBlankingPacket (p : PortNo) (h : PacketHead) (_vc : Fin 16) (s : State) : Host.Outcome State Fault Refusal :=
  .next (s.run fun d => if d.trained p then d.takeHead p h else d)

/-- UNKNOWN_PACKET: discarded and counted (R131, R132); an unknown data type marks the frame of its strand (R128), the causes
of R132 affect none. -/
def unknownPacket (p : PortNo) (h : PacketHead) (vc : Fin 16) (cause : UnknownCause) (d : Dev) : Dev :=
  match d.accept p h vc.val with
  | (e, none) => e
  | (e, some n) => match cause with
    | .dataType => (e.onErrs p fun x => { x with unknown := satAdd x.unknown 1 }).nonConform n
    | .unmappedChannel => e.onErrs p fun x => { x with unmapped := satAdd x.unmapped 1 }
    | .foreignImageType | .inactiveStrand => e.onErrs p fun x => { x with foreign := satAdd x.foreign 1 }

def execUnknownPacket (p : PortNo) (h : PacketHead) (x : UnknownPkt) (s : State) : Host.Outcome State Fault Refusal :=
  .next (s.run (unknownPacket p h x.vc x.cause))

/-! ### Closing a frame -/

/-- The bits of FORMAT_FAULT (R219): any departure of the frame. -/
def Frame.departs (f : Frame) : Bool :=
  f.nonConforming || decide (0 < f.cut) || decide (0 < f.padded) || decide (0 < f.missing)

/-- FORMAT_FAULT set where the frame departs from its format (R219). -/
def Frame.fault (f : Frame) : Frame := if f.departs then { f with flags := f.flags ||| flagFormatFault } else f

/-- Write a row of a frame to its input ring slot (09 R331). -/
def State.writeRow (s : State) (n : StrandNo) (f : Frame) (row : Nat) (bs : List Byte) : State :=
  { s with mem := { s.mem with fs := Memory.write 0 s.mem.fs (s.dev.inBase n.val f.slot + row * bs.length) bs } }

/-- Samples padded in the exposure lines of the row in progress (R219). -/
def Frame.rowPads (f : Frame) (width : Nat) : Nat := sumN (f.lines.map fun l => width - l.length)

/-- Emit one padded row (R219). A row that the pool refuses is not written, as for a discarded packet (09 R313, R315). -/
def State.padRow (s : State) (i : Image) (n : StrandNo) (f : Frame) (row : Nat) : State × Bool :=
  let bs := i.padRow n.val
  match s.dev.commitLine n f row bs with
  | (d, true) => (({ s with dev := d }).writeRow n f row bs, true)
  | (d, false) => ({ s with dev := d }, false)

/-- Repairs at the close (R219): a partial row is cut, missing rows are emitted with all codes C[0]. Every sample of a row
counts once: what was padded in a row that is dropped counts with the row. -/
def State.padFrame (s : State) (i : Image) (n : StrandNo) (f : Frame) : State × Frame :=
  let q := i.prof n.val
  let missing := q.height - f.rowsDone
  let r := (List.range missing).foldl (fun (t : State × Bool) k =>
    let u := t.1.padRow i n f (f.rowsDone + k)
    (u.1, t.2 && u.2)) (s, true)
  (r.1, { f with cut := f.cut + sumN (f.lines.map List.length), lines := [], missing := missing,
                 nonConforming := f.nonConforming || !r.2,
                 padded := f.padded - f.rowPads q.width + q.width * q.exposures * missing,
                 rowsDone := max f.rowsDone q.height })

/-- Commit the statistics packet of a frame: to core 0, and to the doffer unless R89 discards the frame (R225). The packet stays in
the pool until both cursors have passed it (09 R306, R307). -/
def Dev.commitStats (d : Dev) (n : StrandNo) (bs : List Byte) (toSink : Bool) : Dev :=
  (d.commitPkt (64 + n.val) bs (if toSink then [0, 1] else [0])).1

/-- Seal a closed frame (01 R15 to R19; 05 R190 to R193): the closing entries are the readback, or the write-log values that
the opening issue holds; and whether the strand has converged. -/
def Dev.sealFrame (d : Dev) (n : StrandNo) (f : Frame) : Frame × Bool :=
  let g := d.strands[n]
  let es := match f.readback with | some r => r.take (d.expCount n) | none => f.opening
  (({ f with closing := es, flags := f.flags ||| flagIf (decide (es ≠ f.opening)) flagMismatch }).fault,
    (g.exposureFlags g.prevNum f.num).2)

/-- The strand's first valid frame (03 R89). -/
def Strand.isFirstValid (g : Strand) (f : Frame) : Bool :=
  !g.live && g.written && decide (g.writtenFrom ≠ 0) && !later g.writtenFrom f.num && f.byEnd &&
    decide (f.flags &&& flagFormatFault = 0)

/-- A closed frame goes to the hank compressor when its strand is recorded (10 R366; 03 R89). -/
def Dev.offerHank (d : Dev) (n : StrandNo) (f : Frame) : Dev :=
  match d.layoutCfg f.layout with
  | some l =>
    if bitAt l.recordMask n.val ∧ f.valid then
      d.onHnk fun h => { h with strands := upd h.strands n fun x => { x with waiting := x.waiting ++ [(f.close, f.num)] } }
    else d
  | none => d

/-- Close the open frame of a strand (R219, R220, R225; 03 R89; 05 R173, R189 to R195, R633). -/
def State.closeFrame (s : State) (n : StrandNo) (byEnd : Bool) : State :=
  match (s.dev.strands[n]).frames, s.dev.img with
  | f0 :: _, some i =>
    if f0.isOpen then
      let now := s.dev.whl.tim
      let (s1, f1) := s.padFrame i n { f0 with isOpen := false, close := now, byEnd := byEnd,
                                               nonConforming := f0.nonConforming || !byEnd }
      let (f2, done) := s1.dev.sealFrame n f1
      let first := (s1.dev.strands[n]).isFirstValid f2
      let f3 := { f2 with valid := f2.valid || first, firstValid := f2.firstValid || first }
      let d1 := s1.dev.onStrand n fun g =>
        { (g.onFrame f0.num fun _ => f3) with
          rowSpan := now - f3.start, applied := f3.closing, unconverged := !done, live := g.live || first,
          lost := g.lost && !(g.live || first) }
      let d2 := (d1.commitStats n (i.statsPacket n.val f3) f3.valid).offerHank n f3
      let d3 := if f3.valid ∧ !d2.patternOn n then d2.keepSeed n f3.closing else d2
      let d4 := d3.retire n f3.num
      let d5 := if (d4.strands[n]).windowless then d4.judgeHeld n else d4
      let d6 := match (d5.strands[n]).busy with | some (_, true) => d5.endBusy n | _ => d5
      { s1 with dev := (d6.advanceStreams n).checkWarm }
    else s
  | _, _ => s

/-- FRAME_CLOSE_TIMEOUT: event 3 of R220. -/
def execFrameCloseTimeout (n : StrandNo) (s : State) : Host.Outcome State Fault Refusal :=
  .next (s.runM fun t => t.closeFrame n false)

/-- FRAME_END: the frame closes; a word count other than that of its start makes it non-conforming (04 R131). -/
def frameEnd (p : PortNo) (h : PacketHead) (vc : Fin 16) (wc : Half) (s : State) : State :=
  let (d, o) := s.dev.accept p h vc.val
  let s1 := { s with dev := d }
  match o with
  | none => s1
  | some n =>
    let d1 := match (d.strands[n]).frames with
      | f :: _ => if f.sensorNo = wc then d else d.nonConform n
      | [] => d
    ({ s1 with dev := d1 }).closeFrame n true

def execFrameEnd (p : PortNo) (h : PacketHead) (vc : Fin 16) (wc : Half) (s : State) : Host.Outcome State Fault Refusal :=
  .next (s.runM (frameEnd p h vc wc))

/-! ### Opening a frame -/

/-- The number of a frame start (05 R163 to R165), and whether it is a sensor frame-number fault. -/
def Dev.numberOf (d : Dev) (n : StrandNo) (wc : Half) : Word × Bool :=
  let g := d.strands[n]
  if !g.numbered then
    match g.lostAt with
    | some t =>
      let e := 2 * (d.whl.tim - t)
      let p := d.periodOf n
      (g.frameNo + BitVec.ofNat 32 (max 1 ((2 * e + p) / (2 * p))), false)
    | none => (1, false)
  else
    let old : Half := match g.frames with | f :: _ => f.sensorNo | [] => 0
    let k := (wc - old).toNat
    if old = 0 ∨ wc = 0 ∨ wc = 1 then (g.frameNo + 1, false)
    else if 1 ≤ k ∧ k ≤ 8 then (g.frameNo + BitVec.ofNat 32 k, false)
    else (g.frameNo + 1, true)

/-- After a relock the requests whose frame was passed over, between the last number and the new one, are reported NOT_APPLIED;
those for later frames are held (05 R194). -/
def Dev.passOver (d : Dev) (n : StrandNo) (num : Word) : Dev :=
  let ps := (d.strands[n]).pending
  let last := (d.strands[n]).frameNo
  let gone := ps.filter fun r => later r.target last && later num r.target
  let d1 := gone.foldl (fun e r => e.reportTarget n r 3) d
  d1.onStrand n fun g => { g with pending := [], heldReqs := (ps.filter fun r => !later num r.target) ++ g.heldReqs }

/-- The warm-up write applies from the frame L after the first start that follows it (03 R92; log 20). -/
def Dev.placeWarm (d : Dev) (n : StrandNo) (num : Word) : Dev :=
  match (d.strands[n]).warm with
  | some es =>
    let f := num + d.latency n
    d.onStrand n fun g => { g with
      warm := none, writtenFrom := f,
      writeLog := ⟨f, es.map (Config.sensorRound (d.profile n.val).id), false, false, true⟩ :: g.writeLog }
  | none => d

/-- Core 0's report that the strand has converged counts under internal ownership, from the first frame captured after it
(05 R195; 03 R92). -/
def Dev.takeReport (d : Dev) (n : StrandNo) (report : Bool) : Dev :=
  let internal : Bool := match d.img with | some i => !i.sinkOwner | none => false
  if report ∧ internal then d.onStrand n fun g => { g with unconverged := false } else d

/-- Open a frame of an active strand (05 R163 to R168, R173; 06 R201; 12 R422 to R424; 09 R331). A start's time, position and
time quality are those latched at it. -/
def Dev.openFrame (d : Dev) (n : StrandNo) (wc : Half) : Dev :=
  let g := d.strands[n]
  let c := d.capture n.val
  let r := d.numberOf n wc
  let num := r.1
  let relock := !g.numbered && g.lostAt.isSome
  let d1 := if r.2 then d.onErrs (portOf n) fun e => { e with frameNumber := satAdd e.frameNumber 1 } else d
  let d2 := (if relock then d1.passOver n num else d1).placeWarm n num
  let now := d2.whl.tim
  let trig : Option Trig := match g.busy with | some (t, _) => if c.mode = 0 then none else some t | none => none
  let live : WhorlTime × Int × Nat :=
    (d2.whl.timeNow c.whorl, if d2.whl.cfg.odoEnabled then d2.whl.w6.um else 0, d2.whl.quality c.whorl)
  let shot := if trig.isSome then g.shot.getD live else live
  let cap := shot.1
  let um := shot.2.1
  let q := shot.2.2
  let g2 := d2.strands[n]
  let prev : Word := match g2.frames with | f :: _ => f.num | [] => 0
  let x := g2.exposureFlags prev num
  let deferred : Bool := trig.any fun t => t.deferred && decide (c.mode ≠ 3)
  let missed : Bool := trig.any fun t => decide (c.mode = 3) && (t.missed || t.deferred)
  let gap := match trig with | some t => (match t.mark with | some m => um - m | none => 0) | none => 0
  let f : Frame :=
    { num := num, sensorNo := wc, start := now, isOpen := true, close := 0, abandoned := false, byEnd := false,
      layout := (d2.lay.strand[n]).getD 0xFF, valid := g2.live, firstValid := false, capture := cap, whorl := c.whorl,
      quality := q, w6 := um,
      flags := x.1 ||| holdoverFlag q ||| flagIf (decide (cap.epoch ≠ g2.lastEpoch) || g2.presetFlag) flagStepped |||
        flagIf deferred flagDeferred ||| flagIf missed flagMarkMissed,
      opening := (g2.logAt prev num).take (d2.expCount n), closing := [], readback := none, issued := false, nonConforming := false,
      packets := 0, lines := [], rowsDone := 0, merged := [], static := 0, dynamic := 0, flicker := 0, allSat := 0,
      padded := 0, cut := 0, missing := 0,
      deferral := if deferred then (match trig with | some t => (t.slave : Int) - t.due | none => 0) else 0,
      markGap := if missed then gap else 0,
      slot := match g2.frames with | o :: _ => (o.slot + 1) % 4 | [] => 0 }
  let d2r := if relock then d2.onHankStrand n fun x => { x with entryAt := some num } else d2
  let d3 := match g2.frames[3]? with | some o => d2r.takeSlot n o | none => d2r
  d3.onStrand n fun g => { g with
    frameNo := num, numbered := true, starts := (now :: (if relock then [] else g.starts)).take 8,
    frames := (f :: g.frames).take 4, lastEpoch := cap.epoch, presetFlag := false,
    busy := match g.busy with | some (t, _) => some (t, true) | none => none }

/-- FRAME_START: an open frame closes first (R220 event 2), a pending layout is adopted (01 R20), and the frame of an
active strand opens. -/
def frameStart (p : PortNo) (h : PacketHead) (vc : Fin 16) (wc : Half) (report : Bool) (s : State) : State :=
  if s.dev.trained p then
    let d1 := s.dev.takeHead p h
    match d1.strandAt p vc.val with
    | none => { s with dev := d1.onErrs p fun e => { e with unmapped := satAdd e.unmapped 1 } }
    | some n =>
      let s1 := ({ s with dev := d1 }).closeFrame n false
      let d2 := s1.dev.adoptStrand n
      { s1 with dev := if d2.active n then (d2.takeReport n report).openFrame n wc
                       else d2.onErrs p fun e => { e with foreign := satAdd e.foreign 1 } }
  else s

def execFrameStart (p : PortNo) (h : PacketHead) (vc : Fin 16) (wc : Half) (s : State) (report : Bool := false) :
    Host.Outcome State Fault Refusal := .next (s.runM (frameStart p h vc wc report))

/-! ### Image lines -/

/-- Merge and commit the row that is complete (R198, R213 to R219). Where the frame-store writer meets an uncorrectable error in the
committed row it writes the row with all codes C[0], and the row counts as padded (09 R324). -/
def State.commitRow (s : State) (i : Image) (n : StrandNo) (f : Frame) (ev : LineEvent) : State × Frame :=
  let q := i.prof n.val
  let rewound := decide (ev = .rewound)
  let damaged := decide (ev = .storeDamaged)
  let y := f.packets / q.exposures - 1
  let row := i.mergeRow n.val y f.opening f.lines
  let b := i.blockOf n.val
  let bs := if rewound then i.padRow n.val else codeBytes (row.map fun x => b.compand x.1 x.2.1)
  let kept := row.filter fun x => x.2.2.2
  let r := s.dev.commitLine n f f.rowsDone bs
  if r.2 then
    let s1 := ({ s with dev := if rewound || damaged then r.1.report 17 else r.1 }).writeRow n f f.rowsDone
      (if damaged then i.padRow n.val else bs)
    let f0 := if rewound || damaged then { f with padded := f.padded - f.rowPads q.width + q.width * q.exposures } else f
    let f1 := { f0 with lines := [], rowsDone := f.rowsDone + 1 }
    if rewound then (s1, { f1 with merged := [] :: f.merged, nonConforming := true })
    else
      (s1, { f1 with merged := (kept.map fun x => (x.1, x.2.1)) :: f.merged,
                     flicker := f.flicker + (kept.filter fun x => x.2.2.1).length,
                     allSat := f.allSat + (kept.filter fun x => x.2.1).length })
  else ({ s with dev := r.1 }, { f with lines := [], nonConforming := true })

/-- Take an image packet of an open frame (R197, R198, R219; 04 R133). -/
def State.takeLine (s : State) (i : Image) (n : StrandNo) (f : Frame) (payload : List Byte) (ev : LineEvent) :
    State × Frame :=
  let q := i.prof n.val
  if q.height * q.exposures ≤ f.packets then
    (s, { f with cut := f.cut + (unpack (rawBits q.dataType) payload).length })
  else
    let c := i.cardLine n.val (f.packets % q.exposures) (f.packets / q.exposures) payload
    let f1 := { f with
      packets := f.packets + 1, lines := f.lines ++ [c.vs], cut := f.cut + c.beyond,
      padded := f.padded + (q.width - c.vs.length), static := f.static + c.static, dynamic := f.dynamic + c.dynamic }
    if f1.lines.length = q.exposures then s.commitRow i n f1 ev else (s, f1)

/-- A packet of a strand meets the full input FIFO: it is discarded and counted (R200; 04 R128). -/
def Dev.fifoFull (d : Dev) (p : PortNo) (n : StrandNo) : Dev :=
  { (d.nonConform n) with card := upd d.card p fun c => { c with overflows := satAdd c.overflows 1 } }

/-- IMAGE_LINE: an image long packet of the profile's data type in an open frame; with the input FIFO full it is
discarded (R200); another image type is counted and discarded (04 R132). -/
def imageLine (p : PortNo) (h : PacketHead) (vc : Fin 16) (dt : Byte) (payload : List Byte) (ev : LineEvent) (s : State) :
    State :=
  let (d, o) := s.dev.accept p h vc.val
  let s1 := { s with dev := d }
  match o, d.img with
  | some n, some i =>
    if dt.toNat ≠ (i.prof n.val).dataType then { s1 with dev := d.onErrs p fun e => { e with foreign := satAdd e.foreign 1 } }
    else
      match (d.strands[n]).frames with
      | f :: _ =>
        if !f.isOpen then s1
        else if ev = .fifoFull then
          { s1 with dev := d.fifoFull p n }
        else
          let (s2, f2) := s1.takeLine i n f payload ev
          let d3 := s2.dev.onStrand n fun g => g.onFrame f.num fun _ => f2.fault
          { s2 with dev := if f2.rowsDone = f.rowsDone then d3 else d3.advanceStreams n }
      | [] => s1
  | _, _ => s1

def execImageLine (p : PortNo) (h : PacketHead) (vc : Fin 16) (dt : Byte) (payload : List Byte) (ev : LineEvent) (s : State) :
    Host.Outcome State Fault Refusal := .next (s.runM (imageLine p h vc dt payload ev))

/-- EMBEDDED_DATA: the readback decoder's entries of an intact packet, when the profile declares readback (05 R190,
R191); a damaged packet is discarded and counted with its CRC (04 R127, R128), one at a full FIFO under R200. -/
def embeddedData (p : PortNo) (h : PacketHead) (vc : Fin 16) (entries : List Exposure) (ev : EmbeddedEvent) (d : Dev) : Dev :=
  match d.accept p h vc.val with
  | (d1, none) => d1
  | (d1, some n) => match ev with
    | .damaged => (d1.onErrs p fun e => { e with crc := satAdd e.crc 1 }).nonConform n
    | .fifoFull => d1.fifoFull p n
    | .intact =>
      if (d1.profile n.val).readback ≠ 0 then
        let es := entries.take (d1.expCount n)
        d1.onStrand n fun g => { g with frames := g.frames.map fun f =>
          if f.isOpen then { f with readback := some es, flags := f.flags ||| flagIf (decide (es ≠ f.opening)) flagMismatch } else f }
      else d1

def execEmbeddedData (p : PortNo) (h : PacketHead) (vc : Fin 16) (entries : List Exposure) (ev : EmbeddedEvent) (s : State) :
    Host.Outcome State Fault Refusal := .next (s.run (embeddedData p h vc entries ev))

end Sys2Proof.Machine
end

