-- ==== Sys2Proof/Machine/Creel.lean ====
section
/-! DEFINITION. Creel lane training, the back channel, slave-timer synchronisation and loss of lock
(spec/04_creel_links.md R134 to R156; 12 R444; 03 R92, R93). -/

namespace Sys2Proof.Machine

/-! ### Training -/

/-- LINK_CFG_REPEAT: LINK_CFG (TS1) is repeated while step 1 lasts (R148). -/
def linkCfgRepeat (p : PortNo) (d : Dev) : Dev := if (d.ports[p]).step = .ts1 then d.linkCfg p 1 else d

def execLinkCfgRepeat (p : PortNo) (s : State) : Host.Outcome State Fault Refusal := .next (s.run (linkCfgRepeat p))

/-- A training attempt fails (R149): the next ones start from the defaults; after the third the port is reported and
waits for its retry. -/
def Dev.failAttempt (d : Dev) (p : PortNo) : Dev :=
  let n := (d.ports[p]).attempts + 1
  let d1 := d.onPort p fun x =>
    { x with attempts := n, seeded := false, startCoeffs := none, upAcked := false, outstanding := [], queued := [],
             step := if 3 ≤ n then .waiting else .ts1 }
  if 3 ≤ n then d1.raise 12 p.val n else d1.linkCfg p 1

/-- CREEL_TS1_RECEIVED: 256 error-free TS1 with the right echo reach step 3 and LINK_CFG (TS2) goes out; a wrong echo
fails the attempt (R148, R149). -/
def creelTs1Received (p : PortNo) (echoPort echoRate : Byte) (d : Dev) : Dev :=
  if (d.ports[p]).step = .ts1 then
    if echoPort.toNat = p.val ∧ echoRate.toNat = (d.ports[p]).rate then
      (d.onPort p fun x => { x with step := .ts2 }).linkCfg p 2
    else d.failAttempt p
  else d

def execCreelTs1Received (p : PortNo) (echoPort echoRate : Byte) (s : State) : Host.Outcome State Fault Refusal :=
  .next (s.run (creelTs1Received p echoPort echoRate))

/-- EQUALISER_ADAPTED: with at least the minimum horizontal eye margin LINK_CFG (LINK_UP) goes out, else the attempt
fails (R116, R148, R149). -/
def equaliserAdapted (p : PortNo) (c : EqCoeffs) (eyeH eyeV : Nat) (d : Dev) : Dev :=
  if (d.ports[p]).step = .ts2 then
    let d1 := (d.onPort p fun x => { x with eyeH := eyeH, eyeV := eyeV, startCoeffs := some c }).onHist
      fun h => h.setEye p.val eyeH eyeV
    let need := match d.img with | some i => (i.portCfg p.val).minEye | none => 0
    if need ≤ eyeH then (d1.onPort p fun x => { x with step := .linkUp, upAcked := false }).linkCfg p 3
    else d1.failAttempt p
  else d

def execEqualiserAdapted (p : PortNo) (c : EqCoeffs) (eyeH eyeV : Nat) (s : State) : Host.Outcome State Fault Refusal :=
  .next (s.run (equaliserAdapted p c eyeH eyeV))

/-- LANE_TRAINED: step 8, with the ACK of LINK_UP received: the coefficients are the working set (R148, R153). The counter of
R124 restarts at each training, and the spec does not say with which packet the first comparison is made: the first packet after
this one has no predecessor (DESIGN CHOICE, log 43). -/
def laneTrained (p : PortNo) (d : Dev) : Dev :=
  let x := d.ports[p]
  if x.step = .linkUp ∧ x.upAcked then
    { (d.onPort p fun x => { x with step := .trained, working := x.startCoeffs, attempts := 0, lastSeq := none,
                                    trainedSincePlan := true }) with jnl := { d.jnl with changed := true } }
  else d

def execLaneTrained (p : PortNo) (s : State) : Host.Outcome State Fault Refusal := .next (s.run (laneTrained p))

/-- TRAINING_ATTEMPT_TIMEOUT: step 3 was not reached within 20 ms of the first TS1 energy (R149). -/
def trainingAttemptTimeout (p : PortNo) (d : Dev) : Dev := if (d.ports[p]).step = .ts1 then d.failAttempt p else d

def execTrainingAttemptTimeout (p : PortNo) (s : State) : Host.Outcome State Fault Refusal :=
  .next (s.run (trainingAttemptTimeout p))

/-- TRAINING_RETRY: the retry every 100 ms after three failed attempts (R149). -/
def trainingRetry (p : PortNo) (d : Dev) : Dev :=
  if (d.ports[p]).step = .waiting then (d.onPort p fun x => { x with step := .ts1 }).linkCfg p 1 else d

def execTrainingRetry (p : PortNo) (s : State) : Host.Outcome State Fault Refusal := .next (s.run (trainingRetry p))

/-! ### Loss of lock -/

/-- The newest write of the log for a frame with these values counts as not applied from now on (R155). -/
def Strand.unapply (g : Strand) (frame : Word) (vs : List Exposure) : Strand :=
  match g.writeLog.findIdx? fun x => x.applied && decide (x.frame = frame) && decide (x.values = vs) with
  | some k => { g with writeLog := g.writeLog.mapIdx fun i x => if i = k then { x with applied := false } else x }
  | none => g

/-- A discarded exposure write (R155; 05 R194): it stands in the write log as not applied, and its request is reported
NOT_APPLIED. The write of a warm-up or relock, sent as frame 0, is one that never was. -/
def Dev.dropWrite (d : Dev) (n : StrandNo) (frame : Word) (es : List Exposure) : Dev :=
  let vs := es.map (Config.sensorRound (d.profile n.val).id)
  if frame = 0 then
    d.onStrand n fun g =>
      let g1 := if g.warm.isSome then { g with warm := none } else g.unapply g.writtenFrom vs
      { g1 with written := g1.writeLog.any WriteRec.applied, writtenFrom := 0, inited := false }
  else
    let mine (r : ExpReq) : Bool := r.sent && decide (r.target = frame) && decide (r.entries = es)
    let d1 := ((d.strands[n]).pending.filter mine).foldl (fun e r => e.reportTarget n r 3) d
    d1.onStrand n fun g =>
      ({ g with pending := g.pending.filter fun r => !mine r }.unapply frame vs).refreshOpen (d.expCount n)

/-- A start whose TRIGGER will not be sent, or was not armed, waits no longer; its mark can be committed again (05 R177). -/
def Dev.disarm (d : Dev) (n : StrandNo) (slave : Nat) : Dev :=
  let c := d.capture n.val
  let gone := (d.strands[n]).armed.filter fun t => decide (t.slave = slave)
  d.onStrand n fun g =>
    { g with armed := g.armed.filter fun t => decide (t.slave ≠ slave),
             committed := g.committed.filter fun k => !gone.any fun t => decide (t.mark = some (c.markUm k)) }

/-- A discarded request of a port (R155). -/
def Dev.dropMsg (d : Dev) (p : PortNo) (m : BcMsg) : Dev :=
  match m with
  | .expWrite slot frame es => d.dropWrite (strandOf (4 * p.val + slot)) frame es
  | .trigger slot _ => d.dropStart (strandOf (4 * p.val + slot))
  | _ => d

/-- Abandon the open frame of a strand (06 R221; 05 R173): no further rows, an abandon marker in its line queue. -/
def State.abandonFrame (s : State) (n : StrandNo) : State :=
  match (s.dev.strands[n]).frames with
  | f :: _ =>
    if f.isOpen then
      let d1 := s.dev.onStrand n fun g => g.onFrame f.num fun x => { x with isOpen := false, abandoned := true, close := s.dev.whl.tim }
      let d2 := (d1.commitMarker n f).failSource n f.num
      { s with dev := match (d2.strands[n]).busy with | some (_, true) => d2.endBusy n | _ => d2 }
    else s
  | [] => s

/-- An abandoned frame was captured all the same: its values are the applied ones from now on, and its requests leave
(05 R190, R194, R196). -/
def Dev.sealAbandoned (d : Dev) (n : StrandNo) : Dev :=
  let g := d.strands[n]
  match g.frames with
  | f :: _ =>
    let es := f.readback.getD ((g.logAt g.prevNum f.num).take (d.expCount n))
    (d.onStrand n fun x => { x with applied := es, unconverged := !(g.exposureFlags g.prevNum f.num).2 }).retire n f.num
  | [] => d

/-- A port loses lock (R155; 05 R165, R194, R633; 03 R89, R93, R98; 01 R21). `retrain` is false where POC_EN fell. -/
def State.loseLock (s : State) (p : PortNo) (retrain : Bool) : State :=
  let s0 := { s with dev := s.dev.onPort p fun x => { x with locked := false } }
  let cut := (strandsOf p).filter fun n => (s.dev.strands[n]).inFrame
  let s1 := (strandsOf p).foldl (fun t n => t.abandonFrame n) s0
  let x := s1.dev.ports[p]
  let d1 := ((x.outstanding.map fun r => r.msg) ++ x.queued).foldl (fun e m => e.dropMsg p m) s1.dev
  let d1' := cut.foldl Dev.sealAbandoned d1
  let d2 := (strandsOf p).foldl (fun e n =>
    (e.onStrand n fun g => { g with
      lost := true, inited := false, numbered := false, lostAt := match g.starts with | t :: _ => some t | [] => g.lostAt, live := false, windowless := true,
      armed := g.armed.filter fun t => decide (t.slave = 0), committed := [] }).adoptStrand n) d1'
  let d3 := (d2.onPort p fun x => { x with outstanding := [], queued := [], inited := false, syncAcked := false,
                                           syncT1 := none, step := .off }).raise 12 p.val 0
  { s1 with dev := if retrain then d3.startPort p true else d3 }

/-- The cause takes the port's lock (R154, R156): the last three concern a trained lane, and a fall of POC_EN needs POC_EN low. -/
def Dev.losesTo (d : Dev) (p : PortNo) : LockLossCause → Bool
  | .signal | .noComma | .codeErrors | .elasticBuffer => (d.ports[p]).locksHeld
  | .ts1OnTrained | .unanswered => d.trained p
  | .pocFell => (d.ports[p]).locksHeld && !d.pins.pocEn.getLsbD p.val

/-- LOSS_OF_LOCK (R154 to R156). -/
def lossOfLock (p : PortNo) (cause : LockLossCause) (s : State) : State :=
  if s.dev.losesTo p cause then s.loseLock p (s.dev.pins.pocEn.getLsbD p.val) else s

def execLossOfLock (p : PortNo) (cause : LockLossCause) (s : State) : Host.Outcome State Fault Refusal :=
  .next (s.runM (lossOfLock p cause))

/-! ### Replies -/

/-- The unanswered request of a tag. -/
def Port.request (p : Port) (tag : Byte) : Option BcReq := p.outstanding.find? fun r => decide (r.tag = tag)

/-- A message leaves the queue of a port with fewer than 8 unanswered requests (R136). A TRIGGER goes neither to a port whose
timer is not locked nor less than 100 us before its slave time (R142, R147): its start is withheld, or dropped. -/
def Dev.drainOne (d : Dev) (p : PortNo) : Dev :=
  let x := d.ports[p]
  match x.queued with
  | [] => d
  | m :: ms =>
    if 8 ≤ x.outstanding.length then d
    else
      let d1 := d.onPort p fun x => { x with queued := ms }
      match m with
      | .trigger slot slave =>
        let n := strandOf (4 * p.val + slot)
        if !x.locked then (d1.disarm n slave).withhold n
        else if slave < d.w0 + 100000 then (d1.disarm n slave).dropStart n
        else d1.bcSend p m
      | _ => d1.bcSend p m

/-- The request of a tag is answered: it leaves, and what waits follows (R136). -/
def Dev.answered (d : Dev) (p : PortNo) (tag : Byte) : Dev :=
  let d1 := d.onPort p fun x => { x with outstanding := x.outstanding.filter fun r => decide (r.tag ≠ tag) }
  (List.range (d1.ports[p]).queued.length).foldl (fun e _ => e.drainOne p) d1

/-- A request is resent (R138); a TRIGGER only while the port's timer is locked (R147). -/
def Port.mayResend (x : Port) : BcMsg → Bool
  | .trigger _ _ => x.locked
  | _ => true

/-- REQUEST_REPLY_TIMEOUT: a SYNC_REQ is dropped; another request is resent with its tag, up to three times; then an
unanswered LINK_UP fails its attempt, and on a trained lane the port loses lock (R138, R149, R154). A TRIGGER that may not be
resent leaves; its start, sent once, stands. -/
def requestReplyTimeout (p : PortNo) (tag : Byte) (s : State) : State :=
  match (s.dev.ports[p]).request tag with
  | none => s
  | some r =>
    if r.msg = .syncReq ∨ !(s.dev.ports[p]).mayResend r.msg then { s with dev := s.dev.answered p tag }
    else if r.resends < 3 then
      { s with dev := s.dev.onPort p fun x =>
          { x with resends := satAdd x.resends 1, sent := (tag, r.msg) :: x.sent,
                   outstanding := x.outstanding.map fun y =>
                     if y.tag = tag then { y with resends := y.resends + 1, sentAt := s.dev.whl.tim } else y } }
    else if s.dev.trained p then s.loseLock p true
    else if (s.dev.ports[p]).step = .linkUp then { s with dev := s.dev.failAttempt p }
    else { s with dev := s.dev.answered p tag }

def execRequestReplyTimeout (p : PortNo) (tag : Byte) (s : State) : Host.Outcome State Fault Refusal :=
  .next (s.runM (requestReplyTimeout p tag))

/-- A TRIGGER that the head could not arm produces no frame (R141): its start is dropped. -/
def Dev.refuseTrigger (d : Dev) (n : StrandNo) (slave : Nat) : Dev := (d.disarm n slave).dropStart n

/-- What an ACK does to its request, by status (R135, R141, R142, R147, R148; 05 R189). -/
def Dev.takeAck (d : Dev) (p : PortNo) (m : BcMsg) (status : Byte) : Dev :=
  match m with
  | .linkCfg 3 _ _ => if status = 0 then d.onPort p fun x => { x with upAcked := true } else d
  | .trigger slot slave =>
    if status = 3 then d.onPort p fun x => { x with late := satAdd x.late 1 }
    else if status = 5 then
      (d.onPort p fun x => { x with trigBusy := satAdd x.trigBusy 1 }).refuseTrigger (strandOf (4 * p.val + slot)) slave
    else d
  | .syncSet _ _ => if status = 0 then d.onPort p fun x => { x with syncAcked := true } else d
  | .expWrite slot frame es => if status = 0 then d else d.dropWrite (strandOf (4 * p.val + slot)) frame es
  | _ => d

/-- CONTROL_ACK: the reply to the request of its tag; another tag is ignored (R136). -/
def controlAck (p : PortNo) (seq tag status : Byte) (_detail : Half) (d : Dev) : Dev :=
  if d.hears p then
    let d1 := d.takeSeq p seq
    match (d1.ports[p]).request tag with
    | some r => (d1.answered p tag).takeAck p r.msg status
    | none => d1
  else d

def execControlAck (p : PortNo) (seq tag status : Byte) (detail : Half) (s : State) : Host.Outcome State Fault Refusal :=
  .next (s.run (controlAck p seq tag status detail))

/-- I2C_DATA: the reply to an I2C_READ (R135, R136). -/
def i2cData (p : PortNo) (seq tag : Byte) (data : List Byte) (d : Dev) : Dev :=
  if d.hears p then
    let d1 := d.takeSeq p seq
    match (d1.ports[p]).request tag with
    | some r => (match r.msg with
      | .i2cRead _ _ _ _ => (d1.answered p tag).onPort p fun x => { x with i2cData := data }
      | _ => d1)
    | none => d1
  else d

def execI2cData (p : PortNo) (seq tag : Byte) (data : List Byte) (s : State) : Host.Outcome State Fault Refusal :=
  .next (s.run (i2cData p seq tag data))

/-- GPIO_STATE (R143). -/
def execGpioState (p : PortNo) (seq levels changed : Byte) (s : State) : Host.Outcome State Fault Refusal :=
  .next (s.run fun d => if d.hears p then (d.takeSeq p seq).onPort p fun x => { x with gpio := (levels, changed) } else d)

/-- HEAD_STATUS (R143). -/
def execHeadStatus (p : PortNo) (seq : Byte) (headType firmware : Half) (errors : Word) (s : State) :
    Host.Outcome State Fault Refusal :=
  .next (s.run fun d =>
    if d.hears p then (d.takeSeq p seq).onPort p fun x => { x with head := (headType, firmware, errors) } else d)

/-- SKIP_SET: the elastic buffer inserts or deletes K28.0; skip sets carry nothing else (R122). -/
def execSkipSet (p : PortNo) (_n : Nat) (adjust : Int) (s : State) : Host.Outcome State Fault Refusal :=
  .next (s.run fun d => d.onPort p fun x => { x with elastic := x.elastic + adjust })

/-! ### Synchronisation -/

/-- SYNC_REQ_DUE: every 10 ms on a trained port (R144). -/
def syncReqDue (p : PortNo) (d : Dev) : Dev :=
  if d.trained p then d.bcSend p .syncReq else d

def execSyncReqDue (p : PortNo) (s : State) : Host.Outcome State Fault Refusal := .next (s.run (syncReqDue p))

/-- Bound of the trim: 200 ppm (R146; 12 R444). -/
def trimBound : Int := 219902326

/-- The port's timer takes one measured offset, given as twice its value in ns (R145, R147; 12 R444). -/
def Port.syncStep (x : Port) (theta2 delay2 : Int) : Port :=
  let far : Bool := decide (2000 < theta2.natAbs)
  { x with
    offset := roundDiv theta2 2, delay := roundDiv delay2 2, syncT1 := none,
    trim := if far then x.trim else bound trimBound (x.trim - roundDiv (theta2 * 2 ^ 40) 80000000),
    locked := if far then false else x.locked || (x.syncAcked && decide (theta2.natAbs ≤ 40)) }

/-- Step 10 of R86: with the slave timer synchronised every active strand of the port whose sensor was not initialised since the
lane was trained is initialised and written (03 R92, R93), also one that a later layout brings in (03 R97). -/
def Dev.initSensors (d : Dev) (p : PortNo) : Dev :=
  if (d.ports[p]).locked then
    ((strandsOf p).filter fun n => d.active n && !(d.strands[n]).inited).foldl Dev.warmWrite
      (d.onPort p fun x => { x with inited := true })
  else d

/-- The SYNC_SET of an offset: its step is an i32 (R135). An offset beyond it, which the spec gives no message for, is taken in
steps of that size (DESIGN CHOICE, log 43). -/
def syncStepOf (theta2 : Int) : Int := bound (2 ^ 31 - 1) (roundDiv (-theta2) 2)

/-- SYNC_RESP: t4 is now; the offset corrects the slave timer through SYNC_SET (R144 to R147; 12 R444). -/
def syncResp (p : PortNo) (seq tag : Byte) (t2 t3 : Nat) (d : Dev) : Dev :=
  if d.trained p then
    let d1 := d.takeSeq p seq
    match (d1.ports[p]).request tag, (d1.ports[p]).syncT1 with
    | some r, some t1 =>
      if r.msg = .syncReq then
        let fwd : Int := (t2 : Int) - t1
        let back : Int := (d1.w0 : Int) - t3
        let d2 := (d1.answered p tag).onPort p fun x => x.syncStep (fwd - back) (fwd + back)
        let d3 := (d2.bcSend p (.syncSet (syncStepOf (fwd - back)) (d2.ports[p]).trim)).initSensors p
        (strandsOf p).foldl Dev.serveQueued d3
      else d1
    | _, _ => d1
  else d

def execSyncResp (p : PortNo) (seq tag : Byte) (t2 t3 : Nat) (s : State) : Host.Outcome State Fault Refusal :=
  .next (s.run (syncResp p seq tag t2 t3))

end Sys2Proof.Machine
end

