-- ==== Sys2Proof/Machine/Power.lean ====
section
/-! DEFINITION. The commands that can lower POC_EN: mode requests, the shutdown and Production Test. A trained port whose POC_EN
falls loses its lock in the same command (spec/04_creel_links.md R156; 03 R94 to R103, R113). -/

namespace Sys2Proof.Machine

/-- Every port whose POC_EN has fallen since it was `was`, and that holds a lock, loses it (04 R154 to R156). -/
def State.dropFallen (was : BitVec 16) (s : State) : State :=
  allPorts.foldl (fun t p =>
    if (was &&& ~~~s.dev.pins.pocEn).getLsbD p.val ∧ (t.dev.ports[p]).locksHeld then t.loseLock p false else t) s

/-- A device operation that can lower POC_EN. -/
def State.runPower (s : State) (f : Dev → Dev) : State := ({ s with dev := f s.dev }).dropFallen s.dev.pins.pocEn

def execModeRequest (a : Access) (v : Word) (s : State) : Host.Outcome State Fault Refusal :=
  .next (s.runM fun t => t.runPower (modeRequest a v))

def execShutdownDrained (s : State) : Host.Outcome State Fault Refusal := .next (s.runM fun t => t.runPower shutdownDrained)

def execPtest (s : State) : Host.Outcome State Fault Refusal := .next (s.runM fun t => t.runPower ptest)

end Sys2Proof.Machine
end

