-- ==== Sys2Proof/Machine/Sense.lean ====
section
/-! DEFINITION. The sense converters, their comparators and camera power supervision (spec/14_sense.md R502 to R516;
02 R73; 12 R450, R451). -/

namespace Sys2Proof.Machine

/-! ### Converters -/

/-- Change a converter. -/
def Dev.onConv (d : Dev) (c : Fin 4) (f : Conv → Conv) : Dev := d.onSns fun s => { s with conv := upd s.conv c f }

/-- Change an input. -/
def Dev.onInput (d : Dev) (n : Fin 24) (f : SenseIn → SenseIn) : Dev := d.onSns fun s => { s with inp := upd s.inp n f }

/-- Input number of an image field. -/
def inputIx (n : Nat) : Fin 24 := Fin.ofNat 24 n

/-- The settings of a converter's next conversion, adopted at its start (R507). A new scan list is worked from its first
entry (log 28). -/
def Conv.adopt (c : Conv) : Conv :=
  match c.next with
  | some g => { c with cfg := g, next := none, idx := if g.scan = c.cfg.scan then c.idx else 0 }
  | none => c

/-- Input that the converter's scan list names at its position. -/
def Conv.input (c : Conv) : Nat := nth c.cfg.scan c.idx 0

/-- Period source, k and fixed period in force. -/
def Conv.per (c : Conv) : Bool × Nat × Nat := (c.cfg.lockedW7, c.cfg.turns, c.cfg.period)

/-- SETTLING conversions that the changes since the last conversion cost (R506). -/
def Conv.changes (c : Conv) (now : Nat × Nat × Nat) : Nat :=
  match c.last with
  | none => 1
  | some l =>
    let gain := if now.2.1 ≠ l.2.1 then 2 else 0
    let rest := if now.1 ≠ l.1 ∨ now.2.2 ≠ l.2.2 ∨ c.per ≠ c.lastPeriod then 1 else 0
    max gain rest

/-- A conversion starts with the settings then in force (R506, R507). A locked converter waits for a turn event unless
one ended its previous conversion (R503). -/
def Dev.beginConv (d : Dev) (c : Fin 4) (atTurn : Bool) : Dev :=
  let v := (d.sns.conv[c]).adopt
  if v.cfg.mode = 0 then
    d.onConv c fun _ => { v with busy := false, last := none, settle := 0, integ := none, cross := none }
  else
    let n := inputIx v.input
    let i := d.sns.inp[n]
    let g := i.next.getD i.cfg
    let now := (n.val, g.gain, g.pull)
    (d.onInput n fun i => { i with cfg := g, next := none }).onConv c fun _ =>
      { v with settle := max v.settle (v.changes now), last := some now, lastPeriod := v.per,
               integ := if v.cfg.lockedW7 ∧ !atTurn then none else some 0 }

/-- A start reaches a converter (R504, R505): one that is busy counts it as ignored; one that is off runs nothing. -/
def Dev.startConv (d : Dev) (c : Fin 4) (cross : Option Nat) : Dev :=
  let v := d.sns.conv[c]
  if v.busy then d.onConv c fun v => { v with ignored := satNat 0xFFFF (v.ignored + 1) }
  else if v.cfg.mode = 2 then (d.onConv c fun v => { v with busy := true, idx := 0, cross := cross }).beginConv c false
  else d

/-- Start the converters of a mask (R505). -/
def Dev.startConvs (d : Dev) (mask : Nat) : Dev :=
  (List.finRange 4).foldl (fun e c => if bitAt mask c.val then e.startConv c none else e) d

/-- A converter that is idle adopts its settings at once; in continuous mode it begins (R504). -/
def Dev.settleConv (d : Dev) (c : Fin 4) : Dev :=
  if (d.sns.conv[c]).busy then d
  else
    let d1 := d.onConv c fun v => let w := v.adopt; if w.cfg.mode = 0 then { w with last := none, settle := 0 } else w
    if (d1.sns.conv[c]).cfg.mode = 1 then
      (d1.onConv c fun v => { v with busy := true, idx := 0, cross := none }).beginConv c false
    else d1

/-- CONVERTER_START: START bits of SNS_CTRL (R505). -/
def converterStart (a : Access) (v : Word) (d : Dev) : Dev :=
  d.write a (regAddr 0x60000) 4 v true fun e => (e.startConvs (v.toNat % 16), Res.ok)

def execConverterStart (a : Access) (v : Word) (s : State) : Host.Outcome State Fault Refusal :=
  .next (s.run (converterStart a v))

/-- The result code of R502. -/
def resultCode (packets cycles : Nat) : Nat := min 0xFFFFF ((packets * 2 ^ 20 + cycles / 2) / cycles)

/-- A settled result of pull `pull` is an open wire (R512). -/
def isOpen (pull thr code : Nat) : Bool :=
  (decide (pull = 1) && decide (16 * thr ≤ code)) || (decide (pull = 2) && decide (code ≤ 16 * thr))

/-- The no-load condition of R516. -/
def Dev.noLoad (d : Dev) (n code : Nat) : Bool :=
  let p : PortNo := Fin.ofNat 16 n
  decide (n < 16) && decide ((d.sns.inp[inputIx n]).cfg.kind = 1) &&
    decide (code < 16 * ((d.pairs.win[inputIx n]).committed.toNat % 65536)) && d.pins.pocEn.getLsbD p.val &&
    (d.sns.pocRise[p]).any fun t => decide (t + 50000000 ≤ d.whl.tim)

/-- What follows a delivered conversion: the SETTLING count, the next scan position, the end of a triggered pass
(R504, R506). -/
def Dev.nextConv (d : Dev) (c : Fin 4) : Dev :=
  let v := d.sns.conv[c]
  if 0 < v.settle then (d.onConv c fun v => { v with settle := v.settle - 1 }).beginConv c true
  else if v.idx + 1 < v.cfg.scan.length then (d.onConv c fun v => { v with idx := v.idx + 1 }).beginConv c true
  else if v.cfg.mode = 1 then (d.onConv c fun v => { v with idx := 0 }).beginConv c true
  else (d.onConv c fun v => { v with busy := false, idx := 0, integ := none, cross := none }).settleConv c

/-- An integration period of the converter can end now: one is under way, and a locked one has seen its k turns (R503). -/
def Conv.ending (v : Conv) : Bool :=
  v.busy && match v.integ with
    | some t => !v.cfg.lockedW7 || decide (v.cfg.turns ≤ t)
    | none => false

/-- CONVERSION_DONE: the result of N packets in M cycles is delivered (R502, R508, R509), judged for open wire and
no-load (R512, R516) and kept for the ageing trends (16 R561), and the converter goes on. -/
def conversionDone (c : Fin 4) (packets cycles : Nat) (d : Dev) : Dev :=
  let v := d.sns.conv[c]
  match v.last with
  | none => d
  | some (n, gain, pull) =>
    if !v.ending ∨ cycles = 0 then d
    else
      let code := resultCode packets cycles
      let settling := decide (0 < v.settle)
      let wire := !settling && isOpen pull (d.sns.inp[inputIx n]).cfg.openThr code
      let res := BitVec.ofNat 32 (2 ^ 31 + bit1 (v.res.getLsbD 31) * 2 ^ 30 + bit1 settling * 2 ^ 29 +
        bit1 v.cross.isSome * 2 ^ 28 + bit1 wire * 2 ^ 27 + gain * 2 ^ 25 + n * 2 ^ 20 + code)
      let d1 := d.onConv c fun v => { v with res := res, resTime := d.w0, resCross := v.cross }
      let d2 := if wire then d1.raise 12 n code else d1
      let d3 := if !settling && d2.noLoad n code then d2.raise 12 n code else d2
      let d4 := if !settling && decide (n < 16) then d3.onAge fun a => { a with lastCode := a.lastCode.set n (some code) } else d3
      d4.nextConv c

def execConversionDone (c : Fin 4) (packets cycles : Nat) (s : State) : Host.Outcome State Fault Refusal :=
  .next (s.run (conversionDone c packets cycles))

/-- What a read of SNS_RESn or SNS_DMAn does: the result word, and NEW and OVERRUN cleared and the times latched
(R508, R509). -/
def Dev.popResult (d : Dev) (c : Fin 4) : Dev × Word :=
  let v := d.sns.conv[c]
  (d.onConv c fun v => { v with res := v.res &&& 0x3FFFFFFF, ts := v.resTime, cts := v.resCross.getD 0 }, v.res)

/-- A read of SNS_DMAn: the result word and its nanoseconds, which SNS_DMAn_NS keeps (R509; 18 SNS). -/
def Dev.popDma (d : Dev) (c : Fin 4) : Dev × DWord :=
  let ns := nsWord (d.sns.conv[c]).resTime
  let r := d.popResult c
  (r.1.onConv c fun v => { v with dmaNs := ns }, ns ++ r.2)

/-- RESULT_READ (R508). -/
def resultRead (a : Access) (c : Fin 4) (d : Dev) : Dev :=
  if d.answersAt (.reg 0x60040) then
    let r := d.popResult c
    r.1.answer a 0 0 (r.2.zeroExtend 64)
  else d.answer a 2 0 0

def execResultRead (a : Access) (c : Fin 4) (s : State) : Host.Outcome State Fault Refusal := .next (s.run (resultRead a c))

/-- DMA_RESULT_READ (R509): the 8 bytes of SNS_DMAn, which only the management DMA may read in one beat; any other master's
32-bit read returns the result word (18 R585). -/
def dmaResultRead (a : Access) (c : Fin 4) (d : Dev) : Dev :=
  if d.answersAt (.reg 0x60048) then
    let r := d.popDma c
    r.1.answer a 0 0 (if a.master = .dma then r.2 else (loWord r.2).zeroExtend 64)
  else d.answer a 2 0 0

def execDmaResultRead (a : Access) (c : Fin 4) (s : State) : Host.Outcome State Fault Refusal :=
  .next (s.run (dmaResultRead a c))

/-! ### W7 turns -/

/-- A turn event paces the locked converters (R503). -/
def Conv.turn (v : Conv) : Conv :=
  if v.busy && v.cfg.lockedW7 then
    { v with integ := match v.integ with | some t => some (t + 1) | none => some 0 }
  else v

/-- W7_TURN: the phase wraps, the turn count rises and the locked converters are paced (12 R451). -/
def w7Turn (d : Dev) : Dev :=
  if d.whl.w7.period = 0 then d
  else
    (d.onWhl fun w => { w with w7 := { w.w7 with phase := 0, turn := w.w7.turn + 1 } }).onSns fun s =>
      { s with conv := s.conv.map Conv.turn }

def execW7Turn (s : State) : Host.Outcome State Fault Refusal := .next (s.run w7Turn)

/-! ### Comparators -/

/-- The power-fail warning (02 R73; 16 R551 bit 29, R569). -/
def Dev.powerFail (d : Dev) : Dev :=
  (d.powerFailSet.abortStage.report 29).onHist fun h => { h with powerFails := satNat 0xFFFFFFFF (h.powerFails + 1) }

/-- An over-current trip (R513): POC_EN low, TRIP latched, the trip counted and reported. -/
def Dev.tripPort (d : Dev) (p : PortNo) : Dev :=
  let d1 := d.onSns fun s =>
    { s with trip := s.trip ||| (1#16 <<< p.val), trips := upd s.trips p fun n => min 3 (n + 1) }
  (d1.setPoc d1.pins.pocEn).raise 12 p.val (d1.sns.trips[p])

/-- The trip action of the port is blanked (R514). -/
def Dev.isBlanked (d : Dev) (p : PortNo) : Bool :=
  d.sns.blanked.getLsbD p.val && (d.sns.pocRise[p]).any fun t => decide (d.whl.tim < t + 500000)

/-- The trip action of an input at a rising crossing (R513, R514). -/
def Dev.tripAction (d : Dev) (n : Fin 24) : Dev :=
  let c := (d.sns.inp[n]).cfg
  let p : PortNo := Fin.ofNat 16 n.val
  if n.val < 16 ∧ c.kind = 1 ∧ bitAt c.actions 0 ∧ !d.isBlanked p then d.tripPort p else d

/-- The power-fail input (02 R53) as a sense input (R499). -/
def Dev.pfInput (d : Dev) : Option Nat :=
  d.img.bind fun i => if i.pfInput ≤ 7 then some (16 + i.pfInput) else none

/-- COMPARATOR_CROSSING: the actions of the input's entry (R510), the source event of W7 (12 R450) and the power-fail
warning (R511). -/
def comparatorCrossing (n : Fin 24) (rising : Bool) (d : Dev) : Dev :=
  if !d.released then d
  else
    let d1 := d.onInput n fun i => { i with above := rising, below := !rising }
    let c := (d1.sns.inp[n]).cfg
    let d2 := if rising then d1.tripAction n else d1
    let d3 := if bitAt c.actions (if rising then 1 else 2) && decide (c.startConv ≤ 3) then
        d2.startConv (Fin.ofNat 4 c.startConv) (some d2.w0) else d2
    let d4 := if rising && decide (16 ≤ n.val) then d3.w7Input 1 (n.val - 16) else d3
    if !rising && decide (d4.pfInput = some n.val) then d4.powerFail else d4

def execComparatorCrossing (n : Fin 24) (rising : Bool) (s : State) : Host.Outcome State Fault Refusal :=
  .next (s.runM fun t => t.runPower (comparatorCrossing n rising))

/-- BLANKING_END: a level above the upper threshold counts as a rising crossing at that moment (R514). -/
def blankingEnd (p : PortNo) (above : Bool) (d : Dev) : Dev :=
  if d.sns.blanked.getLsbD p.val then
    let d1 := d.onSns fun s => { s with blanked := s.blanked &&& ~~~(1#16 <<< p.val) }
    let n : Fin 24 := ⟨p.val, by omega⟩
    if above then (d1.onInput n fun i => { i with above := true, below := false }).tripAction n else d1
  else d

def execBlankingEnd (p : PortNo) (above : Bool) (s : State) : Host.Outcome State Fault Refusal :=
  .next (s.runM fun t => t.runPower (blankingEnd p above))

/-- Ports whose live capture the mode calls for: those of the layout in force and of the one being adopted; none in Production
Test (03 R103) and in an orderly shutdown, which takes no new capture (03 R113). -/
def Dev.livePorts (d : Dev) : BitVec 16 :=
  if d.pathOn ∧ d.sys.mode ≠ .production ∧ d.sys.mode ≠ .shutdown then
    match d.img with
    | some i =>
      let of (id : Nat) : BitVec 16 := match i.layout id with | some l => i.layoutPorts l | none => 0
      of d.sys.activeLayout.toNat ||| (match d.lay.pending with | some id => of id | none => 0)
    | none => 0
  else 0

/-- TRIP_REENABLE: core 2 re-enables a tripped port while the mode calls for it; after the third trip it stays off
(R515). -/
def tripReenable (p : PortNo) (d : Dev) : Dev :=
  if d.sns.trip.getLsbD p.val ∧ d.sns.trips[p] < 3 ∧ d.livePorts.getLsbD p.val then
    let d1 := d.onSns fun s => { s with trip := s.trip &&& ~~~(1#16 <<< p.val) }
    d1.setPoc (d1.pins.pocEn ||| (1#16 <<< p.val))
  else d

def execTripReenable (p : PortNo) (s : State) : Host.Outcome State Fault Refusal := .next (s.run (tripReenable p))

end Sys2Proof.Machine
end

