-- ==== Sys2Proof/Machine/Saq.lean ====
section
/-! DEFINITION. The scheduled-action queue, and the samples that step a whorl and re-base its entries
(spec/12_whorls.md R417 to R420, R435, R437 to R442; 18 R594, R595). -/

namespace Sys2Proof.Machine

/-! ### Entries -/

/-- lead of an entry in ns (R437). -/
def SaqEntry.lead (e : SaqEntry) : Int := if e.action = 5 then 150000 else 0

/-- Increment of Wn in force, 2^-40 ns per TIM cycle; a source 4 whorl moves with its base (R434). -/
def Whl.incOfWhorl (w : Whl) (n : Nat) : Nat :=
  let own (k : Nat) : Nat := if k = 0 then 2 * accUnit else (w.servo[servoIx k]).inc
  if n ≠ 0 ∧ (w.cfgOf n).source = 4 then own (w.cfgOf n).base else own n

/-- Time in ns that Wn had reached before the present TIM cycle. -/
def Whl.before (w : Whl) (n : Nat) : Int := ((w.accOf n : Int) - w.incOfWhorl n) / accUnit

/-- due − lead has already passed in this TIM cycle (R440). -/
def Whl.passed (w : Whl) (e : SaqEntry) : Bool := decide (e.due - e.lead ≤ w.before e.whorl)

/-- Rounded up quotient. -/
def ceilDiv (x y : Int) : Int := -((-x) / y)

/-- The first point of a periodic entry's grid whose due − lead is not yet passed (R440, R441). -/
def Whl.firstGrid (w : Whl) (e : SaqEntry) : Int :=
  e.due + ceilDiv (w.before e.whorl + 1 + e.lead - e.due) e.period * e.period

/-- Put an entry. -/
def Dev.setSaq (d : Dev) (i : Fin 256) (e : Option SaqEntry) : Dev := d.onWhl fun w => { w with saq := upd w.saq i fun _ => e }

/-! ### Actions -/

/-- Slave time of a capture at `due` on Wn, in W0 ns: the remaining interval scaled by the present increment (R442). -/
def Whl.slaveTime (w : Whl) (n : Nat) (due : Int) : Nat :=
  ((2 * w.tim : Nat) + roundDiv ((due - w.nsOf n) * 2 ^ 41) (max 1 (w.incOfWhorl n))).toNat

/-- Strands of a CAPTURE entry: a sync group, or 0x80 plus a strand (R438; 18 WHL). -/
def Dev.captureStrands (d : Dev) (arg : Nat) : List StrandNo :=
  allStrands.filter fun n =>
    let c := d.capture n.val
    decide (c.mode = 1) && (if arg < 0x80 then decide (c.group = arg) else decide (n.val + 0x80 = arg))

/-- The action of an entry for its due time (R437). -/
def Dev.act (d : Dev) (e : SaqEntry) : Dev :=
  match e.action with
  | 1 => d.fireLayout (e.arg0.toNat % 16) (e.arg2 ++ e.arg1)
  | 2 => { d with pins := { d.pins with trigOut := (e.arg0.toNat % 4, e.arg0.toNat / 65536) :: d.pins.trigOut } }
  | 3 => d.startConvs (e.arg0.toNat % 16)
  | 4 => d.coreEvent (e.arg0.toNat % 4) (e.arg0.toNat / 65536)
  | 5 =>
    let t := d.whl.slaveTime e.whorl e.due
    (d.captureStrands (e.arg0.toNat % 256)).foldl (fun x n => x.startDue n ⟨t, t, false, none, false, 0⟩) d
  | _ => d

/-- SCHEDULED_ACTION: the entry acts; a periodic one moves forward by one period, a one-shot one is gone (R439). -/
def scheduledAction (i : Fin 256) (d : Dev) : Dev :=
  match d.whl.saq[i] with
  | none => d
  | some e => (d.setSaq i (if e.period = 0 then none else some { e with due := e.due + e.period })).act e

def execScheduledAction (i : Fin 256) (s : State) : Host.Outcome State Fault Refusal := .next (s.run (scheduledAction i))

/-- Code of a late event in core 1's event list: above the 16-bit EVENT codes (log 29). -/
def lateCode (i : Fin 256) : Nat := 65536 + i.val

/-- A late event of an entry (R440): lateness and count are kept, the late policy is applied, core 1 is told. -/
def Dev.lateEntry (d : Dev) (i : Fin 256) (e : SaqEntry) : Dev :=
  let late : Int := d.whl.nsOf e.whorl - (e.due - e.lead)
  let e1 := { e with lateness := satNat 0xFFFFFFFF late.toNat, lateCount := satNat 0xFFFF (e.lateCount + 1) }
  let next : Option SaqEntry :=
    if e.period = 0 ∨ e.policy = 1 then none else some { e1 with due := d.whl.firstGrid e }
  let d1 := (d.setSaq i next).coreEvent 1 (lateCode i)
  if e.policy = 0 then d1.act e else d1

/-- An entry that was added or that a step left late (R440). -/
def Dev.judgeEntry (d : Dev) (i : Fin 256) : Dev :=
  match d.whl.saq[i] with
  | some e => if d.whl.passed e then d.lateEntry i e else d
  | none => d

/-! ### Steps -/

/-- An entry of a whorl that has stepped by `delta` (R441). -/
def Whl.rebase (w : Whl) (delta : Int) (e : SaqEntry) : SaqEntry :=
  if !e.absolute then { e with due := e.due + delta }
  else if e.period = 0 then e
  else if w.passed e then e
  else { e with due := w.firstGrid e }

/-- Wn has stepped by `delta` ns: its entries are re-based and judged, in ascending index (R439 to R441). -/
def Dev.stepped (d : Dev) (n : Nat) (delta : Int) : Dev :=
  (List.finRange 256).foldl (fun e i =>
    match e.whl.saq[i] with
    | some x => if x.whorl = n then (e.setSaq i (some (e.whl.rebase delta x))).judgeEntry i else e
    | none => e) d

/-- One offset sample for Wn, with the step it makes (R417 to R420). -/
def Dev.sampleWhorl (d : Dev) (n : Nat) (theta : Int) : Dev :=
  let r := d.whl.sample n theta
  r.2.foldl (fun e p => e.stepped p.1 p.2) { d with whl := r.1 }

/-- SAMPLE_SUBMIT: core 1 writes the HI word of WHL_SAMPLE1 and submits one sample (R417; 18 WHL). -/
def sampleSubmit (a : Access) (hi : Word) (d : Dev) : Dev :=
  d.write a (regAddr 0x2016C) 4 hi true fun e =>
    if a.master = .core 1 then
      let r := e.joinLo a.master 0x20168 0 hi
      (r.1.sampleWhorl 1 r.2.toInt, Res.ok)
    else (e, Res.addrErr)

def execSampleSubmit (a : Access) (hi : Word) (s : State) : Host.Outcome State Fault Refusal :=
  .next (s.run (sampleSubmit a hi))

/-- PPS_IN_EDGE: a sample of every source 3 whorl (R435). -/
def ppsInEdge (d : Dev) : Dev :=
  [2, 3, 4, 5].foldl (fun e n =>
    if (e.whl.cfgOf n).source = 3 then
      let t : Int := e.whl.nsOf n
      e.sampleWhorl n (t - ((t + 500000000) / 1000000000 * 1000000000 + e.whl.cfg.ppsDelay))
    else e) d

def execPpsInEdge (s : State) : Host.Outcome State Fault Refusal := .next (s.run fun d => if d.released then ppsInEdge d else d)

/-! ### Commands -/

/-- Change a master's SAQ registers. -/
def Dev.onSaqRegs (d : Dev) (m : Master) (f : SaqRegs → SaqRegs) : Dev :=
  d.onWhl fun w => { w with saqRegs := upd w.saqRegs m.ix f }

/-- WHL_SAQ_RESULT. -/
def Dev.saqAnswer (d : Dev) (index code : Nat) : Dev :=
  d.onWhl fun w => { w with saqResult := BitVec.ofNat 32 (index * 256 + code) }

/-- The entry that a master's registers spell (18 WHL). -/
def SaqRegs.entry (r : SaqRegs) : SaqEntry :=
  let c := r.ctrl.toNat
  { whorl := c % 8, due := ((r.dueHi ++ r.dueLo : BitVec 64).toNat * 1000000000 + r.dueNs.toNat : Nat),
    period := (r.periodHi ++ r.periodLo : BitVec 64).toNat, absolute := r.ctrl.getLsbD 4, policy := c / 32 % 4,
    action := c / 256 % 16, arg0 := r.arg0, arg1 := r.arg1, arg2 := r.arg2, lateness := 0, lateCount := 0 }

/-- ADD answers INVALID (R594). -/
def SaqEntry.invalid (e : SaqEntry) : Bool :=
  decide (5 < e.whorl) || decide (e.action = 0) || decide (4 < e.action) || decide (e.policy = 3) ||
    (decide (e.action = 1) && decide (15 < e.arg0.toNat))

/-- The lowest free entry from 32 on. -/
def Whl.freeEntry (w : Whl) : Option (Fin 256) :=
  (List.finRange 256).find? fun i => decide (32 ≤ i.val) && decide (w.saq[i] = none)

/-- ADD (R438, R440, R594). -/
def Dev.saqAddFor (d : Dev) (m : Master) : Dev :=
  let e := (d.whl.saqRegs[m.ix]).entry
  if e.invalid then d.saqAnswer 0 4
  else match d.whl.freeEntry with
    | none => d.saqAnswer 0 1
    | some i => ((d.setSaq i (some e)).saqAnswer i.val 0).judgeEntry i

/-- Entry that a master's WHL_SAQ_SEL selects. -/
def Dev.saqSel (d : Dev) (m : Master) : Fin 256 := Fin.ofNat 256 (d.whl.saqRegs[m.ix]).sel.toNat

/-- REMOVE (R594). -/
def Dev.saqRemoveFor (d : Dev) (m : Master) : Dev :=
  let i := d.saqSel m
  if i.val < 32 then d.saqAnswer 0 2
  else if d.whl.saq[i] = none then d.saqAnswer 0 3
  else (d.setSaq i none).saqAnswer 0 0

/-- A master's registers as READ leaves them (R594); an entry that does not exist shows VALID clear and zeros (log 29). -/
def SaqRegs.show (r : SaqRegs) (o : Option SaqEntry) : SaqRegs :=
  match o with
  | none => { SaqRegs.reset with sel := r.sel }
  | some e =>
    let sec := BitVec.ofInt 64 (e.due / 1000000000)
    let per := BitVec.ofNat 64 e.period
    { sel := r.sel,
      ctrl := BitVec.ofNat 32 (2 ^ 31 + e.action * 256 + e.policy * 32 + bit1 e.absolute * 16 + e.whorl),
      dueLo := loWord sec, dueHi := hiWord sec, dueNs := BitVec.ofInt 32 (e.due % 1000000000),
      periodLo := loWord per, periodHi := hiWord per, arg0 := e.arg0, arg1 := e.arg1, arg2 := e.arg2,
      lateness := BitVec.ofNat 32 e.lateness, lateCount := BitVec.ofNat 32 e.lateCount }

/-- READ (R594). -/
def Dev.saqReadFor (d : Dev) (m : Master) : Dev :=
  let o := d.whl.saq[d.saqSel m]
  (d.onSaqRegs m fun r => r.show o).saqAnswer 0 (if o.isSome then 0 else 3)

/-- A write of WHL_SAQ_CMD. -/
def saqCommand (a : Access) (v : Word) (f : Dev → Master → Dev) (d : Dev) : Dev :=
  d.write a (regAddr 0x20804) 4 v true fun e => (f e a.master, Res.ok)

def execSaqAdd (a : Access) (s : State) : Host.Outcome State Fault Refusal := .next (s.run (saqCommand a 1 Dev.saqAddFor))

def execSaqRemove (a : Access) (s : State) : Host.Outcome State Fault Refusal := .next (s.run (saqCommand a 2 Dev.saqRemoveFor))

def execSaqRead (a : Access) (s : State) : Host.Outcome State Fault Refusal := .next (s.run (saqCommand a 3 Dev.saqReadFor))

/-! ### CAPTURE entries (R438) -/

/-- A CAPTURE entry for a strand's timing: periodic, ABSOLUTE, NEXT. -/
def captureEntry (c : CaptureCfg) (arg : Nat) : SaqEntry :=
  { whorl := c.whorl, due := c.phase, period := c.period, absolute := true, policy := 2, action := 5,
    arg0 := BitVec.ofNat 32 arg, arg1 := 0, arg2 := 0, lateness := 0, lateCount := 0 }

/-- The CAPTURE entries of an image, one per sync group and per ungrouped mode 1 strand, in the order of their first
strand (log 29). -/
def Image.captureEntries (i : Image) : List SaqEntry :=
  let ns := i.maskedStrands.filter fun n => decide ((nth i.captures n ⟨0, 0, 0xFF, 0xFF, 0, 0, 0, 0⟩).mode = 1)
  let args := ns.map fun n =>
    let c := nth i.captures n ⟨0, 0, 0xFF, 0xFF, 0, 0, 0, 0⟩
    (c, if c.group ≤ 7 then c.group else 0x80 + n)
  let firsts := (args.zipIdx).filter fun p => !((args.take p.2).any fun q => decide (q.2 = p.1.2))
  (firsts.map fun p => captureEntry p.1.1 p.1.2).take 32

/-- Place them at entries 0 to 31, each due at the first grid point not yet passed (R169, R438). -/
def Dev.placeCaptures (d : Dev) : Dev :=
  match d.img with
  | some i =>
    (i.captureEntries.zipIdx).foldl (fun e p =>
      e.setSaq (Fin.ofNat 256 p.2) (some { p.1 with due := e.whl.firstGrid p.1 })) d
  | none => d

end Sys2Proof.Machine
end

