-- ==== Sys2Proof/Machine/Boot.lean ====
section
/-! DEFINITION. Resets, the start path, bank selection and image load (spec/03_start_modes_bypass.md R81 to R92, R105 to R112;
02 R59, R60, R66, R80; 09 R328, R329; 13 R456; 16 R553, R567, R569; 19 R601, R606). -/

namespace Sys2Proof.Machine

/-! ### Resets (R81) -/

/-- The memories after a reset: the NVM keeps its contents, the others list nothing (log 5). -/
def Mem.afterReset (m : Mem) : Mem := { Mem.reset with nvm := m.nvm }

/-- Everything but the AON domain (R81), with what is no state of the block kept: the environment's NVM and clock
advance, and the count of free values taken. SYS_FAULT_SUM lies in AON (18 R589). -/
def Dev.wipe (d : Dev) : Dev :=
  { Dev.reset with
    freeIdx := d.freeIdx, idleCycles := d.idleCycles, aon := d.aon, sys := { Sys.reset with fault := d.sys.fault },
    nvm := { Nvm.reset with sfdp := d.nvm.sfdp, sizeMiB := d.nvm.sizeMiB } }

/-- The ring path in a PORST_N, software or JTAG reset (R105): the retimer, and where the external switch is closed the
order of R106. -/
def heldTier (refclk : Bool) (t : RingTier) : RingTier :=
  match t with
  | .full => .retimer
  | .bypass => if refclk then .opening else .bypass
  | x => x

/-- PORST_N, software and JTAG resets: everything but the AON domain, the ring lanes and the retimer (R81); the TAP keeps its
state (IEEE 1149.1, log 10). Bit `b` of SYS_RST_CAUSE records the source. -/
def Dev.hold (d : Dev) (b : Nat) : Dev :=
  let e := d.wipe
  { e with
    aon := { d.aon with phase := .reset, cause := d.aon.cause ||| (1#5 <<< b),
                        tier := d.aon.tier.map (heldTier d.aon.refclk) },
    skn := { e.skn with ports := d.skn.ports },
    jtag := d.jtag }

/-- POWER_ON_RESET: the whole device, the AON domain included (R81). -/
def powerOnReset (s : State) : State :=
  { s with
    dev := { Dev.reset with
      freeIdx := s.dev.freeIdx, idleCycles := s.dev.idleCycles,
      nvm := { Nvm.reset with sfdp := s.dev.nvm.sfdp, sizeMiB := s.dev.nvm.sizeMiB } },
    mem := s.mem.afterReset }

def execPowerOnReset (s : State) : Host.Outcome State Fault Refusal := .next (s.runM powerOnReset)

/-- BROWN_OUT: everything but the AON domain, and both switches closed (R81, R108); counted at the next start (16 R569). -/
def brownOut (s : State) : State :=
  let d := s.dev
  { s with
    dev := { d.wipe with aon := { d.aon with phase := .powerReset, cause := d.aon.cause ||| 2,
                                             tier := Vector.replicate 2 .bypass, fromBrownOut := true } },
    mem := s.mem.afterReset }

def execBrownOut (s : State) : Host.Outcome State Fault Refusal := .next (s.runM brownOut)

/-- PORST_N_ASSERT (R81); while the AON supervisor holds its own reset PORST_N adds nothing. -/
def porstAssert (s : State) : State :=
  if s.dev.aon.phase = .powerReset then s else { s with dev := s.dev.hold 2, mem := s.mem.afterReset }

def execPorstAssert (s : State) : Host.Outcome State Fault Refusal := .next (s.runM porstAssert)

/-- The order of R106 begins on each ring whose switch is closed. -/
def Dev.openRings (d : Dev) : Dev :=
  { d with aon := { d.aon with tier := d.aon.tier.map fun t => if t = .bypass then .opening else t } }

/-- POWER_ON_RESET_RELEASE: the AON supervisor releases its reset (19 R601); PORST_N still holds the device. -/
def powerOnResetRelease (d : Dev) : Dev :=
  if d.aon.phase = .powerReset then
    let e := { d with aon := { d.aon with phase := .reset } }
    if e.aon.refclk then e.openRings else e
  else d

def execPowerOnResetRelease (s : State) : Host.Outcome State Fault Refusal := .next (s.run powerOnResetRelease)

/-- REFCLK_VALID: REFCLK meets R610; the retimer bring-up starts where the power-on reset is released (R106). -/
def refclkValid (d : Dev) : Dev :=
  let e := { d with aon := { d.aon with refclk := true } }
  if d.aon.phase = .powerReset ∨ d.skn.stopped then e else e.openRings

def execRefclkValid (s : State) : Host.Outcome State Fault Refusal := .next (s.run refclkValid)

/-- PLL_FAILURE: FAULT_N falls without help from another domain, and CLOCK is set (16 R551, R553). -/
def pllFailure (d : Dev) : Dev := { d with aon := { d.aon with refclk := false } }

def execPllFailure (s : State) : Host.Outcome State Fault Refusal := .next (s.run pllFailure)

/-- RETIMER_LOCK: both receivers of a ring locked; in a running state full participation follows at once (R105, R106). -/
def retimerLock (ringB : Bool) (d : Dev) : Dev :=
  let r := ringIx ringB
  if d.aon.tier[r] = .opening then
    { d with aon := { d.aon with tier := upd d.aon.tier r fun _ => if d.pathRuns then .full else .retimer },
             skn := { d.skn with retimerSeen := true } }
  else d

def execRetimerLock (ringB : Bool) (s : State) : Host.Outcome State Fault Refusal := .next (s.run (retimerLock ringB))

/-! ### The start path (R82 to R86) -/

/-- Rings in the retimer tier take part in full (R86 step 6; R105). -/
def Dev.takePart (d : Dev) : Dev :=
  { d with aon := { d.aon with tier := d.aon.tier.map fun t => if t = .retimer then .full else t },
           skn := { d.skn with retimerSeen := d.skn.retimerSeen || d.aon.tier.any fun t => decide (t = .retimer) } }

/-- Role from the pinned node IDs and the segment table (13 R453, R456); a conflict leaves a dual node and is reported. -/
def Dev.takeRole (d : Dev) : Dev :=
  let a := d.skn.pins[0]
  let b := d.skn.pins[1]
  let differ : Bool := decide (a ≠ 0xFFFF) && decide (b ≠ 0xFFFF) && decide (segOf a ≠ segOf b)
  let fits : Bool := decide (d.segEntry (segOf b) = (segOf a, posOf a)) && decide (posOf b = 0)
  let e := d.onSkn fun k =>
    { k with junction := differ && fits,
             ids := #v[if a = 0xFFFF then none else some a, if differ && fits then some b else none] }
  if differ && !fits then e.raise 21 (posOf a) 0 else e

/-- Coefficients from which the lanes outside the creel ports start (02 R64; 03 R93): the ring lanes train at rate code 1 (13 R458);
for the ply return lane and Ethernet, of one rate each, the spec gives no code and any valid seed is used (DESIGN CHOICE, log 43). -/
def laneStarts (seeds : List EqSeed) : Vector (Option EqCoeffs) 6 :=
  Vector.ofFn fun k =>
    let e := nth seeds (16 + k.val) EqSeed.none
    let ring : Bool := decide (1 ≤ k.val) && decide (k.val ≤ 4)
    if e.valid && (!ring || decide (e.rate = 1)) then some e.coeffs else none

/-- Step 4 of R86: the journal in force (02 R66, R67, R632), the start counted (16 R569), the pairs and pins that take
journal values (02 R79; 13 R457), the clocks and the voltage of the plan (16 R567; 19 R606). -/
def Dev.readJournal (d : Dev) (m : Mem) : Dev :=
  let x := m.scanJournal d.nvm.fitted
  let j := x.1
  let e := { d with
    jnl := j,
    age := { d.age with startPlan := j.plan },
    pairs := { d.pairs with
      nvmPin := ⟨BitVec.ofNat 32 j.pin, BitVec.ofNat 32 j.pin⟩,
      sknPinA := ⟨j.nodes[0].zeroExtend 32, j.nodes[0].zeroExtend 32⟩,
      sknPinB := ⟨j.nodes[1].zeroExtend 32, j.nodes[1].zeroExtend 32⟩ },
    skn := { d.skn with pins := j.nodes },
    spn := { d.spn with spa := j.plan.spa, spb := j.plan.spb },
    sys := { d.sys with laneStart := laneStarts j.eqSeeds },
    aon := { d.aon with fromBrownOut := false } }
  let e1 := e.onHist fun h =>
    { h with starts := (h.starts + 1) % 2 ^ 32, brownOuts := if d.aon.fromBrownOut then (h.brownOuts + 1) % 2 ^ 32 else h.brownOuts }
  let e2 := x.2.foldl Dev.report e1
  if j.plan.valid then e2.commandAvs j.plan.avs else e2

/-- The image banks of a fitted NVM; an absent one reads erased (02 R46). -/
def Dev.banks (d : Dev) (m : Mem) : Mem := if d.nvm.fitted then m else { m with nvm := [] }

/-- The ROM safe personality begins (R111), with the active and inactive banks of R80. -/
def Dev.enterRomSafe (d : Dev) (m : Mem) : Dev :=
  let firstB := (d.banks m).firstB d.jnl.pin
  let b := (d.banks m).bank firstB
  let e := (d.onNvm fun v =>
    { v with booted := 0, inactiveB := !firstB, activeSeq := if b.cp 0x28 4 then b.n 0x28 4 else 0 }).takePart
  { e with aon := { e.aon with phase := .romSafe } }.takeRole

/-- Step 5 of R86: the banks are judged in the R59 order with the usable frame store, none while it is untrained. A bank with a
valid magic that fails, or a pinned bank that is not booted, is reported (R60). -/
def Dev.chooseBank (d : Dev) (m : Mem) (cap : Option Nat) : Dev :=
  let x := (d.banks m).selectBank d.jnl.pin cap
  let failed (c : BitVec 4) : Bool := decide (1 ≤ c.toNat) && decide (c.toNat ≤ 12)
  let pinMissed : Bool :=
    match x.2 with
    | some b => (decide (d.jnl.pin = 1) && b) || (decide (d.jnl.pin = 2) && !b)
    | none => decide (d.jnl.pin = 1 ∨ d.jnl.pin = 2)
  let e := d.onNvm fun v => { v with codes := x.1 }
  let e1 := if failed x.1[0] || failed x.1[1] || pinMissed then e.report 1 else e
  match x.2 with
  | some b => e1.onNvm fun v => { v with booted := if b then 2 else 1, inactiveB := !b }
  | none => e1.enterRomSafe m

/-- The NVM is brought up (02 R45): the reset pair 0x66, 0x99 and the SFDP read 0x5A in 1S-1S-1S mode, then each
configuration-register write of the switch sequence after a write enable, and 8D-8D-8D mode with the codes of the Profile
1.0 table from then on. Without a usable SFDP table the NVM counts as absent and gets no further command (R46). -/
def Nvm.bringUp (v : Nvm) : Nvm :=
  let first : List NvmCmd := [⟨.single, 0x66, []⟩, ⟨.single, 0x99, []⟩, ⟨.single, 0x5A, []⟩]
  let p := Config.nvmProfile
  if v.fitted then
    { v with mode := .octal, profile := some p,
             issued := first ++ p.enter8D.flatMap fun w => [⟨.single, p.writeEnable, []⟩, ⟨.single, w.1, w.2⟩] }
  else { v with mode := .single, profile := none, issued := first }

/-- Steps 1 to 5 of R86 after a reset with the straps sampled (R82, R83). The spindle states follow the margin plan at once, and
the image's spare count once it is loaded (07 R256). -/
def Dev.startPath (d : Dev) (m : Mem) (bootSel i2ca : BitVec 2) : Dev :=
  let d1 := { d with
    aon := { d.aon with bootSel := bootSel, i2ca := i2ca, refclk := true, phase := .loading },
    whl := ({ d.whl with tim := 0 }).startServos,
    chk := bootUnits,
    nvm := d.nvm.bringUp,
    sys := { d.sys with coreRun := upd d.sys.coreRun 3 fun _ => true } }
  let d0 := ((if d.aon.refclk then d1 else d1.openRings).commandAvs 850).readJournal m
  let d2 := d0.assignStates d0.jnl.plan.retired
  match bootSel with
  | 2 =>
    let e := ({ d2 with aon := { d2.aon with phase := .production } }).takePart
    { e with sys := { e.sys with mode := .production } }.takeRole
  | 3 => d2.enterRomSafe m
  | _ => d2.chooseBank m none

/-- PORST_N_RELEASE (R82, R86). -/
def porstRelease (bootSel i2ca : BitVec 2) (m : Mem) (d : Dev) : Dev :=
  if d.aon.phase = .reset then d.startPath m bootSel i2ca else d

def execPorstRelease (bootSel i2ca : BitVec 2) (s : State) : Host.Outcome State Fault Refusal :=
  .next (s.runR (porstRelease bootSel i2ca))

/-- FRAME_STORE_TRAINED: the usable capacity is known, and the bank check of R58 is completed with it (09 R326 to R330). -/
def frameStoreTrained (gib : Nat) (ok : Bool) (m : Mem) (d : Dev) : Dev :=
  if !d.released || d.fst.trained then d
  else
    let e := { d with fst := { d.fst with gib := gib, trained := ok } }
    if d.aon.phase = .loading then e.chooseBank m (some e.fst.usable) else e

def execFrameStoreTrained (gib : Nat) (ok : Bool) (s : State) : Host.Outcome State Fault Refusal :=
  .next (s.runR (frameStoreTrained gib ok))

/-! ### Image load (R86 steps 5 and 6) -/

/-- Sense settings and windows of the image; continuous converters begin (14 R500, R504, R511; 18 R590). -/
def Dev.loadSense (d : Dev) (i : Image) : Dev :=
  let win (k : Nat) : Pair 32 :=
    let c := nth i.inputs k InputCfg.off
    let v : Word := BitVec.ofNat 32 (c.upper % 65536 * 65536 + c.lower % 65536)
    ⟨v, v⟩
  let e := { d with
    pairs := { d.pairs with win := Vector.ofFn fun k => win k.val },
    sns := { d.sns with
      conv := Vector.ofFn fun k =>
        { d.sns.conv[k] with cfg := nth i.convs k.val ConvCfg.off, scanRaw := (nth i.convs k.val ConvCfg.off).scanWord },
      inp := Vector.ofFn fun k => { d.sns.inp[k] with cfg := nth i.inputs k.val InputCfg.off } } }
  (List.finRange 4).foldl (fun x c => x.settleConv c) e

/-- What the booted image sets: ring bases (09 R329), check units (15 R537), whorls (12 R413, R418), W7, the role on the
ring (13 R456), sense inputs, CAPTURE entries (12 R438) and spindle states (07 R256). -/
def Dev.loadImage (d : Dev) (i : Image) : Dev :=
  let e := { d with
    img := some i,
    fst := { d.fst with bases := i.allocation.1 },
    nvm := { d.nvm with inactiveB := !i.bankB, activeSeq := i.sequence },
    whl := ({ d.whl with cfg := i.time, w7 := { d.whl.w7 with period := if i.time.w7Source = 0 then 0 else i.time.w7Period } }).startServos }
  ((((e.bindUnits i.binds).takeRole).loadSense i).placeCaptures).assignStates d.jnl.plan.retired

/-- First mode of the order Drive, Survey, Depot that a layout allows (R83). -/
def LayoutCfg.firstMode (l : LayoutCfg) : Option Mode := [Mode.drive, .survey, .depot].find? fun m => l.allows m

/-- The start goes on with the default layout: Warm-up under BOOT_SEL 0b00, Standby under 0b01 (R83); ply training starts
(R86 step 6). A default layout that is not admitted is reported and Standby remains (log 19). -/
def Dev.startModes (d : Dev) (i : Image) : Dev :=
  if d.aon.bootSel = 1 then d.trainPly
  else
    match d.layoutCfg i.defaultLayout with
    | none => d.trainPly
    | some l =>
      match l.firstMode with
      | none => d.trainPly
      | some m => if d.canSwitch l then d.enterWarmup m l else (d.raise 23 l.id 0).trainPly

/-- IMAGE_LOAD_DONE: the end of step 5 and step 6 of R86. An orderly shutdown accepted before ends the start (R100, R113). -/
def imageLoadDone (m : Mem) (d : Dev) : Dev :=
  if d.aon.phase = .loading ∧ d.sys.mode ≠ .shutdown ∧ d.fst.trained ∧ d.nvm.booted ≠ 0 then
    let i := ((d.banks m).bank (decide (d.nvm.booted = 2))).image (decide (d.nvm.booted = 2))
    let e := (d.loadImage i).takePart
    ({ e with aon := { e.aon with phase := .running } }.releaseCores).startModes i
  else d

def execImageLoadDone (s : State) : Host.Outcome State Fault Refusal := .next (s.runR imageLoadDone)

/-! ### Software and JTAG reset (R81, R82) -/

/-- A reset of source `b` and the start that follows with the straps as sampled at its end; the answer of the access that
caused it has gone out. -/
def State.restart (s : State) (b : Nat) (bootSel i2ca : BitVec 2) : State :=
  let m := s.mem.afterReset
  let d := (s.dev.hold b).startPath m bootSel i2ca
  { s with dev := d.onBus fun x => { x with answer := s.dev.bus.answer }, mem := m }

/-- A master whose commit of SYS_SWRST_C is refused: a control core, or the DMA that acts for them (18 SYS). -/
def Master.noReset : Master → Bool
  | .core _ | .dma => true
  | _ => false

/-- A write of SYS_SWRST_C starts the reset: a commit of 1 from a diagnostic path that is accepted (18 SYS, R592). -/
def Dev.swrstFires (d : Dev) (a : Access) (v : Word) : Bool :=
  d.accepts a (regAddr 0x1C) v && !Master.noReset a.master && decide (v = ~~~d.pairs.swrst.pending) &&
    d.pairs.swrst.pending.getLsbD 0

/-- The pair of SYS_SWRST: a commit from a core or the DMA answers ADDR_ERR and changes nothing (18 SYS). -/
def Dev.swrstCommit (d : Dev) (a : Access) (v : Word) : Dev × Res :=
  if Master.noReset a.master ∧ v = ~~~d.pairs.swrst.pending then (d, Res.addrErr)
  else d.commitPair a 0x1C d.pairs.swrst v (fun x p => { x with pairs := { x.pairs with swrst := p } }) fun x _ => (x, Res.ok)

/-- A write of SYS_SWRST_C with the straps that the reset it may cause samples. -/
def softwareReset (a : Access) (v : Word) (bootSel i2ca : BitVec 2) (s : State) : State :=
  let t := { s with dev := s.dev.write a (regAddr 0x1C) 4 v true fun e => e.swrstCommit a v }
  if s.dev.swrstFires a v then t.restart 3 bootSel i2ca else t

/-- SOFTWARE_RESET (R81; 18 SYS). -/
def execSoftwareReset (a : Access) (v : Word) (bootSel i2ca : BitVec 2) (s : State) : Host.Outcome State Fault Refusal :=
  .next (s.runM (softwareReset a v bootSel i2ca))

/-- SYSRST: the JTAG system reset (R81; 17 R583). While the AON supervisor or PORST_N holds the device it adds only its
cause bit. -/
def sysrst (bootSel i2ca : BitVec 2) (s : State) : State :=
  let j := s.dev.jtagTake .sysrst 0 false false
  if j.released then { s with dev := j }.restart 4 bootSel i2ca
  else { s with dev := { j with aon := { j.aon with cause := if j.aon.phase = .reset then j.aon.cause ||| 16 else j.aon.cause } } }

def execSysrst (bootSel i2ca : BitVec 2) (s : State) : Host.Outcome State Fault Refusal :=
  .next (s.runM (sysrst bootSel i2ca))

end Sys2Proof.Machine
end

