-- ==== Sys2Proof/Machine/Ring.lean ====
section
/-! DEFINITION. Ring ports, link delay, ring time, enumeration and the audit token (spec/13_skein_ring.md R456 to R469,
R491 to R498; 12 R430 to R433; 03 R109; log 34). -/

namespace Sys2Proof.Machine

/-! ### Ports (R458, R459) -/

/-- RING_PORT_UP: four consecutive error-free idle blocks after TS2, with the coefficients the equaliser reached. -/
def ringPortUp (port : Fin 4) (c : EqCoeffs) (d : Dev) : Dev :=
  let t := d.aon.tier[ringOf port]
  if (t = .retimer ∨ t = .full) ∧ !d.skn.stopped ∧ d.laneServes (ringLane port) ∧ !(d.skn.ports[port]).up then
    let d1 := d.onRPort port fun x => { x with up := true, coeffs := some c, attempts := 0 }
    ({ d1 with jnl := { d1.jnl with changed := true } }).linkChanged port true
  else d

def execRingPortUp (port : Fin 4) (c : EqCoeffs) (s : State) : Host.Outcome State Fault Refusal :=
  .next (s.run (ringPortUp port c))

/-- RING_PORT_LOSS: the port loses lock and retrains (R458). -/
def execRingPortLoss (port : Fin 4) (s : State) : Host.Outcome State Fault Refusal := .next (s.run fun d => d.ringDown port)

/-- RING_PORT_RETRY: a port that is down tries again 10 ms after a failed attempt (R458). -/
def ringPortRetry (port : Fin 4) (d : Dev) : Dev :=
  if (d.skn.ports[port]).up then d else d.onRPort port fun x => { x with attempts := x.attempts + 1 }

def execRingPortRetry (port : Fin 4) (s : State) : Host.Outcome State Fault Refusal := .next (s.run (ringPortRetry port))

/-- A message without a destination that leaves a port. -/
def hopMsg (port : Fin 4) (h : MsgHead) (mtype : Byte) (payload : List Byte) : RingMsg :=
  { mtype := mtype, west := decide (port.val % 2 = 1), wrapped := false, ringB := decide (ringOf port = 1), hops := h.hops, tag := 0,
    dest := 0xFFFF, src := h.src, addr := 0, len := payload.length, code := 0, detail := 0, payload := payload }

/-- A message between neighbours, from this port. -/
def Dev.linkMsg (d : Dev) (port : Fin 4) (mtype : Byte) (payload : List Byte) : Dev :=
  d.putMsg port (hopMsg port ⟨d.nodeId (ringOf port), 0⟩ mtype payload)

/-- The port opposite to one, on the same interface. -/
def acrossPort (port : Fin 4) : Fin 4 := portFor (ringOf port) (decide (port.val % 2 = 0))

/-- In the retimer tier a message passes to the opposite port unchanged; in any other tier nothing happens (03 R109). -/
def Dev.retime (d : Dev) (port : Fin 4) (m : RingMsg) : Dev :=
  if d.aon.tier[ringOf port] = .retimer then d.putMsg (acrossPort port) m else d

/-- LDLY_SEND: every 100 ms an up port asks its neighbour (R459). -/
def ldlySend (port : Fin 4) (d : Dev) : Dev :=
  if d.ringIn port then (d.onRPort port fun x => { x with ldlyT1 := some d.w0 }).linkMsg port 0x11 [] else d

def execLdlySend (port : Fin 4) (s : State) : Host.Outcome State Fault Refusal := .next (s.run (ldlySend port))

/-- LDLY_REQ: answered with t2 and t3; a command takes no time, so both are W0 now (R459; log 34). -/
def ldlyReq (port : Fin 4) (m : RingMsg) (d : Dev) : Dev :=
  if d.ringIn port then d.linkMsg port 0x12 (le 8 d.w0 ++ le 8 d.w0) else d.retime port m

def execLdlyReq (port : Fin 4) (m : RingMsg) (s : State) : Host.Outcome State Fault Refusal := .next (s.run (ldlyReq port m))

/-- LDLY_RESP: one measurement of twice the link delay, the last eight kept (R459). -/
def ldlyResp (port : Fin 4) (head : MsgHead) (t2 t3 : Nat) (d : Dev) : Dev :=
  if d.ringIn port then
    match (d.skn.ports[port]).ldlyT1 with
    | some t1 =>
      d.onRPort port fun x =>
        { x with ldlyT1 := none, delays := ((((d.w0 : Int) - t1) - ((t3 : Int) - t2)) :: x.delays).take 8 }
    | none => d
  else d.retime port (hopMsg (acrossPort port) head 0x12 (le 8 t2 ++ le 8 t3))

def execLdlyResp (x : Arrival) (t2 t3 : Nat) (s : State) : Host.Outcome State Fault Refusal :=
  .next (s.run (ldlyResp x.port x.head t2 t3))

/-- Link delay of a port in 2^-16 ns: the mean of its last eight measurements (R459), 0 before the first. -/
def RPort.delay (x : RPort) : Int :=
  if x.delays.isEmpty then 0 else roundDiv (x.delays.foldl (· + ·) 0 * 65536) (2 * x.delays.length)

/-! ### Transit (R463) -/

/-- A TIME message with a time added to its correction field, the eight bytes from 0x10 of its payload (R468); any other message
is itself. -/
def addCorr (m : RingMsg) (residence : Nat) : RingMsg :=
  if m.mtype = 0x10 then
    { m with payload := m.payload.take 16 ++ le 8 (fromLe ((m.payload.drop 16).take 8) + residence) ++ m.payload.drop 24 }
  else m

/-- RING_TRANSIT: a message not addressed to the node passes to the opposite port; in the retimer tier unchanged, but for
the residence added to a TIME correction (03 R109). -/
def ringTransit (port : Fin 4) (m : RingMsg) (residence : Nat) (d : Dev) : Dev :=
  if d.ringIn port then d.passOn port m else d.retime port (addCorr m residence)

def execRingTransit (port : Fin 4) (m : RingMsg) (residence : Nat) (s : State) : Host.Outcome State Fault Refusal :=
  .next (s.run (ringTransit port m residence))

/-! ### Ring time (R468, R469; 12 R430, R431, R433) -/

/-- The TIME payload (R468). -/
def timeBytes (t : TimeMsg) : List Byte :=
  t.origin.bytes ++ leInt 8 t.corr ++ le 2 t.node.toNat ++ le 1 t.hops ++ le 1 t.quality ++ le 4 t.seq

/-- In queue mode a port keeps the timestamp of each TIME message in its 16-entry queue (12 R427, R433). -/
def Dev.ringStamp (d : Dev) (port : Fin 4) (seq : Nat) : Dev :=
  if d.whl.cfg.ringQueueMode then
    d.onRPort port fun x =>
      if x.tsq.length < 16 then { x with tsq := x.tsq ++ [⟨0x10, BitVec.ofNat 16 seq, d.whl.timeNow 2⟩] }
      else { x with tsqOvf := true }
  else d

/-- Send a TIME message on an up port. -/
def Dev.sendTime (d : Dev) (port : Fin 4) (head : MsgHead) (t : TimeMsg) : Dev :=
  if (d.skn.ports[port]).up then (d.putMsg port (hopMsg port head 0x10 (timeBytes t))).ringStamp port t.seq else d

/-- The node originates ring time on an interface: W2 source not 2, or a junction for its child segment (12 R431; R469). -/
def Dev.timeOrigin (d : Dev) (r : Fin 2) : Bool :=
  d.ringOn r && decide (d.nodeId r ≠ 0xFFFF) && (decide ((d.whl.cfgOf 2).source ≠ 2) || (d.skn.junction && decide (r = 1)))

/-- TIME_ORIGINATE: every 10 ms, in both directions on each interface (R468). -/
def timeOriginate (d : Dev) : Dev :=
  let t (r : Fin 2) : TimeMsg := ⟨d.whl.timeNow 2, 0, d.nodeId r, 0, d.whl.quality 2, d.skn.timeSeq⟩
  let one (e : Dev) (r : Fin 2) : Dev :=
    let h : MsgHead := ⟨d.nodeId r, 0⟩
    if d.timeOrigin r then (e.sendTime (portFor r false) h (t r)).sendTime (portFor r true) h (t r) else e
  if d.timeOrigin 0 || d.timeOrigin 1 then
    ((one (one d 0) 1)).onSkn fun k => { k with timeSeq := (k.timeSeq + 1) % 2 ^ 32 }
  else d

def execTimeOriginate (s : State) : Host.Outcome State Fault Refusal := .next (s.run timeOriginate)

/-- A copy replaces the best one known: fewer hops, ring A east on a tie (12 R431). -/
def bestCopy (port : Fin 4) (hops : Nat) (f : Half × Nat × Nat × Fin 4) : Bool :=
  decide (hops < f.2.2.1) || (decide (hops = f.2.2.1) && decide (port = 0))

/-- What a TIME message does to the choice of originator and copy (R469; 12 R431; log 34): the choice after it, and whether
W2 takes a sample from it. In HOLDOVER the originator followed so far is given up. -/
def Dev.chooseTime (d : Dev) (port : Fin 4) (t : TimeMsg) : Option (Half × Nat × Nat × Fin 4) × Bool :=
  let now := (t.node, t.seq, t.hops, port)
  match d.skn.follow with
  | none => (some now, true)
  | some f =>
    if posOf t.node < posOf f.1 ∨ (d.whl.servo[servoIx 2]).st = .holdover then (some now, true)
    else if t.node ≠ f.1 then (some f, false)
    else if t.seq = f.2.1 then (some (if bestCopy port t.hops f then now else f), false)
    else if port = f.2.2.2 ∨ t.hops < f.2.2.1 ∨ t.seq ≠ (f.2.1 + 1) % 2 ^ 32 then (some now, true)
    else (some f, false)

/-- W2 with source 2 samples a TIME message of its segment; a junction follows ring A (R469). -/
def Dev.followTime (d : Dev) (port : Fin 4) (t : TimeMsg) (corr : Int) : Dev :=
  if (d.whl.cfgOf 2).source = 2 ∧ !(d.skn.junction ∧ ringOf port = 1) ∧ segOf t.node = segOf (d.nodeId 0) then
    let c := d.chooseTime port t
    let d1 := d.onSkn fun k => { k with follow := c.1 }
    if c.2 then
      let ref : Int := t.origin.toNs + (t.origin.frac + corr) / 65536
      (d1.onWhl fun w => { w with originQuality := t.quality }).sampleWhorl 2 ((d1.whl.nsOf 2 : Int) - ref)
    else d1
  else d

/-- TIME: sampled, then forwarded with the link delay and the residence added to its correction (12 R430); it ends at its
origin, at a down port or at 255 hops and is never wrapped (R468). The retimer tier adds only its residence (03 R109). -/
def timeMsg (port : Fin 4) (head : MsgHead) (t : TimeMsg) (residence : Nat) (d : Dev) : Dev :=
  let out := acrossPort port
  if d.ringIn port then
    if d.isMe t.node then d
    else
      let q := d.whl.cfg.ringQueueMode
      let link := if q then 0 else (d.skn.ports[port]).delay
      let d1 := (d.ringStamp port t.seq).followTime port t (t.corr + link)
      if 255 ≤ t.hops + 1 then d1
      else d1.sendTime out { head with hops := head.hops + 1 }
        { t with corr := if q then t.corr else t.corr + link + residence, hops := t.hops + 1 }
  else d.retime port (hopMsg out head 0x10 (timeBytes { t with corr := t.corr + residence }))

def execTimeMsg (x : Arrival) (t : TimeMsg) (residence : Nat) (s : State) : Host.Outcome State Fault Refusal :=
  .next (s.run (timeMsg x.port x.head t residence))

/-! ### Enumeration (R466, R467) -/

/-- The device is the head on an interface: a junction of its child segment, else by a pinned position 0 on ring A (R456). -/
def Dev.headOn (d : Dev) (r : Fin 2) : Bool := if d.skn.junction then decide (r = 1) else decide (r = 0) && d.skn.headA

/-- An ENUM message. -/
def enumOf (west : Bool) (src : Half) (segment next : Nat) : RingMsg :=
  { mtype := 0x18, west := west, wrapped := false, ringB := false, hops := 0, tag := 0, dest := 0xFFFF, src := src, addr := 0,
    len := 2, code := 0, detail := 0, payload := le 1 segment ++ le 1 next }

/-- Send ENUM from the head in a direction, east first (R466). -/
def Dev.sendEnum (d : Dev) (r : Fin 2) (west : Bool) : Dev :=
  if (d.skn.ports[portFor r west]).up then
    d.putMsg (portFor r west) { enumOf west (d.nodeId r) (segOf (d.nodeId r)) 1 with ringB := decide (r = 1) }
  else d

/-- ENUM_SEND (R466): every 1 s, and within 10 ms of a LINK_EVENT. With its east port down the head enumerates westward. -/
def enumSend (ringB : Bool) (d : Dev) : Dev :=
  let r := ringIx ringB
  if d.headOn r ∧ d.ringOn r then
    (d.onSkn fun k => { k with enumDue := upd k.enumDue r fun _ => false }).sendEnum r (!(d.skn.ports[portFor r false]).up)
  else d

def execEnumSend (ringB : Bool) (s : State) : Host.Outcome State Fault Refusal := .next (s.run (enumSend ringB))

/-- Position that a forward-going ENUM gives the node on an interface: the pinned one, on ring B of a dual node the one it
has from ring A (R453), else the one the message carries; none above 255 (R466, R467). -/
def Dev.takePos (d : Dev) (r : Fin 2) (segment next : Nat) : Option Half :=
  let k := d.skn
  if k.pins[r] ≠ 0xFFFF ∧ (r = 0 ∨ k.junction) then some k.pins[r]
  else if r = 1 ∧ !k.junction ∧ k.ids[0].isSome then k.ids[0]
  else if 255 < next then none
  else some (BitVec.ofNat 16 (segment * 256 + next))

/-- Record that the ring is enumerated, with its node count. -/
def Dev.setCount (d : Dev) (r : Fin 2) (n : Nat) : Dev :=
  d.onSkn fun k => { k with enumd := upd k.enumd r fun _ => true, count := upd k.count r fun _ => n }

/-- An ENUM message as it arrived, with another next position. -/
def passedEnum (port : Fin 4) (head : MsgHead) (west wrapped : Bool) (segment next : Nat) : RingMsg :=
  { enumOf west head.src segment next with wrapped := wrapped, ringB := decide (ringOf port = 1), hops := head.hops }

/-- ENUM at a node that is not the head of the segment. -/
def Dev.enumNode (d : Dev) (port : Fin 4) (head : MsgHead) (west wrapped : Bool) (segment next count : Nat) : Dev :=
  let r := ringOf port
  let pass (e : Dev) (n : Nat) : Dev := e.forward port (passedEnum port head west wrapped segment n)
  if wrapped then pass d next
  else if west then pass (if d.skn.ids[r].isSome then d.setCount r count else d) next
  else
    let id := d.takePos r segment next
    let moved : Bool := d.skn.ids[r].isSome && decide (d.skn.ids[r] ≠ id)
    let d1 := d.onSkn fun k => { k with ids := upd k.ids r fun _ => id }
    let d2 := if id.isNone || moved then d1.raise 21 r.val 0 else d1
    match id with
    | some x => pass (d2.setCount r count) (posOf x + 1)
    | none => pass d2 next

/-- ENUM: the head takes its own message back and sends it west when it returns WRAPPED (R466). -/
def enumMsg (port : Fin 4) (head : MsgHead) (west wrapped : Bool) (segment next count : Nat) (d : Dev) : Dev :=
  let r := ringOf port
  if !d.ringIn port then d.retime port (passedEnum port head west wrapped segment next)
  else if d.headOn r ∧ segment = segOf (d.nodeId r) then
    let d1 := d.setCount r count
    if wrapped ∧ west then d1.sendEnum r true else d1
  else d.enumNode port head west wrapped segment next count

def execEnumMsg (x : Arrival) (west wrapped : Bool) (segment next count : Nat) (s : State) :
    Host.Outcome State Fault Refusal := .next (s.run (enumMsg x.port x.head west wrapped segment next count))

/-- A LINK_EVENT as it arrived at a port, for the head of its source's segment (R466). -/
def linkEventMsg (port : Fin 4) (head : MsgHead) (portCode newState : Byte) : RingMsg :=
  { hopMsg (acrossPort port) head 0x19 [portCode, newState] with dest := BitVec.ofNat 16 (segOf head.src * 256) }

/-- LINK_EVENT: the head of the source's segment sends ENUM within 10 ms (R466); any other node passes it on (R463). -/
def linkEvent (port : Fin 4) (head : MsgHead) (portCode newState : Byte) (d : Dev) : Dev :=
  let r := ringOf port
  if !d.ringIn port then d.retime port (linkEventMsg port head portCode newState)
  else if d.headOn r ∧ segOf head.src = segOf (d.nodeId r) then
    d.onSkn fun k => { k with enumDue := upd k.enumDue r fun _ => true }
  else d.passOn port (linkEventMsg port head portCode newState)

def execLinkEvent (x : Arrival) (portCode newState : Byte) (s : State) : Host.Outcome State Fault Refusal :=
  .next (s.run (linkEvent x.port x.head portCode newState))

/-! ### Sweeps: the phases that SWEEP and AUDIT share (R484, R491) -/

/-- Port of a phase: 0 east, 1 west, 2 ring B east, 3 ring B west. -/
def phasePort (r : Fin 2) (phase : Nat) : Fin 4 := portFor (if 2 ≤ phase then 1 else r) (decide (phase % 2 = 1))

/-- The next phase from `k` on that can be sent: its port is up, and ring B only where a dual node's sweep reached fewer
nodes than the enumerated count. -/
def Dev.nextPhase (d : Dev) (r : Fin 2) (reached k : Nat) : Option Nat :=
  let short : Bool := !d.skn.junction && decide (r = 0) && decide (reached < d.skn.count[0])
  (List.range 4).find? fun j => decide (k ≤ j) && (decide (j < 2) || short) && (d.skn.ports[phasePort r j]).up

/-- The phase after one that returned: west only after an east phase that came back WRAPPED (R484). -/
def afterPhase (phase : Nat) (wrapped : Bool) : Nat := if wrapped then phase + 1 else (if phase < 2 then 2 else 4)

/-! ### The audit token (R491 to R498) -/

/-- Image generation, digest and active layout that the node reports (R493, R494; 03 R112). -/
def Dev.auditSelf (d : Dev) : AuditRef :=
  match d.img with
  | some i => ⟨d.sys.activeLayout.toNat, i.generation, BitVec.ofNat 64 i.digest⟩
  | none => ⟨0xFF, 0, 0⟩

/-- A node folds itself into the token (R493); `again` says that its layout differed in the previous lap too. -/
def visitToken (t : AuditToken) (x : AuditRef) (id : Nat) (again : Bool) : AuditToken :=
  let bad : Bool := decide (x.gen ≠ t.refGen) || decide (x.digest ≠ t.refDigest)
  let lay : Bool := decide (x.layout ≠ t.refLayout) && again
  { t with nodes := t.nodes + 1, minGen := min t.minGen x.gen, maxGen := max t.maxGen x.gen,
           mismatch := t.mismatch + bit1 bad, lowest := if bad then min t.lowest id else t.lowest,
           layoutMismatch := t.layoutMismatch + bit1 lay, lowestLayout := if lay then min t.lowestLayout id else t.lowestLayout }

/-- A junction folds its child lap into a parent token, or counts the segment as silent (R495, R496). -/
def foldToken (t : AuditToken) (c : Option AuditToken) : AuditToken :=
  match c with
  | some c =>
    { t with nodes := t.nodes + c.nodes, mismatch := t.mismatch + c.mismatch,
             layoutMismatch := t.layoutMismatch + c.layoutMismatch, silent := satNat 0xFFFF (t.silent + c.silent),
             lowest := min t.lowest c.lowest, lowestLayout := min t.lowestLayout c.lowestLayout,
             minGen := min t.minGen c.minGen, maxGen := max t.maxGen c.maxGen }
  | none => { t with silent := satNat 0xFFFF (t.silent + 1) }

/-- The token visits this node: it is counted in its segment with the two-lap rule (R493). -/
def Dev.auditVisit (d : Dev) (t : AuditToken) : Dev × AuditToken :=
  let x := d.auditSelf
  let differs := decide (x.layout ≠ t.refLayout)
  (d.onSkn fun k => { k with layoutDiffered := differs }, visitToken t x (d.nodeId 0).toNat d.skn.layoutDiffered)

/-- An AUDIT message with its token. -/
def auditMsg (src : Half) (west ringB : Bool) (t : AuditToken) : RingMsg :=
  { mtype := 0x1A, west := west, wrapped := false, ringB := ringB, hops := 0, tag := 0, dest := 0xFFFF, src := src, addr := 0,
    len := 48, code := 0, detail := 0, payload := auditBytes t }

/-- A lap of this head is complete (R491, R498): the root head raises AUDIT on a mismatch or a silent segment. -/
def Dev.lapEnd (d : Dev) (r : Fin 2) (t : AuditToken) : Dev :=
  let d1 := d.onSkn fun k => { k with lapPhase := none, lapDone := some (d.whl.tim, t) }
  if segOf (d.nodeId r) = 0 ∧ (t.mismatch ≠ 0 ∨ t.layoutMismatch ≠ 0 ∨ t.silent ≠ 0) then d1.report 22 else d1

/-- Send the token in the next phase from `k` on, or end the lap. -/
def Dev.sendAudit (d : Dev) (r : Fin 2) (t : AuditToken) (k : Nat) : Dev :=
  match d.nextPhase r t.nodes k with
  | some j =>
    (d.onSkn fun x => { x with lapPhase := some j }).putMsg (phasePort r j)
      (auditMsg (d.nodeId r) (decide (j % 2 = 1)) (decide ((phasePort r j).val / 2 = 1)) t)
  | none => d.lapEnd r t

/-- References of a lap (R494): the root head's own values, a junction's last parent references; with none yet, free words
(log 1). -/
def Dev.auditRefs (d : Dev) (r : Fin 2) : Dev × AuditRef :=
  if segOf (d.nodeId r) = 0 then (d, d.auditSelf)
  else match d.skn.parentRef with
    | some x => (d, x)
    | none =>
      let a := d.freshWord
      let b := a.1.freshWord
      let c := b.1.freshWord
      let e := c.1.freshWord
      (e.1, ⟨a.2.toNat % 256, b.2.toNat, c.2 ++ e.2⟩)

/-- AUDIT_LAUNCH: each head launches a lap every 96 ms and numbers it (R491); a junction does not count itself in its child
lap (R493). -/
def auditLaunch (ringB : Bool) (d : Dev) : Dev :=
  let r := ringIx ringB
  if d.headOn r ∧ d.ringOn r ∧ d.nodeId r ≠ 0xFFFF then
    let x := d.auditRefs r
    let t0 : AuditToken :=
      { lap := d.skn.lap, segment := segOf (d.nodeId r), refLayout := x.2.layout, silent := 0, refGen := x.2.gen,
        layoutMismatch := 0, refDigest := x.2.digest, nodes := 0, mismatch := 0, lowest := 0xFFFFFFFF, minGen := 0xFFFFFFFF,
        maxGen := 0, lowestLayout := 0xFFFFFFFF }
    let y := if d.skn.junction then (x.1, t0) else x.1.auditVisit t0
    (y.1.onSkn fun k => { k with lap := (k.lap + 1) % 2 ^ 32 }).sendAudit r y.2 0
  else d

def execAuditLaunch (ringB : Bool) (s : State) : Host.Outcome State Fault Refusal := .next (s.run (auditLaunch ringB))

/-- An AUDIT message as it arrived, with its token. -/
def passedAudit (port : Fin 4) (head : MsgHead) (west wrapped : Bool) (t : AuditToken) : RingMsg :=
  { auditMsg head.src west (decide (ringOf port = 1)) t with wrapped := wrapped, hops := head.hops }

/-- A token at a node of the segment: counted once per lap on its first pass that is not WRAPPED; a junction keeps the
references and folds its child lap (R493 to R496). -/
def Dev.auditNode (d : Dev) (port : Fin 4) (head : MsgHead) (west wrapped : Bool) (t : AuditToken) : Dev :=
  let seen : Bool := wrapped || d.skn.lapSeen.any fun x => decide (x = (t.segment, t.lap))
  let y : Dev × AuditToken :=
    if seen then (d, t)
    else
      let v := (d.onSkn fun k => { k with lapSeen := [(t.segment, t.lap)] }).auditVisit t
      if v.1.skn.junction then
        let fresh := (v.1.skn.lapDone.filter fun c => decide (v.1.whl.tim - c.1 ≤ 100000000)).map fun c => c.2
        (v.1.onSkn fun k => { k with parentRef := some ⟨t.refLayout, t.refGen, t.refDigest⟩ }, foldToken v.2 fresh)
      else v
  y.1.forward port (passedAudit port head west wrapped y.2)

/-- AUDIT: a head takes its own token back (R491), any other node of the segment is visited. -/
def audit (port : Fin 4) (head : MsgHead) (west wrapped : Bool) (t : AuditToken) (d : Dev) : Dev :=
  let r := ringOf port
  let h : Fin 2 := if d.skn.junction then 1 else 0
  if !d.ringIn port then d.retime port (passedAudit port head west wrapped t)
  else if d.headOn h ∧ t.segment = segOf (d.nodeId h) ∧ (r = h ∨ !d.skn.junction) then
    match d.skn.lapPhase with
    | some k => if t.lap = (d.skn.lap + 2 ^ 32 - 1) % 2 ^ 32 then d.sendAudit h t (afterPhase k wrapped) else d
    | none => d
  else d.auditNode port head west wrapped t

def execAudit (x : Arrival) (west wrapped : Bool) (t : AuditToken) (s : State) : Host.Outcome State Fault Refusal :=
  .next (s.run (audit x.port x.head west wrapped t))

end Sys2Proof.Machine
end

