-- ==== Sys2Proof/Machine/Bridge.lean ====
section
/-! DEFINITION. The remote-access bridge at the source: windows, responses, posted writes, late errors, fences and rescues;
layout staging and activation at a node (spec/13_skein_ring.md R470 to R482, R488 to R490; 18 R596; log 33). -/

namespace Sys2Proof.Machine

/-! ### Windows (R470 to R474) -/

/-- Cut `n` bytes at far address `addr` into requests at every 256-byte payload and every 4 KiB boundary (R471); `fuel`
bounds the number of requests. -/
def cutBurst : (fuel addr n : Nat) → List (Nat × Nat)
  | 0, _, _ => []
  | fuel + 1, addr, n =>
    if n = 0 then []
    else
      let len := min n (min 256 (4096 - addr % 4096))
      (addr, len) :: cutBurst fuel (addr + len) (n - len)

/-- Requests of a local access: far address and length, single-beat ones without NOSIDE (R471, R472). -/
def windowCuts (noside : Bool) (far beats size : Nat) : List (Nat × Nat) :=
  if noside then cutBurst (beats * size) far (beats * size) else (List.range beats).map fun k => (far + k * size, size)

/-- Transactions of a local access through a window register value `w` (R470). -/
def windowTxns (w : Word) (m : Master) (burst far beats size : Nat) (write : Bool) (data : List Byte) : List Txn :=
  (windowCuts (w.getLsbD 28) far beats size).map fun c =>
    { tag := 0, master := m, node := w.truncate 16, addr := BitVec.ofNat 32 c.1, len := c.2, write := write,
      posted := write && w.getLsbD 30, single := decide (c.2 ≤ size), dead := false,
      data := if write then (data.drop (c.1 - far)).take c.2 else [], ringB := w.getLsbD 29, burst := burst }

/-- An access of a local master to a window: its requests are issued as slots allow; a disabled window answers ADDR_ERR
(R470), an exclusive access EXCL (R473), and a posted write completes at once (R478). -/
def Dev.windowRun (d : Dev) (a : Access) (write : Bool) (win off beats size : Nat) (data : List Byte) (exclusive : Bool) :
    Dev :=
  let w := d.skn.win[Fin.ofNat 16 win]
  if !w.getLsbD 31 then d.answer a 2 0 0
  else if exclusive then d.answer a 3 0 0
  else
    let far := w.toNat / 2 ^ 16 % 256 * 2 ^ 24 + off
    let d1 := if write && w.getLsbD 30 then d.answer a 0 0 0 else d
    (d1.onSkn fun k =>
      { k with stalled := k.stalled ++ windowTxns w a.master k.nextBurst far beats size write data,
               nextBurst := k.nextBurst + 1 }).issueStalled

/-- WINDOW_ACCESS: one access of a local master to the window region (R470 to R474), logged on a diagnostic path
(16 R560). -/
def windowAccess (a : Access) (write : Bool) (addr : Word) (beats size : Nat) (data : List Byte) (exclusive : Bool) (d : Dev) :
    Dev :=
  match regionOf addr with
  | .ring win off =>
    if a.master = .ring ∨ !d.answersAt (.ring win off) then d.answer a 2 0 0
    else
      let first : Word := BitVec.ofNat 32 (fromLe (data.take 4))
      let e := d.skn.win[Fin.ofNat 16 win]
      let ok : Bool := e.getLsbD 31 && !exclusive
      let d1 := if write then d.logAccess a addr size first (beats * size) (if ok then 0 else 2) else d
      let d2 := if write && ok && a.master.diag then d1.report 30 else d1
      d2.windowRun a write win off beats size data exclusive
  | _ => d

def execWindowAccess (a : Access) (write : Bool) (addr : Word) (beats size : Nat) (data : List Byte) (exclusive : Bool)
    (s : State) : Host.Outcome State Fault Refusal := .next (s.run (windowAccess a write addr beats size data exclusive))

/-! ### Responses (R475, R478, R481) -/

/-- A late read response goes to SKN_RESCUE (R481). -/
def Dev.rescue (d : Dev) (t : Txn) (payload : List Byte) : Dev :=
  d.onSkn fun k =>
    if k.rescueValid then { k with rescueOvf := true, rescueCount := satNat 0xFFFF (k.rescueCount + 1) }
    else { k with rescueValid := true, rescueNode := t.node, rescueAddr := t.addr, rescueLen := t.len,
                  rescueData := BitVec.ofNat 64 (fromLe (payload.take 8)) }

/-- Remove a transaction. -/
def Dev.endTxn (d : Dev) (t : Txn) : Dev := d.onSkn fun k => { k with txns := k.txns.filter fun x => decide (x.tag ≠ t.tag) }

/-- The outstanding transaction that a message answers. -/
def Skn.txnOf (k : Skn) (m : RingMsg) (posted : Bool) : Option Txn :=
  k.txns.find? fun t => decide (t.tag = m.tag) && decide (t.node = m.src) && (t.posted == posted)

/-- A response ends a transaction of this device. -/
def Dev.takeResp (d : Dev) (t : Txn) (m : RingMsg) : Dev :=
  let code : BitVec 4 := m.code.truncate 4
  let d1 := d.endTxn t
  if t.dead then (if code = 0 ∧ t.single ∧ !t.write then d1.rescue t m.payload else d1)
  else if code ≠ 0 then d1.failTxn t code m.detail
  else
    ((d1.answer ⟨t.master, 0, 0⟩ 0 0 (BitVec.ofNat 64 (fromLe (m.payload.take 8)))).onBus fun b =>
      if t.write then b else { b with readData := m.payload })

/-- A response to the broadcast in flight: it was not run (R474, R475). -/
def Dev.failBroadcast (d : Dev) (m : RingMsg) : Dev :=
  d.onSkn fun k =>
    { k with bcBusy := false, bcDone := true,
             bcResult := { Tally.empty with code := m.code.toNat, detail := m.detail.toNat, lowest := m.src.toNat } }

/-- RESP (R475, R481). -/
def resp (port : Fin 4) (m : RingMsg) (d : Dev) : Dev :=
  if !d.ringIn port then ringTransit port m 0 d
  else if !d.isMe m.dest then d.passOn port m
  else match d.skn.txnOf m false with
    | some t => (d.takeResp t m).issueStalled
    | none => if d.skn.bcBusy ∧ m.tag = d.skn.bcTag ∧ m.code ≠ 0 then d.failBroadcast m else d

def execResp (port : Fin 4) (m : RingMsg) (s : State) : Host.Outcome State Fault Refusal := .next (s.run (resp port m))

/-- A POSTED_ACK or LATE_ERROR after TIMEOUT is counted and discarded (R478). -/
def Dev.stray (d : Dev) : Dev := d.onSkn fun k => { k with strays := satAdd k.strays 1 }

/-- POSTED_ACK (R478). -/
def postedAck (port : Fin 4) (m : RingMsg) (d : Dev) : Dev :=
  if !d.ringIn port then ringTransit port m 0 d
  else if !d.isMe m.dest then d.passOn port m
  else match d.skn.txnOf m true with
    | some t => (d.endTxn t).issueStalled
    | none => d.stray

def execPostedAck (port : Fin 4) (m : RingMsg) (s : State) : Host.Outcome State Fault Refusal := .next (s.run (postedAck port m))

/-- LATE_ERROR (R478, R479). -/
def lateError (port : Fin 4) (m : RingMsg) (d : Dev) : Dev :=
  if !d.ringIn port then ringTransit port m 0 d
  else if !d.isMe m.dest then d.passOn port m
  else match d.skn.txnOf m true with
    | some t => ((d.endTxn t).logLate t (m.code.truncate 4) m.detail).issueStalled
    | none => d.stray

def execLateError (port : Fin 4) (m : RingMsg) (s : State) : Host.Outcome State Fault Refusal := .next (s.run (lateError port m))

/-- RESPONSE_TIMEOUT: the requester receives TIMEOUT, a posted write logs it; a read stays known for its late response
(R475, R478, R481). -/
def responseTimeout (tag : Byte) (d : Dev) : Dev :=
  match d.skn.txns.find? fun t => decide (t.tag = tag) && !t.dead with
  | some t =>
    let d1 := d.failTxn t 4 0
    (if t.write then d1.endTxn t
     else d1.onSkn fun k => { k with txns := k.txns.map fun x => if x.tag = tag then { x with dead := true } else x }).issueStalled
  | none => d

def execResponseTimeout (tag : Byte) (s : State) : Host.Outcome State Fault Refusal := .next (s.run (responseTimeout tag))

/-! ### Fences and the late-error queue (R479, R480) -/

/-- The fence of a master completes with its count of failed posted writes. -/
def Dev.fenceDone (d : Dev) (a : Access) : Dev :=
  let n := assocGet d.skn.postedFails a.master 0
  (d.onSkn fun k =>
    { k with postedFails := k.postedFails.filter (fun p => decide (p.1 ≠ a.master)),
             fences := k.fences.filter fun m => decide (m ≠ a.master) }).answer a 0 0 (BitVec.ofNat 64 n)

/-- FENCE_READ: a read of SKN_FENCE completes at once, or waits for the master's posted writes (R480). -/
def fenceRead (a : Access) (d : Dev) : Dev :=
  if !d.answersAt (.reg 0x30054) then d.answer a 2 0 0
  else if d.skn.postedOpen a.master then
    d.onSkn fun k => { k with fences := if a.master ∈ k.fences then k.fences else k.fences ++ [a.master] }
  else d.fenceDone a

def execFenceRead (a : Access) (s : State) : Host.Outcome State Fault Refusal := .next (s.run (fenceRead a))

/-- FENCE_DRAINED: the last posted write before the read was acknowledged or failed (R480). -/
def fenceDrained (a : Access) (d : Dev) : Dev :=
  if a.master ∈ d.skn.fences ∧ !d.skn.postedOpen a.master then d.fenceDone a else d

def execFenceDrained (a : Access) (s : State) : Host.Outcome State Fault Refusal := .next (s.run (fenceDrained a))

/-- LEQ_POP: a read of SKN_LEQ3 pops the oldest late error; an empty queue returns the last word and sets UNDERRUN
(R479; 09 R321, R322). -/
def leqPop (a : Access) (d : Dev) : Dev :=
  if !d.answersAt (.reg 0x30050) then d.answer a 2 0 0
  else match d.skn.leq with
    | e :: es =>
      let w := wordAt e.bytes 3
      (d.onSkn fun k => { k with leq := es, leqLast := w }).answer a 0 0 (w.zeroExtend 64)
    | [] => (d.onSkn fun k => { k with leqUnder := true }).answer a 0 0 (d.skn.leqLast.zeroExtend 64)

def execLeqPop (a : Access) (s : State) : Host.Outcome State Fault Refusal := .next (s.run (leqPop a))

/-! ### Two-phase layout activation at a node (R488, R489) -/

/-- An answer with a detail. -/
def Res.detailed (code : BitVec 4) (detail : Byte) : Res := ⟨code, if code = 6 then 3 else 2, detail⟩

/-- The SKN_LSTAGE block is judged and the layout staged (R488). BUSY is judged before the mode mask (log 33). -/
def Dev.judgeStage (d : Dev) (w : Nat → Word) : Dev × Res :=
  let id := (w 0).toNat % 256
  let digest : DWord := w 3 ++ w 2
  match d.layoutCfg id with
  | none => (d, Res.detailed 2 1)
  | some l =>
    if BitVec.ofNat 64 l.digest ≠ digest then (d, Res.detailed 2 2)
    else if d.sys.transition.isSome then (d, Res.detailed 6 4)
    else if !l.allows d.sys.mode then (d, Res.detailed 2 3)
    else ({ d with lay := { d.lay with staged := some (id, digest) } }, Res.ok)

/-- The SKN_LACT block is judged and its LAYOUT_ACTIVATE entry added (R489; 12 R437, R440). -/
def Dev.judgeAct (d : Dev) (w : Nat → Word) : Dev × Res :=
  let b := (w 0).toNat
  let id := b / 2 ^ 16 % 256
  let digest : DWord := w 7 ++ w 6
  let e : SaqEntry :=
    { whorl := b % 256, due := ((w 3 ++ w 2 : BitVec 64).toNat * 1000000000 + (w 4).toNat : Nat), period := 0,
      absolute := true, policy := b / 256 % 2, action := 1, arg0 := BitVec.ofNat 32 id, arg1 := loWord digest,
      arg2 := hiWord digest, lateness := 0, lateCount := 0 }
  if 5 < e.whorl then (d, Res.detailed 2 5)
  else if d.lay.staged ≠ some (id, digest) then (d, Res.detailed 2 6)
  else match d.whl.freeEntry with
    | none => (d, Res.detailed 6 7)
    | some i => ((d.setSaq i (some e)).judgeEntry i, Res.ok)

/-- Words of a block held since the last judgement, zero where none was written (18 R596; log 33). -/
def heldWord (l : List (Nat × Word)) (k : Nat) : Word := assocGet l k 0

/-- LSTAGE_WRITE: the last word of SKN_LSTAGE is judged with the words before it (18 R596). -/
def lstageWrite (a : Access) (v : Word) (d : Dev) : Dev :=
  d.write a (regAddr 0x3030C) 4 v true fun e =>
    (e.onSkn fun k => { k with lstage := [] }).judgeStage (heldWord (assocSet e.skn.lstage 3 v))

def execLstageWrite (a : Access) (v : Word) (s : State) : Host.Outcome State Fault Refusal := .next (s.run (lstageWrite a v))

/-- LACT_WRITE: the last word of SKN_LACT (18 R596). -/
def lactWrite (a : Access) (v : Word) (d : Dev) : Dev :=
  d.write a (regAddr 0x3033C) 4 v true fun e =>
    (e.onSkn fun k => { k with lact := [] }).judgeAct (heldWord (assocSet e.skn.lact 7 v))

def execLactWrite (a : Access) (v : Word) (s : State) : Host.Outcome State Fault Refusal := .next (s.run (lactWrite a v))

end Sys2Proof.Machine
end

