-- ==== Sys2Proof/Machine/DmaCtl.lean ====
section
/-! DEFINITION. Control of the management DMA: START, RESUME and ABORT, the start checks and the rescue of popped elements
(spec/15_dma_check_units.md R517 to R531; log 35). -/

namespace Sys2Proof.Machine

/-- Change a channel. -/
def Dev.onChan (d : Dev) (k : Fin 8) (f : Chan → Chan) : Dev := d.onDma fun m => { m with ch := upd m.ch k f }

/-! ### Fields of DMA_CTRLn (R518) -/

def Chan.srcFix (c : Chan) : Bool := c.ctrl.getLsbD 0
def Chan.dstFix (c : Chan) : Bool := c.ctrl.getLsbD 1
/-- Element size in bytes. -/
def Chan.size (c : Chan) : Nat := 2 ^ (c.ctrl.toNat / 4 % 4)
def Chan.swap (c : Chan) : Nat := c.ctrl.toNat / 16 % 4
/-- Beats of a paced burst. -/
def Chan.beats (c : Chan) : Nat := c.ctrl.toNat / 2 ^ 9 % 64 + 1
def Chan.chkEn (c : Chan) : Bool := c.ctrl.getLsbD 24
def Chan.chkUnit (c : Chan) : Nat := c.ctrl.toNat / 2 ^ 19 % 32
def Chan.evtEn (c : Chan) : Bool := c.ctrl.getLsbD 16
def Chan.core (c : Chan) : Nat := c.ctrl.toNat / 2 ^ 17 % 4
/-- Transfer length. -/
def Chan.length (c : Chan) : Nat := c.len.toNat % 2 ^ 24

/-- Bytes of a swap group (R526). -/
def Chan.swapUnit (c : Chan) : Nat := match c.swap with | 0 => 1 | 1 => 2 | _ => 4

/-- A side in a side-effect region: register space, or a window without NOSIDE (R525; 13 R472). -/
def Dev.sideEffect (d : Dev) (addr : Word) : Bool :=
  match regionOf addr with
  | .reg _ => true
  | .ring w _ => !(d.skn.win[Fin.ofNat 16 w]).getLsbD 28
  | _ => false

/-- Descending order is chosen (R524). -/
def Chan.descends (c : Chan) : Bool :=
  !c.srcFix && !c.dstFix && decide (c.src.toNat < c.dst.toNat) && decide (c.dst.toNat < c.src.toNat + c.length)

/-- The check unit of a channel is bound to it (R521; 15 R537). -/
def Dev.chkBound (d : Dev) (k : Fin 8) : Bool :=
  let u := (d.dma.ch[k]).chkUnit
  decide (u < 24) && decide ((d.chk[(Fin.ofNat 24 u : Fin 24)]).user = 0x10 + k.val)

/-- An address or the length is not aligned to SIZE on a fixed or side-effect side (R521). -/
def Dev.sideMisfit (d : Dev) (c : Chan) (fix : Bool) (addr : Word) : Bool :=
  (fix || d.sideEffect addr) && (decide (addr.toNat % c.size ≠ 0) || decide (c.length % c.size ≠ 0))

/-- The start check of R521 fails. -/
def Dev.startFails (d : Dev) (k : Fin 8) : Bool :=
  let c := d.dma.ch[k]
  decide (c.length = 0) || d.sideMisfit c c.srcFix c.src || d.sideMisfit c c.dstFix c.dst ||
    (decide (c.swap ≠ 0) && decide (c.length % c.swapUnit ≠ 0)) || (c.chkEn && (!d.chkBound k || c.descends))

/-- A START that is not served is counted (R520, R529). -/
def Dev.ignoreStart (d : Dev) : Dev := d.onDma fun m => { m with startIgn := satNat 0xFFFF (m.startIgn + 1) }

/-- The completion or error event of a channel (R518, R527). -/
def Dev.dmaEvent (d : Dev) (k : Fin 8) (err : Bool) : Dev :=
  let c := d.dma.ch[k]
  if c.evtEn then d.onDma fun m => { m with events := (c.core, k.val, err) :: m.events } else d

/-- START on a channel (R520, R521). -/
def Dev.startChan (d : Dev) (k : Fin 8) : Dev :=
  let c := d.dma.ch[k]
  if c.st ≠ .idle then d.ignoreStart
  else if d.startFails k then (d.onChan k fun c => { c with err := true, code := 8 }).dmaEvent k true
  else
    d.onChan k fun c =>
      { c with st := if c.pace = 0 then .active else .armed, remain := c.length, moved := 0, backward := c.descends,
               element := none, inService := false }

/-- RESUME on a channel: a halted one repeats its failing burst (R529); a paced one when its request is asserted. -/
def Dev.resumeChan (d : Dev) (k : Fin 8) : Dev :=
  if (d.dma.ch[k]).st = .halted then d.onChan k fun c => { c with st := if c.pace = 0 then .active else .armed } else d

/-- An element read from a side-effect region goes to DMA_RESCUE (R531). -/
def Dev.rescueElement (d : Dev) (k : Fin 8) (addr : Word) (bs : List Byte) : Dev :=
  d.onDma fun m =>
    if m.rescueValid then { m with rescueOvf := true, ovfCount := satNat 0xFFFF (m.ovfCount + 1) }
    else { m with rescueValid := true, rescueCh := k.val, rescueCount := bs.length, rescueAddr := addr,
                  rescueData := BitVec.ofNat 64 (fromLe bs) }

/-- ABORT on a channel: it is IDLE, a service of it ends, and an element whose write was not issued is rescued (R529,
R531). -/
def Dev.abortChan (d : Dev) (k : Fin 8) : Dev :=
  let c := d.dma.ch[k]
  if c.st = .idle then d
  else
    let d1 := match c.element with | some e => d.rescueElement k e.1 e.2 | none => d
    (d1.onChan k fun c => { c with st := .idle, inService := false, element := none }).onDma fun m =>
      { m with serving := if m.serving = some k then none else m.serving }

/-- A write of DMA_GOn: its bits act in the order of their numbers (R517; log 35). -/
def Dev.goChan (d : Dev) (k : Fin 8) (v : Word) : Dev :=
  let d1 := if v.getLsbD 0 then d.startChan k else d
  let d2 := if v.getLsbD 1 then d1.resumeChan k else d1
  if v.getLsbD 2 then d2.abortChan k else d2

/-- A write access to DMA_GOn. -/
def dmaGo (a : Access) (k : Fin 8) (v : Word) (d : Dev) : Dev :=
  d.write a (regAddr (0x70010 + 0x100 * k.val)) 4 v true fun e => (e.goChan k v, Res.ok)

/-- DMA_START (R520, R521). -/
def execDmaStart (a : Access) (ch : Fin 8) (s : State) : Host.Outcome State Fault Refusal := .next (s.run (dmaGo a ch 1))

/-- DMA_RESUME (R529). -/
def execDmaResume (a : Access) (ch : Fin 8) (s : State) : Host.Outcome State Fault Refusal := .next (s.run (dmaGo a ch 2))

/-- DMA_ABORT (R529). -/
def execDmaAbort (a : Access) (ch : Fin 8) (s : State) : Host.Outcome State Fault Refusal := .next (s.run (dmaGo a ch 4))

end Sys2Proof.Machine
end

