-- ==== Sys2Proof/Machine/PoolCmds.lean ====
section
/-! DEFINITION. The commands on the bobbin pool and the frame store's scrubber (spec/09_bobbin_pool_frame_store.md R319 to R326,
R336; 01 R38, R39). -/

namespace Sys2Proof.Machine

/-- BOB_POP: the next word of the selected queue (R322); a word with an uncorrectable error is flagged in BOB_ERR and reported
(R324; 01 R39). -/
def bobPop (a : Access) (damaged : Bool) (d : Dev) : Dev :=
  if d.answersAt (.reg 0x40000C) then
    let r := d.selQueue.pop
    let e := (d.setSelQueue r.2).trimCredits
    let f := if damaged && (d.selQueue.front 0).isSome then
        (e.onBob fun b => { b with err := Config.bobErr b.sel }).raise 17 d.bob.sel 0
      else e
    f.answer a 0 0 (r.1.zeroExtend 64)
  else d.answer a 2 0 0

def execBobPop (a : Access) (s : State) (damaged : Bool := false) : Host.Outcome State Fault Refusal :=
  .next (s.run (bobPop a damaged))

/-- BOB_DROP: the rest of the packet under the register cursor, or the whole next one, is dropped (R319). -/
def execBobDrop (a : Access) (s : State) : Host.Outcome State Fault Refusal :=
  .next (s.run fun d => d.write a (regAddr 0x400010) 4 1 true fun e => ((e.setSelQueue e.selQueue.drop).trimCredits, Res.ok))

/-- OWNERSHIP_AUDIT: cells that are neither free nor reachable return to the free list; a link table entry found damaged discards
its queue from there on (R325). -/
def ownershipAudit (damaged : Option (Fin 512 × Nat)) (d : Dev) : Dev :=
  let e := d.ownershipAudit
  match damaged with
  | some (n, k) => (e.loseFrom n.val k).trimCredits
  | none => e

def execOwnershipAudit (s : State) (damaged : Option (Fin 512 × Nat) := none) : Host.Outcome State Fault Refusal :=
  .next (s.run (ownershipAudit damaged))

/-- Channel of a usable frame-store address, FS0 or FS1 (R326): address bit 8. -/
def fsChannel (a : Nat) : Fin 2 := Fin.ofNat 2 (a / 256)

/-- Count words of a channel, corrected and uncorrectable (R335, R336), and report them (01 R38, R39). -/
def Dev.countEcc (d : Dev) (c : Fin 2) (ce ue : Nat) : Dev :=
  let i : Fin 4 := Fin.ofNat 4 (2 * c.val)
  let j : Fin 4 := Fin.ofNat 4 (2 * c.val + 1)
  let d1 := { d with fst := { d.fst with ecc := upd (upd d.fst.ecc i fun x => satAdd x ce) j fun x => satAdd x ue } }
  let d2 := if 0 < ce then d1.report 16 else d1
  if 0 < ue then d2.report 17 else d2

/-- PATROL_SCRUB: a pass over the usable space; words corrected and uncorrectable are counted per channel and
reported (R336; 01 R38, R39). -/
def patrolScrub (ce0 ue0 ce1 ue1 : Nat) (d : Dev) : Dev :=
  if d.fst.trained then
    (({ d with fst := { d.fst with passes := satAdd d.fst.passes 1 } }).countEcc 0 ce0 ue0).countEcc 1 ce1 ue1
  else d

def execPatrolScrub (ce0 ue0 ce1 ue1 : Nat) (s : State) : Host.Outcome State Fault Refusal :=
  .next (s.run (patrolScrub ce0 ue0 ce1 ue1))

end Sys2Proof.Machine
end

