-- ==== Sys2Proof/Machine/Ptp.lean ====
section
/-! DEFINITION. PTP on the Ethernet port (spec/12_whorls.md R425 to R429). Message contents follow IEEE 1588-2019 and
IEEE 802.1AS-2020, which R425 names (PRESUMED, log 30). -/

namespace Sys2Proof.Machine

/-- Change the PTP port. -/
def Dev.onPtp (d : Dev) (f : Ptp → Ptp) : Dev := d.onWhl fun w => { w with ptp := f w.ptp }

/-- The port runs PTP (R414 flag bit 1, R416; 03 R113 step 6). -/
def Dev.ptpRuns (d : Dev) : Bool := d.released && d.whl.cfg.ptpEnabled && !d.whl.ptp.stopped && d.laneServes 29

/-- Profile 1: IEEE 802.1AS-2020, peer-to-peer. -/
def Dev.peerDelay (d : Dev) : Bool := decide (d.whl.cfg.ptpProfile = 1)

/-- W1 at a received event message, with the ingress latency (R426). -/
def Dev.rxStamp (d : Dev) : Int := (d.whl.nsOf 1 : Int) + d.whl.cfg.ingress

/-- W1 at a transmitted event message, with the egress latency (R426). -/
def Dev.txStamp (d : Dev) : Int := (d.whl.nsOf 1 : Int) + d.whl.cfg.egress

/-- Count in one of the PTP counters: 0 Announce, 1 Sync, 2 Follow_Up, 3 delay responses, 4 Pdelay_Req answered,
5 discarded. -/
def Ptp.count (p : Ptp) (k : Fin 6) : Ptp := { p with counts := upd p.counts k fun c => satAdd c 1 }

/-- IEEE 1588 messageType codes of the event messages the port sends. -/
def mtDelayReq : Nat := 1
def mtPdelayReq : Nat := 2
def mtPdelayResp : Nat := 3
def mtPdelayFollowUp : Nat := 0xA

/-- A transmitted event message leaves its W1 timestamp in the 16-entry queue; at a full queue the newest is discarded and
OVERFLOW is set (R427, R428). -/
def Dev.queueStamp (d : Dev) (mtype : Nat) (seq : Half) : Dev :=
  let t := d.whl.timeNow 1
  let ns := d.txStamp
  d.onPtp fun p =>
    if p.tsq.length < 16 then
      { p with tsq := p.tsq ++ [⟨mtype, seq, timeOf ns.toNat t.frac t.epoch⟩] }
    else { p with tsqOvf := true }

/-- The timestamp of the message just sent reached the queue. -/
def Dev.stampKept (d : Dev) : Bool := decide (d.whl.ptp.tsq.length < 16)

/-! ### The choice of master -/

/-- The first list is smaller at the first place where they differ. -/
def lexBefore : List Nat → List Nat → Bool
  | a :: as, b :: bs => decide (a < b) || (decide (a = b) && lexBefore as bs)
  | _, _ => false

/-- The dataset comparison of IEEE 1588-2019: `a` is better than `b`. -/
def betterMaster (a b : PtpAnnounce) : Bool :=
  if a.gmIdentity = b.gmIdentity then lexBefore [a.stepsRemoved, a.srcPort] [b.stepsRemoved, b.srcPort]
  else
    lexBefore [a.priority1, a.clockClass, a.accuracy, a.variance, a.priority2, a.gmIdentity]
      [b.priority1, b.clockClass, b.accuracy, b.variance, b.priority2, b.gmIdentity]

/-- ANNOUNCE: an Announce of the domain updates the selected master or replaces a worse one; a change drops the exchange in
progress (R425, R429). -/
def announce (m : PtpAnnounce) (d : Dev) : Dev :=
  if d.ptpRuns ∧ m.domain = d.whl.cfg.ptpDomain then
    (d.onPtp fun p => p.count 0).onPtp fun p =>
      match p.master with
      | none => { p with master := some m }
      | some b =>
        if b.srcPort = m.srcPort then { p with master := some m }
        else if betterMaster m b then { p with master := some m, sync := none, lastSync := none }
        else p
  else d

def execAnnounce (m : PtpAnnounce) (s : State) : Host.Outcome State Fault Refusal := .next (s.run (announce m))

/-- ANNOUNCE_RECEIPT_TIMEOUT: without a qualified master W1 takes no sample (R429). -/
def announceReceiptTimeout (d : Dev) : Dev := d.onPtp fun p => { p with master := none, sync := none, lastSync := none }

def execAnnounceReceiptTimeout (s : State) : Host.Outcome State Fault Refusal := .next (s.run announceReceiptTimeout)

/-- A message of the selected master in the domain. -/
def Dev.fromMaster (d : Dev) (m : PtpMsg) : Bool :=
  d.ptpRuns && decide (m.domain = d.whl.cfg.ptpDomain) && d.whl.ptp.master.any fun a => decide (a.srcPort = m.srcPort)

/-! ### Sync and Follow_Up -/

/-- SYNC: timestamped on W1, it waits for its Follow_Up (R425, R426). -/
def sync (m : PtpMsg) (d : Dev) : Dev :=
  if d.fromMaster m then
    let t2 := d.rxStamp
    (d.onPtp fun p => p.count 1).onPtp fun p =>
      { p with sync := some (m.seqId, t2, m.corr), delayAge := satNat 17 (p.delayAge + 1) }
  else d

def execSync (m : PtpMsg) (s : State) : Host.Outcome State Fault Refusal := .next (s.run (sync m))

/-- FOLLOW_UP: it completes the exchange; with a delay measured no more than 16 intervals ago, core 1 passes
θ = t2 − t1 − delay to the W1 servo (R425, R429). W1 takes no sample unless its source is PTP (R416). -/
def followUp (m : PtpMsg) (d : Dev) : Dev :=
  if d.fromMaster m then
    match d.whl.ptp.sync with
    | some (seq, t2, corr) =>
      if seq = m.seqId then
        let t1 := m.stamp + m.corr + corr
        let d1 := (d.onPtp fun p => p.count 2).onPtp fun p => { p with sync := none, lastSync := some (t1, t2) }
        match d1.whl.ptp.delay with
        | some dl =>
          if d1.whl.ptp.delayAge ≤ 16 ∧ (d1.whl.cfgOf 1).source = 1 then d1.sampleWhorl 1 (t2 - t1 - dl) else d1
        | none => d1
      else d
    | none => d
  else d

def execFollowUp (m : PtpMsg) (s : State) : Host.Outcome State Fault Refusal := .next (s.run (followUp m))

/-! ### Delay measurement -/

/-- DELAY_REQ_DUE: core 1 sends a Delay_Req to the master, or under profile 1 a Pdelay_Req, timestamped on W1 into the
transmit queue; in one-step mode it carries its origin timestamp (R425 to R428). -/
def delayReqDue (d : Dev) : Dev :=
  if d.ptpRuns && (d.peerDelay || d.whl.ptp.master.isSome) then
    let mt := if d.peerDelay then mtPdelayReq else mtDelayReq
    let seq := d.whl.ptp.nextSeq
    let t := d.txStamp
    let kept := d.stampKept
    (d.queueStamp mt seq).onPtp fun p =>
      { p with nextSeq := seq + 1, delayReq := some (seq, if kept then some t else none), pdResp := none,
               sent := (mt, seq, if d.whl.cfg.oneStep then t else 0) :: p.sent }
  else d

def execDelayReqDue (s : State) : Host.Outcome State Fault Refusal := .next (s.run delayReqDue)

/-- A delay has been measured. -/
def Ptp.setDelay (p : Ptp) (dl : Int) : Ptp := { p with delay := some dl, delayAge := 0, delayReq := none, pdResp := none }

/-- DELAY_RESP: it completes an end-to-end measurement, half of (t2 − t1) + (t4 − t3) (R425). -/
def delayResp (m : PtpMsg) (d : Dev) : Dev :=
  if d.fromMaster m ∧ !d.peerDelay then
    match d.whl.ptp.delayReq, d.whl.ptp.lastSync with
    | some (seq, some t3), some (t1, t2) =>
      if seq = m.seqId then
        (d.onPtp fun p => p.count 3).onPtp fun p => p.setDelay (roundDiv ((t2 - t1) + (m.stamp - m.corr - t3)) 2)
      else d
    | _, _ => d
  else d

def execDelayResp (m : PtpMsg) (s : State) : Host.Outcome State Fault Refusal := .next (s.run (delayResp m))

/-- PDELAY_REQ: answered under profile 1 (R425, R428): the Pdelay_Resp carries the receive time and is timestamped; in
queue mode a Pdelay_Resp_Follow_Up with that timestamp follows, in one-step mode none does. -/
def pdelayReq (m : PtpMsg) (d : Dev) : Dev :=
  if d.ptpRuns ∧ d.peerDelay then
    let t2 := d.rxStamp
    let t3 := d.txStamp
    let kept := d.stampKept
    ((d.queueStamp mtPdelayResp m.seqId).onPtp fun p => p.count 4).onPtp fun p =>
      let resp := (mtPdelayResp, m.seqId, t2) :: p.sent
      { p with sent := if d.whl.cfg.oneStep ∨ !kept then resp else (mtPdelayFollowUp, m.seqId, t3) :: resp }
  else d

def execPdelayReq (m : PtpMsg) (s : State) : Host.Outcome State Fault Refusal := .next (s.run (pdelayReq m))

/-- PDELAY_RESP: its receive time t4 and the responder's t2 wait for the follow-up (R425). -/
def pdelayResp (m : PtpMsg) (d : Dev) : Dev :=
  if d.ptpRuns ∧ d.peerDelay then
    match d.whl.ptp.delayReq with
    | some (seq, _) =>
      if seq = m.seqId then
        let t4 := d.rxStamp
        (d.onPtp fun p => p.count 3).onPtp fun p => { p with pdResp := some (seq, t4, m.stamp, m.corr) }
      else d
    | none => d
  else d

def execPdelayResp (m : PtpMsg) (s : State) : Host.Outcome State Fault Refusal := .next (s.run (pdelayResp m))

/-- PDELAY_RESP_FOLLOW_UP: it completes a peer measurement, half of (t4 − t1) − (t3 − t2) less the corrections (R425). With
the request's timestamp lost nothing is taken from the exchange (R427). -/
def pdelayRespFollowUp (m : PtpMsg) (d : Dev) : Dev :=
  if d.ptpRuns ∧ d.peerDelay then
    match d.whl.ptp.delayReq, d.whl.ptp.pdResp with
    | some (_, some t1), some (seq, t4, t2, corr) =>
      if seq = m.seqId then d.onPtp fun p => p.setDelay (roundDiv ((t4 - t1) - (m.stamp - t2) - corr - m.corr) 2) else d
    | _, _ => d
  else d

def execPdelayRespFollowUp (m : PtpMsg) (s : State) : Host.Outcome State Fault Refusal := .next (s.run (pdelayRespFollowUp m))

/-- PTP_DISCARD: a Signaling or Management message is counted (R425). -/
def execPtpDiscard (s : State) : Host.Outcome State Fault Refusal :=
  .next (s.run fun d => if d.ptpRuns then d.onPtp fun p => p.count 5 else d)

/-! ### The timestamp queue -/

/-- Word `k` of ETH_TSQ: word 0 holds type, sequenceId, EMPTY and OVERFLOW in places the spec does not give, so that it is
free; words 1 to 4 are the time in the order of R410, free on an empty queue (log 1, log 17). -/
def Dev.tsqWord (d : Dev) (k : Nat) : Option Word :=
  if k = 0 then none else (d.whl.ptp.tsq.head?).map fun e => nth (timeWords e.time) (k - 1) 0

/-- Remove the oldest timestamp. -/
def Dev.popTsq (d : Dev) : Dev := d.onPtp fun p => { p with tsq := p.tsq.drop 1 }

/-- ETH_TSQ_POP: a read of the last word pops the entry (R427; 18 ETH). -/
def ethTsqPop (a : Access) (d : Dev) : Dev :=
  if d.answersAt (.reg 0x40010) then
    match d.tsqWord 4 with
    | some w => d.popTsq.answer a 0 0 (w.zeroExtend 64)
    | none => let r := d.freshWord; r.1.answer a 0 0 (r.2.zeroExtend 64)
  else d.answer a 2 0 0

def execEthTsqPop (a : Access) (s : State) : Host.Outcome State Fault Refusal := .next (s.run (ethTsqPop a))

end Sys2Proof.Machine
end

