-- ==== Sys2Proof/Machine/Doffer.lean ====
section
/-! DEFINITION. The doffer's frames: metadata records, hand-over, frame end, repeat and WARMING slots, slub maps
(spec/11_ply_link.md R380 to R394; 03 R90, R91; 07 R233, R251, R255; 01 R15 to R18). -/

namespace Sys2Proof.Machine

/-! ### Records -/

/-- CRC parameters of the ply link (R369). -/
def Dev.plyCrc (d : Dev) : CrcCfg :=
  match d.img with | some i => i.ply.crc | none => ⟨0x1EDC6F41, 0xFFFFFFFF, 0xFFFFFFFF, true, true⟩

/-- The 128 bytes of a record (R383); `dataCrc` none in the opening issue (01 R16). -/
def Dev.recordBytes (d : Dev) (r : Rec) (dataCrc : Option Nat) : List Byte :=
  let gen := match d.img with | some i => i.generation | none => 0
  let dig := match d.img with | some i => i.digest | none => 0
  let body := le 4 0x4D455441 ++ le 2 r.st ++ le 1 r.strand ++ le 1 r.layout ++ le 4 r.num.toNat ++ le 4 r.sourceNum.toNat ++
    r.capture.bytes ++ le 1 r.whorl ++ le 1 r.quality ++ le 2 r.alive.toNat ++ le 4 r.flags.toNat ++ exp4Bytes r.exposures ++
    le 4 gen ++ le 4 r.subst ++ le 8 dig ++ leInt 8 r.w6 ++ zeros 16 ++
    (match dataCrc with | some c => crcPair c | none => zeros 8)
  body ++ crcPair (crcCfg d.plyCrc body)

/-- The link runs with fewer lanes than configured (R394). -/
def Dev.narrowLink (d : Dev) : Bool := decide (laneCount d.ply.map < d.ply.count)

/-- A stream is shed by the row in force (R393). -/
def Dev.shed (d : Dev) (st : StreamNo) : Bool := d.ply.shedStreams.getLsbD st.val

/-- A source of the stream entry is a lost camera: its port has lost lock, or the Warm-up limit passed without a valid frame of it,
and none has arrived since (R391; 03 R98; log 39). -/
def Dev.cameraLost (d : Dev) (e : StreamCfg) : Bool :=
  e.sources.any fun n => !d.patternOn (strandOf n) && (d.strands[strandOf n]).lost

/-- The next alive counter value of a stream (R388). -/
def Stream.nextAlive (g : Stream) : Half := if g.counted then g.alive + 1 else 0

/-- Count a frame slot. -/
def Dev.countSlot (d : Dev) (st : StreamNo) : Dev := d.onStream st fun g => { g with alive := g.nextAlive, counted := true }

/-- Control-plane flags of a frame record (01 R14). -/
def ctrlFlags : Word := 0x4C3F

/-- Data-plane flags of an output frame as they stand (R384). -/
def Dev.dataFlags (d : Dev) (f : OutFrame) (e : StreamCfg) : Word :=
  flagIf f.substituted flagSubstituted ||| flagIf f.repeated flagRepeated ||| flagIf (d.cameraLost e) flagCameraLost |||
    flagIf ((d.sourcesOf f).any fun p => decide (p.2.flags &&& flagFormatFault ≠ 0)) flagFormatFault |||
    flagIf (f.degraded || d.shed (streamOf e.id)) flagDegraded ||| flagIf f.switched flagSwitched |||
    flagIf f.spareLow flagSpareLow

/-- Source frame number of an output frame (07 R251). -/
def Dev.sourceNum (d : Dev) (st : StreamNo) (f : OutFrame) : Word :=
  if f.repeated then ((d.prevFor st f 0).map fun p => p.sourceNum).getD 0xFFFFFFFF else f.num

/-- The record of the opening issue (R383). -/
def Dev.openingRec (d : Dev) (st : StreamNo) (f : OutFrame) (e : StreamCfg) : Rec :=
  let s := d.slot0 f
  let fr := s.map Prod.snd
  { st := st.val, strand := (e.sources.head?).getD 0, layout := f.layout, num := f.num,
    sourceNum := d.sourceNum st f,
    capture := (fr.map fun x => x.capture).getD ⟨0, 0, 0, 0⟩, whorl := (fr.map fun x => x.whorl).getD 0,
    quality := (fr.map fun x => x.quality).getD 0, alive := (d.streams[st]).alive,
    flags := (((fr.map fun x => x.flags).getD 0) &&& ctrlFlags) ||| d.dataFlags f e,
    exposures := (fr.map fun x => x.readback.getD x.opening).getD [],
    subst := f.notOwn.length, w6 := (fr.map fun x => x.w6).getD 0 }

/-- The record of the closing issue: that of the opening issue but for the fields of 01 R17, and every flag that it had (01 R18).
The entries of a frame that closed are its sealed ones (01 R19; 05 R190). -/
def Dev.closingRec (d : Dev) (st : StreamNo) (f : OutFrame) (e : StreamCfg) (r : Rec) : Rec :=
  let fr := (d.slot0 f).map Prod.snd
  { r with
    sourceNum := d.sourceNum st f, subst := f.notOwn.length,
    flags := r.flags ||| (((fr.map fun x => x.flags).getD 0) &&& flagMismatch) ||| d.dataFlags f e,
    exposures := match fr with
      | some x => if x.isOpen ∨ x.abandoned then r.exposures else x.closing
      | none => r.exposures }

/-! ### Packets -/

/-- Add a class 2 packet (R389); while the link is down it is dropped (R409). -/
def Dev.pushPkt (d : Dev) (h prio ptype id line : Nat) (payload : List Byte) (key : Nat) : Dev :=
  if d.ply.map = 0 then d else d.onPly fun p => { p with queue := p.queue ++ [⟨2, h, prio, ptype, id, line, payload, key⟩] }

/-- Pixels of a stretch of an output row: the main plane, and the IR plane where there is one. -/
structure RowPart where
  main : List (List Nat)
  ir : List Nat
  deriving DecidableEq, Repr

/-- A stretch of `w` pixels of row `v` from the output ring slot at `base` (09 R332). -/
def Mem.ringPart (m : Mem) (e : StreamCfg) (base u v w : Nat) : RowPart :=
  ⟨(List.range w).map fun x => loadPixel e.format (Memory.readN 0 m.fs (e.mainAddr base (u + x) v) (fmtBytes e.format)),
   if e.irPlane then (List.range w).map fun x => fromLe (Memory.readN 0 m.fs (e.irAddr base (u + x) v) 2) else []⟩

/-- Row `y` of a tile of width `w` from its tile packet (09 R310). -/
def StreamCfg.packetPart (e : StreamCfg) (w y : Nat) (data : List Byte) : RowPart :=
  let row := data.drop (y * e.lineBytes w)
  ⟨unpackRow e.format w row,
   if e.irPlane then (unpackRow 3 w (row.drop (packedRow e.format w))).map fun x => nth x 0 0 else []⟩

/-- The video line of an output row from its parts (08 R300, R301). -/
def StreamCfg.lineOf (e : StreamCfg) (ps : List RowPart) : List Byte :=
  packLine e.format (ps.flatMap RowPart.main) (if e.irPlane then some (ps.flatMap RowPart.ir) else none)

/-- The packet of a tile in its stream's tile queue. -/
def Dev.tilePkt (d : Dev) (st : StreamNo) (key t : Nat) : Option Pkt :=
  (d.bob.queue (128 + st.val)).pkts.find? fun p => decide (p.frame = key) && decide (p.unit = t)

/-- The video line of row `y` of band `b`: each tile from its packet, and from the output ring where it has none (R324; 09 R310). -/
def State.bandLine (s : State) (st : StreamNo) (f : OutFrame) (l : LayoutCfg) (e : StreamCfg) (b y : Nat) : List Byte :=
  e.lineOf ((List.range (l.cols e)).map fun i =>
    let t := b * l.cols e + i
    let r := l.tileRect e t
    match s.dev.tilePkt st f.key t with
    | some p => e.packetPart r.2.2.1 (y - r.2.1) p.data
    | none => s.mem.ringPart e (s.dev.outBase st.val f.ringSlot) r.1 y r.2.2.1)

/-- Payload of row `y` of the output ring slot at `base` (08 R300, R301). -/
def Mem.linePayload (m : Mem) (e : StreamCfg) (base y : Nat) : List Byte :=
  e.lineOf [m.ringPart e base 0 y e.width]

/-- Payload of a mid-grey row. -/
def StreamCfg.greyLine (e : StreamCfg) : List Byte :=
  packLine e.format (List.replicate e.width (greyPixel e.format)) (if e.irPlane then some (List.replicate e.width 0x800) else none)

/-- A bitmap over `n` tiles, padded to 8 bytes (07 R255). -/
def tileBitmap (n : Nat) (ts : List Nat) : List Byte :=
  padTo 8 ((List.range ((n + 7) / 8)).map fun k =>
    BitVec.ofNat 8 (sumN (((List.range 8).filter fun b => ts.contains (8 * k + b)).map fun b => 2 ^ b)))

/-- The slub map (07 R255). -/
def slubMap (st cols rows : Nat) (repeated noPrev : Bool) (num prev : Word) (sub filled : List Nat) : List Byte :=
  let bm := tileBitmap (cols * rows) sub
  let head1 := le 4 0x534C5542 ++ le 1 st ++ le 1 ((if repeated then 1 else 0) + (if noPrev then 2 else 0)) ++ le 2 cols ++
    le 2 rows ++ zeros 2 ++ le 4 num.toNat ++ le 4 prev.toNat ++ le 2 (satNat 65535 sub.length) ++
    le 2 (satNat 65535 filled.length) ++ le 2 bm.length ++ zeros 6
  let body := head1 ++ bm ++ tileBitmap (cols * rows) filled
  body ++ crcPair (crc32c body)

/-! ### Hand-over -/

/-- A read of the doffer meets an uncorrectable error (09 R324; 07 R249; 01 R39): a tile whose packet is lost comes from the output
ring, and one whose ring tile is lost too is filled; each is reported. -/
def Dev.badRead (d : Dev) (st : StreamNo) (key t : Nat) (k : TileRead) : Dev :=
  match (((d.streams[st]).out key).bind fun f => f.tiles[t]?).map Tile.st, k with
  | some .complete, .packet => (d.dropTilePkt st key t).raise 17 st.val t
  | some .complete, .packetAndRing => (d.substitute st key t).raise 17 st.val t
  | some .substituted, .previous => d.raise 17 st.val t
  | _, _ => d

/-- The tiles of band `b` at its H (R241, R249): those not complete fail, errors of the doffer's reads follow, and every replaced
tile takes the previous frame's bytes, or mid-grey. -/
def State.settleBand (s : State) (st : StreamNo) (key cols b : Nat) (errs : List (Nat × TileRead)) : State :=
  let s1 := (List.range cols).foldl (fun t i => t.expireTile st key (b * cols + i)) s
  let whole (i : Nat) : Bool := (((s1.dev.streams[st]).out key).bind fun f => f.tiles[b * cols + i]?).any fun x => decide (x.st = .complete)
  let bad := errs.filter fun p => decide (p.1 < cols)
  let s2 := bad.foldl (fun t p => { t with dev := t.dev.badRead st key (b * cols + p.1) p.2 }) s1
  (List.range cols).foldl (fun t i =>
    if (((t.dev.streams[st]).out key).bind fun f => f.tiles[b * cols + i]?).any Tile.replaced then
      t.pourTile st key (b * cols + i) (if whole i then bad.contains (i, .packetAndRing) else bad.contains (i, .previous))
    else t) s2

/-- The frame start packet, with band 0 (R390): a slot is counted, and the opening issue leaves unless the link is down. -/
def Dev.startFrame (d : Dev) (st : StreamNo) (f : OutFrame) (e : StreamCfg) (h : Nat) : Dev :=
  let down := decide (d.ply.map = 0)
  let x := { f with degraded := d.narrowLink || (d.streams[st]).afterReneg, lost := down }
  let d1 := ((d.countSlot st).onOut st f.key fun y => { y with degraded := x.degraded, lost := down }).onStream st fun g =>
    { g with live := true, slotAt := some d.whl.tim, afterReneg := g.afterReneg && down }
  let r := d1.openingRec st x e
  let d2 := d1.onOut st f.key fun y => { y with opened := some r }
  let d3 := match f.sources with
    | p :: _ => if down then d2 else d2.onStrand (strandOf p.1) fun g => g.onFrame p.2 fun z => { z with issued := true }
    | [] => d2
  d3.pushPkt h e.priority 2 st.val 0 (d3.recordBytes r none) f.key

/-- The doffer's cursor has passed band `b`: its packets leave the tile queue, and rows that no band needs leave the line queues
(09 R307, R310). -/
def Dev.releasePkts (d : Dev) (st : StreamNo) (f : OutFrame) (cols b : Nat) : Dev :=
  let d1 := d.onQueue (128 + st.val) fun q => q.pass 1 fun p => decide (p.frame = f.key) && decide (p.unit / cols = b)
  (f.sources.foldl (fun e p => e.sweepLines (strandOf p.1)) d1).trimCredits

/-- The doffer takes a band: its tiles that are not complete at H fail (07 R233, R241), frame start goes out with band 0
(R390), then the band's lines, none for a shed stream (R393). -/
def State.takeBand (s : State) (st : StreamNo) (key : Nat) (errs : List (Nat × TileRead)) : State :=
  match (s.dev.streams[st]).out key with
  | none => s
  | some f =>
    match s.dev.cfgOf st f with
    | none => s
    | some (l, e) =>
      let b := f.handed
      let h := nth f.deadlines b 0
      let s1 := s.settleBand st key (l.cols e) b errs
      let g := ((s1.dev.streams[st]).out key).getD f
      let s2 := if b = 0 then { s1 with dev := s1.dev.startFrame st g e h } else s1
      let ys := (List.range (min l.tileH (e.height - b * l.tileH))).map fun y => b * l.tileH + y
      let lost := ((s2.dev.streams[st]).out key).any fun x => x.lost
      let d4 := if s2.dev.shed st || lost then s2.dev
        else ys.foldl (fun d y =>
          let pl := s2.bandLine st f l e b y
          (d.pushPkt h e.priority 1 st.val y pl key).onOut st key fun x => { x with sentLines := x.sentLines ++ padTo 4 pl }) s2.dev
      let d5 := d4.onOut st key fun x => { x with handed := x.handed + 1, spareLow := x.spareLow || d4.spareLow }
      { s2 with dev := d5.releasePkts st f (l.cols e) b }

/-- BAND_HANDOVER: the oldest released band of the stream that the doffer has not taken (07 R233), with the reads that meet an
uncorrectable error (09 R324). -/
def bandHandover (st : StreamNo) (errs : List (Nat × TileRead)) (s : State) : State :=
  match (s.dev.streams[st]).frames.find? fun f => decide (f.handed < f.released.length) with
  | some f => s.takeBand st f.key errs
  | none => s

def execBandHandover (st : StreamNo) (s : State) (errs : List (Nat × TileRead) := []) : Host.Outcome State Fault Refusal :=
  .next (s.runM (bandHandover st errs))

/-- The last band has been sent: no line of the frame waits in the doffer (R390). -/
def Ply.linesSent (p : Ply) (st key : Nat) : Bool :=
  p.queue.all fun x => !(decide (x.cls = 2) && decide (x.id = st) && decide (x.key = key) && decide (x.ptype = 1))

/-- FRAME_END_SEND: with the last band sent and the closing issue sealed, the slub map where tiles were substituted and
frame end go out, and the frame is the stream's previous frame (R382, R390; 07 R255). -/
def frameEndSend (st : StreamNo) (d : Dev) : Dev :=
  match (d.streams[st]).frames with
  | [] => d
  | f :: fs =>
    match d.cfgOf st f with
    | none => d
    | some (l, e) =>
      if f.handed = l.rows e ∧ (d.sourcesOf f).all (fun p => !p.2.isOpen) ∧ d.ply.linesSent st.val f.key then
        let h := nth f.deadlines (l.rows e - 1) 0
        let f1 := { f with degraded := f.degraded || d.narrowLink }
        let prev := d.prevFor st f 0
        let filled := (List.range f.tiles.length).filter fun t => match f.tiles[t]? with | some x => decide (x.st = .filled) | none => false
        let d1 := if f.notOwn.isEmpty ∨ d.shed st ∨ f.lost then d
          else d.pushPkt h e.priority 5 st.val 0 (slubMap st.val (l.cols e) (l.rows e) f.repeated prev.isNone f.num
            ((prev.map fun p => p.num).getD 0xFFFFFFFF) f.notOwn filled) f.key
        let r := d1.closingRec st f1 e (f.opened.getD (d1.openingRec st f1 e))
        let own (p : PrevFrame) : PrevFrame := if f.repeated then p else
          { p with capture := r.capture, whorl := r.whorl, quality := r.quality, w6 := r.w6, exposures := r.exposures, flags := r.flags }
        let d2 := if f.lost then d1
          else d1.pushPkt h e.priority 3 st.val 0 (d1.recordBytes r (some (crcCfg d1.plyCrc f.sentLines))) f.key
        d2.onStream st fun g => { g with frames := fs, prev := ((d2.asPrev st f1 g.prev).map own).or g.prev }
      else d

def execFrameEndSend (st : StreamNo) (s : State) : Host.Outcome State Fault Refusal := .next (s.run (frameEndSend st))

/-! ### Slots without a source frame -/

/-- Key of the packets of such a frame: no output frame has it. -/
def slotKey : Nat := 2 ^ 64

/-- A whole frame of ready lines: frame start, lines and slub map unless shed, frame end (R382, R393). -/
def Dev.sendWhole (d : Dev) (st : StreamNo) (e : StreamCfg) (r : Rec) (lines : List (List Byte)) (slub : Option (List Byte)) :
    Dev :=
  let h := d.whl.tim
  let key := slotKey
  let d1 := d.pushPkt h e.priority 2 st.val 0 (d.recordBytes r none) key
  let sent := if d.shed st then [] else lines
  let d2 := (sent.zipIdx).foldl (fun x p => x.pushPkt h e.priority 1 st.val p.2 p.1 key) d1
  let d3 := match slub with
    | some b => if d.shed st then d2 else d2.pushPkt h e.priority 5 st.val 0 b key
    | none => d2
  (d3.pushPkt h e.priority 3 st.val 0 (d3.recordBytes r (some (crcCfg d3.plyCrc (sent.flatMap (padTo 4))))) key).onStream st
    fun g => { g with afterReneg := false }

/-- Flags of such a frame that follow the link and the time (R391, R393, R394; 12 R423). -/
def Dev.slotFlags (d : Dev) (st : StreamNo) (q : Nat) : Word :=
  holdoverFlag q ||| flagIf (d.narrowLink || d.shed st || (d.streams[st]).afterReneg) flagDegraded

/-- A WARMING frame (03 R90). -/
def Dev.warmFrame (d : Dev) (st : StreamNo) (l : LayoutCfg) (e : StreamCfg) (lost : Bool) : Dev :=
  let n := (e.sources.head?).getD 0
  let w := (d.capture n).whorl
  let q := d.whl.quality w
  let d1 := d.countSlot st
  let r : Rec :=
    { st := st.val, strand := n, layout := l.id, num := 0xFFFFFFFF, sourceNum := 0xFFFFFFFF, capture := ⟨0, 0, 0, 0⟩,
      whorl := w, quality := q, alive := (d1.streams[st]).alive,
      flags := flagWarming ||| flagIf lost flagCameraLost ||| d.slotFlags st q, exposures := [], subst := 0, w6 := 0 }
  d1.sendWhole st e r (List.replicate e.height e.greyLine) none

/-- Layout and entry that a stream without a frame of its own runs under (01 R22). -/
def Dev.slotCfg (d : Dev) (st : StreamNo) : Option (LayoutCfg × StreamCfg) :=
  (d.streamLayout st).bind fun l => (l.stream st.val).map fun e => (l, e)

/-- WARMING_SLOT: a stream without a valid source frame delivers a WARMING frame once the ply link is trained (03 R91). -/
def warmingSlot (st : StreamNo) (d : Dev) : Dev :=
  match d.slotCfg st with
  | some (l, e) =>
    if (d.streams[st]).live ∨ !d.pathOn ∨ d.ply.map = 0 then d else d.warmFrame st l e (d.cameraLost e)
  | none => d

def execWarmingSlot (st : StreamNo) (s : State) : Host.Outcome State Fault Refusal := .next (s.run (warmingSlot st))

/-- A slot timer may open a repeat slot of the stream (R391): its slot 0 source has capture mode 0 or 1, or a source is lost. -/
def Dev.repeatsSlot (d : Dev) (e : StreamCfg) : Bool :=
  decide ((d.capture ((e.sources.head?).getD 0)).mode ≤ 1) || d.cameraLost e

/-- REPEAT_SLOT: the slot timer expires (R391): the previous delivered frame with REPEATED, or a WARMING frame while none
was delivered. It restarts the timer. -/
def repeatSlot (st : StreamNo) (s : State) : State :=
  let d := s.dev
  match d.slotCfg st with
  | none => s
  | some (l, e) =>
    if !d.pathOn ∨ !d.repeatsSlot e then s
    else
      let d0 := d.onStream st fun g => { g with slotAt := some d.whl.tim }
      match (d.streams[st]).prev with
      | none => { s with dev := d0.warmFrame st l e (d.cameraLost e) }
      | some p =>
        let q := d.whl.quality p.whorl
        let d1 := d0.countSlot st
        let pe : StreamCfg := { e with width := p.width, height := p.height, format := p.format,
                                       flags := (e.flags - e.flags / 2 % 2 * 2) + (if p.irPlane then 2 else 0) }
        let cols := (p.width + p.tileW - 1) / p.tileW
        let rows := (p.height + p.tileH - 1) / p.tileH
        let r : Rec :=
          { st := st.val, strand := (e.sources.head?).getD 0, layout := l.id, num := 0xFFFFFFFF, sourceNum := p.sourceNum,
            capture := p.capture, whorl := p.whorl, quality := q, alive := (d1.streams[st]).alive,
            flags := flagRepeated ||| flagIf (d.cameraLost e) flagCameraLost ||| flagIf d.spareLow flagSpareLow |||
              d.slotFlags st q,
            exposures := p.exposures, subst := cols * rows, w6 := p.w6 }
        let base := d.outBase st.val p.ringSlot
        let all := List.range (cols * rows)
        let d2 := d1.sendWhole st pe r ((List.range p.height).map fun y => s.mem.linePayload pe base y)
          (some (slubMap st.val cols rows true false 0xFFFFFFFF p.num all []))
        { s with dev := d2.onStream st fun g => { g with prev := some { p with notOwn := all, repeated := true } } }

def execRepeatSlot (st : StreamNo) (s : State) : Host.Outcome State Fault Refusal := .next (s.runM (repeatSlot st))

end Sys2Proof.Machine
end

