-- ==== Sys2Proof/Machine/Inflate.lean ====
section
/-! DEFINITION. The RFC 1951 inflater of a hank lane (spec/10_hank_compressor.md R353, R358, R359; the format itself is
RFC 1951, PRESUMED, log 26). -/

namespace Sys2Proof.Machine

/-- Bits of a byte string, least significant first (RFC 1951 3.1.1). -/
def bitsOfBytes (bs : List Byte) : List Bool := bs.flatMap fun b => (List.range 8).map fun i => b.getLsbD i

/-- A number from the next `n` bits, least significant first, and the bits after it. -/
def takeBits (n : Nat) (l : List Bool) : Option (Nat × List Bool) :=
  if l.length < n then none
  else some (((l.take n).zipIdx.map fun p => if p.1 then 2 ^ p.2 else 0).foldl (· + ·) 0, l.drop n)

/-- Decode one symbol of a canonical code given by its lengths (RFC 1951 3.2.2): `first` is the first code of length
`len`. -/
def huffStep (lens : List Nat) : (fuel len first code : Nat) → List Bool → Option (Nat × List Bool)
  | 0, _, _, _, _ => none
  | _ + 1, _, _, _, [] => none
  | fuel + 1, len, first, code, b :: l =>
    let c := 2 * code + (if b then 1 else 0)
    let syms := (List.range lens.length).filter fun s => decide (lens.getD s 0 = len)
    if c - first < syms.length ∧ first ≤ c then some (syms.getD (c - first) 0, l)
    else huffStep lens fuel (len + 1) (2 * (first + syms.length)) c l

/-- Decode one symbol. -/
def huff (lens : List Nat) (l : List Bool) : Option (Nat × List Bool) := huffStep lens 15 1 0 0 l

/-- A set of lengths that assigns more codes than there are. -/
def overFull (lens : List Nat) : Bool :=
  decide (2 ^ 15 < ((lens.filter fun x => decide (0 < x)).map fun x => 2 ^ (15 - x)).foldl (· + ·) 0)

/-- Base and extra bits of length codes 257 to 285. -/
def lengthCodes : List (Nat × Nat) :=
  [(3, 0), (4, 0), (5, 0), (6, 0), (7, 0), (8, 0), (9, 0), (10, 0), (11, 1), (13, 1), (15, 1), (17, 1), (19, 2), (23, 2),
   (27, 2), (31, 2), (35, 3), (43, 3), (51, 3), (59, 3), (67, 4), (83, 4), (99, 4), (115, 4), (131, 5), (163, 5), (195, 5),
   (227, 5), (258, 0)]

/-- Base and extra bits of distance codes 0 to 29. -/
def distCodes : List (Nat × Nat) :=
  [(1, 0), (2, 0), (3, 0), (4, 0), (5, 1), (7, 1), (9, 2), (13, 2), (17, 3), (25, 3), (33, 4), (49, 4), (65, 5), (97, 5),
   (129, 6), (193, 6), (257, 7), (385, 7), (513, 8), (769, 8), (1025, 9), (1537, 9), (2049, 10), (3073, 10), (4097, 11),
   (6145, 11), (8193, 12), (12289, 12), (16385, 13), (24577, 13)]

/-- Copy `n` bytes from distance `d`, byte by byte (R358); `out` newest byte first. -/
def copyMatch (d : Nat) : (n : Nat) → List Byte → Option (List Byte)
  | 0, out => some out
  | n + 1, out => match out[d - 1]? with
    | some b => copyMatch d n (b :: out)
    | none => none

/-- Symbols of a compressed block up to its end-of-block code; `out` holds the history, newest byte first. -/
def inflateSyms (lit dst : List Nat) : (fuel : Nat) → List Bool → List Byte → Option (List Bool × List Byte)
  | 0, _, _ => none
  | fuel + 1, l, out =>
    match huff lit l with
    | none => none
    | some (s, l1) =>
      if s < 256 then inflateSyms lit dst fuel l1 (BitVec.ofNat 8 s :: out)
      else if s = 256 then some (l1, out)
      else match lengthCodes[s - 257]? with
        | none => none
        | some (lb, lx) => match takeBits lx l1 with
          | none => none
          | some (le1, l2) => match huff dst l2 with
            | none => none
            | some (ds, l3) => match distCodes[ds]? with
              | none => none
              | some (db, dx) => match takeBits dx l3 with
                | none => none
                | some (de, l4) =>
                  let d := db + de
                  if 32768 < d then none
                  else match copyMatch d (lb + le1) out with
                    | none => none
                    | some o => inflateSyms lit dst fuel l4 o

/-- Code lengths of a dynamic block, run-length coded (RFC 1951 3.2.7). -/
def readLens (cl : List Nat) (total : Nat) : (fuel : Nat) → List Bool → List Nat → Option (List Bool × List Nat)
  | 0, _, _ => none
  | fuel + 1, l, acc =>
    if acc.length = total then some (l, acc)
    else if total < acc.length then none
    else match huff cl l with
      | none => none
      | some (s, l1) =>
        if s < 16 then readLens cl total fuel l1 (acc ++ [s])
        else
          let p : Nat × Nat := if s = 16 then (2, 3) else if s = 17 then (3, 3) else (7, 11)
          if s = 16 ∧ acc = [] then none
          else match takeBits p.1 l1 with
            | none => none
            | some (x, l2) =>
              let v := if s = 16 then acc.getLastD 0 else 0
              readLens cl total fuel l2 (acc ++ List.replicate (p.2 + x) v)

/-- Order of the code-length code lengths. -/
def clOrder : List Nat := [16, 17, 18, 0, 8, 7, 9, 6, 10, 5, 11, 4, 12, 3, 13, 2, 14, 1, 15]

/-- The two code tables of a dynamic block. -/
def readDynamic (l : List Bool) : Option (List Bool × List Nat × List Nat) :=
  match takeBits 5 l with
  | none => none
  | some (hl, l1) => match takeBits 5 l1 with
    | none => none
    | some (hd, l2) => match takeBits 4 l2 with
      | none => none
      | some (hc, l3) =>
        if l3.length < 3 * (hc + 4) then none
        else
          let raw := (List.range (hc + 4)).map fun i => ((takeBits 3 (l3.drop (3 * i))).map Prod.fst).getD 0
          let cl := (List.range 19).map fun s => raw.getD (clOrder.idxOf s) 0
          match readLens cl (hl + 257 + hd + 1) 400 (l3.drop (3 * (hc + 4))) [] with
          | none => none
          | some (l4, lens) =>
            let lit := lens.take (hl + 257)
            let dst := lens.drop (hl + 257)
            if overFull cl ∨ overFull lit ∨ overFull dst then none else some (l4, lit, dst)

/-- Lengths of the fixed codes. -/
def fixedLit : List Nat :=
  List.replicate 144 8 ++ List.replicate 112 9 ++ List.replicate 24 7 ++ List.replicate 8 8
def fixedDst : List Nat := List.replicate 30 5

/-- Blocks until the bits run out: the output with its history, newest first, whether the last block was stored, and its
length. A final block is an error (R349). -/
def inflateBlocks : (fuel : Nat) → List Bool → List Byte → Option (Nat × Nat) → Option (List Byte × Option (Nat × Nat))
  | 0, _, _, _ => none
  | fuel + 1, l, out, last =>
    if l = [] then some (out, last)
    else match takeBits 3 l with
      | none => none
      | some (h, l1) =>
        if h % 2 = 1 then none
        else if h / 2 = 0 then
          let l2 := l1.drop (l1.length % 8)
          match takeBits 16 l2 with
          | none => none
          | some (n, l3) => match takeBits 16 l3 with
            | none => none
            | some (m, l4) =>
              if n + m ≠ 65535 ∨ l4.length < 8 * n then none
              else
                let bs := (List.range n).map fun i => BitVec.ofNat 8 (((takeBits 8 (l4.drop (8 * i))).map Prod.fst).getD 0)
                inflateBlocks fuel (l4.drop (8 * n)) (bs.reverse ++ out) (some (0, n))
        else if h / 2 = 1 then
          match inflateSyms fixedLit fixedDst l1.length l1 out with
          | some (l2, o) => inflateBlocks fuel l2 o (some (1, 0))
          | none => none
        else if h / 2 = 2 then
          match readDynamic l1 with
          | none => none
          | some (l2, lit, dst) => match inflateSyms lit dst l2.length l2 out with
            | some (l3, o) => inflateBlocks fuel l3 o (some (2, 0))
            | none => none
        else none

/-- What a payload inflates to from a history (oldest byte first), and whether it ends at a sync marker: an empty stored
block (R350, R359). -/
def inflate (hist payload : List Byte) : Option (List Byte × Bool) :=
  match inflateBlocks (payload.length + 1) (bitsOfBytes payload) hist.reverse none with
  | some (out, last) => some ((out.take (out.length - hist.length)).reverse, decide (last = some (0, 0)))
  | none => none

end Sys2Proof.Machine
end

