-- ==== Sys2Proof/Machine/Deflate.lean ====
section
/-! DEFINITION. The matcher and the DEFLATE encoder of a hank lane (spec/10_hank_compressor.md R346 to R352, R357). R348 makes the
hash, the dynamic codes and the cost of alignment no part of the interface: the hash and the dynamic codes are free (log 48). -/

namespace Sys2Proof.Machine

/-! ### The matcher (R346, R347) -/

/-- What the matcher emits: a literal, or a match of a length at a distance. -/
inductive HankSym where
  | lit (b : Byte)
  | copy (len dist : Nat)
  deriving DecidableEq, Repr

/-- Input bytes a symbol covers. -/
def HankSym.covers : HankSym → Nat
  | .lit _ => 1
  | .copy n _ => n

/-- Input bytes that symbols cover. -/
def covered (xs : List HankSym) : Nat := (xs.map HankSym.covers).sum

/-- Bytes that two positions have in common, at most `n`. -/
def commonLen : (n : Nat) → List Byte → List Byte → Nat
  | n + 1, a :: as, b :: bs => if a = b then commonLen n as bs + 1 else 0
  | _, _, _ => 0

/-- Hash of the three bytes at a position (R346). -/
def hash3 : List Byte → Option (Fin 32768)
  | a :: b :: c :: _ => some (Config.hankHash a b c)
  | _ => none

/-- Earlier positions of `t` with the hash of position `q`, most recent first, as many as the chain depth (R347). -/
def candidates (depth : Nat) (t : List Byte) (q : Nat) : List Nat :=
  match hash3 (t.drop q) with
  | none => []
  | some h => ((List.range q).reverse.filter fun p => decide (hash3 (t.drop p) = some h)).take depth

/-- The longest qualifying match at position `q` of `t`, the nearest on a tie: length and distance (R347). -/
def bestMatch (depth : Nat) (t : List Byte) (q : Nat) : Option (Nat × Nat) :=
  let best := (candidates depth t q).foldl (fun (b : Nat × Nat) p =>
    let n := commonLen 258 (t.drop p) (t.drop q)
    if q - p ≤ 32768 ∧ b.1 < n then (n, q - p) else b) (2, 0)
  if 3 ≤ best.1 then some best else none

/-- Symbols from position `q` of the segment's text to its end, with lazy matching or without (R347). -/
def symbolsFrom (depth : Nat) (lazy : Bool) (t : List Byte) : (fuel q : Nat) → List HankSym
  | 0, _ => []
  | fuel + 1, q =>
    match t[q]? with
    | none => []
    | some b =>
      match bestMatch depth t q with
      | none => .lit b :: symbolsFrom depth lazy t fuel (q + 1)
      | some m =>
        if lazy && decide (m.1 < 258) && (bestMatch depth t (q + 1)).any (fun x => decide (m.1 < x.1)) then
          .lit b :: symbolsFrom depth lazy t fuel (q + 1)
        else .copy m.1 m.2 :: symbolsFrom depth lazy t fuel (q + m.1)

/-- Symbols collected for one block each, up to 65,536 input bytes or more (R349): the open block already covers `used`. -/
def blocksOf : List HankSym → (used : Nat) → (block : List HankSym) → List (List HankSym)
  | [], _, block => if block.isEmpty then [] else [block]
  | x :: xs, used, block =>
    if 65536 ≤ used + x.covers then (block ++ [x]) :: blocksOf xs 0 [] else blocksOf xs (used + x.covers) (block ++ [x])

/-! ### Codes (RFC 1951 3.2) -/

/-- The first code of length `n` of a canonical code. -/
def firstCode (lens : List Nat) : (n : Nat) → Nat
  | 0 => 0
  | n + 1 => 2 * (firstCode lens n + (if n = 0 then 0 else (lens.filter fun x => decide (x = n)).length))

/-- Bits of a code symbol, in the order they are sent. -/
def huffCode (lens : List Nat) (s : Nat) : List Bool :=
  let n := lens.getD s 0
  let c := firstCode lens n + ((List.range s).filter fun r => decide (lens.getD r 0 = n)).length
  (List.range n).map fun i => c.testBit (n - 1 - i)

/-- A number of `n` bits, least significant first. -/
def numBits (n v : Nat) : List Bool := (List.range n).map fun i => v.testBit i

/-- The last entry of a table whose base is at most `v`. -/
def codeIndex (tab : List (Nat × Nat)) (v : Nat) : Nat :=
  ((List.range tab.length).filter fun i => decide ((tab.getD i (0, 0)).1 ≤ v)).getLastD 0

/-- Symbols of the two codes that a matcher symbol takes. -/
def HankSym.codes : HankSym → Nat × Option Nat
  | .lit b => (b.toNat, none)
  | .copy n d => (257 + codeIndex lengthCodes n, some (codeIndex distCodes d))

/-- Bits of a matcher symbol with its extra bits. -/
def HankSym.bits (lit dst : List Nat) : HankSym → List Bool
  | .lit b => huffCode lit b.toNat
  | .copy n d =>
    let i := codeIndex lengthCodes n
    let j := codeIndex distCodes d
    let lc := lengthCodes.getD i (0, 0)
    let dc := distCodes.getD j (0, 0)
    huffCode lit (257 + i) ++ numBits lc.2 (n - lc.1) ++ huffCode dst j ++ numBits dc.2 (d - dc.1)

/-! ### Blocks (R349, R351) -/

/-- A coded form of a block: its header after BFINAL, and the lengths of its two codes. -/
structure BlockCode where
  head : List Bool
  lit : List Nat
  dst : List Nat
  deriving DecidableEq, Repr

/-- The fixed codes. -/
def fixedCode : BlockCode := ⟨[true, false], fixedLit, fixedDst⟩

/-- The dynamic codes the encoder chose for a block: free, but a code for every symbol of it (log 48). -/
def dynamicCode (xs : List HankSym) : Option BlockCode :=
  let lits := 256 :: xs.map fun x => x.codes.1
  let dsts := xs.filterMap fun x => x.codes.2
  let head := Config.hankCodes lits dsts
  match readDynamic head with
  | some ([], lit, dst) =>
    if lits.all (fun s => decide (0 < lit.getD s 0)) && dsts.all (fun s => decide (0 < dst.getD s 0)) then
      some ⟨[false, true] ++ head, lit, dst⟩
    else none
  | _ => none

/-- Bits of a block in a coded form. -/
def BlockCode.cost (c : BlockCode) (xs : List HankSym) : Nat :=
  1 + c.head.length + (xs.map fun x => (x.bits c.lit c.dst).length).sum + (huffCode c.lit 256).length

/-- Bits of `n` bytes in stored form, without the padding (R349; log 48). -/
def storedCost (n : Nat) : Nat := 35 * ((n + 65534) / 65535) + 8 * n

/-- The cheapest form of a block: stored (none) before fixed before dynamic on a tie (R349). -/
def blockForm (xs : List HankSym) : Option BlockCode :=
  let f := fixedCode.cost xs
  let coded : BlockCode × Nat := match dynamicCode xs with
    | some c => if c.cost xs < f then (c, c.cost xs) else (fixedCode, f)
    | none => (fixedCode, f)
  if storedCost (covered xs) ≤ coded.2 then none else some coded.1

/-- Bits of a payload before its sync marker (R351). -/
def hankLimit : Nat := 8 * 65488

/-- Padding to the next byte boundary. -/
def padBits (n : Nat) : List Bool := List.replicate ((8 - n % 8) % 8) false

/-- Emit the symbols that fit, after the bits `out`: the bits, and how many symbols (R351). -/
def emitSyms (c : BlockCode) : List HankSym → (out : List Bool) → List Bool × Nat
  | [], out => (out, 0)
  | x :: xs, out =>
    let o := out ++ x.bits c.lit c.dst
    if o.length ≤ hankLimit then
      let r := emitSyms c xs o
      (r.1, r.2 + 1)
    else (out, 0)

/-- Emit a block in a coded form: nothing where its header and first symbol do not fit. -/
def BlockCode.emit (c : BlockCode) (xs : List HankSym) (out : List Bool) : List Bool × Nat :=
  let r := emitSyms c xs (out ++ false :: c.head)
  if r.2 = 0 then (out, 0) else (r.1 ++ huffCode c.lit 256, r.2)

/-- A stored block. -/
def storedBits (pos : Nat) (bs : List Byte) : List Bool :=
  [false, false, false] ++ padBits (pos + 3) ++ numBits 16 bs.length ++ numBits 16 (65535 - bs.length) ++ bitsOfBytes bs

/-- Emit a stored block of as many leading symbols as fit (R351); `data` begins with their bytes. -/
def emitStored (xs : List HankSym) (data : List Byte) (out : List Bool) : List Bool × Nat :=
  let fits (k : Nat) : Bool :=
    decide (out.length + 35 + (padBits (out.length + 3)).length + 8 * covered (xs.take k) ≤ hankLimit)
  let k := ((List.range (xs.length + 1)).filter fits).getLastD 0
  if k = 0 then (out, 0) else (out ++ storedBits out.length (data.take (covered (xs.take k))), k)

/-- Emit blocks until one does not fit whole: the bits, the input bytes they cover, and those of the block left open. -/
def emitBlocks : List (List HankSym) → (used : Nat) → (data : List Byte) → (out : List Bool) → List Bool × Nat × Nat
  | [], _, _, out => (out, 0, 0)
  | b :: bs, used, data, out =>
    let r := match blockForm b with
      | some c => c.emit b out
      | none => emitStored b data out
    let n := covered (b.take r.2)
    if r.2 = b.length then
      let t := emitBlocks bs 0 (data.drop n) r.1
      (t.1, n + t.2.1, t.2.2)
    else (r.1, n, used + n)

/-! ### Hanks (R350 to R352) -/

/-- Bytes of bits, least significant first, in groups of eight. -/
def bytesOfBits (bs : List Bool) : List Byte :=
  (List.range ((bs.length + 7) / 8)).map fun k =>
    BitVec.ofNat 8 (((List.range 8).map fun i => if bs.getD (8 * k + i) false then 2 ^ i else 0).sum)

/-- The sync marker after `n` bits (R350). -/
def syncMarker (n : Nat) : List Bool := [false, false, false] ++ padBits (n + 3) ++ numBits 16 0 ++ numBits 16 65535

/-- The next hank of a frame: `window` is the segment's history, `rest` the frame's bytes still to be recorded, and the open block
already covers `used` bytes. Its payload, the input bytes it covers, and those of the block it leaves open. -/
def encodeHank (r : RecordCfg) (window rest : List Byte) (used : Nat) : List Byte × Nat × Nat :=
  let xs := symbolsFrom r.depth r.lazy (window ++ rest) rest.length window.length
  let e := emitBlocks (blocksOf xs used []) used rest []
  (bytesOfBits (e.1 ++ syncMarker e.1.length), e.2.1, e.2.2)

/-- Payload of a STORED hank (R360). -/
def storedPayload (bs : List Byte) : List Byte := bytesOfBits (storedBits 0 bs)

end Sys2Proof.Machine
end

