-- ==== Sys2Proof/Machine/Hank.lean ====
section
/-! DEFINITION. The hank compressor (spec/10_hank_compressor.md R338 to R366): residual transform, frames of the lanes,
inline verification, segments. -/

namespace Sys2Proof.Machine

/-- The prediction of R344 at column `i`, row `j`. -/
def predict (px py : Nat) (x : Nat → Nat → Nat) (i j : Nat) : Int :=
  if i < px ∧ j < py then 0
  else if j < py then x (i - px) j
  else if i < px then x i (j - py)
  else
    let a : Int := x (i - px) j
    let b : Int := x i (j - py)
    let c : Int := x (i - px) (j - py)
    if max a b ≤ c then min a b else if c ≤ min a b then max a b else a + b - c

/-- The zig-zag code of a residual (R344). -/
def zigzag (v p : Int) : Nat :=
  let s0 := (v - p) % 65536
  let s := if 32768 ≤ s0 then s0 - 65536 else s0
  (if 0 ≤ s then 2 * s else -2 * s - 1).toNat

/-- The residual stream of a frame: per row the high plane and then the low plane (R344). -/
def residual (px py w h : Nat) (x : Nat → Nat → Nat) : List Byte :=
  (List.range h).flatMap fun j =>
    let zs := (List.range w).map fun i => zigzag (x i j) (predict px py x i j)
    (zs.map fun z => BitVec.ofNat 8 (z / 256)) ++ zs.map fun z => BitVec.ofNat 8 z

/-- Insert by close time, then strand number (R366). -/
def firstWaiting (ws : List (Nat × StrandNo × Word)) : Option (Nat × StrandNo × Word) :=
  ws.foldl (fun (b : Option (Nat × StrandNo × Word)) w => match b with
    | none => some w
    | some x => if w.1 < x.1 ∨ (w.1 = x.1 ∧ w.2.1 < x.2.1) then some w else some x) none

/-- Entry-hank interval of the layout a strand runs under. -/
def Dev.entryInterval (d : Dev) (layout : Nat) : Nat := ((d.layoutCfg layout).map fun l => l.entryInterval).getD 1

/-- Closed frames that wait for lane `k` (R338, R342, R366): those of layouts under which their strand has the lane, of strands that
no other lane is compressing. -/
def Dev.laneWaiting (d : Dev) (k : Fin 4) : List (Nat × StrandNo × Word) :=
  allStrands.flatMap fun n =>
    if d.hnk.lanes.toList.any fun l => l.cur.any fun c => decide (c.strand = n) then []
    else (((d.hnk.strands[n]).waiting).filter fun w =>
      ((d.strands[n]).frame w.2).any fun f => decide (assocGet ((d.hnk.strands[n]).laneFor.map fun p => (p.1, some p.2)) f.layout none = some k)).map
        fun w => (w.1, n, w.2)

/-- Take a frame of a strand off the list of those that wait. -/
def Dev.unwait (d : Dev) (n : StrandNo) (num : Word) : Dev :=
  d.onHankStrand n fun x => { x with waiting := x.waiting.filter fun y => decide (y.2 ≠ num) }

/-- The next frame the lane compresses; a frame of a strand in the shed set is not recorded when its turn comes (R338, R365). -/
def nextHankFrame (k : Fin 4) : (fuel : Nat) → Dev → Dev × Option (StrandNo × Word)
  | 0, d => (d, none)
  | fuel + 1, d =>
    match firstWaiting (d.laneWaiting k) with
    | none => (d, none)
    | some (_, n, num) =>
      if d.shedRecord n.val then nextHankFrame k fuel (d.unwait n num) else (d.unwait n num, some (n, num))

/-- A frame opens with an entry hank (R342, R355, R356, R362; 03 R93). -/
def HankStrand.opensEntry (x : HankStrand) (f : Frame) (interval : Nat) : Bool :=
  x.needEntry || decide (interval ≤ x.count) || x.entryFor.contains f.layout || x.entryAt.any fun a => !later a f.num

/-- The strand's record state with a frame of it started. -/
def HankStrand.begin (x : HankStrand) (f : Frame) (entry : Bool) : HankStrand :=
  { x with needEntry := false, restart := false, entryFor := x.entryFor.filter fun j => decide (j ≠ f.layout),
           entryAt := x.entryAt.filter fun a => later a f.num, window := if entry then [] else x.window,
           seq := if entry then 0 else x.seq, count := if entry then 1 else x.count + 1 }

/-- The residual stream of a frame in its input ring slot (R344; 09 R331). -/
def Dev.residualOf (d : Dev) (i : Image) (n : StrandNo) (f : Frame) (m : Mem) : List Byte :=
  let q := i.prof n.val
  let mo := i.mosaicOf q
  let base := d.inBase n.val f.slot
  residual mo.px mo.py q.width q.height fun x y => fromLe (Memory.readN 0 m.fs (base + 2 * (y * q.width + x)) 2)

/-- HANK_LANE_FRAME_START: the lane starts the oldest closed recorded frame of its strands (R338, R356, R365, R366). -/
def hankLaneFrameStart (k : Fin 4) (m : Mem) (d : Dev) : Dev :=
  let l := d.hnk.lanes[k]
  if l.quarantined ∨ l.cur.isSome then d
  else
    match nextHankFrame k (d.laneWaiting k).length d, d.img with
    | (d1, some (n, num)), some i =>
      match (d1.strands[n]).frame num with
      | none => d1
      | some f =>
        let hs := d1.hnk.strands[n]
        let entry := hs.opensEntry f (d1.entryInterval f.layout)
        let fr : HankFrame :=
          { strand := n, frame := num, bytes := d1.residualOf i n f m, offset := 0, storedTo := 0, blockUsed := 0, entry := entry,
            restart := entry && hs.restart, formatFault := decide (f.flags &&& flagFormatFault ≠ 0),
            capSec := f.capture.sec, capNs := f.capture.ns }
        (d1.onHankStrand n fun x => x.begin f entry).onLane k fun x => { x with cur := some fr }
    | (d1, _), _ => d1

def execHankLaneFrameStart (lane : Fin 4) (s : State) : Host.Outcome State Fault Refusal :=
  .next (s.runR (hankLaneFrameStart lane))

/-- HANK_FRAME_ABANDON (R363); poisoned data is an uncorrectable error (01 R39). -/
def hankFrameAbandon (k : Fin 4) (cause : HankAbandonCause) (d : Dev) : Dev :=
  if (d.hnk.lanes[k]).cur.isNone then d
  else match cause with
    | .poisoned => (d.abandonHank k).raise 17 (192 + k.val) 0
    | .slotTaken => d.abandonHank k

def execHankFrameAbandon (lane : Fin 4) (cause : HankAbandonCause) (s : State) : Host.Outcome State Fault Refusal :=
  .next (s.run (hankFrameAbandon lane cause))

/-- Quarantine a lane for the rest of the start and reassign its strands (R361, R362). -/
def Dev.quarantineLane (d : Dev) (k : Fin 4) : Dev :=
  let d1 := ((d.abandonHank k).onLane k fun l => { l with quarantined := true }).numberDecision.raise 15 (192 + k.val) 2
  match d1.layoutCfg (d1.lay.pending.getD d1.sys.activeLayout.toNat) with
  | some l => d1.assignHank l.id l.recorded
  | none => d1

/-- Flags of a hank (R355). -/
def HankFrame.flags (c : HankFrame) (len : Nat) (stored : Bool) : Nat :=
  (if c.entry ∧ c.offset = 0 then 1 else 0) + (if c.offset + len = c.bytes.length then 2 else 0) + (if stored then 4 else 0) +
    (if c.entry ∧ c.offset = 0 ∧ c.restart then 8 else 0) + (if c.formatFault then 16 else 0)

/-- The hank of a verified payload (R354). -/
def HankFrame.hank (c : HankFrame) (crcP : CrcCfg) (seq : Nat) (payload input : List Byte) (stored : Bool) : List Byte :=
  let head1 := le 4 0x4B4E4148 ++ le 1 c.strand.val ++ le 1 (c.flags input.length stored) ++ le 2 payload.length ++
    le 4 c.frame.toNat ++ le 4 seq ++ le 4 c.capSec ++ le 4 c.capNs ++ le 4 c.offset ++ le 4 input.length
  head1 ++ payload ++ crcPair (crcCfg crcP (head1 ++ input))

/-- The verdict of the inflater on a payload (R359): a STORED hank ends at its one stored block, any other at the sync
marker. -/
def verifyHank (window payload input : List Byte) (stored : Bool) : Bool :=
  match inflate window payload with
  | none => false
  | some (out, sync) =>
    decide (out = input) &&
      (if stored then decide (payload.length = input.length + 5) && decide (input.length ≤ 65491)
       else sync && decide (payload.length ≤ 65496))

/-- A hank passes (R314, R359): it is committed to the lane's queue, and the window moves on; the open block then covers `used`
bytes. -/
def Dev.passHank (d : Dev) (k : Fin 4) (c : HankFrame) (payload input : List Byte) (stored : Bool) (used : Nat) (crcP : CrcCfg) :
    Dev :=
  let hs := d.hnk.strands[c.strand]
  let d1 := (d.commitPkt (192 + k.val) (c.hank crcP hs.seq payload input stored) [1]).1
  let off := c.offset + input.length
  let win := hs.window ++ input
  (d1.onHankStrand c.strand fun x => { x with seq := (x.seq + 1) % 2 ^ 32, window := win.drop (win.length - 32768) }).onLane k
    fun l => { l with mismatches := 0, cur := if off = c.bytes.length then none else some { c with offset := off, blockUsed := used } }

/-- The lane's own next hank: its payload, the input bytes it stands for, and those of the block it leaves open. A STORED hank
takes as many bytes of its range as one may hold (R360). -/
def HankFrame.next (c : HankFrame) (r : RecordCfg) (window : List Byte) : List Byte × Nat × Nat :=
  let rest := c.bytes.drop c.offset
  if c.offset < c.storedTo then
    let bs := rest.take (min 65491 (c.storedTo - c.offset))
    (storedPayload bs, bs.length, c.blockUsed)
  else encodeHank r window rest c.blockUsed

/-- The inline inflater judges a payload for `inputLen` bytes of the lane's frame (R359): it is committed, or rewound and its range
re-emitted as STORED hanks, each a hank of its own (R360); a second mismatch in a row quarantines the lane (R361). -/
def Dev.judgeHank (d : Dev) (k : Fin 4) (c : HankFrame) (crcP : CrcCfg) (payload : List Byte) (inputLen used : Nat) : Dev :=
  let stored := decide (c.offset < c.storedTo)
  let input := (c.bytes.drop c.offset).take inputLen
  if verifyHank (d.hnk.strands[c.strand]).window payload input stored then d.passHank k c payload input stored used crcP
  else
    let n := (d.hnk.lanes[k]).mismatches + 1
    let d1 := (d.onLane k fun l =>
      { l with suspect := l.suspect + 1, mismatches := n,
               cur := some { c with storedTo := if stored then c.storedTo else c.offset + inputLen, blockUsed := used } }).raise
      15 (192 + k.val) 0
    if 2 ≤ n then d1.quarantineLane k else d1

/-- A hank of `inputLen` bytes lies within the frame, and within the range that is re-emitted (R350, R360). -/
def HankFrame.admits (c : HankFrame) (inputLen : Nat) : Bool :=
  decide (0 < inputLen) && decide (c.offset + inputLen ≤ if c.offset < c.storedTo then c.storedTo else c.bytes.length)

/-- HANK_VERIFY: the inline inflater finishes a hank of the lane's frame (R359). The lane waits for 256 cells of credit (R366). -/
def hankVerify (k : Fin 4) (other : Option (List Byte × Nat)) (d : Dev) : Dev :=
  match (d.hnk.lanes[k]).cur, d.img with
  | some c, some i =>
    let x := match other with
      | some p => (p.1, p.2, 0)
      | none => c.next i.record (d.hnk.strands[c.strand]).window
    if !c.admits x.2.1 ∨ (d.bob.queue (192 + k.val)).room < 256 then d
    else d.judgeHank k c i.record.crc x.1 x.2.1 x.2.2
  | _, _ => d

def execHankVerify (lane : Fin 4) (payload : Option (List Byte)) (inputLen : Nat) (s : State) :
    Host.Outcome State Fault Refusal := .next (s.run (hankVerify lane (payload.map fun x => (x, inputLen))))

end Sys2Proof.Machine
end

