-- ==== Sys2Proof/Machine/Ply.lean ====
section
/-! DEFINITION. The ply link: training, blocks, acknowledgement and replay, lane loss and rejoin, renegotiation, health
packets (spec/11_ply_link.md R369 to R409; 01 R27; 10 R364, R365). Link commands act at the block boundary where they
are run (log 27). -/

namespace Sys2Proof.Machine

/-! ### States of the link -/

/-- Blocks flow. -/
def Ply.running (p : Ply) : Bool := decide (p.st = .up) || decide (p.st = .replay)

/-- Training or renegotiation is under way (R374, R409). -/
def Ply.inTraining (p : Ply) : Bool := decide (p.st = .training) || decide (p.st = .reneg)

/-- The configured lanes (R370). -/
def Ply.lanes (p : Ply) : Byte := laneMask p.count

/-- Return-lane messages are acted on: none during a return-lane check (17 R577) or in electrical idle. -/
def Dev.returnOpen (d : Dev) : Bool := d.tst.rlCheck.isNone && decide (d.ply.st ≠ .down)

/-- Sequence order modulo 2^24 (R378). -/
def later24 (a b : BitVec 24) : Bool := decide (1 ≤ (a - b).toNat) && decide ((a - b).toNat < 2 ^ 23)

/-- Newest data block sent. -/
def Ply.newest (p : Ply) : BitVec 24 := p.nextSeq - 1

/-- Lane numbers of a mask. -/
def maskLanes (m : Byte) : List Nat := bitsOf 8 m.toNat

/-! ### Withheld hanks and shed rows -/

/-- The doffer does not send a strand's hanks (10 R364): the queued ones are discarded, the strand's frame in progress
stops and its segment ends. -/
def Dev.withholdHanks (d : Dev) (n : StrandNo) : Dev :=
  let mine (p : Pkt) : Bool := decide (p.data[4]? = some (BitVec.ofNat 8 n.val))
  let lost := (List.finRange 4).foldl (fun c k => c + (((d.bob.queue (192 + k.val)).pkts).filter mine).length) 0
  let d1 := ((List.finRange 4).foldl (fun e k => e.onQueue (192 + k.val) fun q => { q with pkts := q.pkts.filter fun p => !mine p }) d).trimCredits
  let d2 := d1.onHnk fun h =>
    { h with withheld := satAdd h.withheld lost,
             lanes := h.lanes.map fun l => if l.cur.any fun c => decide (c.strand = n) then { l with cur := none } else l }
  let d3 := d2.endSegment n
  if 0 < lost then d3.raise 15 n.val 3 else d3

/-- A frame that the link has begun is marked LINK_DEGRADED (R394). -/
def OutFrame.markDegraded (f : OutFrame) : OutFrame := if 0 < f.handed then { f with degraded := true } else f

/-- The link runs below its configured width: every frame between its start and its end is marked (R394). -/
def Dev.markNarrow (d : Dev) : Dev :=
  if d.narrowLink then { d with streams := d.streams.map fun g => { g with frames := g.frames.map OutFrame.markDegraded } } else d

/-- Bytes of a frame's lines that wait in the doffer, with padding. -/
def Ply.waitingBytes (p : Ply) (st key : Nat) : Nat :=
  sumN ((p.queue.filter fun x => decide (x.ptype = 1) && decide (x.id = st) && decide (x.key = key)).map fun x =>
    (padTo 4 x.payload).length)

/-- The lines and slub maps of a newly shed stream that wait are not sent (R393). Frames that went to the doffer whole
keep theirs (log 27). -/
def Dev.shedStream (d : Dev) (st : StreamNo) : Dev :=
  let p := d.ply
  let d1 := d.onStream st fun g =>
    { g with frames := g.frames.map fun f =>
        { f.markDegraded with sentLines := f.sentLines.take (f.sentLines.length - p.waitingBytes st.val f.key) } }
  d1.onPly fun q => { q with queue := q.queue.filter fun x =>
    !(decide (x.id = st.val) && (decide (x.ptype = 1) || decide (x.ptype = 5)) && decide (x.cls = 2) && decide (x.key ≠ slotKey)) }

/-- The doffer applies the selected shed row at the block boundary (01 R25, R27; R393; 10 R365). -/
def Dev.applyShed (d : Dev) : Dev :=
  match d.ply.shedNext with
  | none => d
  | some (ss, rs, number) =>
    let newS := allStreams.filter fun st => ss.getLsbD st.val && !d.ply.shedStreams.getLsbD st.val
    let newR := allStrands.filter fun n => rs.getLsbD n.val && !d.ply.shedRec.getLsbD n.val
    let d1 := (d.onPly fun p => { p with shedNext := none, shedStreams := ss, shedRec := rs }).onSys fun y => { y with applied := number }
    newR.foldl Dev.withholdHanks (newS.foldl Dev.shedStream d1)

/-! ### Training (R374 to R376) -/

/-- Start again at step 1 of R374; a renegotiation stays one. -/
def Ply.retrain (p : Ply) : Ply := { p.train with st := p.st }

/-- Step 5 of R374: RESTRIPE opens the map of the lanes that are up, naming sequence 0, or after a renegotiation the next
sequence (R409); the other configured lanes retrain (R376) and the shed row of the width is selected (01 R27). Both
copies of a RESTRIPE are one entry of the transmit log. -/
def Dev.openPly (d : Dev) (m : Byte) : Dev :=
  let again := decide (d.ply.st = .reneg)
  let seq := if again then d.ply.nextSeq else 0
  let rest := d.ply.lanes &&& ~~~m
  let d1 := d.onPly fun p =>
    let q := ({ p with st := .up, map := m, up := m, lockedMask := p.lockedMask ||| m, retraining := rest, attempts := 0,
                       nextSeq := seq, acked := seq - 1, stalled := false }).emit (.restripe m seq)
    if rest = 0 then q else q.emit (.ts1 rest)
  let d2 := if again then { d1 with streams := d1.streams.map fun g => { g with afterReneg := true } } else d1
  (d2.selectShed (laneCount m)).markNarrow

/-- PLY_TRAINED: step 5 of R374. -/
def plyTrained (up : Byte) (d : Dev) : Dev :=
  let m := up &&& d.ply.lanes
  if d.ply.inTraining ∧ m ≠ 0 then d.openPly m else d

def execPlyTrained (up : Byte) (s : State) : Host.Outcome State Fault Refusal := .next (s.run (plyTrained up))

/-- PLY_TRAINING_TIMEOUT: the link proceeds with the lanes that are up, or trains again; the first failed attempt is
reported (R376). -/
def plyTrainingTimeout (up : Byte) (d : Dev) : Dev :=
  let m := up &&& d.ply.lanes
  if !d.ply.inTraining then d
  else if d.ply.gotLock ∧ m ≠ 0 then d.openPly m
  else
    let d1 := if d.ply.attempts = 0 then d.report 13 else d
    d1.onPly fun p => { p.retrain with attempts := p.attempts + 1 }

def execPlyTrainingTimeout (up : Byte) (s : State) : Host.Outcome State Fault Refusal := .next (s.run (plyTrainingTimeout up))

/-! ### Renegotiation (R409) -/

/-- The frames in delivery lose their slot while the link is down. -/
def Stream.linkDown (g : Stream) : Stream :=
  { g with frames := g.frames.map fun f => if 0 < f.handed then { f with lost := true } else f }

/-- Strands with a hank in the queues. -/
def Dev.queuedHankStrands (d : Dev) : List StrandNo :=
  allStrands.filter fun n => (List.finRange 4).any fun k =>
    ((d.bob.queue (192 + k.val)).pkts).any fun p => decide (p.data[4]? = some (BitVec.ofNat 8 n.val))

/-- Lane-down and renegotiation events since the last plan (16 R569). -/
def Dev.countPlyEvents (d : Dev) (n : Nat) : Dev :=
  d.onHist fun h => { h with plyEvents := satNat 0xFFFFFFFF (h.plyEvents + n) }

/-- Renegotiate: the replay buffer and what is unsent is discarded, every configured lane trains, the slots in delivery
are lost and the hanks not sent follow 10 R364. -/
def Dev.renegotiate (d : Dev) : Dev :=
  let d1 := (d.report 14).countPlyEvents 1
  let d2 := d1.onPly fun p =>
    { ({ p with buffer := [], resend := [], rest := [], replayTop := none, replayRun := 0, retraining := 0, stalled := false,
                queue := p.queue.filter fun x => decide (x.cls ≠ 2),
                counts := upd p.counts 1 fun c => satAdd c 1 }).train with st := .reneg }
  let d3 := { d2 with streams := d2.streams.map Stream.linkDown }
  d3.queuedHankStrands.foldl Dev.withholdHanks d3

/-- RETURN_LANE_LOCK_LOSS: no symbol lock of the return lane for 1 ms (R409); a return-lane check expects none (17 R577). -/
def returnLaneLockLoss (d : Dev) : Dev := if d.ply.running ∧ d.tst.rlCheck.isNone then d.renegotiate else d

def execReturnLaneLockLoss (s : State) : Host.Outcome State Fault Refusal := .next (s.run returnLaneLockLoss)

/-! ### Acknowledgement and replay (R401 to R404) -/

/-- A replay of the unacknowledged blocks from `seq` on; a fifth consecutive one renegotiates (R402, R404). -/
def Dev.replayFrom (d : Dev) (seq : BitVec 24) : Dev :=
  if 4 ≤ d.ply.replayRun then d.renegotiate
  else d.onPly fun p =>
    { p with st := .replay, resend := p.buffer.filter (fun b => !later24 seq b.1), replayTop := some p.newest,
             replayRun := p.replayRun + 1, counts := upd p.counts 0 fun c => satAdd c 1 }

/-- ACK: every block up to its sequence leaves the replay buffer; one not later than the previous changes nothing; one
beyond the newest block covers every block sent (R401, R404; log 27). -/
def ack (_up : Byte) (seq : BitVec 24) (d : Dev) : Dev :=
  let p := d.ply
  if p.running ∧ d.returnOpen ∧ later24 seq p.acked then
    let top := if later24 seq p.newest then p.newest else seq
    let keep := fun (b : BitVec 24 × List Byte) => later24 b.1 top
    let rs := p.resend.filter keep
    let covered := p.replayTop.any fun t => !later24 t top
    d.onPly fun p =>
      { p with acked := top, buffer := p.buffer.filter keep, resend := rs, st := if rs.isEmpty then .up else p.st,
               replayRun := if covered then 0 else p.replayRun, replayTop := if covered then none else p.replayTop }
  else d

def execAck (up : Byte) (seq : BitVec 24) (s : State) : Host.Outcome State Fault Refusal := .next (s.run (ack up seq))

/-- A NAK starts a replay: its sequence is unacknowledged, and in a replay it was already resent (R402, R403). -/
def Ply.nakCounts (p : Ply) (seq : BitVec 24) : Bool :=
  p.buffer.any (fun b => decide (b.1 = seq)) && !(p.resend.any fun b => decide (b.1 = seq))

/-- NAK (R402, R403); its cause changes nothing. -/
def nak (_cause : Byte) (seq : BitVec 24) (d : Dev) : Dev :=
  if d.ply.running ∧ d.returnOpen ∧ d.ply.nakCounts seq then d.replayFrom seq else d

def execNak (cause : Byte) (seq : BitVec 24) (s : State) : Host.Outcome State Fault Refusal := .next (s.run (nak cause seq))

/-- ACK_TIMEOUT: a replay from the oldest unacknowledged block (R402). -/
def ackTimeout (d : Dev) : Dev :=
  match d.ply.buffer with
  | b :: _ => if d.ply.running then d.replayFrom b.1 else d
  | [] => d

def execAckTimeout (s : State) : Host.Outcome State Fault Refusal := .next (s.run ackTimeout)

/-! ### Lane loss and rejoin (R406 to R408) -/

/-- Record a reason for every lane of a mask. -/
def Ply.setReason (p : Ply) (m reason : Byte) : Ply :=
  { p with downReason := Vector.ofFn fun k => if m.getLsbD k.val then reason else p.downReason[k] }

/-- Lanes of the map are lost or withdrawn; `back` lanes join with the same RESTRIPE. Steps 2 to 5 of R406: the shed row
of the new width, RESTRIPE naming the oldest unacknowledged block, its replay, and TS1 on the lost lanes. Lanes withdrawn
for their generators are not trained, and with every lane withdrawn the link is under test (17 R577). -/
def Dev.lanesDown (d : Dev) (down back reason : Byte) (test : Bool) : Dev :=
  let d1 := ((maskLanes down).foldl (fun e n => e.raise 13 n reason.toNat) d).countPlyEvents (laneCount down)
  let d2 := d1.onPly fun p =>
    { p.setReason down reason with
      counts := upd p.counts 2 fun c => satAdd c (laneCount down), retraining := (if test then p.retraining &&& ~~~down else p.retraining ||| down) &&& ~~~back }
  let m := (d.ply.map &&& ~~~down) ||| back
  let ts (p : Ply) : Ply := if test then p else p.emit (.ts1 down)
  if m = 0 then (if test then d2.onPly fun p => { p with st := .test, map := 0 } else d2.renegotiate)
  else
    let d3 := d2.selectShed (laneCount m)
    match d3.ply.buffer with
    | [] => (d3.onPly fun p => ts (({ p with map := m }).emit (.restripe m p.nextSeq))).markNarrow
    | b :: _ =>
      if 4 ≤ d3.ply.replayRun then d3.renegotiate
      else
        let d4 := (d3.onPly fun p => ({ p with map := m }).emit (.restripe m b.1)).markNarrow
        (d4.replayFrom b.1).onPly ts

/-- Lanes return to the map: RESTRIPE names the next new block and nothing is replayed (R408). -/
def Dev.rejoin (d : Dev) (back : Byte) : Dev :=
  let m := d.ply.map ||| back
  (d.onPly fun p => ({ p with map := m, retraining := p.retraining &&& ~~~back }).emit (.restripe m p.nextSeq)).selectShed
    (laneCount m)

/-- LANE_STATUS while the link trains: the masks are kept and TS2 goes to the lanes newly locked (R374). -/
def Dev.trainStatus (d : Dev) (up locked : Byte) : Dev :=
  d.onPly fun p =>
    let fresh := locked &&& ~~~p.lockedMask
    let q := { p with up := up, lockedMask := locked, gotLock := p.gotLock || decide (locked ≠ 0) }
    if fresh = 0 then q else q.emit (.ts2 fresh)

/-- LANE_STATUS while blocks flow (R406 to R408). -/
def Dev.mapStatus (d : Dev) (up locked reason : Byte) : Dev :=
  let p := d.ply
  let fresh := locked &&& ~~~p.lockedMask &&& p.retraining
  let down := p.map &&& ~~~up
  let back := up &&& p.retraining
  let d1 := d.onPly fun q =>
    let q1 := { q with up := up, lockedMask := locked }
    if fresh = 0 then q1 else q1.emit (.ts2 fresh)
  if up = 0 then (if down = 0 then d1.renegotiate else d1.lanesDown down 0 reason false)
  else if down ≠ 0 then d1.lanesDown down back reason false
  else if back ≠ 0 then d1.rejoin back
  else d1

/-- LANE_STATUS: bits of lanes outside the configured count are ignored (R407); lanes down with reason RATE are reported
(R375). Its sequence acknowledges nothing: only an ACK does (R401; log 27). -/
def laneStatus (up locked reason : Byte) (_seq : BitVec 24) (d : Dev) : Dev :=
  let u := up &&& d.ply.lanes
  let l := locked &&& d.ply.lanes
  let bad := d.ply.lanes &&& ~~~u
  let d1 := if reason = 5 ∧ bad ≠ 0 ∧ d.returnOpen then
      (maskLanes bad).foldl (fun e n => e.raise 13 n 5) (d.onPly fun p => p.setReason bad 5)
    else d
  if !d.returnOpen then d
  else if d.ply.inTraining then d1.trainStatus u l
  else if d.ply.running then d1.mapStatus u l reason
  else d

def execLaneStatus (up locked reason : Byte) (seq : BitVec 24) (s : State) : Host.Outcome State Fault Refusal :=
  .next (s.run (laneStatus up locked reason seq))

/-- ARBITER_LANE_WITHDRAW: a lane of the map leaves it from step 2 of R406 on, with reason 6 (18 PLY_DOWN_REASON). The withdrawal
is a decision of its own, the shed row another (01 R25, R27). -/
def arbiterLaneWithdraw (lane : Fin 8) (d : Dev) : Dev :=
  let m := 1#8 <<< lane.val
  if d.ply.running ∧ d.ply.map &&& m ≠ 0 then d.numberDecision.lanesDown m 0 6 false else d

def execArbiterLaneWithdraw (lane : Fin 8) (s : State) : Host.Outcome State Fault Refusal :=
  .next (s.run (arbiterLaneWithdraw lane))

/-- LANE_RETRAIN_RETRY: a lane that failed retraining is sent TS1 again (R408). -/
def laneRetrainRetry (lane : Fin 8) (d : Dev) : Dev :=
  if d.ply.running ∧ d.ply.retraining.getLsbD lane.val then
    d.onPly fun p => ({ p with lockedMask := p.lockedMask &&& ~~~(1#8 <<< lane.val) }).emit (.ts1 (1#8 <<< lane.val))
  else d

def execLaneRetrainRetry (lane : Fin 8) (s : State) : Host.Outcome State Fault Refusal := .next (s.run (laneRetrainRetry lane))

/-- Count a discarded return-lane message (R397; 17 R577). -/
def Dev.countDiscard (d : Dev) : Dev := d.onPly fun p => { p with counts := upd p.counts 4 fun c => satAdd c 1 }

/-- RETURN_MESSAGE_DISCARD (R397); during a return-lane check messages are ignored (17 R577). -/
def returnMessageDiscard (d : Dev) : Dev := if d.tst.rlCheck.isSome then d else d.countDiscard

def execReturnMessageDiscard (s : State) : Host.Outcome State Fault Refusal := .next (s.run returnMessageDiscard)

/-! ### Blocks (R377 to R380, R389) -/

/-- A packet with its header (R380). -/
def packetBytes (ptype id line : Nat) (payload : List Byte) : List Byte :=
  padTo 4 (le 1 ptype ++ le 1 id ++ le 2 line ++ le 4 payload.length ++ payload)

/-- A block (R377). -/
def plyBlock (typ flags : Nat) (seq : BitVec 24) (mask : Byte) (first : Nat) (payload : List Byte) : List Byte :=
  let body := le 1 typ ++ le 1 flags ++ le 3 seq.toNat ++ [mask] ++ le 2 first ++ payload ++ zeros (496 - payload.length)
  body ++ crcPair (crc32c body)

/-- A kept block as a replay sends it: the replayed flag and the present map (R377, R402). -/
def resentBlock (mask : Byte) (b : BitVec 24 × List Byte) : List Byte :=
  plyBlock 0 1 b.1 mask (fromLe ((b.2.drop 6).take 2)) ((b.2.drop 8).take 496)

/-- The first waiting class 2 packet of every stream: packets of one stream keep their order (R382). -/
def streamHeads : (seen : List Nat) → List OutPkt → List OutPkt
  | _, [] => []
  | seen, x :: xs =>
    if x.cls = 2 then
      if seen.contains x.id then streamHeads seen xs else x :: streamHeads (x.id :: seen) xs
    else streamHeads seen xs

/-- Order of class 2: hand-over time ascending, priority descending, stream ascending (R389). -/
def OutPkt.before (a b : OutPkt) : Bool :=
  decide (a.h < b.h) || (decide (a.h = b.h) &&
    (decide (b.priority < a.priority) || (decide (a.priority = b.priority) && decide (a.id < b.id))))

/-- A health packet, or the first packet of class 2 (R389). -/
def Ply.nextHigh (p : Ply) : Option OutPkt :=
  let two := (streamHeads [] p.queue).foldl (fun o x => match o with | some y => if x.before y then some x else some y | none => some x) none
  (p.queue.find? fun x => decide (x.cls = 1)).or two

/-- A queue of the pool that the doffer reads, with the packet at its cursor. -/
def Dev.atCursor (d : Dev) (q : Nat) : Option (Nat × Pkt) := ((d.bob.queue q).front 1).map fun p => (q, p)

/-- The next statistics packet in commit order (R389): its queue and the packet. -/
def Dev.nextStats (d : Dev) : Option (Nat × Pkt) :=
  ((List.range 64).filterMap fun n => d.atCursor (64 + n)).foldl (fun o x => match o with
    | some y => if x.2.serial < y.2.serial then some x else some y
    | none => some x) none

/-- The next hank by lane in round robin (R389): its queue and the packet. -/
def Dev.nextHank (d : Dev) : Option (Nat × Pkt) :=
  ((List.range 4).map fun i => 192 + (d.ply.hankTurn + i) % 4).findSome? d.atCursor

/-- The next packet comes from the pool: a statistics packet, or a hank where no management packet is ready (R389). -/
def Dev.nextPool (d : Dev) : Option (Nat × Pkt) :=
  if d.ply.nextHigh.isSome then none
  else d.nextStats.or (if d.ply.queue.any fun x => decide (x.cls = 4) then none else d.nextHank)

/-- The doffer's cursor passes the packet of a pool queue (09 R307). -/
def Dev.passDoffer (d : Dev) (q : Nat) : Dev := (d.onQueue q fun x => x.passFront 1).trimCredits

/-- Take the next packet from the doffer's queues (R389). -/
def Dev.nextPacket (d : Dev) : Option (List Byte × Dev) :=
  match d.nextPool with
  | some (q, p) =>
    if q < 192 then some (packetBytes 4 (q - 64) 0 p.data, d.passDoffer q)
    else some (packetBytes 6 (fromLe ((p.data.drop 4).take 1)) 0 p.data,
      (d.passDoffer q).onPly fun y => { y with hankTurn := (q - 192 + 1) % 4 })
  | none =>
    (d.ply.nextHigh.or (d.ply.queue.find? fun x => decide (x.cls = 4))).map fun x =>
      (packetBytes x.ptype x.id x.line x.payload,
        d.onPly fun p => { p with queue := p.queue.eraseP fun y => decide (y.cls = x.cls) && decide (x.cls ≠ 2 ∨ y.id = x.id) })

/-- The packet at the doffer's cursor of a queue has an uncorrectable error (09 R324; 01 R39): it is dropped, counted and reported;
a hank that is not sent follows 10 R364. -/
def Dev.dropBad (d : Dev) (q : Nat) (p : Pkt) : Dev :=
  let d1 := (d.onBob fun b => { b with dropped := satAdd b.dropped 1 }).raise 17 q 0
  if q < 192 then d1.passDoffer q else d1.withholdHanks (strandOf (fromLe ((p.data.drop 4).take 1)))

/-- Fill a payload: the bytes so far, the offset of the first header, the doffer after it; `bad` names the pool queues whose next
packet cannot be read. A packet takes at least 8 bytes, so 62 and a turn for each bad queue suffice. -/
def fillPayload : (fuel : Nat) → (bad : List Nat) → List Byte → Option Nat → Dev → List Byte × Option Nat × Dev
  | 0, _, acc, first, d => (acc, first, d)
  | fuel + 1, bad, acc, first, d =>
    if 496 ≤ acc.length then (acc, first, d)
    else match d.nextPool.filter fun x => bad.contains x.1 with
      | some (q, p) => fillPayload fuel (bad.erase q) acc first (d.dropBad q p)
      | none => match d.nextPacket with
        | some (bs, e) => fillPayload fuel bad (acc ++ bs) (some (first.getD acc.length)) e
        | none => (acc, first, d)

/-- A filler block (R378). -/
def Ply.fillerBlock (p : Ply) : List Byte := plyBlock 1 0 p.nextSeq p.map 0xFFFF (zeros 496)

/-- Send a new data block, which the replay buffer, queue 196, takes (R401; 09 R317), or a filler where nothing is ready (R378,
R389). -/
def Dev.sendNew (d : Dev) (bad : List Nat) : Dev :=
  let r := fillPayload (62 + bad.length) bad d.ply.rest none { d with ply := { d.ply with rest := [], stalled := false } }
  if r.1.isEmpty then r.2.2.onPly fun p => ({ p with stalled := false }).emit (.block p.fillerBlock)
  else
    let bs := plyBlock 0 0 d.ply.nextSeq d.ply.map (r.2.1.getD 0xFFFF) (r.1.take 496)
    (r.2.2.onPly fun p =>
      ({ p with rest := r.1.drop 496, buffer := p.buffer ++ [(p.nextSeq, bs)], nextSeq := p.nextSeq + 1 }).emit (.block bs)).onQueue
      196 fun q => { q with commits := q.commits + 1 }

/-- The next block of a replay (R402). A block with an uncorrectable error in the replay buffer cannot be rebuilt, as the doffer's
queues give up a packet that they sent, and the link renegotiates (09 R324; log 27). -/
def Dev.resendBlock (d : Dev) (b : BitVec 24 × List Byte) (bs : List (BitVec 24 × List Byte)) (bad : Bool) : Dev :=
  if bad then (d.raise 17 196 0).renegotiate
  else d.onPly fun p => ({ p with resend := bs, st := if bs.isEmpty then .up else .replay }).emit (.block (resentBlock p.map b))

/-- BLOCK_SEND: at the block boundary the shed row is applied (01 R27); then the next block of a replay (R402), a filler
while 2048 blocks are unacknowledged, whose stall is counted once (R401), or a new block. Single-bit errors corrected in the pool
are counted (01 R38). -/
def blockSend (badReplay : Bool) (badQueues : List Nat) (corrected : Nat) (d : Dev) : Dev :=
  if !d.ply.running then d
  else
    let d1 := d.applyShed.countCorrected 0 corrected
    match d1.ply.resend with
    | b :: bs => d1.resendBlock b bs badReplay
    | [] =>
      let d2 := d1.onPly fun p => { p with st := .up }
      if 2048 ≤ d2.ply.buffer.length then
        d2.onPly fun p => ({ p with stalled := true, counts := if p.stalled then p.counts else upd p.counts 3 fun c => satAdd c 1 }).emit
          (.block p.fillerBlock)
      else d2.sendNew badQueues

def execBlockSend (s : State) (badReplay : Bool := false) (badQueues : List Nat := []) (corrected : Nat := 0) :
    Host.Outcome State Fault Refusal :=
  .next (s.run (blockSend badReplay badQueues corrected))

/-- ALIGNMENT_MARKER on every lane of the map (R372). The block phase follows symbol timing, which the model leaves out:
it is a free value below 128 (log 1). -/
def alignmentMarker (d : Dev) : Dev :=
  if d.ply.running then
    let r := d.freshWord
    r.1.onPly fun p => ({ p with markers := p.markers + 1 }).emit (.marker p.markers.toNat (r.2.toNat % 128))
  else d

def execAlignmentMarker (s : State) : Host.Outcome State Fault Refusal := .next (s.run alignmentMarker)

/-- A transmitter of R571 is sending symbols. -/
def Dev.transmits (d : Dev) (lane : Fin 30) : Bool :=
  if lane.val < 16 then d.pins.pocEn.getLsbD lane.val
  else if lane.val < 24 then decide (d.ply.st ≠ .down) && decide (lane.val - 16 < d.ply.count)
  else if lane.val = 24 ∨ lane.val = 29 then false
  else decide (d.aon.tier[Fin.ofNat 2 ((lane.val - 25) / 2)] = .full)

/-- SKIP_SET_DUE: the transmitter sends a skip set (04 R121; R371). -/
def skipSetDue (lane : Fin 30) (d : Dev) : Dev :=
  if d.transmits lane then
    let d1 := d.onTst fun t => { t with skips := upd t.skips lane (· + 1) }
    if 16 ≤ lane.val ∧ lane.val < 24 then d1.onPly fun p => p.emit (.skip (lane.val - 16)) else d1
  else d

def execSkipSetDue (lane : Fin 30) (s : State) : Host.Outcome State Fault Refusal := .next (s.run (skipSetDue lane))

/-! ### Health packets (R396) -/

/-- Bytes of a health packet that carries `rs`. -/
def Dev.healthBytes (d : Dev) (rs : List (Nat × Byte × Word × Word)) : List Byte :=
  let body := le 4 0x48544C48 ++ le 4 d.ply.healthSeq ++ (d.whl.timeNow 0).bytes ++ le 4 d.sys.applied.toNat ++ le 1 d.spares ++
    le 1 (d.countSpindles .working) ++ [d.ply.map] ++ le 1 d.sys.mode.code ++ le 8 d.ply.shedStreams.toNat ++
    le 8 (d.ply.shedRec ||| d.hnk.unplaced).toNat ++ d.hnk.lanes.toList.flatMap (fun l => le 1 (satNat 255 l.suspect)) ++
    le 4 d.sys.fault.toNat ++ [d.sys.layoutReqResult, d.sys.layoutReqId] ++ le 2 rs.length ++ zeros 4 ++
    rs.flatMap fun r => le 1 r.1 ++ [r.2.1] ++ zeros 2 ++ le 4 r.2.2.1.toNat ++ le 4 r.2.2.2.toNat
  body ++ crcPair (crc32c body)

/-- Queue one health packet, in queue 197, with up to 32 results in the order they were produced (R396; 09 R306, log 47). -/
def Dev.pushHealth (d : Dev) : Dev :=
  let rs := d.ply.results.take 32
  let bs := d.healthBytes rs
  (d.onPly fun p =>
    { p with queue := p.queue ++ [⟨1, 0, 0, 7, 0xFF, 0, bs, 0⟩], healthSeq := p.healthSeq + 1, results := p.results.drop 32 }).onQueue
    197 fun q => { q with commits := q.commits + 1 }

/-- HEALTH_PACKET_DUE: one packet, and further ones back to back while results remain (R396). -/
def healthPacketDue (d : Dev) : Dev :=
  if d.ply.running then (List.range (max 1 ((d.ply.results.length + 31) / 32))).foldl (fun e _ => e.pushHealth) d else d

def execHealthPacketDue (s : State) : Host.Outcome State Fault Refusal := .next (s.run healthPacketDue)

end Sys2Proof.Machine
end

