-- ==== Sys2Proof/Machine/Test.lean ====
section
/-! DEFINITION. Lane generators, checkers and loopbacks, test control from the sink, image test patterns and self-test
(spec/17_test.md R571 to R582; log 23). -/

namespace Sys2Proof.Machine

/-! ### Lanes under test (R571 to R576) -/

/-- Change a lane under test. -/
def Dev.onTestLane (d : Dev) (n : Fin 30) (f : TestLane → TestLane) : Dev := d.onTst fun t => { t with lanes := upd t.lanes n f }

/-- Bits received and errors seen by a locked checker; the counters saturate (R573, R574). -/
def TestLane.count (l : TestLane) (bits errs : Nat) : TestLane :=
  if l.locked then
    { l with bits := satNat (2 ^ 64 - 1) (l.bits + bits), errs := satNat (2 ^ 32 - 1) (l.errs + errs) }
  else l

/-- A write of TST_LANE_CTRLn: SNAP before CLEAR, then the fields; a change of PATTERN or LOOP restarts the lock and keeps
the counters (R574). -/
def TestLane.control (l : TestLane) (v : Word) : TestLane :=
  let l1 := if v.getLsbD 11 then { l with snapBits := l.bits, snapErrs := l.errs, snapLosses := l.losses } else l
  let l2 := if v.getLsbD 10 then { l1 with bits := 0, errs := 0, losses := 0 } else l1
  let loop := v.extractLsb' 8 2
  let pat := v.extractLsb' 4 2
  { l2 with loop := loop, pattern := pat, invert := v.getLsbD 2, chkEn := v.getLsbD 1, genEn := v.getLsbD 0,
            locked := l2.locked && v.getLsbD 1 && decide (loop = l2.loop) && decide (pat = l2.pattern) }

/-- The control word that the fields of a lane spell. -/
def TestLane.word (l : TestLane) : Word :=
  BitVec.ofNat 32 (l.loop.toNat * 2 ^ 8 + l.pattern.toNat * 16 + bit1 l.invert * 4 + bit1 l.chkEn * 2 + bit1 l.genEn)

/-- A ply forward lane in near-end serial loopback. -/
def TestLane.plyLoop (n : Fin 30) (l : TestLane) : Bool := decide (16 ≤ n.val) && decide (n.val < 24) && decide (l.loop = 1)

/-- Write the control word of a lane: near-end serial loopback on a second ply lane ends it on the first (R575); a ring port
that leaves service goes down for its neighbour (R576). -/
def Dev.controlLane (d : Dev) (n : Fin 30) (v : Word) : Dev :=
  let l := (d.tst.lanes[n]).control v
  let others : Vector TestLane 30 := Vector.ofFn fun k =>
    let x := d.tst.lanes[k]
    if k = n then l
    else if TestLane.plyLoop n l && TestLane.plyLoop k x then { x with loop := 0, locked := false }
    else x
  let d1 := d.onTst fun t => { t with lanes := others }
  if 25 ≤ n.val ∧ n.val < 29 ∧ !d1.laneServes n then d1.ringDown (Fin.ofNat 4 (n.val - 25)) else d1

/-- A write access to a register of the test block; outside Production Test it is rejected (R574; 16 R559). -/
def Dev.writeTst (d : Dev) (a : Access) (off : Nat) (v : Word) (h : Dev → Dev) : Dev :=
  d.write a (regAddr (0x700000 + off)) 4 v true fun e => if e.sys.mode = .production then (h e, Res.ok) else (e, Res.addrErr)

/-- A write access to TST_LANE_CTRLn with a changed field. -/
def Dev.writeLane (d : Dev) (a : Access) (n : Fin 30) (f : TestLane → Word) : Dev :=
  d.writeTst a (0x100 + 0x20 * n.val) (f d.tst.lanes[n]) fun e => e.controlLane n (f d.tst.lanes[n])

/-- LANE_SNAP: the bits received so far are counted and latched with errors and losses (R574). -/
def execLaneSnap (a : Access) (lane : Fin 30) (bits errs : Nat) (s : State) : Host.Outcome State Fault Refusal :=
  .next (s.run fun d => (d.onTestLane lane fun l => l.count bits errs).writeLane a lane fun l => l.word ||| 0x800)

/-- LANE_CLEAR (R574). -/
def execLaneClear (a : Access) (lane : Fin 30) (s : State) : Host.Outcome State Fault Refusal :=
  .next (s.run fun d => d.writeLane a lane fun l => l.word ||| 0x400)

/-- LOOPBACK_SELECT (R574 to R576). -/
def execLoopbackSelect (a : Access) (lane : Fin 30) (loop : BitVec 2) (s : State) : Host.Outcome State Fault Refusal :=
  .next (s.run fun d => d.writeLane a lane fun l => { l with loop := loop }.word)

/-- PATTERN_SELECT (R574). -/
def execPatternSelect (a : Access) (lane : Fin 30) (pattern : BitVec 2) (s : State) : Host.Outcome State Fault Refusal :=
  .next (s.run fun d => d.writeLane a lane fun l => { l with pattern := pattern }.word)

/-- GENERATOR_ENABLE (R572, R576). -/
def execGeneratorEnable (a : Access) (lane : Fin 30) (on : Bool) (s : State) : Host.Outcome State Fault Refusal :=
  .next (s.run fun d => d.writeLane a lane fun l => { l with genEn := on }.word)

/-- CHECKER_ENABLE (R573, R574). -/
def execCheckerEnable (a : Access) (lane : Fin 30) (on invert : Bool) (s : State) : Host.Outcome State Fault Refusal :=
  .next (s.run fun d => d.writeLane a lane fun l => { l with chkEn := on, invert := invert }.word)

/-- The checker of a lane works: enabled, not in far-end loopback (R576), on a ply forward lane only in near-end loopback
(R571). -/
def Dev.checks (d : Dev) (n : Fin 30) : Bool :=
  let l := d.tst.lanes[n]
  l.chkEn && decide (l.loop ≠ 3) && (!(decide (16 ≤ n.val) && decide (n.val < 24)) || decide (l.loop ≠ 0))

/-- CHECKER_LOCK: 64 consecutive bits agree (R573). -/
def checkerLock (lane : Fin 30) (d : Dev) : Dev :=
  if d.checks lane then d.onTestLane lane fun l => { l with locked := true, everLocked := true } else d

def execCheckerLock (lane : Fin 30) (s : State) : Host.Outcome State Fault Refusal := .next (s.run (checkerLock lane))

/-- CHECKER_LOSS: what was received in lock is counted, then the loss (R573). -/
def checkerLoss (lane : Fin 30) (bits errs : Nat) (d : Dev) : Dev :=
  if (d.tst.lanes[lane]).locked then
    d.onTestLane lane fun l => { l.count bits errs with locked := false, losses := satNat 0xFFFF (l.losses + 1) }
  else d

def execCheckerLoss (lane : Fin 30) (bits errs : Nat) (s : State) : Host.Outcome State Fault Refusal :=
  .next (s.run (checkerLoss lane bits errs))

/-! ### Test control from the sink (R577) -/

/-- A TEST_CTRL message: acted on in Production Test, else discarded and counted; ignored during a return-lane check. -/
def Dev.testCtrl (d : Dev) (f : Dev → Dev) : Dev :=
  if !d.returnOpen then d else if d.sys.mode = .production then f d else d.countDiscard

/-- Test lane of a ply forward lane (R571). -/
def plyLane (k : Nat) : Fin 30 := Fin.ofNat 30 (16 + k)

/-- Set the generators of a mask of ply lanes. -/
def Dev.setGenerators (d : Dev) (mask : Byte) (on : Bool) (pattern : Option (BitVec 2)) : Dev :=
  (maskLanes mask).foldl (fun e k => e.onTestLane (plyLane k) fun l =>
    { l with genEn := on, pattern := pattern.getD l.pattern }) d

/-- GENERATORS_ON: the masked lanes of the map are withdrawn and their generators start (R577). -/
def generatorsOn (mask : Byte) (pattern : BitVec 2) (d : Dev) : Dev :=
  d.testCtrl fun e =>
    let down := mask &&& e.ply.map
    let e1 := if e.ply.running ∧ down ≠ 0 then e.lanesDown down 0 6 true else e
    (e1.setGenerators mask true (some pattern)).onTst fun t => { t with genLanes := t.genLanes ||| mask }

def execGeneratorsOn (mask : Byte) (pattern : BitVec 2) (s : State) : Host.Outcome State Fault Refusal :=
  .next (s.run (generatorsOn mask pattern))

/-- GENERATORS_OFF: the lanes return through training and rejoin, or the link renegotiates when every lane of the map was
withdrawn (R577). -/
def generatorsOff (mask : Byte) (d : Dev) : Dev :=
  d.testCtrl fun e =>
    let back := mask &&& e.tst.genLanes &&& e.ply.lanes
    let e1 := (e.setGenerators mask false none).onTst fun t => { t with genLanes := t.genLanes &&& ~~~mask }
    if back = 0 then e1
    else if e1.ply.st = .test then e1.renegotiate
    else if e1.ply.running then
      e1.onPly fun p => ({ p with retraining := p.retraining ||| back, lockedMask := p.lockedMask &&& ~~~back }).emit (.ts1 back)
    else e1

def execGeneratorsOff (mask : Byte) (s : State) : Host.Outcome State Fault Refusal := .next (s.run (generatorsOff mask))

/-- RETURN_LANE_CHECKER: the return lane is checked for the stated duration, its messages ignored (R577). -/
def returnLaneChecker (pattern : BitVec 2) (durationMs : Nat) (d : Dev) : Dev :=
  d.testCtrl fun e =>
    if durationMs = 0 then e.countDiscard
    else
      (e.onTst fun t => { t with rlCheck := some (pattern.toNat, durationMs) }).onTestLane 24 fun l =>
        { l with chkEn := true, pattern := pattern, locked := false }

def execReturnLaneChecker (pattern : BitVec 2) (durationMs : Nat) (s : State) : Host.Outcome State Fault Refusal :=
  .next (s.run (returnLaneChecker pattern durationMs))

/-- RETURN_LANE_CHECK_END: idle blocks are expected again (R577). -/
def returnLaneCheckEnd (d : Dev) : Dev :=
  if d.tst.rlCheck.isSome then
    (d.onTst fun t => { t with rlCheck := none }).onTestLane 24 fun l => { l with chkEn := false, locked := false }
  else d

def execReturnLaneCheckEnd (s : State) : Host.Outcome State Fault Refusal := .next (s.run returnLaneCheckEnd)

/-! ### Image test patterns (R578 to R580) -/

/-- A write of TST_PAT_CTRL (R579): the fields are kept; RUN adopts the named layout for test, or is ignored and counted
without that layout, without an image, or after a self-test (R582). -/
def Dev.controlPattern (d : Dev) (v : Word) : Dev :=
  let id := v.toNat % 16
  let d1 := d.onTst fun t => { t with patCtrl := v &&& 0x13F }
  if v.getLsbD 8 then
    match d1.layoutCfg id with
    | some l =>
      if d1.tst.bistRan then d1.onTst fun t => { t with ignored := satAdd t.ignored 1 }
      else ((d1.onTst fun t => { t with run := some (id, v.toNat / 16 % 4) }).raiseSwitch l).trainPly
    | none => d1.onTst fun t => { t with ignored := satAdd t.ignored 1 }
  else d1.onTst fun t => { t with run := none }

/-- PATTERN_RUN: RUN written as 1 (R579). -/
def execPatternRun (a : Access) (layout : BitVec 4) (pattern : BitVec 2) (s : State) : Host.Outcome State Fault Refusal :=
  .next (s.run fun d =>
    let v : Word := BitVec.ofNat 32 (256 + pattern.toNat * 16 + layout.toNat)
    d.writeTst a 0x10 v fun e => e.controlPattern v)

/-- PATTERN_STOP: RUN written as 0; a synthetic frame is whole, so each strand stands at a frame boundary (R579). -/
def execPatternStop (a : Access) (s : State) : Host.Outcome State Fault Refusal :=
  .next (s.run fun d =>
    let v := d.tst.patCtrl &&& 0x3F
    d.writeTst a 0x10 v fun e => e.controlPattern v)

/-- One step of PRBS31, x^31 + x^28 + 1 (R572). -/
def prbs31Step (x : Nat) : Nat := (2 * x + (x / 2 ^ 30 + x / 2 ^ 27) % 2) % 2 ^ 31

/-- The next 16-bit word, the oldest register bit first and most significant, and the register after it (log 23). -/
def prbs31Word (x : Nat) : Nat × Nat :=
  (List.range 16).foldl (fun p _ => (2 * p.1 + p.2 / 2 ^ 30 % 2, prbs31Step p.2)) (0, x)

/-- `n` successive words. -/
def prbs31Words : (n x : Nat) → List Nat
  | 0, _ => []
  | n + 1, x => let p := prbs31Word x; p.1 :: prbs31Words n p.2

/-- Stored code of a pattern at column x, row y (R578), `words` being the PRBS words of the frame. -/
def patternCode (pattern : Nat) (value : Word) (words : List Nat) (w x y : Nat) : Nat :=
  match pattern with
  | 0 => value.toNat % 65536
  | 1 => x * 16 % 65535
  | 2 => if (x / 16 + y / 16) % 2 = 0 then 0x1000 else 0xE000
  | _ => nth words (y * w + x) 0

/-- Columns 0 to 3 of row 0 (R580). -/
def markColumn (num : Word) (n pattern x : Nat) : Nat :=
  match x with
  | 0 => num.toNat % 65536
  | 1 => num.toNat / 65536
  | 2 => n * 256 + pattern
  | _ => 65535 - num.toNat % 65536

/-- Row y of a synthetic frame. -/
def syntheticRow (pattern : Nat) (value : Word) (words : List Nat) (num : Word) (n w y : Nat) : List Nat :=
  (List.range w).map fun x => if y = 0 ∧ x < 4 then markColumn num n pattern x else patternCode pattern value words w x y

/-- Commit a row of codes in place of the carding unit's output (R578): statistics are taken on its values. -/
def State.patternRow (s : State) (i : Image) (n : StrandNo) (f : Frame) (codes : List Nat) : State × Frame :=
  let r := s.dev.commitLine n f f.rowsDone (codeBytes codes)
  if r.2 then
    let c := (i.blockOf n.val).compander
    (({ s with dev := r.1 }).writeRow n f f.rowsDone (codeBytes codes),
     { f with rowsDone := f.rowsDone + 1, merged := (codes.map fun x => (expandCode c x, decide (x = 0xFFFF))) :: f.merged,
              allSat := f.allSat + (codes.filter fun x => decide (x = 0xFFFF)).length })
  else ({ s with dev := r.1 }, { f with nonConforming := true })

/-- SYNTHETIC_FRAME: a selected strand delivers one frame of the pattern, numbered under 05 R163, its exposure entries zero;
it passes the pool, the frame store and the kernels as a carded frame does (R578, R580). -/
def syntheticFrame (n : StrandNo) (s : State) : State :=
  let d := s.dev
  match d.img, d.tst.run with
  | some i, some (_, pat) =>
    let d1 := d.adoptStrand n
    if d1.patternOn n ∧ d1.active n ∧ !d1.tst.bistRan then
      let q := i.prof n.val
      let z := List.replicate q.exposures (⟨0, 0, 0⟩ : Exposure)
      let fresh := !(d1.strands[n]).live
      let d2 := (d1.onStrand n fun g => { g with writeLog := [], warm := none, applied := z, live := true }).openFrame n 0
      match (d2.strands[n]).frames with
      | [] => { s with dev := d2 }
      | f :: _ =>
        let words := if pat = 3 then prbs31Words (q.width * q.height) (2 ^ 31 - 1) else []
        let r := (List.range q.height).foldl (fun (t : State × Frame) y =>
          t.1.patternRow i n t.2 (syntheticRow pat d2.tst.patValue words f.num n.val q.width y))
          ({ s with dev := d2 }, { f with firstValid := fresh })
        let d3 := r.1.dev.onStrand n fun g => g.onFrame f.num fun _ => r.2
        ({ r.1 with dev := d3.advanceStreams n }).closeFrame n true
    else { s with dev := d1 }
  | _, _ => s

def execSyntheticFrame (n : StrandNo) (s : State) : Host.Outcome State Fault Refusal := .next (s.runM (syntheticFrame n))

/-! ### Self-test (R581, R582) -/

/-- Contents of the SRAMs that a group tests are undefined: on-chip SRAM with group 0, spindle stores with group 1 too
(log 1). -/
def State.scramble (s : State) (groups : BitVec 4) : State :=
  let k := s.dev.freeIdx
  let m := s.mem
  let sram := groups.getLsbD 0
  let store := groups.getLsbD 0 || groups.getLsbD 1
  let pkts (q : PoolQ) : PoolQ := { q with pkts := q.pkts.map fun p => { p with data := (Config.freeBytes (k + 3)).take p.data.length } }
  { s with
    dev := { s.dev with
      freeIdx := k + 4,
      bob := if sram then { s.dev.bob with queues := s.dev.bob.queues.map (fun q => (q.1, pkts q.2)), poked := [] } else s.dev.bob },
    mem := { m with
      sram := if sram then freeMemory k (2 ^ 20) else m.sram,
      stage := if sram then freeMemory (k + 1) (2 ^ 15) else m.stage,
      stores := if store then freeMemory (k + 2) (2 ^ 25) else m.stores } }

/-- Start the groups of a mask. -/
def State.startBist (s : State) (groups : BitVec 4) : State :=
  if groups = 0 then s
  else
    let s1 := s.scramble groups
    { s1 with dev := s1.dev.onTst fun t =>
        { t with bistRan := true, run := none,
                 bist := Vector.ofFn fun g => if groups.getLsbD g.val then 3 else t.bist[g] } }

/-- BIST_START: TST_BIST_CTRL with a mask of groups (R582). -/
def execBistStart (a : Access) (groups : BitVec 4) (s : State) : Host.Outcome State Fault Refusal :=
  .next (s.runM fun t => t.write a (regAddr 0x700020) 4 (groups.zeroExtend 32) true fun u =>
    if u.dev.sys.mode = .production then (u.startBist groups, Res.ok) else (u, Res.addrErr))

/-- BIST_DONE: the group reads PASS or FAIL, its SRAM contents undefined (R582). -/
def bistDone (group : Fin 4) (pass : Bool) (s : State) : State :=
  if s.dev.tst.bist[group] = 3 then
    let s1 := s.scramble (1#4 <<< group.val)
    { s1 with dev := s1.dev.onTst fun t => { t with bist := upd t.bist group fun _ => if pass then 1 else 2 } }
  else s

def execBistDone (group : Fin 4) (pass : Bool) (s : State) : Host.Outcome State Fault Refusal :=
  .next (s.runM (bistDone group pass))

end Sys2Proof.Machine
end

