-- ==== Sys2Proof/Machine/Access.lean ====
section
/-! DEFINITION. One access to the local address map, by any master: every register of spec/18_registers.md (R584 to R598, R636),
the control SRAM, the stage buffer and the memories (01 memory hierarchy; 09 R323, R327; 16 R559, R560). A register that has a
command of its own acts here as that command does. The start of a broadcast is the parameter `go` (18 R597). Log 32. -/

namespace Sys2Proof.Machine

/-! ### Reads -/

/-- What a register shows to a master, by its offset in register space (R584). -/
def Dev.view (d : Dev) (m : Master) (off : Nat) : RegVal :=
  let o := off % 0x10000
  match off / 0x10000 with
  | 0x00 => d.viewSys o
  | 0x01 => d.viewAge o
  | 0x02 => d.viewWhl m o
  | 0x03 => d.viewSkn o
  | 0x04 => d.viewEth o
  | 0x05 => d.viewNvm o
  | 0x06 => d.viewSns o
  | 0x07 => d.viewDma o
  | 0x08 => d.viewChk o
  | 0x30 => d.viewSpn o
  | 0x31 => d.viewSpindle o
  | 0x40 => d.viewBob d.selQueue o
  | 0x41 => d.viewFst o
  | 0x50 => d.viewHnk o
  | 0x60 => d.viewPly o
  | 0x70 => d.viewTst o
  | b => if 0x10 ≤ b ∧ b < 0x20 then d.viewCrl (Fin.ofNat 16 (b - 0x10)) o else if 0x20 ≤ b ∧ b < 0x30 then d.viewCrd (Fin.ofNat 16 (b - 0x20)) o else .absent

/-- Words whose reads have an effect of their own, but for those that `view` lists. -/
def ownRead (off : Nat) : Bool :=
  decide (off = 0x30050 ∨ off = 0x30054 ∨ off = 0x30058) || (decide (0x40000 ≤ off) && decide (off ≤ 0x40010)) ||
    (match inTable off 0x100000 0x10000 16 with | some (_, o) => decide (o = 0x70 ∨ o = 0x74) | none => false)

/-- The offset is listed (R586). -/
def Dev.listed (d : Dev) (m : Master) (off : Nat) : Bool := ownRead off || decide (d.view m off ≠ .absent)

/-- Answer with a word. -/
def Dev.answerWord (d : Dev) (a : Access) (w : Word) : Dev := d.answer a 0 0 (w.zeroExtend 64)

/-- A read of what `view` shows: LO latches HI (00 R5). A further read of HI with no new read of LO between returns the latched
word again, and a HI that the master never latched reads 0: R5 speaks of the next read alone (DESIGN CHOICE, log 45). -/
def Dev.readView (d : Dev) (a : Access) (off : Nat) : Dev :=
  match d.view a.master off with
  | .word w => d.answerWord a w
  | .lo x => (d.latchHi a.master (off + 4) (hiWord x)).answerWord a (loWord x)
  | .hi => d.answerWord a ((heldAt d.bus.hi a.master off).getD 0)
  | .fields l => d.answerWord a (Config.statusWord off l)
  | .free => let r := d.freshWord; r.1.answerWord a r.2
  | .absent => d.answer a 2 0 0

/-- SKN_LAST_ERR of the reading master, 0 after the read (18 SKN), but for a diagnostic path, whose reads do not alter state
(16 R558). -/
def Dev.readLastErr (d : Dev) (a : Access) : Dev :=
  let e := assocGet d.bus.lastErr a.master (0, 0)
  (if a.master.diag then d
   else d.onBus fun b => { b with lastErr := b.lastErr.filter fun p => decide (p.1 ≠ a.master) }).answerWord a
    (BitVec.ofNat 32 (e.2.toNat * 256 + e.1.toNat))

/-- CRL_EXPRES_FRAME: the frame that this master popped last (R636). -/
def Dev.readExpFrame (d : Dev) (a : Access) (p : Nat) : Dev :=
  match d.bus.expFrame.find? fun y => decide (y.1 = a.master) && decide (y.2.1 = p) with
  | some y => d.answerWord a y.2.2
  | none => d.answerWord a 0

/-- WHL_SECn_LO: the read latches the whorl's 16 bytes for the master (12 R411). -/
def Dev.readSeconds (d : Dev) (a : Access) (n : Nat) : Dev :=
  let ws := timeWords (d.whl.timeNow n)
  (d.onBus fun b => { b with groups := (a.master, n, ws) :: b.groups.filter fun g => !(decide (g.1 = a.master) && decide (g.2.1 = n)) }).answerWord
    a (nth ws 0 0)

/-- DMA_ERRSUM is ROC (00 R8); a read through a diagnostic path observes it alone (01 R12; 16 R558). -/
def Dev.readErrSum (d : Dev) (a : Access) : Dev :=
  let w : Word := BitVec.ofNat 32 (d.dma.ovfCount * 2 ^ 16 + d.dma.startIgn)
  (if a.master.diag then d else d.onDma fun m => { m with ovfCount := 0, startIgn := 0 }).answerWord a w

/-- Words 0 to 3 of ETH_TSQ (12 R427). -/
def Dev.readTsq (d : Dev) (a : Access) (k : Nat) : Dev :=
  match d.tsqWord k with
  | some w => d.answerWord a w
  | none => let r := d.freshWord; r.1.answerWord a r.2

/-- A 32-bit read of a register, and the 8-byte read of SNS_DMAn by the DMA (R585). -/
def Dev.readReg (d : Dev) (a : Access) (off : Nat) : Dev :=
  if !d.answersAt (.reg off) then d.answer a 2 0 0
  else if off = 0x30050 then leqPop a d
  else if off = 0x30054 then fenceRead a d
  else if off = 0x30058 then d.readLastErr a
  else if off = 0x40010 then ethTsqPop a d
  else if 0x40000 ≤ off ∧ off < 0x40010 then d.readTsq a ((off - 0x40000) / 4)
  else if off = 0x70810 then d.readErrSum a
  else if off = 0x40000C then bobPop a false d
  else
    match inTable off 0x60040 0x20 4, inTable off 0x20100 0x40 6, inTable off 0x100000 0x10000 16 with
    | some (n, 0), _, _ => resultRead a (Fin.ofNat 4 n) d
    | some (n, 8), _, _ => dmaResultRead a (Fin.ofNat 4 n) d
    | _, some (n, 0), _ => d.readSeconds a n
    | _, _, some (n, 0x70) => crlExpresPop a (Fin.ofNat 16 n) d
    | _, _, some (n, 0x74) => d.readExpFrame a n
    | _, _, _ => d.readView a off

/-- SNS_DMAn, which the DMA may read in 8 bytes. -/
def isSnsDma (off : Nat) : Bool := match inTable off 0x60040 0x20 4 with | some (_, 8) => true | _ => false

/-- Control SRAM offset of a register offset. -/
def sramOff (off : Nat) : Option Nat := if 0x800000 ≤ off ∧ off < 0x900000 then some (off - 0x800000) else none

/-- Stage buffer offset of a register offset (02 R76). -/
def stageOff (off : Nat) : Option Nat := if 0x58000 ≤ off ∧ off < 0x60000 then some (off - 0x58000) else none

/-- A single-beat access of `n` bytes that R585 admits. -/
def beatOk (m : Master) (write : Bool) (off n : Nat) : Bool :=
  match sramOff off with
  | some o => decide (n = 1 ∨ n = 2 ∨ n = 4 ∨ n = 8) && decide (o % n = 0)
  | none =>
    (decide (n = 4) && decide (off % 4 = 0)) || (decide (n = 8) && decide (m = .dma) && !write && isSnsDma off) ||
      -- the byte enables of CHK_DATAn (15 R535)
      (write && decide (0x80000 ≤ off ∧ off < 0x80600) && decide (0 < n) && decide (0x20 ≤ off % 0x40) && decide (off % 0x40 + n ≤ 0x24))

/-- Answer with bytes. -/
def State.answerBytes (s : State) (a : Access) (bs : List Byte) : State :=
  { s with dev := (s.dev.answer a 0 0 (BitVec.ofNat 64 (fromLe (bs.take 8)))).onBus fun b => { b with readData := bs } }

/-- Refuse an access. -/
def State.refuse (s : State) (a : Access) (code : BitVec 4) : State := { s with dev := s.dev.answer a code 0 0 }

/-- Offset in the usable frame store of a window access of `n` bytes; none beyond it (09 R327). -/
def Dev.fsOffset (d : Dev) (off n : Nat) : Option Nat :=
  let x := d.fst.bank * 2 ^ 31 + off
  if off + n ≤ 2 ^ 31 ∧ x + n ≤ d.fst.usable then some x else none

/-- A read of `n` bytes at a local address; a ring window answers later. -/
def State.readAt (s : State) (a : Access) (addr : Word) (n : Nat) : State :=
  let d := s.dev
  if n = 0 ∨ !d.answersAt (regionOf addr) then s.refuse a 2
  else
    match regionOf addr with
    | .reg off =>
      if !beatOk a.master false off n then s.refuse a 2
      else
        match sramOff off, stageOff off with
        | some o, _ => s.answerBytes a (Memory.readN 0 s.mem.sram o n)
        | _, some o => s.answerBytes a (Memory.readN 0 s.mem.stage o n)
        | _, _ => { s with dev := d.readReg a off }
    | .rom =>
      if addr.toNat + n ≤ 0x40000 then s.answerBytes a ((List.range n).map fun i => Config.romByte (addr.toNat + i)) else s.refuse a 2
    | .bob off =>
      if off + n ≤ 0x1800000 then let r := d.readWindow off n; { s with dev := r.1 }.answerBytes a r.2 else s.refuse a 2
    | .store off => if off + n ≤ 0x2000000 then s.answerBytes a (Memory.readN 0 s.mem.stores off n) else s.refuse a 2
    | .fs off =>
      match d.fsOffset off n with
      | some x => s.answerBytes a (Memory.readN 0 s.mem.fs x n)
      | none => s.refuse a 2
    | .ring _ _ => { s with dev := windowAccess a false addr ((n + 7) / 8) (min n 8) [] false d }
    | .unmapped => s.refuse a 2

/-! ### Writes -/

/-- A 32-bit write that changes registers. -/
def Dev.put (d : Dev) (a : Access) (off : Nat) (v : Word) (f : Dev → Dev) : Dev :=
  d.write a (regAddr off) 4 v true fun e => (f e, Res.ok)

/-- A 32-bit write that is refused unless `ok`. -/
def Dev.putIf (d : Dev) (a : Access) (off : Nat) (v : Word) (ok : Bool) (f : Dev → Dev) : Dev :=
  d.write a (regAddr off) 4 v true fun e => if ok then (f e, Res.ok) else (e, Res.addrErr)

/-- Offset of the X register of a pair (R591). -/
def pairOff : PairReg → Nat
  | .modeReq => 0x8 | .swrst => 0x18 | .nvmPin => 0x50010 | .sknPinA => 0x300E0 | .sknPinB => 0x300E8
  | .w6Lo => 0x20320 | .w6Hi => 0x20324 | .snsWin n => 0x60300 + 8 * n.val

/-- The pending value that a write of X leaves (R592); the halves of WHL_W6_PRESET follow R588. -/
def Dev.pendPair (d : Dev) (m : Master) (r : PairReg) (v : Word) : Dev :=
  let p := d.pairs
  match r with
  | .modeReq => { d with pairs := { p with modeReq := p.modeReq.pend modeReqMask v } }
  | .swrst => { d with pairs := { p with swrst := p.swrst.pend 1 v } }
  | .nvmPin => { d with pairs := { p with nvmPin := p.nvmPin.pend 3 v } }
  | .sknPinA => { d with pairs := { p with sknPinA := p.sknPinA.pend 0xFFFF v } }
  | .sknPinB => { d with pairs := { p with sknPinB := p.sknPinB.pend 0xFFFF v } }
  | .w6Lo => d.holdLo m 0x20320 v
  | .w6Hi =>
    let j := d.joinLo m 0x20320 (loWord p.w6.committed) v
    { j.1 with pairs := { p with w6 := p.w6.pend (BitVec.allOnes 64) j.2 } }
  | .snsWin n => { d with pairs := { p with win := upd p.win n fun x => x.pend (BitVec.allOnes 32) v } }

/-- A write of the X register of a complement pair. -/
def Dev.putPair (d : Dev) (a : Access) (r : PairReg) (v : Word) : Dev :=
  d.put a (pairOff r) v fun e => e.pendPair a.master r v

/-- The node ID that a commit pins for the next start; a changed one causes a journal set (13 R457; 02 R68). -/
def Dev.pinNode (d : Dev) (r : Fin 2) (v : Half) : Dev :=
  if d.jnl.nodes[r] = v then d else (d.onJnl fun j => { j with nodes := upd j.nodes r fun _ => v }).jnlDue 4

/-- A write of SKN_PIN_A_C or SKN_PIN_B_C, by any master (13 R457; 18 R592). -/
def Dev.commitNode (d : Dev) (a : Access) (ringB : Bool) (v : Word) : Dev :=
  let off := if ringB then 0x300EC else 0x300E4
  d.write a (regAddr off) 4 v true fun e =>
    e.commitPair a off (if ringB then e.pairs.sknPinB else e.pairs.sknPinA) v
      (fun x p => { x with pairs := if ringB then { x.pairs with sknPinB := p } else { x.pairs with sknPinA := p } })
      fun x w => (x.pinNode (ringIx ringB) (w.truncate 16), Res.ok)

/-- A write of SNS_WINn_C (14 R511): the window is the committed value, in force at once. -/
def Dev.commitWindow (d : Dev) (a : Access) (n : Fin 24) (v : Word) : Dev :=
  let off := 0x60304 + 8 * n.val
  d.write a (regAddr off) 4 v true fun e =>
    e.commitPair a off e.pairs.win[n] v (fun x p => { x with pairs := { x.pairs with win := upd x.pairs.win n fun _ => p } })
      fun x _ => (x, Res.ok)

/-- A LO write is held for the master (R588). -/
def Dev.putLo (d : Dev) (a : Access) (off : Nat) (v : Word) (ok : Bool) : Dev :=
  d.putIf a off v ok fun e => e.holdLo a.master off v

/-- A HI write commits both halves: the master's held LO, else the current LO (R588). -/
def Dev.putHi (d : Dev) (a : Access) (off : Nat) (v : Word) (ok : Bool) (cur : Dev → Word) (f : Dev → DWord → Dev) : Dev :=
  d.putIf a off v ok fun e => let j := e.joinLo a.master (off - 4) (cur e) v; f j.1 j.2

def Dev.writeSys (d : Dev) (a : Access) (off : Nat) (v : Word) : Dev :=
  match off with
  | 0x04 => d.put a off v fun e => { e with aon := { e.aon with cause := e.aon.cause &&& ~~~(v.truncate 5) } }
  | 0x08 => d.putPair a .modeReq v
  | 0x0C => modeRequest a v d
  | 0x14 => d.put a off v fun e => if v.getLsbD 31 then e.onSys fun y => { y with cpairErr := 0 } else e
  | 0x18 => d.putPair a .swrst v
  | 0x20 => faultSumClear a v d
  | 0x24 => faultSet a v d
  | _ =>
    match inTable off 0x30 4 4 with
    | some (n, _) => d.write a (regAddr off) 4 v true fun e => e.serviceWdog a.master (Fin.ofNat 4 n)
    | none => d.put a off v id

def Dev.writeAge (d : Dev) (a : Access) (off : Nat) (v : Word) : Dev :=
  match off with
  | 0x10000 => d.put a off v fun e => if v.getLsbD 6 then e.onAge fun g => { g with avsRetry := false } else e
  | 0x10004 => ageCtrlWrite a v d
  | _ => d.put a off v id

/-- Registers of the scheduled-action queue, held per master (R594). -/
def Dev.writeSaq (d : Dev) (a : Access) (off : Nat) (v : Word) : Dev :=
  let r := d.whl.saqRegs[a.master.ix]
  let set (f : SaqRegs → SaqRegs) : Dev := d.put a off v fun e => e.onSaqRegs a.master f
  match off with
  | 0x20800 => set fun r => { r with sel := v &&& 0xFF }
  | 0x20804 =>
    saqCommand a v (fun e m =>
      match v.toNat % 4 with | 1 => e.saqAddFor m | 2 => e.saqRemoveFor m | 3 => e.saqReadFor m | _ => e) d
  | 0x20810 => set fun r => { r with ctrl := (r.ctrl &&& 0x80000000) ||| (v &&& 0xF77) }
  | 0x20814 => d.putLo a off v true
  | 0x20818 =>
    d.putHi a off v true (fun _ => r.dueLo) fun e x => e.onSaqRegs a.master fun r => { r with dueLo := loWord x, dueHi := hiWord x }
  | 0x2081C => set fun r => { r with dueNs := v }
  | 0x20820 => d.putLo a off v true
  | 0x20824 =>
    d.putHi a off v true (fun _ => r.periodLo) fun e x =>
      e.onSaqRegs a.master fun r => { r with periodLo := loWord x, periodHi := hiWord x }
  | 0x20828 => set fun r => { r with arg0 := v }
  | 0x2082C => d.putLo a off v true
  | 0x20830 =>
    d.putHi a off v true (fun _ => r.arg1) fun e x => e.onSaqRegs a.master fun r => { r with arg1 := loWord x, arg2 := hiWord x }
  | _ => d.put a off v id

def Dev.writeWhl (d : Dev) (a : Access) (off : Nat) (v : Word) : Dev :=
  if 0x20800 ≤ off then d.writeSaq a off v
  else
    match inTable off 0x20100 0x40 6 with
    | some (n, 0x28) => d.putLo a off v (decide (n = 1) && decide (a.master = .core 1))
    | some (n, 0x2C) => if n = 1 then sampleSubmit a v d else d.putIf a off v false id
    | _ =>
      match off with
      | 0x20000 => d.put a off v fun e => if v.getLsbD 0 then e.onWhl Whl.latchAll else e
      | 0x20320 => d.putPair a .w6Lo v
      | 0x20324 => d.putPair a .w6Hi v
      | 0x20328 => d.putLo a off v true
      | 0x2032C => let j := d.joinLo a.master 0x20328 (~~~(loWord d.pairs.w6.committed)) v; w6Preset a j.2 j.1
      | 0x2038C =>
        d.putIf a off v (decide (a.master = .core 0) && decide (d.whl.cfg.w7Source = 3)) fun e =>
          e.onWhl fun w => { w with w7 := { w.w7 with held := v } }
      | 0x20390 => w7PhaseCorrection a v d
      | _ => d.put a off v id

/-- Bits that a write of SKN_WINn keeps (13 R470). -/
def winMask : Word := 0xF0FFFFFF

def Dev.writeSkn (d : Dev) (a : Access) (off : Nat) (v : Word) : Dev :=
  let free := !d.skn.bcBusy
  match inTable off 0x30000 4 16, inTable off 0x30200 4 64, inTable off 0x30300 4 3, inTable off 0x30320 4 7 with
  | some (n, _), _, _, _ => d.put a off v fun e => e.onSkn fun k => { k with win := upd k.win (Fin.ofNat 16 n) fun _ => v &&& winMask }
  | _, some (n, _), _, _ => d.putIf a off v free fun e => e.onSkn fun k => { k with bcData := upd k.bcData (Fin.ofNat 64 n) fun _ => v }
  | _, _, some (n, _), _ => d.put a off v fun e => e.onSkn fun k => { k with lstage := assocSet k.lstage n v }
  | _, _, _, some (n, _) => d.put a off v fun e => e.onSkn fun k => { k with lact := assocSet k.lact n v }
  | _, _, _, _ =>
    match off with
    | 0x30040 =>
      d.put a off v fun e => e.onSkn fun k =>
        { k with leqUnder := k.leqUnder && !v.getLsbD 31, leqOvf := k.leqOvf && !v.getLsbD 29,
                 leqDiscarded := if v.getLsbD 29 then 0 else k.leqDiscarded }
    | 0x30060 =>
      d.put a off v fun e => e.onSkn fun k =>
        { k with rescueValid := k.rescueValid && !v.getLsbD 31, rescueOvf := k.rescueOvf && !v.getLsbD 30 }
    | 0x300E0 => d.putPair a .sknPinA v
    | 0x300E4 => d.commitNode a false v
    | 0x300E8 => d.putPair a .sknPinB v
    | 0x300EC => d.commitNode a true v
    | 0x30100 => d.putIf a off v free fun e => e.onSkn fun k => { k with bcDest := v &&& 0x1FF }
    | 0x30104 => d.putIf a off v free fun e => e.onSkn fun k => { k with bcAddr := v }
    | 0x30108 => d.putIf a off v free fun e => e.onSkn fun k => { k with bcLen := v &&& 0x1FF }
    | 0x30120 =>
      d.put a off v fun e => e.onSkn fun k =>
        { k with bcDone := k.bcDone && !v.getLsbD 1, bcTimeout := k.bcTimeout && !v.getLsbD 2 }
    | 0x3030C => lstageWrite a v d
    | 0x3033C => lactWrite a v d
    | _ => d.put a off v id

/-- A scan list breaks R501: it names an input that does not exist or is unused, or the count has no entry (18 SNS). -/
def Dev.badScan (d : Dev) (l : List Nat) : Bool :=
  l.any fun k => decide (23 < k) || decide ((d.sns.inp[(Fin.ofNat 24 k : Fin 24)]).cfg.kind = 0)

/-- The first entries of SNS_SCANn. -/
def scanList (raw : DWord) (count : Nat) : List Nat := (List.range count).map fun j => raw.toNat / 2 ^ (8 * j) % 256

/-- New settings of a converter, in force under R507; a scan list that breaks R501 is refused. -/
def Dev.setConv (d : Dev) (c : Fin 4) (raw : DWord) (g : ConvCfg) : Dev × Res :=
  if d.badScan g.scan then (d, Res.addrErr)
  else ((d.onConv c fun v => { v with next := some g, scanRaw := raw }).settleConv c, Res.ok)

/-- Settings of a converter as last written. -/
def Conv.newest (v : Conv) : ConvCfg := v.next.getD v.cfg

/-- SNS_CCFGn, SNS_PERIODn and SNS_SCANn. -/
def Dev.writeConv (d : Dev) (a : Access) (off : Nat) (c : Fin 4) (o : Nat) (v : Word) : Dev :=
  let x := d.sns.conv[c]
  let g := x.newest
  match o with
  | 0x0 =>
    d.write a (regAddr off) 4 v true fun e =>
      e.setConv c x.scanRaw { g with mode := v.toNat % 4, lockedW7 := v.getLsbD 2, turns := v.toNat / 2 ^ 8 % 256,
                                     scan := scanList x.scanRaw (v.toNat / 2 ^ 16 % 8 + 1) }
  | 0x4 => d.write a (regAddr off) 4 v true fun e => e.setConv c x.scanRaw { g with period := v.toNat }
  | 0x8 => d.putLo a off v true
  | _ =>
    d.write a (regAddr off) 4 v true fun e =>
      let j := e.joinLo a.master (off - 4) (loWord x.scanRaw) v
      j.1.setConv c j.2 { g with scan := scanList j.2 g.scan.length }

/-- An input is being converted. -/
def Dev.converting (d : Dev) (n : Fin 24) : Bool :=
  d.sns.conv.any fun c => c.busy && c.integ.isSome && (c.last.any fun l => decide (l.1 = n.val))

/-- SNS_INCFGn: gain and pull wait for the next conversion where one is under way (14 R507), the rest is in force at once. -/
def InputCfg.written (c : InputCfg) (v : Word) : InputCfg :=
  { c with gain := v.toNat % 4, pull := v.toNat / 4 % 4, actions := v.toNat / 16 % 8, startConv := v.toNat / 2 ^ 8 % 8,
           openThr := v.toNat / 2 ^ 16 }

def Dev.writeInput (d : Dev) (n : Fin 24) (v : Word) : Dev :=
  let wait := d.converting n
  d.onInput n fun i =>
    let g := i.cfg.written v
    if wait then { i with next := some g, cfg := { g with gain := i.cfg.gain, pull := i.cfg.pull } } else { i with cfg := g, next := none }

def Dev.writeSns (d : Dev) (a : Access) (off : Nat) (v : Word) : Dev :=
  match inTable off 0x60100 0x10 4, inTable off 0x60200 4 24, inTable off 0x60300 8 24 with
  | some (c, o), _, _ => d.writeConv a off (Fin.ofNat 4 c) o v
  | _, some (n, _), _ => d.put a off v fun e => e.writeInput (Fin.ofNat 24 n) v
  | _, _, some (n, 0) => d.putPair a (.snsWin (Fin.ofNat 24 n)) v
  | _, _, some (n, _) => d.commitWindow a (Fin.ofNat 24 n) v
  | _, _, _ =>
    match off with
    | 0x60000 => converterStart a v d
    | 0x600D0 => d.put a off v fun e => e.onSns fun s => { s with trip := s.trip &&& ~~~(v.truncate 16) }
    | _ => d.put a off v id

def Dev.writeDma (d : Dev) (a : Access) (off : Nat) (v : Word) : Dev :=
  match inTable off 0x70000 0x100 8 with
  | some (n, o) =>
    let k : Fin 8 := Fin.ofNat 8 n
    match o with
    | 0x00 => d.put a off v fun e => e.onChan k fun c => { c with src := v }
    | 0x04 => d.put a off v fun e => e.onChan k fun c => { c with dst := v }
    | 0x08 => d.put a off v fun e => e.onChan k fun c => { c with len := v &&& 0xFFFFFF }
    | 0x0C => d.put a off v fun e => e.onChan k fun c => { c with ctrl := v &&& 0x01FF7FFF }
    | 0x10 => dmaGo a k v d
    | 0x14 => d.put a off v fun e => e.onChan k fun c => { c with err := c.err && !v.getLsbD 17, done := c.done && !v.getLsbD 16 }
    | _ => d.put a off v id
  | none =>
    if off = 0x70800 then
      d.put a off v fun e => e.onDma fun m =>
        { m with rescueValid := m.rescueValid && !v.getLsbD 31, rescueOvf := m.rescueOvf && !v.getLsbD 30 }
    else d.put a off v id

/-- Fields of CHK_CFGn. -/
def chkCfgMask : Word := 0x00FFF77F

/-- The 64-bit parameter registers of a check unit: current value and change. -/
def chkWide (o : Nat) : (ChkUnit → DWord) × (DWord → ChkUnit → ChkUnit) :=
  match o with
  | 0x08 => (fun u => u.poly, fun x u => { u with poly := x })
  | 0x10 => (fun u => u.init, fun x u => { u with init := x })
  | _ => (fun u => u.xorOut, fun x u => { u with xorOut := x })

def Dev.writeChk (d : Dev) (a : Access) (off : Nat) (bs : List Byte) (v : Word) : Dev :=
  let o := off % 0x40
  let u : Fin 24 := Fin.ofNat 24 ((off - 0x80000) / 0x40)
  if 0x20 ≤ o ∧ o < 0x24 then d.chkWrite a u o bs.length v true fun x => x.feed bs
  else
    match o with
    | 0x00 => d.chkWrite a u o 4 v false fun x => { x with cfg := v &&& chkCfgMask }
    | 0x08 | 0x10 | 0x18 =>
      d.write a (regAddr off) 4 v true fun e =>
        if e.chkMay a.master u false then (e.holdLo a.master off v, Res.ok)
        else (e.onChk u fun x => { x with foreign := true }, Res.addrErr)
    | 0x0C | 0x14 | 0x1C =>
      let w := chkWide (o - 4)
      d.write a (regAddr off) 4 v true fun e =>
        if e.chkMay a.master u false then
          let j := e.joinLo a.master (off - 4) (loWord (w.1 e.chk[u])) v
          (j.1.onChk u (w.2 j.2), Res.ok)
        else (e.onChk u fun x => { x with foreign := true }, Res.addrErr)
    | 0x24 => d.chkWrite a u o 4 v false fun x => if v.getLsbD 0 then x.restart else x
    | 0x34 => d.chkWrite a u o 4 v false fun x => { x with foreign := x.foreign && !v.getLsbD 2, config := x.config && !v.getLsbD 1 }
    | _ => d.chkWrite a u o 4 v false id

/-- CRL: the request registers are core 0's (R636). -/
def Dev.writeCrl (d : Dev) (a : Access) (off : Nat) (p : PortNo) (o : Nat) (v : Word) : Dev :=
  let core0 := decide (a.master = .core 0)
  match inTable o 0x48 4 8 with
  | some (k, _) => d.putIf a off v core0 fun e => e.onPort p fun x => { x with reqEntries := upd x.reqEntries (Fin.ofNat 8 k) fun _ => v }
  | none =>
    match o with
    | 0x40 => d.putIf a off v core0 fun e => e.onPort p fun x => { x with reqCtl := v &&& 0xFFFF00F3 }
    | 0x44 => d.putIf a off v core0 fun e => e.onPort p fun x => { x with reqTarget := v }
    | 0x68 => exposureRequestGo a p v d
    | _ => d.put a off v id

def Dev.writeTest (d : Dev) (a : Access) (off : Nat) (v : Word) : Dev :=
  let ok := decide (d.sys.mode = .production)
  match inTable off 0x700100 0x20 30 with
  | some (n, 0) => d.writeTst a (off - 0x700000) v fun e => e.controlLane (Fin.ofNat 30 n) v
  | _ =>
    match off with
    | 0x700010 => d.writeTst a 0x10 v fun e => e.controlPattern v
    | 0x700014 => d.writeTst a 0x14 v fun e => e.onTst fun t => { t with patValue := v }
    | 0x700018 => d.putLo a off v ok
    | 0x70001C => d.putHi a off v ok (fun e => loWord e.tst.patMask) fun e x => e.onTst fun t => { t with patMask := x }
    | _ => d.putIf a off v ok id

/-- A 32-bit write of a register that no memory backs. -/
def Dev.writeReg (d : Dev) (a : Access) (off : Nat) (bs : List Byte) (v : Word) : Dev :=
  match off / 0x10000 with
  | 0x00 => d.writeSys a off v
  | 0x01 => d.writeAge a off v
  | 0x02 => d.writeWhl a off v
  | 0x03 => d.writeSkn a off v
  | 0x05 => if off = 0x50010 then d.putPair a .nvmPin v else if off = 0x50014 then nvmPin a v d else d.put a off v id
  | 0x06 => d.writeSns a off v
  | 0x07 => d.writeDma a off v
  | 0x08 => d.writeChk a off bs v
  | 0x40 =>
    match off with
    | 0x400000 => d.put a off v fun e => e.onBob fun b => { b with qsel := v &&& 0x1FF }
    | 0x400004 => d.put a off v fun e => if v.getLsbD 31 then e.setSelQueue { e.selQueue with underrun := false } else e
    | 0x400010 => d.put a off v fun e => e.setSelQueue e.selQueue.drop
    | _ => d.put a off v id
  | 0x41 =>
    match off with
    | 0x410000 => d.put a off v fun e => if v.toNat % 8 ≤ 6 then { e with fst := { e.fst with bank := v.toNat % 8 } } else e
    | 0x410004 => d.put a off v fun e => { e with fst := { e.fst with rsel := v &&& 0x7F } }
    | _ => d.put a off v id
  | 0x60 => d.put a off v fun e => if off = 0x600060 ∧ v.getLsbD 0 then e.onPly fun p => { p with counts := Vector.replicate 5 0 } else e
  | 0x70 => d.writeTest a off v
  | b => if 0x10 ≤ b ∧ b < 0x20 then d.writeCrl a off (Fin.ofNat 16 (b - 0x10)) (off % 0x10000) v else d.put a off v id

/-- A staging session is open that the access does not own (02 R75). -/
def Dev.stageTaken (d : Dev) (a : Access) : Bool := d.nvm.session.any fun x => !x.ownedBy a

/-- Writes of the stage registers and the buffer (02 R74 to R79). The operations that NVM_STAGE_CTRL and NVM_STAGE_GO spell
have no bit layout (log 1). -/
def State.writeStage (s : State) (a : Access) (off : Nat) (bs : List Byte) (v : Word) : State :=
  match stageOff off with
  | some o =>
    s.write a (regAddr off) 4 v false fun t =>
      if t.dev.stageTaken a then (t, Res.busy) else ({ t with mem := { t.mem with stage := Memory.write 0 t.mem.stage o bs } }, Res.ok)
  | none =>
    if off = 0x50020 then
      let c := Config.stageCtrl v
      match c.1 with
      | 1 => s.openStage a v c.2.1 c.2.2
      | 2 => { s with dev := s.dev.commitStage a v }
      | _ => s.write a (regAddr off) 4 v true fun t => (t, if t.dev.stageTaken a then Res.busy else Res.ok)
    else if off = 0x5002C then let c := Config.stageGo v; stageGo a c.1 c.2 s
    else
      { s with dev := s.dev.write a (regAddr off) 4 v false fun e =>
          if e.stageTaken a then (e, Res.busy)
          else (if off = 0x50028 then e.onNvm fun n => { n with offset := v } else e, Res.ok) }

/-- A software reset by a plain write: no operand gives the strap levels at the end of the reset, which are free values (03 R82;
log 38). -/
def State.resetByWrite (s : State) (a : Access) (v : Word) : State :=
  if s.dev.swrstFires a v then
    let f := s.dev.freshWord
    softwareReset a v (f.2.extractLsb' 0 2) (f.2.extractLsb' 2 2) { s with dev := f.1 }
  else softwareReset a v s.dev.aon.bootSel s.dev.aon.i2ca s

/-- A single-beat write into register space (R585, R586). -/
def State.writeReg (go : Access → Word → State → State) (s : State) (a : Access) (off : Nat) (bs : List Byte) (v : Word) : State :=
  let n := bs.length
  let refused : State := { s with dev := s.dev.write a (regAddr off) n v true fun e => (e, Res.addrErr) }
  if !beatOk a.master true off n then refused
  else
    match sramOff off with
    | some o => s.write a (regAddr off) n v true fun t => ({ t with mem := { t.mem with sram := Memory.write 0 t.mem.sram o bs } }, Res.ok)
    | none =>
      if 0x50020 ≤ off ∧ off < 0x50030 ∨ 0x58000 ≤ off ∧ off < 0x60000 then s.writeStage a off bs v
      else if !s.dev.listed a.master (off / 4 * 4) then refused
      else if off = 0xC then s.runPower fun d => d.writeReg a off bs v
      else if off = 0x1C then s.resetByWrite a v
      else if off = 0x700020 then
        s.write a (regAddr off) 4 v true fun t =>
          if t.dev.sys.mode = .production then (t.startBist (v.truncate 4), Res.ok) else (t, Res.addrErr)
      else if off = 0x3010C then go a v s
      else { s with dev := s.dev.writeReg a off bs v }

/-- A write of bytes at a local address, in beats of up to 8 bytes; into register space only in a single beat (R585). -/
def State.writeAt (go : Access → Word → State → State) (s : State) (a : Access) (addr : Word) (bs : List Byte) : State :=
  let n := bs.length
  let v : Word := BitVec.ofNat 32 (fromLe (bs.take 4))
  let r := regionOf addr
  if n = 0 then s.refuse a 2
  else
    match r with
    | .reg off => s.writeReg go a off bs v
    | .ring _ _ => { s with dev := windowAccess a true addr ((n + 7) / 8) (min n 8) bs false s.dev }
    | _ =>
      s.writeN a addr (min n 8) v n true fun t =>
        match r with
        | .store off =>
          if off + n ≤ 0x2000000 then ({ t with mem := { t.mem with stores := Memory.write 0 t.mem.stores off bs } }, Res.ok)
          else (t, Res.addrErr)
        | .fs off =>
          match t.dev.fsOffset off n with
          | some x => ({ t with mem := { t.mem with fs := Memory.write 0 t.mem.fs x bs } }, Res.ok)
          | none => (t, Res.addrErr)
        | .bob off =>
          if t.dev.sys.mode = .production ∧ off + n ≤ 0x1800000 then
            ({ t with dev := t.dev.onBob fun b => b.writeWindow off bs }, Res.ok)
          else (t, Res.addrErr)
        | _ => (t, Res.addrErr)

/-- SKN_BC_GO while a broadcast is in flight: ignored and counted (18 R597). -/
def goBusy (a : Access) (v : Word) (s : State) : State :=
  { s with dev := s.dev.put a 0x3010C v fun e =>
      if v.getLsbD 0 then e.onSkn fun k => { k with bcIgnored := satAdd k.bcIgnored 1 } else e }

end Sys2Proof.Machine
end

