-- ==== Sys2Proof/Machine/RingExec.lean ====
section
/-! DEFINITION. Remote access at the target, and broadcast writes (spec/13_skein_ring.md R472 to R478, R482 to R487; 18 R596,
R597; log 36). -/

namespace Sys2Proof.Machine

/-! ### Targets (R472, R474 to R478, R482) -/

/-- The access of a remote node (R477). -/
def ringAccess (src : Half) : Access := ⟨.ring, src, 0⟩

/-- Code and detail of the access just made. -/
def State.outcome (s : State) : BitVec 4 × Byte :=
  match s.dev.bus.answer with
  | some x => (x.code, x.detail)
  | none => (0, 0)

/-- The bytes that the read just made brought. -/
def State.readResult (s : State) (n : Nat) : List Byte :=
  if n ≤ 8 then le n ((s.dev.bus.answer.map fun x => x.data.toNat).getD 0) else s.dev.bus.readData.take n

/-- A request for this device: it is addressed to it and its ring is enumerated (R456). -/
def Dev.takes (d : Dev) (port : Fin 4) (m : RingMsg) : Bool := d.isMe m.dest && d.skn.enumd[ringOf port]

/-- A request that returned to its source without WRAPPED found no node (R475). -/
def Dev.returned (d : Dev) (m : RingMsg) : Dev :=
  match d.skn.txns.find? fun t => decide (t.tag = m.tag) && decide (t.node = m.dest) with
  | some t => if t.dead then d.endTxn t else ((d.endTxn t).failTxn t 1 0).issueStalled
  | none => if d.skn.bcBusy ∧ m.mtype = 8 ∧ m.tag = d.skn.bcTag then d.failBroadcast { m with code := 1, detail := 0, src := m.dest } else d

/-- A request that is not for this device: it ends at its source, else it is passed on. -/
def Dev.passRequest (d : Dev) (port : Fin 4) (m : RingMsg) : Dev :=
  if d.isMe m.src && !m.wrapped then d.returned m else d.passOn port m

/-- Keep a single-beat read of a side-effect region (R482). -/
def Dev.keepServed (d : Dev) (m : RingMsg) (bs : List Byte) : Dev :=
  match regionOf m.addr with
  | .reg _ => d.onSkn fun k => { k with served := ((m.src, m.tag, m.addr, BitVec.ofNat 64 (fromLe bs)) :: k.served).take 4 }
  | _ => d

/-- Handle a request at a node: in the retimer tier it passes unchanged (03 R109), else `f` runs it here, or it is passed on. -/
def State.atTarget (s : State) (port : Fin 4) (m : RingMsg) (f : State → State) : State :=
  if !s.dev.ringIn port then { s with dev := ringTransit port m 0 s.dev }
  else if s.dev.takes port m then f s
  else { s with dev := s.dev.passRequest port m }

/-- Answer on the arrival ring, unless the access reset the device (R464, R456). -/
def Dev.respond (d : Dev) (port : Fin 4) (m : RingMsg) (mtype : Byte) (code : BitVec 4) (detail : Byte) (payload : List Byte) : Dev :=
  if d.skn.enumd[ringOf port] then d.reply (ringOf port) m mtype code detail payload else d

/-- READ_REQ at the target (R472, R475, R482). -/
def readReq (port : Fin 4) (m : RingMsg) (s : State) : State :=
  s.atTarget port m fun t =>
    let u := t.readAt (ringAccess m.src) m.addr m.len
    let r := u.outcome
    if r.1 = 0 then
      let bs := u.readResult m.len
      { u with dev := (u.dev.keepServed m bs).respond port m 4 0 0 bs }
    else { u with dev := u.dev.respond port m 4 r.1 r.2 [] }

def execReadReq (port : Fin 4) (m : RingMsg) (s : State) : Host.Outcome State Fault Refusal := .next (s.runM (readReq port m))

/-! ### Broadcasts: executing at a node (R484, R486, R488, R489) -/

/-- The write of a broadcast: a whole SKN_LSTAGE or SKN_LACT block is judged once (18 R596), anything else is one access. -/
def State.bcastWrite (go : Access → Word → State → State) (s : State) (src : Half) (addr : Word) (bs : List Byte) : State :=
  let a := ringAccess src
  let v : Word := BitVec.ofNat 32 (fromLe (bs.take 4))
  if addr = regAddr 0x30300 ∧ bs.length = 16 then
    s.writeN a addr 8 v 16 true fun t => let r := t.dev.judgeStage (wordAt bs); ({ t with dev := r.1 }, r.2)
  else if addr = regAddr 0x30320 ∧ bs.length = 32 then
    s.writeN a addr 8 v 32 true fun t => let r := t.dev.judgeAct (wordAt bs); ({ t with dev := r.1 }, r.2)
  else s.writeAt go a addr bs

/-- A node's answer in the tally (R486). -/
def Tally.count (t : Tally) (id : Nat) (code : BitVec 4) (detail : Byte) : Tally :=
  let t1 := { t with reached := t.reached + 1, acked := t.acked + bit1 (decide (code = 0)) }
  if code ≠ 0 ∧ id < t.lowest then { t1 with lowest := id, code := code.toNat, detail := detail.toNat } else t1

/-- The child tally is added (R485). -/
def Tally.add (t c : Tally) : Tally :=
  let low := if c.lowest < t.lowest then (c.lowest, c.code, c.detail) else (t.lowest, t.code, t.detail)
  { reached := t.reached + c.reached, acked := t.acked + c.acked, lowest := low.1, code := low.2.1, detail := low.2.2,
    missed := satNat 0xFFFF (t.missed + c.missed) }

/-- The tally that 16 bytes spell. -/
def Tally.ofBytes (bs : List Byte) : Tally :=
  let n (o k : Nat) : Nat := fromLe ((bs.drop o).take k)
  ⟨n 0 4, n 4 4, n 8 4, n 12 1, n 13 1, n 14 2⟩

/-- The node has executed the broadcast of a source and tag. -/
def Skn.hasExecuted (k : Skn) (src : Half) (tag : Byte) : Bool := k.executed.any fun x => decide (x = (src, tag))

/-- Execute a broadcast write once for each pair of source and tag, and count it (R484). -/
def State.bcastExec (go : Access → Word → State → State) (s : State) (src : Half) (tag : Byte) (addr : Word) (bs : List Byte)
    (t : Tally) : State × Tally :=
  if s.dev.skn.hasExecuted src tag then (s, t)
  else
    let u := s.bcastWrite go src addr bs
    let r := u.outcome
    ({ u with dev := u.dev.onSkn fun k => { k with executed := assocSet k.executed src tag } },
     t.count (s.dev.nodeId 0).toNat r.1 r.2)

/-! ### Broadcasts: the head (R484 to R486) -/

/-- Interface whose segment this head sweeps. -/
def Dev.sweepRing (d : Dev) : Fin 2 := if d.skn.junction then 1 else 0

/-- The SWEEP message of a head; the scope travels in the detail byte (log 36). -/
def HeadSweep.msg (h : HeadSweep) (west ringB : Bool) : RingMsg :=
  { mtype := 9, west := west, wrapped := false, ringB := ringB, hops := 0, tag := h.tag, dest := 0xFFFF, src := h.src,
    addr := h.addr, len := 16 + h.data.length, code := 0, detail := BitVec.ofNat 8 h.scope, payload := h.tally.bytes ++ h.data }

/-- The source takes the tally of its broadcast (R486). -/
def Dev.takeTally (d : Dev) (tag : Byte) (t : Tally) : Dev :=
  if d.skn.bcBusy ∧ tag = d.skn.bcTag then d.onSkn fun k => { k with bcBusy := false, bcDone := true, bcResult := t } else d

/-- A held parent sweep goes on (R485). -/
def Dev.releaseParent (d : Dev) (f : Tally → Tally) : Dev :=
  match d.skn.parentHeld with
  | some m =>
    let t := f (Tally.ofBytes m.payload)
    (d.onSkn fun k => { k with parentHeld := none }).forward (portFor 0 (!m.west)) { m with payload := t.bytes ++ m.payload.drop 16 }
  | none => d

/-- A sweep of this head is complete: its tally goes to the parent sweep or to the source. -/
def Dev.endSweep (d : Dev) (h : HeadSweep) : Dev :=
  let e := d.onSkn fun k => { k with sweep := none }
  if h.forParent then e.releaseParent fun t => t.add h.tally
  else if e.isMe h.src then e.takeTally h.tag h.tally
  else
    e.originate (ringIx h.onB)
      { mtype := 0x0A, west := false, wrapped := false, ringB := false, hops := 0, tag := h.tag, dest := h.src, src := 0,
        addr := h.addr, len := 16, code := 0, detail := 0, payload := h.tally.bytes }

/-- Send the sweep in the next phase from `k` on, or end it; a child sweep with no port up waits for the row
JUNCTION_BROADCAST_WAIT. -/
def Dev.sendSweep (d : Dev) (h : HeadSweep) (k : Nat) : Dev :=
  let r := d.sweepRing
  match d.nextPhase r h.tally.reached k with
  | some j =>
    (d.onSkn fun x => { x with sweep := some { h with phase := j } }).putMsg (phasePort r j)
      (h.msg (decide (j % 2 = 1)) (decide ((phasePort r j).val / 2 = 1)))
  | none => if k = 0 ∧ h.forParent then d.onSkn fun x => { x with sweep := some h } else d.endSweep h

/-- The head starts a sweep. It executes the write itself as a member of the segment; a junction is a member of its parent
segment only (R453). -/
def State.startSweep (go : Access → Word → State → State) (s : State) (h : HeadSweep) : State :=
  if s.dev.skn.junction then { s with dev := s.dev.sendSweep h 0 }
  else
    let x := s.bcastExec go h.src h.tag h.addr h.data h.tally
    { x.1 with dev := x.1.dev.sendSweep { h with tally := x.2 } 0 }

/-- The sweep that a BCAST_REQ asks for (R462, R483). -/
def sweepOf (m : RingMsg) (onB : Bool) : HeadSweep :=
  { tag := m.tag, src := m.src, onB := onB, scope := fromLe (m.payload.take 1), addr := m.addr, data := m.payload.drop 4,
    phase := 0, tally := Tally.empty, forParent := false }

/-- The child sweep of a held parent sweep (R485). -/
def childSweep (m : RingMsg) : HeadSweep :=
  { tag := m.tag, src := m.src, onB := false, scope := 1, addr := m.addr, data := m.payload.drop 16, phase := 0,
    tally := Tally.empty, forParent := true }

/-- With no sweep under way, the sweep that waits longest starts: a held parent sweep's child, then the inbound queue. One
start at a time; what ends at once lets the next start, over at most `fuel` starts. -/
def State.nextSweep (go : Access → Word → State → State) : (fuel : Nat) → State → State
  | 0, s => s
  | fuel + 1, s =>
    if s.dev.skn.sweep.isSome then s
    else
      match s.dev.skn.parentHeld, s.dev.skn.bcWaiting with
      | some m, _ => { s with dev := s.dev.sendSweep (childSweep m) 0 }
      | none, m :: ms =>
        State.nextSweep go fuel (({ s with dev := s.dev.onSkn fun k => { k with bcWaiting := ms } }).startSweep go (sweepOf m m.ringB))
      | none, [] => s

/-- A BCAST_REQ enters the inbound queue, or answers BUSY (R474); with no sweep under way it starts. -/
def State.queueSweep (go : Access → Word → State → State) (s : State) (port : Fin 4) (m : RingMsg) : State :=
  if 64 ≤ s.dev.skn.bcWaiting.length then { s with dev := s.dev.respond port m 4 6 0 [] }
  else ({ s with dev := s.dev.onSkn fun k => { k with bcWaiting := k.bcWaiting ++ [m] } }).nextSweep go 65

/-! ### Broadcasts: the source (R483, R487; 18 R597) -/

/-- The data of a broadcast. -/
def Skn.bcBytes (k : Skn) : List Byte := (k.bcData.toList.flatMap fun w => le 4 w.toNat).take k.bcLen.toNat

/-- SKN_BC_LEN and SKN_BC_ADDR name a range that R483 allows. -/
def Skn.bcFits (k : Skn) : Bool :=
  decide (1 ≤ k.bcLen.toNat) && decide (k.bcLen.toNat ≤ 256) && decide (k.bcAddr.toNat % 4096 + k.bcLen.toNat ≤ 4096)

/-- The head this device is for a destination. -/
def Dev.headFor (d : Dev) (dest : Half) : Bool :=
  d.headOn d.sweepRing && decide (posOf dest = 0) && decide (segOf dest = segOf (d.nodeId d.sweepRing))

/-- A broadcast starts: BCAST_REQ goes to the head of the segment, or this head sweeps (R483). A range that R483 does not allow
sends nothing (log 36). -/
def State.startBroadcast (s : State) (m : Master) : State :=
  let k := s.dev.skn
  if k.bcBusy ∨ !k.bcFits then { s with dev := s.dev.onSkn fun k => { k with bcIgnored := satAdd k.bcIgnored 1 } }
  else
    let dest : Half := BitVec.ofNat 16 (k.bcDest.toNat % 256 * 256)
    let r := s.dev.ringTo dest false
    let tag := tagOf m ((k.bcTag.toNat + 1) % 32)
    let d := s.dev.onSkn fun k => { k with bcBusy := true, bcTag := tag }
    let data := k.bcBytes
    let req : RingMsg :=
      { mtype := 8, west := false, wrapped := false, ringB := decide (r = 1), hops := 0, tag := tag, dest := dest, src := d.nodeId r,
        addr := k.bcAddr, len := 4 + data.length, code := 0, detail := 0,
        payload := [BitVec.ofNat 8 (k.bcDest.toNat / 256 % 2), 0, 0, 0] ++ data }
    if d.absent r dest then { s with dev := d.failBroadcast { req with code := 1, src := dest } }
    else if d.headFor dest then ({ s with dev := d }).queueSweep goBusy (portFor r false) req
    else { s with dev := d.originate r req }

/-- A write of SKN_BC_GO. -/
def broadcastGo (a : Access) (v : Word) (s : State) : State :=
  s.write a (regAddr 0x3010C) 4 v true fun t => (if v.getLsbD 0 then t.startBroadcast a.master else t, Res.ok)

/-- BROADCAST_GO (R483; 18 R597). -/
def execBroadcastGo (a : Access) (v : Word) (s : State) : Host.Outcome State Fault Refusal := .next (s.runM (broadcastGo a v))

/-! ### Broadcast messages -/

/-- BCAST_REQ: the head of the segment sweeps it (R484); a node that is not its head refuses (log 36). -/
def bcastReq (port : Fin 4) (m : RingMsg) (s : State) : State :=
  s.atTarget port m fun t =>
    if t.dev.headFor m.dest then t.queueSweep broadcastGo port { m with ringB := decide (ringOf port = 1) }
    else { t with dev := t.dev.respond port m 4 2 0 [] }

def execBcastReq (port : Fin 4) (m : RingMsg) (s : State) : Host.Outcome State Fault Refusal := .next (s.runM (bcastReq port m))

/-- The sweep is the one that this head sent on the interface of the port. -/
def Dev.ownSweep (d : Dev) (port : Fin 4) (m : RingMsg) : Option HeadSweep :=
  d.skn.sweep.filter fun h =>
    decide (h.tag = m.tag) && decide (h.src = m.src) && decide (ringOf port = ringOf (phasePort d.sweepRing h.phase))

/-- SWEEP at a node that did not send it: it executes once, a junction holds a scope-1 sweep for its child segment, and the
sweep is forwarded (R484, R485). -/
def State.sweepNode (s : State) (port : Fin 4) (m : RingMsg) : State :=
  if m.wrapped || s.dev.skn.hasExecuted m.src m.tag then { s with dev := s.dev.forward port m }
  else
    let x := s.bcastExec broadcastGo m.src m.tag m.addr (m.payload.drop 16) (Tally.ofBytes m.payload)
    let m1 := { m with payload := x.2.bytes ++ m.payload.drop 16 }
    let d := x.1.dev
    if d.skn.junction ∧ ringOf port = 0 ∧ m.detail = 1 ∧ d.skn.parentHeld = none then
      ({ x.1 with dev := d.onSkn fun k => { k with parentHeld := some m1 } }).nextSweep broadcastGo 65
    else { x.1 with dev := d.forward port m1 }

/-- SWEEP (R484). -/
def sweep (port : Fin 4) (m : RingMsg) (s : State) : State :=
  if !s.dev.ringIn port then { s with dev := ringTransit port m 0 s.dev }
  else
    match s.dev.ownSweep port m with
    | some h =>
      ({ s with dev := s.dev.sendSweep { h with tally := Tally.ofBytes m.payload } (afterPhase h.phase m.wrapped) }).nextSweep broadcastGo 65
    | none => s.sweepNode port m

def execSweep (port : Fin 4) (m : RingMsg) (s : State) : Host.Outcome State Fault Refusal := .next (s.runM (sweep port m))

/-- JUNCTION_BROADCAST_WAIT: the parent sweep goes on without the child tally and with one more missed segment (R485). -/
def junctionBroadcastWait (s : State) : State :=
  if s.dev.skn.parentHeld.isSome then
    let d := s.dev.onSkn fun k => { k with sweep := k.sweep.filter fun h => !h.forParent }
    ({ s with dev := d.releaseParent fun t => { t with missed := satNat 0xFFFF (t.missed + 1) } }).nextSweep broadcastGo 65
  else s

def execJunctionBroadcastWait (s : State) : Host.Outcome State Fault Refusal := .next (s.runM junctionBroadcastWait)

/-- BCAST_RESP: the source receives the tally (R486). -/
def bcastResp (port : Fin 4) (m : RingMsg) (d : Dev) : Dev :=
  if !d.ringIn port then ringTransit port m 0 d
  else if !d.isMe m.dest then d.passOn port m
  else d.takeTally m.tag (Tally.ofBytes m.payload)

def execBcastResp (port : Fin 4) (m : RingMsg) (s : State) : Host.Outcome State Fault Refusal := .next (s.run (bcastResp port m))

/-- BROADCAST_TIMEOUT: the source reports TIMEOUT (R487). -/
def broadcastTimeout (d : Dev) : Dev :=
  if d.skn.bcBusy then d.onSkn fun k => { k with bcBusy := false, bcTimeout := true } else d

def execBroadcastTimeout (s : State) : Host.Outcome State Fault Refusal := .next (s.run broadcastTimeout)

/-! ### Writes at the target (R472, R477, R478) -/

/-- WRITE_REQ at the target. -/
def writeReq (port : Fin 4) (m : RingMsg) (s : State) : State :=
  s.atTarget port m fun t =>
    let u := t.writeAt broadcastGo (ringAccess m.src) m.addr m.payload
    { u with dev := u.dev.respond port m 4 u.outcome.1 u.outcome.2 [] }

def execWriteReq (port : Fin 4) (m : RingMsg) (s : State) : Host.Outcome State Fault Refusal := .next (s.runM (writeReq port m))

/-- POSTED_WRITE at the target: POSTED_ACK, or LATE_ERROR with the code (R478). -/
def postedWrite (port : Fin 4) (m : RingMsg) (s : State) : State :=
  s.atTarget port m fun t =>
    let u := t.writeAt broadcastGo (ringAccess m.src) m.addr m.payload
    { u with dev := u.dev.respond port m (if u.outcome.1 = 0 then 5 else 6) u.outcome.1 u.outcome.2 [] }

def execPostedWrite (port : Fin 4) (m : RingMsg) (s : State) : Host.Outcome State Fault Refusal :=
  .next (s.runM (postedWrite port m))

end Sys2Proof.Machine
end

