-- ==== Sys2Proof/Machine/DmaMove.lean ====
section
/-! DEFINITION. What the management DMA moves in a service, and how it halts (spec/15_dma_check_units.md R522 to R531; log 35). -/

namespace Sys2Proof.Machine

/-- The access of the DMA. -/
def dmaAccess : Access := ⟨.dma, 0, 0⟩

/-- Channel settings of a service, with the kind of each side (R525). -/
structure DmaJob where
  k : Fin 8
  c : Chan
  srcSide : Bool
  dstSide : Bool
  /-- failing access: transfer byte, write side, code (R528) -/
  fail : Option (Nat × Bool × Nat)
  deriving DecidableEq, Repr

/-- The source is accessed by elements. -/
def DmaJob.srcElem (j : DmaJob) : Bool := j.c.srcFix || j.srcSide
/-- The destination is accessed by elements. -/
def DmaJob.dstElem (j : DmaJob) : Bool := j.c.dstFix || j.dstSide

/-- Unit that is read before it is written: an element or swap group where a side has elements, else a beat. -/
def DmaJob.unit (j : DmaJob) : Nat := if j.srcElem || j.dstElem then max j.c.size j.c.swapUnit else 8

/-- Burst of R528: one unit on a source with the side-effect attribute (R530) and of a software-started transfer, else the paced
burst (log 35). -/
def DmaJob.burst (j : DmaJob) : Nat := if j.srcSide ∨ j.c.pace = 0 then j.unit else 8 * j.c.beats

/-- Bytes of one service (R522). -/
def DmaJob.amount (j : DmaJob) : Nat :=
  let rest := j.c.length - j.c.moved
  if j.c.pace = 0 then rest else min rest (8 * j.c.beats)

/-- Address of byte offset `o` of a side. -/
def sideAddr (base : Word) (fix : Bool) (o : Nat) : Word := if fix then base else base + BitVec.ofNat 32 o

/-- Aligned 8-byte beats that cover `n` bytes from `o` on, as offset and length; at most `fuel` of them. -/
def alignedBeats (base : Nat) : (fuel o n : Nat) → List (Nat × Nat)
  | 0, _, _ => []
  | fuel + 1, o, n =>
    if n = 0 then [] else
      let len := min n (8 - (base + o) % 8)
      (o, len) :: alignedBeats base fuel (o + len) (n - len)

/-- Accesses of a side for `n` bytes at offset `o`: offset and length (R525). -/
def sidePieces (elem : Bool) (size base o n : Nat) : List (Nat × Nat) :=
  if elem then (List.range (n / size)).map fun i => (o + i * size, size) else alignedBeats base (n / 8 + 2) o n

/-- Swap one group (R526). -/
def swapGroup (swap : Nat) (g : List Byte) : List Byte :=
  match swap, g with
  | 1, [a, b] => [b, a]
  | 2, [a, b, c, d] => [c, d, a, b]
  | 3, [a, b, c, d] => [d, c, b, a]
  | _, g => g

/-- Swap the groups of a burst (R526). -/
def swapBytes (swap unit : Nat) (bs : List Byte) : List Byte :=
  (List.range (bs.length / unit)).flatMap fun i => swapGroup swap ((bs.drop (i * unit)).take unit)

/-- A service under way: the state, the bytes of ring responses not yet used, the bytes written so far in address order, and
whether it goes on. -/
structure DmaRun where
  s : State
  ring : List Byte
  out : List Byte
  live : Bool
  deriving DecidableEq, Repr

/-- The channel halts (R528): failing address, direction and code are latched, and REMAIN counts from the failing burst. -/
def DmaRun.halt (r : DmaRun) (j : DmaJob) (p : Nat) (addr : Word) (write : Bool) (code : Nat) : DmaRun :=
  let d := (r.s.dev.onChan j.k fun c =>
    { c with st := .halted, err := true, code := code, dir := write, errAddr := addr, moved := p, remain := j.c.length - p,
             inService := false, element := none }).onDma fun m => { m with serving := none }
  { r with s := { r.s with dev := d.dmaEvent j.k true }, live := false }

/-- A side in a ring window cannot be reached: the window is disabled or its node absent (13 R470, R475). -/
def Dev.ringBlocked (d : Dev) (addr : Word) : Option Nat :=
  match regionOf addr with
  | .ring w _ =>
    let e := d.skn.win[Fin.ofNat 16 w]
    let node : Half := e.truncate 16
    if !e.getLsbD 31 then some 2 else if d.absent (d.ringTo node (e.getLsbD 29)) node then some 1 else none
  | _ => none

/-- An address in a ring window. -/
def isRing (addr : Word) : Bool := match regionOf addr with | .ring _ _ => true | _ => false

/-- Read one piece of the source: the bytes, or the code of its failure. The element read at the start of the service comes
first; ring responses bring their bytes, and bytes they do not bring are free. -/
def DmaRun.readPiece (r : DmaRun) (j : DmaJob) (o n : Nat) : DmaRun × Except Nat (List Byte) :=
  let addr := sideAddr j.c.src j.c.srcFix o
  match (r.s.dev.dma.ch[j.k]).element with
  | some e => ({ r with s := { r.s with dev := r.s.dev.onChan j.k fun c => { c with element := none } } }, .ok e.2)
  | none =>
    if isRing addr then
      match r.s.dev.ringBlocked addr with
      | some code => (r, .error code)
      | none =>
        let got := r.ring.take n
        let f := r.s.dev.freshBytes (n - got.length)
        ({ r with s := { r.s with dev := f.1 }, ring := r.ring.drop n }, .ok (got ++ f.2))
    else
      let t := r.s.readAt dmaAccess addr n
      ({ r with s := t }, if t.outcome.1 = 0 then .ok (t.readResult n) else .error t.outcome.1.toNat)

/-- Read the pieces of a burst: the bytes read, and the address and code of a failure. -/
def DmaRun.readAll (j : DmaJob) : List (Nat × Nat) → DmaRun → List Byte → DmaRun × List Byte × Option (Word × Nat)
  | [], r, bs => (r, bs, none)
  | x :: xs, r, bs =>
    let y := r.readPiece j x.1 x.2
    match y.2 with
    | .ok g => DmaRun.readAll j xs y.1 (bs ++ g)
    | .error code => (y.1, bs, some (sideAddr j.c.src j.c.srcFix x.1, code))

/-- Feed the bytes of one write to the channel's check unit (R518, R526; 15 R538). -/
def Dev.dmaFeed (d : Dev) (j : DmaJob) (bs : List Byte) : Dev :=
  if j.c.chkEn ∧ d.chkBound j.k then d.onChk (Fin.ofNat 24 j.c.chkUnit) fun u => u.feed bs else d

/-- Write one piece: the run after it, or the code of the failure. A write through a window is on its way to the ring; its
message leaves with the service (R523). -/
def DmaRun.writePiece (r : DmaRun) (j : DmaJob) (o : Nat) (bs : List Byte) : DmaRun × Option Nat :=
  let addr := sideAddr j.c.dst j.c.dstFix o
  let fed (s : State) : State := { s with dev := s.dev.dmaFeed j bs }
  if isRing addr then
    match r.s.dev.ringBlocked addr with
    | some code => (r, some code)
    | none => ({ r with s := fed r.s }, none)
  else
    let t := r.s.writeAt broadcastGo dmaAccess addr bs
    if t.outcome.1 = 0 then ({ r with s := fed t }, none) else ({ r with s := t }, some t.outcome.1.toNat)

/-- Write the pieces of a burst that starts at offset `o`; `stop` is the offset of the write that fails by itself. -/
def DmaRun.writeAll (j : DmaJob) (o : Nat) (bs : List Byte) (stop : Option (Nat × Nat)) :
    List (Nat × Nat) → DmaRun → DmaRun × Option (Word × Nat)
  | [], r => (r, none)
  | x :: xs, r =>
    let hit : Option Nat := stop.bind fun f => if x.1 ≤ f.1 ∧ f.1 < x.1 + x.2 then some f.2 else none
    match hit with
    | some code => (r, some (sideAddr j.c.dst j.c.dstFix x.1, code))
    | none =>
      let y := r.writePiece j x.1 ((bs.drop (x.1 - o)).take x.2)
      match y.2 with
      | some code => (y.1, some (sideAddr j.c.dst j.c.dstFix x.1, code))
      | none => DmaRun.writeAll j o bs stop xs y.1

/-- The elements of a burst that were popped and not written go to DMA_RESCUE (R531). -/
def DmaRun.rescue (r : DmaRun) (j : DmaJob) (o : Nat) (bs : List Byte) : DmaRun :=
  if j.srcSide then
    let es := sidePieces true j.c.size 0 o bs.length
    { r with s := { r.s with dev := es.foldl (fun d x =>
        d.rescueElement j.k (sideAddr j.c.src j.c.srcFix x.1) ((bs.drop (x.1 - o)).take x.2)) r.s.dev } }
  else r

/-- The channel is still in service. -/
def DmaRun.goesOn (r : DmaRun) (j : DmaJob) : Bool :=
  r.live && decide (r.s.dev.dma.serving = some j.k) && decide ((r.s.dev.dma.ch[j.k]).st = .active)

/-- One burst of `n` bytes at transfer byte `p` (R524 to R528). -/
def DmaRun.step (j : DmaJob) (r : DmaRun) (p n : Nat) : DmaRun :=
  if !r.goesOn j then r
  else
    let o := if j.c.backward then j.c.length - p - n else p
    -- the failing access, as an offset of the side
    let failing : Option (Nat × Bool × Nat) :=
      j.fail.bind fun f => if p ≤ f.1 ∧ f.1 < p + n then some (if j.c.backward then j.c.length - 1 - f.1 else f.1, f.2.1, f.2.2) else none
    match failing with
    | some (b, false, code) => r.halt j p (sideAddr j.c.src j.c.srcFix b) false code
    | _ =>
      let x := DmaRun.readAll j (sidePieces j.srcElem j.c.size j.c.src.toNat o n) r []
      match x.2.2 with
      | some (addr, code) => (x.1.rescue j o x.2.1).halt j p addr false code
      | none =>
        let bs := swapBytes j.c.swap j.c.swapUnit x.2.1
        let stop := failing.map fun f => (f.1, f.2.2)
        let y := DmaRun.writeAll j o bs stop (sidePieces j.dstElem j.c.size j.c.dst.toNat o n) x.1
        match y.2 with
        | some (addr, code) => (y.1.rescue j o x.2.1).halt j p addr true code
        | none =>
          { y.1 with
            s := { y.1.s with dev := y.1.s.dev.onChan j.k fun c => { c with moved := p + n, remain := j.c.length - (p + n) } },
            out := if j.c.backward then bs ++ y.1.out else y.1.out ++ bs }

/-- Bursts of a service: start and length. -/
def DmaJob.bursts (j : DmaJob) : List (Nat × Nat) :=
  let b := j.burst
  (List.range ((j.amount + b - 1) / b)).map fun i => (j.c.moved + i * b, min b (j.amount - i * b))

/-- The requests of a side in a ring window for the bytes of a service (13 R471, R472): they have all been answered when the
service ends, so no transaction stays. -/
def Dev.emitWindow (d : Dev) (addr : Word) (fix : Bool) (size n : Nat) (write : Bool) (data : List Byte) : Dev :=
  match regionOf addr with
  | .ring w off =>
    let e := d.skn.win[Fin.ofNat 16 w]
    let far := e.toNat / 2 ^ 16 % 256 * 2 ^ 24 + off
    let ts := if fix then (List.range (n / size)).flatMap fun i =>
        windowTxns e .dma 0 far 1 size write ((data.drop (i * size)).take size)
      else windowTxns e .dma 0 far ((n + size - 1) / size) size write data
    ts.foldl (fun x t => x.originate (x.ringTo t.node t.ringB) { t.msg with tag := x.skn.freeTag .dma }) d
  | _ => d

/-- What the job of a channel is. -/
def Dev.jobOf (d : Dev) (k : Fin 8) (fail : Option (Nat × Bool × Nat)) : DmaJob :=
  let c := d.dma.ch[k]
  ⟨k, c, d.sideEffect c.src, d.sideEffect c.dst, fail⟩

/-- Put the requests of what a service moved on the ring: first byte `p`, the bytes written. -/
def State.emitService (s : State) (j : DmaJob) (p : Nat) (out : List Byte) : State :=
  let n := out.length
  let o := if j.c.backward then j.c.length - p - n else p
  let src := sideAddr j.c.src j.c.srcFix o
  let dst := sideAddr j.c.dst j.c.dstFix o
  let size (elem : Bool) : Nat := if elem then j.c.size else 8
  let d1 := s.dev.emitWindow src j.c.srcFix (size j.srcElem) n false []
  { s with dev := d1.emitWindow dst j.c.dstFix (size j.dstElem) n true out }

/-- Run the bursts of a service. -/
def State.runService (s : State) (j : DmaJob) (ring : List Byte) : State :=
  let r := j.bursts.foldl (fun r x => DmaRun.step j r x.1 x.2) (⟨s, ring, [], true⟩ : DmaRun)
  r.s.emitService j j.c.moved r.out

/-- The end of a service (R522, R527). -/
def Dev.endService (d : Dev) (k : Fin 8) : Dev :=
  let c := d.dma.ch[k]
  if d.dma.serving ≠ some k then d
  else
    let d1 := d.onDma fun m => { m with serving := none }
    if c.length ≤ c.moved then
      (d1.onChan k fun c => { c with st := .idle, done := true, inService := false, remain := 0 }).dmaEvent k false
    else d1.onChan k fun c => { c with st := if c.pace = 0 then .active else .armed, inService := false }

/-- DMA_SERVICE_START: a free engine takes the lowest ready channel (R522); on a source in register space its first element is
read at once (R525, R530). -/
def dmaServiceStart (s : State) : State :=
  if s.dev.dma.serving.isSome then s
  else
    match (List.finRange 8).find? fun k => s.dev.chanReady k with
    | none => s
    | some k =>
      let d := (s.dev.onDma fun m => { m with serving := some k }).onChan k fun c => { c with st := .active, inService := true }
      let j := d.jobOf k none
      let s1 := { s with dev := d }
      if j.srcSide ∧ !isRing j.c.src then
        let o := if j.c.backward then j.c.length - j.c.moved - j.c.size else j.c.moved
        let addr := sideAddr j.c.src j.c.srcFix o
        let y := (⟨s1, [], [], true⟩ : DmaRun).readPiece j o j.c.size
        match y.2 with
        | .ok bs => { y.1.s with dev := y.1.s.dev.onChan k fun c => { c with element := some (addr, bs) } }
        | .error code => (y.1.halt j j.c.moved addr false code).s
      else s1

def execDmaServiceStart (s : State) : Host.Outcome State Fault Refusal := .next (s.runM dmaServiceStart)

/-- DMA_SERVICE_DONE: the bytes of the service are moved; a finished transfer sets DONE, every write being answered (R527). A local
access that fails halts the channel (R528). -/
def dmaServiceDone (ring : List Byte) (s : State) : State :=
  match s.dev.dma.serving with
  | some k =>
    let t := s.runService (s.dev.jobOf k none) ring
    { t with dev := t.dev.endService k }
  | none => s

def execDmaServiceDone (ring : List Byte) (s : State) : Host.Outcome State Fault Refusal := .next (s.runM (dmaServiceDone ring))

/-- An access met a parity error or poisoned data (13 R475 code 5): it is reported (01 R39), and a read of the frame store counts it for
its channel (09 R326, R335). On the ring it is the far node's. -/
def Dev.metPoison (d : Dev) (addr : Word) (write : Bool) : Dev :=
  match regionOf addr with
  | .ring _ _ => d
  | .fs o => if write then d.report 17 else d.countEcc (fsChannel (d.fst.bank * 2 ^ 31 + o)) 0 1
  | _ => d.report 17

/-- Address of a transfer byte on a side. -/
def DmaJob.addrAt (j : DmaJob) (atByte : Nat) (write : Bool) : Word :=
  let o := if j.c.backward then j.c.length - atByte - 1 else atByte
  if write then sideAddr j.c.dst j.c.dstFix o else sideAddr j.c.src j.c.srcFix o

/-- DMA_ACCESS_FAILURE: an access of the service under way fails at a transfer byte (R528, R531). -/
def dmaAccessFailure (ch : Fin 8) (atByte : Nat) (write : Bool) (code : Fin 16) (ring : List Byte) (s : State) : State :=
  let j := s.dev.jobOf ch (some (atByte, write, code.val))
  if s.dev.dma.serving = some ch ∧ j.c.moved ≤ atByte ∧ atByte < j.c.moved + j.amount then
    let t := s.runService j ring
    if code = 5 then { t with dev := t.dev.metPoison (j.addrAt atByte write) write } else t
  else s

def execDmaAccessFailure (ch : Fin 8) (atByte : Nat) (write : Bool) (code : Fin 16) (ring : List Byte) (s : State) :
    Host.Outcome State Fault Refusal := .next (s.runM (dmaAccessFailure ch atByte write code ring))

end Sys2Proof.Machine
end

