-- ==== Sys2Proof/Machine/RegCmds.lean ====
section
/-! DEFINITION. The commands that are one access to a register (spec/00_scope.md R5, R8, R9; 13 R457; 14 R511; 18 R584 to
R592; 16 R559, R560). -/

namespace Sys2Proof.Machine

/-- A read of one 32-bit word. -/
def readWord (a : Access) (addr : Word) (s : State) : State := s.readAt a addr 4

/-- A write of one 32-bit word. -/
def writeWord (a : Access) (addr v : Word) (s : State) : State := s.writeAt broadcastGo a addr (le 4 v.toNat)

/-- LO_READ_LATCH (00 R5; 18 R588). -/
def execLoReadLatch (a : Access) (addr : Word) (s : State) : Host.Outcome State Fault Refusal := .next (s.runM (readWord a addr))

/-- WIDE_HI_WRITE (18 R588). -/
def execWideHiWrite (a : Access) (addr : Word) (v : Word) (s : State) : Host.Outcome State Fault Refusal :=
  .next (s.runM (writeWord a addr v))

/-- ROC_READ (00 R8). -/
def execRocRead (a : Access) (addr : Word) (s : State) : Host.Outcome State Fault Refusal := .next (s.runM (readWord a addr))

/-- PLY_COUNTER_CLEAR: a write of PLY_CNT_CLR (18 PLY status). -/
def execPlyCounterClear (a : Access) (v : Word) (s : State) : Host.Outcome State Fault Refusal :=
  .next (s.runM (writeWord a (regAddr 0x600060) v))

/-- REGISTER_WRITE: `size` bytes, least significant first (00 R4; 18 R585; 16 R559, R560). -/
def execRegisterWrite (a : Access) (addr : Word) (size : Nat) (data : DWord) (s : State) : Host.Outcome State Fault Refusal :=
  .next (s.runM fun t => t.writeAt broadcastGo a addr (le size data.toNat))

/-- PAIR_PENDING_WRITE (18 R592). -/
def execPairPendingWrite (a : Access) (r : PairReg) (v : Word) (s : State) : Host.Outcome State Fault Refusal :=
  .next (s.run fun d => d.putPair a r v)

/-- NODE_PIN (13 R457). -/
def execNodePin (a : Access) (ringB : Bool) (v : Word) (s : State) : Host.Outcome State Fault Refusal :=
  .next (s.run fun d => d.commitNode a ringB v)

/-- WINDOW_COMMIT (14 R511). -/
def execWindowCommit (a : Access) (n : Fin 24) (v : Word) (s : State) : Host.Outcome State Fault Refusal :=
  .next (s.run fun d => d.commitWindow a n v)

end Sys2Proof.Machine
end

