-- ==== Sys2Proof/Machine/Remote.lean ====
section
/-! DEFINITION. The JTAG port, the I2C target port and the management datagram service (spec/17_test.md R583; 19 R618 to R620;
16 R558; log 10, log 37). -/

namespace Sys2Proof.Machine

/-! ### The TAP (IEEE 1149.1-2013, IEEE 1149.6) -/

/-- BYPASS: the one-bit register, which captures 0. -/
def execBypass (s : State) : Host.Outcome State Fault Refusal := .next (s.run fun d => d.jtagTake .bypass 0 false false)

/-- IDCODE reads 0xB166_45C7 (R583). -/
def execIdcode (s : State) : Host.Outcome State Fault Refusal := .next (s.run fun d => d.jtagTake .idcode 0xB16645C7 false false)

/-- SAMPLE/PRELOAD: the boundary cells take the values shifted in; the pins keep following the block. -/
def samplePreload (cells : List Bool) (d : Dev) : Dev :=
  let e := d.jtagTake .sample 0 false false
  { e with jtag := { e.jtag with cells := cells } }

def execSamplePreload (cells : List Bool) (s : State) : Host.Outcome State Fault Refusal := .next (s.run (samplePreload cells))

/-- EXTEST: the pins are driven from the boundary cells. -/
def execExtest (s : State) : Host.Outcome State Fault Refusal := .next (s.run fun d => d.jtagTake .extest 0 true false)

/-- EXTEST_PULSE on the AC-coupled pins. -/
def execExtestPulse (s : State) : Host.Outcome State Fault Refusal := .next (s.run fun d => d.jtagTake .extestPulse 0 true false)

/-- EXTEST_TRAIN on the AC-coupled pins. -/
def execExtestTrain (s : State) : Host.Outcome State Fault Refusal := .next (s.run fun d => d.jtagTake .extestTrain 0 true false)

/-- CLAMP: the pins are held from the boundary cells, with the bypass register selected. -/
def execClamp (s : State) : Host.Outcome State Fault Refusal := .next (s.run fun d => d.jtagTake .clamp 0 true false)

/-- HIGHZ: the outputs are at high impedance, with the bypass register selected. -/
def execHighz (s : State) : Host.Outcome State Fault Refusal := .next (s.run fun d => d.jtagTake .highz 0 false true)

/-- TRST_N_RESET: the TAP is reset (19 R620): IDCODE is selected, and the pins follow the block. -/
def execTrstReset (s : State) : Host.Outcome State Fault Refusal :=
  .next (s.run fun d => { d with jtag := Jtag.reset })

/-- MEMAP: an access to the local address map under R559 and R560 (R583). -/
def memap (write : Bool) (addr : Word) (size : Nat) (data : DWord) (s : State) : State :=
  let a : Access := ⟨.jtag, 0, 0⟩
  let t := { s with dev := s.dev.jtagTake .memap 0 false false }
  if write then t.writeAt broadcastGo a addr (le size data.toNat) else t.readAt a addr size

def execMemap (write : Bool) (addr : Word) (size : Nat) (data : DWord) (s : State) : Host.Outcome State Fault Refusal :=
  .next (s.runM (memap write addr size data))

/-! ### The I2C target port (19 R618, R619) -/

/-- The access of the I2C master. -/
def i2cAccess : Access := ⟨.i2c, 0, 0⟩

/-- The 7-bit target address on the bus is this device's: 0x5C plus the sampled I2CA straps (03 R84). Another address is not
acknowledged, and the transaction does nothing here. -/
def Dev.i2cAddressed (d : Dev) (target : BitVec 7) : Bool := decide (target.toNat = 0x5C + d.aon.i2ca.toNat)

/-- A region with the side-effect attribute: the address does not increment between words (R618). -/
def Dev.wordAddr (d : Dev) (addr : Word) (k : Nat) : Word := if d.sideEffect addr then addr else addr + BitVec.ofNat 32 (4 * k)

/-- Complete groups of four bytes; a group left incomplete at STOP is discarded (R618). -/
def wordGroups (bs : List Byte) : List (List Byte) := (List.range (bs.length / 4)).map fun k => (bs.drop (4 * k)).take 4

/-- Forget the answer before, so that an access that waits for a ring response or a fence shows none (log 37). -/
def State.unanswered (s : State) : State := { s with dev := s.dev.onBus fun b => { b with answer := none } }

/-- I2C_TARGET_WRITE: each group writes one word; a write that ends with an error code is NACKed, which ends the transaction
(R619). The address is word-aligned (R618). -/
def i2cWriteFrom (addr : Word) : (k : Nat) → List (List Byte) → State → State
  | _, [], s => s
  | k, g :: gs, s =>
    let t := s.unanswered.writeAt broadcastGo i2cAccess (s.dev.wordAddr addr k) g
    if t.outcome.1 = 0 then i2cWriteFrom addr (k + 1) gs t else t

def execI2cTargetWrite (x : I2cAddr) (bytes : List Byte) (s : State) : Host.Outcome State Fault Refusal :=
  .next (s.runM fun t =>
    if t.dev.i2cAddressed x.target then i2cWriteFrom (x.addr &&& 0xFFFFFFFC) 0 (wordGroups bytes) t else t)

/-- I2C_TARGET_READ: each group of four bytes returns one word, 0xFFFF_FFFF where its access ends with an error code (R618,
R619). -/
def i2cReadFrom (addr : Word) : (k n : Nat) → State → List Byte → State
  | _, 0, s, out => { s with dev := s.dev.onBus fun b => { b with readData := out } }
  | k, n + 1, s, out =>
    let t := s.unanswered.readAt i2cAccess (s.dev.wordAddr addr k) 4
    let got : List Byte :=
      match t.dev.bus.answer with
      | none => []
      | some x => if x.code = 0 then t.readResult 4 else List.replicate 4 0xFF
    i2cReadFrom addr (k + 1) n t (out ++ got)

def execI2cTargetRead (x : I2cAddr) (words : Nat) (s : State) : Host.Outcome State Fault Refusal :=
  .next (s.runM fun t => if t.dev.i2cAddressed x.target then i2cReadFrom (x.addr &&& 0xFFFFFFFC) 0 words t [] else t)

/-! ### The management datagram service (16 R558; log 37) -/

/-- The Ethernet port runs: out of reset, not stopped by step 6 of R113, and its lane not under test (03 R113; 17 R576). -/
def Dev.ethRuns (d : Dev) : Bool := d.released && !d.whl.ptp.stopped && d.laneServes 29

/-- MANAGEMENT_DATAGRAM: one access by the service, with the UDP source port and IPv4 address as its origin (02 R65); a stopped port
answers nothing (R558). -/
def managementDatagram (port : Half) (ip : Word) (write : Bool) (addr : Word) (size : Nat) (data : DWord) (s : State) : State :=
  let a : Access := ⟨.eth, port, ip⟩
  if s.dev.ethRuns then
    if write then s.writeAt broadcastGo a addr (le size data.toNat) else s.readAt a addr size
  else s

def execManagementDatagram (port : Half) (ip : Word) (write : Bool) (addr : Word) (size : Nat) (data : DWord) (s : State) :
    Host.Outcome State Fault Refusal := .next (s.runM (managementDatagram port ip write addr size data))

end Sys2Proof.Machine
end

