-- ==== Sys2Proof/Machine/Dispatch.lean ====
section
/-! DEFINITION. The effect of every command: one arm per row of spec/opcode_table.json. -/

namespace Sys2Proof.Machine

/-- The effect of command `i` on everything but the queue. -/
def exec (i : Instr) (s : State) : Host.Outcome State Fault Refusal :=
  match i with
  | .powerOnReset => Sys2Proof.Machine.execPowerOnReset s
  | .powerOnResetRelease => Sys2Proof.Machine.execPowerOnResetRelease s
  | .brownOut => Sys2Proof.Machine.execBrownOut s
  | .porstAssert => Sys2Proof.Machine.execPorstAssert s
  | .porstRelease bootSel i2ca => Sys2Proof.Machine.execPorstRelease bootSel i2ca s
  | .frameStoreTrained gib ok => Sys2Proof.Machine.execFrameStoreTrained gib ok s
  | .imageLoadDone => Sys2Proof.Machine.execImageLoadDone s
  | .softwareReset a v bootSel i2ca => Sys2Proof.Machine.execSoftwareReset a v bootSel i2ca s
  | .pllFailure => Sys2Proof.Machine.execPllFailure s
  | .pairPendingWrite a r v => Sys2Proof.Machine.execPairPendingWrite a r v s
  | .modeRequest a v => Sys2Proof.Machine.execModeRequest a v s
  | .shutdownDrained => Sys2Proof.Machine.execShutdownDrained s
  | .warmupTimeout => Sys2Proof.Machine.execWarmupTimeout s
  | .nvmPin a v => Sys2Proof.Machine.execNvmPin a v s
  | .nodePin a ringB v => Sys2Proof.Machine.execNodePin a ringB v s
  | .w6Preset a v => Sys2Proof.Machine.execW6Preset a v s
  | .windowCommit a n v => Sys2Proof.Machine.execWindowCommit a n v s
  | .journalPeriodicDue => Sys2Proof.Machine.execJournalPeriodicDue s
  | .journalSetWrite => Sys2Proof.Machine.execJournalSetWrite s
  | .journalSetProgrammed ok => Sys2Proof.Machine.execJournalSetProgrammed ok s
  | .powerFailRecovered => Sys2Proof.Machine.execPowerFailRecovered s
  | .stageOpen a length pinNew => Sys2Proof.Machine.execStageOpen a length pinNew s
  | .stageEraseDone ok => Sys2Proof.Machine.execStageEraseDone ok s
  | .stageGo a half count => Sys2Proof.Machine.execStageGo a half count s
  | .stageProgramDone ok => Sys2Proof.Machine.execStageProgramDone ok s
  | .stageCommit a => Sys2Proof.Machine.execStageCommit a s
  | .stageCommitDone ok => Sys2Proof.Machine.execStageCommitDone ok s
  | .stageTimeout => Sys2Proof.Machine.execStageTimeout s
  | .linkCfgRepeat p => Sys2Proof.Machine.execLinkCfgRepeat p s
  | .creelTs1Received p echoPort echoRate => Sys2Proof.Machine.execCreelTs1Received p echoPort echoRate s
  | .equaliserAdapted p c eyeH eyeV => Sys2Proof.Machine.execEqualiserAdapted p c eyeH eyeV s
  | .laneTrained p => Sys2Proof.Machine.execLaneTrained p s
  | .trainingAttemptTimeout p => Sys2Proof.Machine.execTrainingAttemptTimeout p s
  | .trainingRetry p => Sys2Proof.Machine.execTrainingRetry p s
  | .lossOfLock p cause => Sys2Proof.Machine.execLossOfLock p cause s
  | .requestReplyTimeout p tag => Sys2Proof.Machine.execRequestReplyTimeout p tag s
  | .syncReqDue p => Sys2Proof.Machine.execSyncReqDue p s
  | .controlAck p seq tag status detail => Sys2Proof.Machine.execControlAck p seq tag status detail s
  | .i2cData p seq tag data => Sys2Proof.Machine.execI2cData p seq tag data s
  | .syncResp p seq tag t2 t3 => Sys2Proof.Machine.execSyncResp p seq tag t2 t3 s
  | .gpioState p seq levels changed => Sys2Proof.Machine.execGpioState p seq levels changed s
  | .headStatus p seq headType firmware errors => Sys2Proof.Machine.execHeadStatus p seq headType firmware errors s
  | .skipSet p n adjust => Sys2Proof.Machine.execSkipSet p n adjust s
  | .abortedPacket p h vc => Sys2Proof.Machine.execAbortedPacket p h vc s
  | .frameStart p h vc wc report => Sys2Proof.Machine.execFrameStart p h vc wc s report
  | .frameEnd p h vc wc => Sys2Proof.Machine.execFrameEnd p h vc wc s
  | .frameCloseTimeout n => Sys2Proof.Machine.execFrameCloseTimeout n s
  | .busyTimeout n => Sys2Proof.Machine.execBusyTimeout n s
  | .imageLine p h vc dt payload ev => Sys2Proof.Machine.execImageLine p h vc dt payload ev s
  | .embeddedData p h vc entries ev => Sys2Proof.Machine.execEmbeddedData p h vc entries ev s
  | .lineStart p h vc => Sys2Proof.Machine.execLineStart p h vc s
  | .lineEnd p h vc => Sys2Proof.Machine.execLineEnd p h vc s
  | .genericShortPacket p h vc dt => Sys2Proof.Machine.execGenericShortPacket p h vc dt s
  | .nullBlankingPacket p h vc => Sys2Proof.Machine.execNullBlankingPacket p h vc s
  | .unknownPacket p h x => Sys2Proof.Machine.execUnknownPacket p h x s
  | .exposureReq n index last frame e => Sys2Proof.Machine.execExposureReq n index last frame e s
  | .exposureAssemblyTimeout n frame => Sys2Proof.Machine.execExposureAssemblyTimeout n frame s
  | .exposureRequestGo a p v => Sys2Proof.Machine.execExposureRequestGo a p v s
  | .crlExpresPop a p => Sys2Proof.Machine.execCrlExpresPop a p s
  | .writeWindowOpen n frame => Sys2Proof.Machine.execWriteWindowOpen n frame s
  | .trigInEdge x_i => Sys2Proof.Machine.execTrigInEdge x_i s
  | .odometerEdge odoA odoB => Sys2Proof.Machine.execOdometerEdge odoA odoB s
  | .markCommit n => Sys2Proof.Machine.execMarkCommit n s
  | .odoZEdge => Sys2Proof.Machine.execOdoZEdge s
  | .tileDispatch => Sys2Proof.Machine.execTileDispatch s
  | .tileComplete n altered corrected => Sys2Proof.Machine.execTileComplete n altered s corrected
  | .tileFailure n cause => Sys2Proof.Machine.execTileFailure n cause s
  | .tileWatchdog n => Sys2Proof.Machine.execTileWatchdog n s
  | .selfTestDone n pass => Sys2Proof.Machine.execSelfTestDone n pass s
  | .bandHandover st errs => Sys2Proof.Machine.execBandHandover st s errs
  | .bobPop a damaged => Sys2Proof.Machine.execBobPop a s damaged
  | .bobDrop a => Sys2Proof.Machine.execBobDrop a s
  | .ownershipAudit damaged => Sys2Proof.Machine.execOwnershipAudit s damaged
  | .patrolScrub ce0 ue0 ce1 ue1 => Sys2Proof.Machine.execPatrolScrub ce0 ue0 ce1 ue1 s
  | .hankLaneFrameStart lane => Sys2Proof.Machine.execHankLaneFrameStart lane s
  | .hankVerify lane payload inputLen => Sys2Proof.Machine.execHankVerify lane payload inputLen s
  | .hankFrameAbandon lane cause => Sys2Proof.Machine.execHankFrameAbandon lane cause s
  | .plyTrained up => Sys2Proof.Machine.execPlyTrained up s
  | .plyTrainingTimeout up => Sys2Proof.Machine.execPlyTrainingTimeout up s
  | .laneStatus up locked reason seq => Sys2Proof.Machine.execLaneStatus up locked reason seq s
  | .arbiterLaneWithdraw lane => Sys2Proof.Machine.execArbiterLaneWithdraw lane s
  | .ack up seq => Sys2Proof.Machine.execAck up seq s
  | .nak cause seq => Sys2Proof.Machine.execNak cause seq s
  | .ackTimeout => Sys2Proof.Machine.execAckTimeout s
  | .returnLaneLockLoss => Sys2Proof.Machine.execReturnLaneLockLoss s
  | .laneRetrainRetry lane => Sys2Proof.Machine.execLaneRetrainRetry lane s
  | .returnMessageDiscard => Sys2Proof.Machine.execReturnMessageDiscard s
  | .layoutReq layout => Sys2Proof.Machine.execLayoutReq layout s
  | .blockSend badReplay badQueues corrected => Sys2Proof.Machine.execBlockSend s badReplay badQueues corrected
  | .alignmentMarker => Sys2Proof.Machine.execAlignmentMarker s
  | .skipSetDue lane => Sys2Proof.Machine.execSkipSetDue lane s
  | .healthPacketDue => Sys2Proof.Machine.execHealthPacketDue s
  | .frameEndSend st => Sys2Proof.Machine.execFrameEndSend st s
  | .repeatSlot st => Sys2Proof.Machine.execRepeatSlot st s
  | .warmingSlot st => Sys2Proof.Machine.execWarmingSlot st s
  | .scheduledAction x_i => Sys2Proof.Machine.execScheduledAction x_i s
  | .saqAdd a => Sys2Proof.Machine.execSaqAdd a s
  | .saqRemove a => Sys2Proof.Machine.execSaqRemove a s
  | .saqRead a => Sys2Proof.Machine.execSaqRead a s
  | .snapshot a => Sys2Proof.Machine.execSnapshot a s
  | .sampleSubmit a hi => Sys2Proof.Machine.execSampleSubmit a hi s
  | .whorlLossTimeout n => Sys2Proof.Machine.execWhorlLossTimeout n s
  | .announce m => Sys2Proof.Machine.execAnnounce m s
  | .announceReceiptTimeout => Sys2Proof.Machine.execAnnounceReceiptTimeout s
  | .sync m => Sys2Proof.Machine.execSync m s
  | .followUp m => Sys2Proof.Machine.execFollowUp m s
  | .delayResp m => Sys2Proof.Machine.execDelayResp m s
  | .pdelayReq m => Sys2Proof.Machine.execPdelayReq m s
  | .pdelayResp m => Sys2Proof.Machine.execPdelayResp m s
  | .pdelayRespFollowUp m => Sys2Proof.Machine.execPdelayRespFollowUp m s
  | .ptpDiscard => Sys2Proof.Machine.execPtpDiscard s
  | .ethTsqPop a => Sys2Proof.Machine.execEthTsqPop a s
  | .ppsInEdge => Sys2Proof.Machine.execPpsInEdge s
  | .ppsOutPulse => Sys2Proof.Machine.execPpsOutPulse s
  | .w7PhaseCorrection a v => Sys2Proof.Machine.execW7PhaseCorrection a v s
  | .w7Turn => Sys2Proof.Machine.execW7Turn s
  | .w7LockLoss => Sys2Proof.Machine.execW7LockLoss s
  | .ringPortUp port c => Sys2Proof.Machine.execRingPortUp port c s
  | .ringPortLoss port => Sys2Proof.Machine.execRingPortLoss port s
  | .ringPortRetry port => Sys2Proof.Machine.execRingPortRetry port s
  | .ringTransit port m residence => Sys2Proof.Machine.execRingTransit port m residence s
  | .ldlySend port => Sys2Proof.Machine.execLdlySend port s
  | .ldlyReq port m => Sys2Proof.Machine.execLdlyReq port m s
  | .ldlyResp x t2 t3 => Sys2Proof.Machine.execLdlyResp x t2 t3 s
  | .timeOriginate => Sys2Proof.Machine.execTimeOriginate s
  | .timeMsg x t residence => Sys2Proof.Machine.execTimeMsg x t residence s
  | .enumSend ringB => Sys2Proof.Machine.execEnumSend ringB s
  | .enumMsg x west wrapped segment next count => Sys2Proof.Machine.execEnumMsg x west wrapped segment next count s
  | .linkEvent x portCode newState => Sys2Proof.Machine.execLinkEvent x portCode newState s
  | .windowAccess a write addr beats size data exclusive => Sys2Proof.Machine.execWindowAccess a write addr beats size data exclusive s
  | .readReq port m => Sys2Proof.Machine.execReadReq port m s
  | .writeReq port m => Sys2Proof.Machine.execWriteReq port m s
  | .postedWrite port m => Sys2Proof.Machine.execPostedWrite port m s
  | .resp port m => Sys2Proof.Machine.execResp port m s
  | .postedAck port m => Sys2Proof.Machine.execPostedAck port m s
  | .lateError port m => Sys2Proof.Machine.execLateError port m s
  | .responseTimeout tag => Sys2Proof.Machine.execResponseTimeout tag s
  | .fenceRead a => Sys2Proof.Machine.execFenceRead a s
  | .fenceDrained a => Sys2Proof.Machine.execFenceDrained a s
  | .leqPop a => Sys2Proof.Machine.execLeqPop a s
  | .broadcastGo a v => Sys2Proof.Machine.execBroadcastGo a v s
  | .bcastReq port m => Sys2Proof.Machine.execBcastReq port m s
  | .sweep port m => Sys2Proof.Machine.execSweep port m s
  | .junctionBroadcastWait => Sys2Proof.Machine.execJunctionBroadcastWait s
  | .bcastResp port m => Sys2Proof.Machine.execBcastResp port m s
  | .broadcastTimeout => Sys2Proof.Machine.execBroadcastTimeout s
  | .lstageWrite a v => Sys2Proof.Machine.execLstageWrite a v s
  | .lactWrite a v => Sys2Proof.Machine.execLactWrite a v s
  | .auditLaunch ringB => Sys2Proof.Machine.execAuditLaunch ringB s
  | .audit x west wrapped t => Sys2Proof.Machine.execAudit x west wrapped t s
  | .comparatorCrossing n rising => Sys2Proof.Machine.execComparatorCrossing n rising s
  | .blankingEnd p above => Sys2Proof.Machine.execBlankingEnd p above s
  | .tripReenable p => Sys2Proof.Machine.execTripReenable p s
  | .converterStart a v => Sys2Proof.Machine.execConverterStart a v s
  | .conversionDone c packets cycles => Sys2Proof.Machine.execConversionDone c packets cycles s
  | .resultRead a c => Sys2Proof.Machine.execResultRead a c s
  | .dmaResultRead a c => Sys2Proof.Machine.execDmaResultRead a c s
  | .dmaStart a ch => Sys2Proof.Machine.execDmaStart a ch s
  | .dmaResume a ch => Sys2Proof.Machine.execDmaResume a ch s
  | .dmaAbort a ch => Sys2Proof.Machine.execDmaAbort a ch s
  | .dmaServiceStart => Sys2Proof.Machine.execDmaServiceStart s
  | .dmaServiceDone ring => Sys2Proof.Machine.execDmaServiceDone ring s
  | .dmaAccessFailure ch atByte write code ring => Sys2Proof.Machine.execDmaAccessFailure ch atByte write code ring s
  | .chkData a u bytes => Sys2Proof.Machine.execChkData a u bytes s
  | .chkRestart a u v => Sys2Proof.Machine.execChkRestart a u v s
  | .faultSumClear a v => Sys2Proof.Machine.execFaultSumClear a v s
  | .faultSet a v => Sys2Proof.Machine.execFaultSet a v s
  | .watchdogService a n => Sys2Proof.Machine.execWatchdogService a n s
  | .coreWatchdogExpiry n => Sys2Proof.Machine.execCoreWatchdogExpiry n s
  | .thermalSample t => Sys2Proof.Machine.execThermalSample t s
  | .avsTimeout => Sys2Proof.Machine.execAvsTimeout s
  | .delayMonitorSample slacks => Sys2Proof.Machine.execDelayMonitorSample slacks s
  | .minuteTick => Sys2Proof.Machine.execMinuteTick s
  | .replan a => Sys2Proof.Machine.execReplan a s
  | .replanDone rows => Sys2Proof.Machine.execReplanDone rows s
  | .eyeScan a => Sys2Proof.Machine.execEyeScan a s
  | .eyeScanDone eyes => Sys2Proof.Machine.execEyeScanDone eyes s
  | .vminProbe a => Sys2Proof.Machine.execVminProbe a s
  | .vminProbeDone mv worst => Sys2Proof.Machine.execVminProbeDone mv worst s
  | .laneSnap a lane bits errs => Sys2Proof.Machine.execLaneSnap a lane bits errs s
  | .laneClear a lane => Sys2Proof.Machine.execLaneClear a lane s
  | .loopbackSelect a lane loop => Sys2Proof.Machine.execLoopbackSelect a lane loop s
  | .patternSelect a lane pattern => Sys2Proof.Machine.execPatternSelect a lane pattern s
  | .generatorEnable a lane on => Sys2Proof.Machine.execGeneratorEnable a lane on s
  | .checkerEnable a lane on invert => Sys2Proof.Machine.execCheckerEnable a lane on invert s
  | .checkerLock lane => Sys2Proof.Machine.execCheckerLock lane s
  | .checkerLoss lane bits errs => Sys2Proof.Machine.execCheckerLoss lane bits errs s
  | .generatorsOn mask pattern => Sys2Proof.Machine.execGeneratorsOn mask pattern s
  | .generatorsOff mask => Sys2Proof.Machine.execGeneratorsOff mask s
  | .returnLaneChecker pattern durationMs => Sys2Proof.Machine.execReturnLaneChecker pattern durationMs s
  | .returnLaneCheckEnd => Sys2Proof.Machine.execReturnLaneCheckEnd s
  | .patternRun a layout pattern => Sys2Proof.Machine.execPatternRun a layout pattern s
  | .patternStop a => Sys2Proof.Machine.execPatternStop a s
  | .syntheticFrame n => Sys2Proof.Machine.execSyntheticFrame n s
  | .bistStart a groups => Sys2Proof.Machine.execBistStart a groups s
  | .bistDone group pass => Sys2Proof.Machine.execBistDone group pass s
  | .bypass => Sys2Proof.Machine.execBypass s
  | .idcode => Sys2Proof.Machine.execIdcode s
  | .samplePreload cells => Sys2Proof.Machine.execSamplePreload cells s
  | .extest => Sys2Proof.Machine.execExtest s
  | .extestPulse => Sys2Proof.Machine.execExtestPulse s
  | .extestTrain => Sys2Proof.Machine.execExtestTrain s
  | .clamp => Sys2Proof.Machine.execClamp s
  | .highz => Sys2Proof.Machine.execHighz s
  | .sysrst bootSel i2ca => Sys2Proof.Machine.execSysrst bootSel i2ca s
  | .ptest => Sys2Proof.Machine.execPtest s
  | .memap write addr size data => Sys2Proof.Machine.execMemap write addr size data s
  | .trstReset => Sys2Proof.Machine.execTrstReset s
  | .i2cTargetWrite x bytes => Sys2Proof.Machine.execI2cTargetWrite x bytes s
  | .i2cTargetRead x words => Sys2Proof.Machine.execI2cTargetRead x words s
  | .managementDatagram port ip write addr size data => Sys2Proof.Machine.execManagementDatagram port ip write addr size data s
  | .loReadLatch a addr => Sys2Proof.Machine.execLoReadLatch a addr s
  | .wideHiWrite a addr v => Sys2Proof.Machine.execWideHiWrite a addr v s
  | .rocRead a addr => Sys2Proof.Machine.execRocRead a addr s
  | .plyCounterClear a v => Sys2Proof.Machine.execPlyCounterClear a v s
  | .registerWrite a addr size data => Sys2Proof.Machine.execRegisterWrite a addr size data s
  | .packetDiscard p h cause => Sys2Proof.Machine.execPacketDiscard p h cause s
  | .sectorEraseDone ok => Sys2Proof.Machine.execSectorEraseDone ok s
  | .exposureStart n => Sys2Proof.Machine.execExposureStart n s
  | .delayReqDue => Sys2Proof.Machine.execDelayReqDue s
  | .avsTargetReached mv => Sys2Proof.Machine.execAvsTargetReached mv s
  | .refclkValid => Sys2Proof.Machine.execRefclkValid s
  | .retimerLock ringB => Sys2Proof.Machine.execRetimerLock ringB s

end Sys2Proof.Machine
end

