-- ==== Sys2Proof/Machine/Idle.lean ====
section
/-! DEFINITION. The passing of time: the TIM domain on an empty queue (12_whorls.md R410, R412, R434, R450;
notes/assumptions/3.md). -/

namespace Sys2Proof.Machine

/-- A servoed whorl after `n` TIM cycles: it advances once per cycle by its increment (R410). -/
def Servo.advance (v : Servo) (n : Nat) : Servo := { v with acc := (v.acc + n * v.inc) % accWrap }

/-- W7 after `n` TIM cycles. The phase stops one unit below the wrap: the wrap is the row W7_TURN (R451; log 3). -/
def W7.advance (w : W7) (n : Nat) : W7 :=
  if w.period = 0 then w
  else { w with phase := BitVec.ofNat 32 (min (2 ^ 32 - 1) (w.phase.toNat + n * 2 * 2 ^ 32 / w.period)) }

/-- Let `n` TIM cycles pass on every whorl. -/
def Dev.elapse (d : Dev) (n : Nat) : Dev :=
  d.onWhl fun w =>
    { w with tim := w.tim + n, servo := w.servo.map (fun v => v.advance n), w7 := w.w7.advance n }

/-- An idle step: `idleCycles` TIM cycles pass once the TIM domain has left reset (R412). -/
def idle (s : State) : State := s.run fun d => if d.released then d.elapse d.idleCycles else d

end Sys2Proof.Machine
end

