-- ==== Sys2Proof/Safety.lean ====
section
/-! DEFINITION. What counts as a sound state and a safe step of the block, and the frames that statements use. -/

namespace Sys2Proof.Machine

/-- The pins that follow the state show it (16 R552, R553; 03 R105). -/
def Dev.pinsFollow (d : Dev) : Prop :=
  d.pins.faultN = d.faultNLevel ∧ d.pins.alertN = d.alertNLevel ∧
    d.pins.bypHold = d.aon.tier.map (fun t => decide (t ≠ .bypass))

/-- Every summary bit whose standing condition holds is set (16 R552). -/
def Dev.standingShown (d : Dev) : Prop := ∀ p ∈ d.standing, p.2 = true → d.sys.fault.getLsbD p.1 = true

/-- The memories are canonical, the fault summary shows every standing condition and the pins show the state. -/
def State.Inv (s : State) : Prop := s.mem.wf = true ∧ s.dev.standingShown ∧ s.dev.pinsFollow

/-- A step answers a next state that keeps the invariant. -/
def SafeStep (s : State) : Prop := ∃ t, step s = .next t ∧ State.Inv t

/-- `e` with what a report and the pins that follow may have changed put back as `d` has it: SYS_FAULT_SUM, its event
records and counts, the mark that journal content changed, and FAULT_N, ALERT_N, BYPA_HOLD and BYPB_HOLD. -/
def Dev.unreport (e d : Dev) : Dev :=
  { e with
    sys := { e.sys with fault := d.sys.fault }
    jnl := { e.jnl with
      changed := d.jnl.changed
      history := { e.jnl.history with
        memCe := d.jnl.history.memCe, diagWrites := d.jnl.history.diagWrites, events := d.jnl.history.events,
        eventTotal := d.jnl.history.eventTotal } }
    pins := { e.pins with faultN := d.pins.faultN, alertN := d.pins.alertN, bypHold := d.pins.bypHold } }

/-- `e` with, beyond that, what every access leaves behind put back as `d` has it: the access log, a journal set it
asks for, and the answer. -/
def Dev.unaccess (e d : Dev) : Dev :=
  { e.unreport d with
    jnl := { (e.unreport d).jnl with
      log := d.jnl.log, logTotal := d.jnl.logTotal, logDropped := d.jnl.logDropped, unsaved := d.jnl.unsaved,
      due := d.jnl.due }
    bus := { e.bus with answer := d.bus.answer, lastErr := d.bus.lastErr } }

end Sys2Proof.Machine
end

