-- ==== Sys2Proof/WellFormed.lean ====
section
/-! DEFINITION. Which commands are well formed: every operand within the range its rule gives it. -/

namespace Sys2Proof

/-- An exposure entry fits its fields (11_ply_link.md R383). -/
def Exposure.wf (e : Exposure) : Bool :=
  decide (e.integ < 2 ^ 32) && decide (e.again < 2 ^ 16) && decide (e.dgain < 2 ^ 16)

/-- A whorl time fits the format of 12_whorls.md R410. -/
def WhorlTime.wf (t : WhorlTime) : Bool :=
  decide (t.sec < 2 ^ 64) && decide (t.ns < 1000000000) && decide (t.frac < 2 ^ 16) && decide (t.epoch < 2 ^ 16)

/-- A ring message: at most 256 payload bytes, the hop count in its byte (13_skein_ring.md R460, R461). -/
def RingMsg.wf (m : RingMsg) : Bool :=
  decide (m.payload.length ≤ 256) && decide (m.hops < 256) && decide (m.len ≤ 256)

/-- A TIME payload (13_skein_ring.md R468). -/
def TimeMsg.wf (t : TimeMsg) : Bool :=
  t.origin.wf && decide (t.hops < 256) && decide (t.quality < 256) && decide (t.seq < 2 ^ 32)

/-- An AUDIT payload (13_skein_ring.md R492). -/
def AuditToken.wf (t : AuditToken) : Bool :=
  decide (t.lap < 2 ^ 32) && decide (t.segment < 2 ^ 8) && decide (t.refLayout < 2 ^ 8) && decide (t.silent < 2 ^ 16) &&
    decide (t.refGen < 2 ^ 32) && decide (t.layoutMismatch < 2 ^ 32) && decide (t.nodes < 2 ^ 32) &&
    decide (t.mismatch < 2 ^ 32) && decide (t.lowest < 2 ^ 32) && decide (t.minGen < 2 ^ 32) &&
    decide (t.maxGen < 2 ^ 32) && decide (t.lowestLayout < 2 ^ 32)

/-- An access size of 18_registers.md R585. -/
def sizeOk (n : Nat) : Bool := decide (n = 1) || decide (n = 2) || decide (n = 4) || decide (n = 8)

/-- Every operand of the command lies in its range. Commands whose operand types already bound them carry no
condition. -/
def Instr.wf : Instr → Bool
  | .frameStoreTrained gib _ => decide (gib = 1) || decide (gib = 2) || decide (gib = 4) || decide (gib = 8)
  | .stageOpen _ len _ => decide (len < 2 ^ 32)
  | .stageGo _ _ count => decide (count ≤ 16384) && decide (count % 256 = 0)
  | .i2cData _ _ _ data => decide (data.length ≤ 36)
  | .syncResp _ _ _ t2 t3 => decide (t2 < 2 ^ 64) && decide (t3 < 2 ^ 64)
  | .skipSet _ n _ => decide (1 ≤ n) && decide (n ≤ 5)
  | .imageLine _ _ _ _ payload _ => decide (payload.length < 2 ^ 16)
  | .embeddedData _ _ _ entries _ => decide (entries.length ≤ 4) && entries.all Exposure.wf
  | .exposureReq _ _ _ _ e => e.wf
  | .hankVerify _ payload inputLen => payload.all (fun x => decide (x.length ≤ 65496)) && decide (inputLen < 2 ^ 32)
  | .blockSend _ bad _ => bad.all fun q => decide (64 ≤ q) && decide (q < 128) || decide (192 ≤ q) && decide (q < 196)
  | .announce m => decide (m.domain < 256)
  | .ringTransit _ m _ => m.wf
  | .ldlyReq _ m => m.wf
  | .ldlyResp x t2 t3 => decide (x.head.hops < 256) && decide (t2 < 2 ^ 64) && decide (t3 < 2 ^ 64)
  | .timeMsg x t _ => decide (x.head.hops < 256) && t.wf
  | .linkEvent x _ _ => decide (x.head.hops < 256)
  | .enumMsg x _ _ seg next count => decide (x.head.hops < 256) && decide (seg < 256) && decide (next ≤ 256) && decide (count ≤ 256)
  | .windowAccess _ write _ beats size data _ =>
      sizeOk size && decide (1 ≤ beats) && (!write || decide (data.length = beats * size))
  | .readReq _ m => m.wf
  | .writeReq _ m => m.wf
  | .postedWrite _ m => m.wf
  | .resp _ m => m.wf
  | .postedAck _ m => m.wf
  | .lateError _ m => m.wf
  | .bcastReq _ m => m.wf
  | .sweep _ m => decide (m.payload.length ≤ 272) && decide (m.hops < 256)
  | .bcastResp _ m => m.wf
  | .audit x _ _ t => decide (x.head.hops < 256) && t.wf
  | .conversionDone _ _ cycles => decide (1 ≤ cycles)
  | .chkData _ _ bytes => decide (1 ≤ bytes.length) && decide (bytes.length ≤ 4)
  | .dmaAccessFailure _ _ _ code _ => decide (code ≠ 0)
  | .thermalSample t => decide (t.length = 12)
  | .delayMonitorSample l => decide (l.length = 80)
  | .replanDone rows => rows.all fun r => decide (r.slacks.length = 80)
  | .eyeScanDone l => decide (l.length = 22)
  | .returnLaneChecker _ ms => decide (1 ≤ ms) && decide (ms < 2 ^ 32)
  | .memap _ _ size _ => sizeOk size
  | .managementDatagram _ _ _ _ size _ => sizeOk size
  | .registerWrite _ _ size _ => sizeOk size
  | .powerOnReset | .powerOnResetRelease | .brownOut | .porstAssert | .porstRelease ..
  | .imageLoadDone | .softwareReset .. | .pllFailure | .pairPendingWrite .. | .modeRequest ..
  | .shutdownDrained | .warmupTimeout | .nvmPin .. | .nodePin .. | .w6Preset .. | .windowCommit ..
  | .journalPeriodicDue | .journalSetWrite | .journalSetProgrammed .. | .powerFailRecovered
  | .stageEraseDone .. | .stageProgramDone .. | .stageCommit .. | .stageCommitDone .. | .stageTimeout
  | .linkCfgRepeat .. | .creelTs1Received .. | .equaliserAdapted .. | .laneTrained ..
  | .trainingAttemptTimeout .. | .trainingRetry .. | .lossOfLock .. | .requestReplyTimeout ..
  | .syncReqDue .. | .controlAck .. | .gpioState .. | .headStatus .. | .abortedPacket ..
  | .frameStart .. | .frameEnd .. | .frameCloseTimeout .. | .busyTimeout .. | .lineStart ..
  | .lineEnd .. | .genericShortPacket .. | .nullBlankingPacket .. | .unknownPacket ..
  | .exposureAssemblyTimeout .. | .exposureRequestGo .. | .crlExpresPop .. | .writeWindowOpen ..
  | .trigInEdge .. | .odometerEdge .. | .markCommit .. | .odoZEdge | .tileDispatch | .tileComplete ..
  | .tileFailure .. | .tileWatchdog .. | .selfTestDone .. | .bandHandover .. | .bobPop ..
  | .bobDrop .. | .ownershipAudit .. | .patrolScrub .. | .hankLaneFrameStart .. | .hankFrameAbandon ..
  | .plyTrained .. | .plyTrainingTimeout .. | .laneStatus .. | .arbiterLaneWithdraw .. | .ack ..
  | .nak .. | .ackTimeout | .returnLaneLockLoss | .laneRetrainRetry .. | .returnMessageDiscard
  | .layoutReq .. | .alignmentMarker | .skipSetDue .. | .healthPacketDue
  | .frameEndSend .. | .repeatSlot .. | .warmingSlot .. | .scheduledAction .. | .saqAdd ..
  | .saqRemove .. | .saqRead .. | .snapshot .. | .sampleSubmit .. | .whorlLossTimeout ..
  | .announceReceiptTimeout | .sync .. | .followUp .. | .delayResp .. | .pdelayReq .. | .pdelayResp ..
  | .pdelayRespFollowUp .. | .ptpDiscard | .ethTsqPop .. | .ppsInEdge | .ppsOutPulse
  | .w7PhaseCorrection .. | .w7Turn | .w7LockLoss | .ringPortUp .. | .ringPortLoss ..
  | .ringPortRetry .. | .ldlySend .. | .timeOriginate | .enumSend ..
  | .responseTimeout .. | .fenceRead .. | .fenceDrained .. | .leqPop .. | .broadcastGo ..
  | .junctionBroadcastWait | .broadcastTimeout | .lstageWrite .. | .lactWrite .. | .auditLaunch ..
  | .comparatorCrossing .. | .blankingEnd .. | .tripReenable .. | .converterStart .. | .resultRead ..
  | .dmaResultRead .. | .dmaStart .. | .dmaResume .. | .dmaAbort .. | .dmaServiceStart
  | .dmaServiceDone .. | .chkRestart .. | .faultSumClear .. | .faultSet ..
  | .watchdogService .. | .coreWatchdogExpiry .. | .avsTimeout | .minuteTick | .replan ..
  | .eyeScan .. | .vminProbe .. | .vminProbeDone .. | .laneSnap .. | .laneClear ..
  | .loopbackSelect .. | .patternSelect .. | .generatorEnable .. | .checkerEnable .. | .checkerLock ..
  | .checkerLoss .. | .generatorsOn .. | .generatorsOff .. | .returnLaneCheckEnd | .patternRun ..
  | .patternStop .. | .syntheticFrame .. | .bistStart .. | .bistDone .. | .bypass | .idcode
  | .samplePreload .. | .extest | .extestPulse | .extestTrain | .clamp | .highz | .sysrst .. | .ptest
  | .trstReset | .i2cTargetWrite .. | .i2cTargetRead .. | .loReadLatch .. | .wideHiWrite ..
  | .rocRead .. | .plyCounterClear .. | .packetDiscard .. | .sectorEraseDone .. | .exposureStart ..
  | .delayReqDue | .avsTargetReached .. | .refclkValid | .retimerLock .. => true

end Sys2Proof
end

