-- ==== Sys2Proof/Certificates/Slice0/Obligations.lean ====
section
/-! DEFINITION. The statements about the block. A statement about a write access speaks of every master: `accepts` is R589 with
the table of R559, and `unaccess` puts back what every access leaves behind (the log of R560, DIAG_WRITE, the answer). -/

open Sys2Proof Sys2Proof.Machine

/-- The next state of the front command is that of the command run on the queue's rest. -/
def Obligations.StepRunsFrontCommand : Prop :=
  ∀ (c : Instr) (rest : List Instr) (s : State), s.pending = c :: rest → step s = exec c { s with pending := rest }

/-- Every command is executed and leaves the queue of waiting commands as it finds it. -/
def Obligations.EveryCommandCompletes : Prop :=
  ∀ (c : Instr) (s : State), ∃ t, exec c s = .next t ∧ t.pending = s.pending

/-- On an empty queue time passes and nothing else happens (the model's choice, log 3): before the TIM domain has left reset
nothing at all, afterwards W0 advances by `idleCycles` TIM cycles, W1 to W5 by as many increments each. -/
def Obligations.EmptyQueueLetsTimePass : Prop :=
  ∀ s : State, s.pending = [] → s.Inv →
    (s.dev.released = false → step s = .next s) ∧
    (s.dev.released = true → ∃ t, step s = .next t ∧ t.pending = [] ∧ t.mem = s.mem ∧
      t.dev.w0 = s.dev.w0 + 2 * s.dev.idleCycles ∧
      (∀ n : Fin 5, (t.dev.whl.servo[n]).acc =
        ((s.dev.whl.servo[n]).acc + s.dev.idleCycles * (s.dev.whl.servo[n]).inc) % accWrap) ∧
      { t.dev with whl := s.dev.whl } = s.dev)

/-- What a power-on reset leaves, as the spec gives it: the cause register holds POWERON alone, mode STANDBY, no active layout, no
layout request, FAULT_N low and ALERT_N released, no summary bit, POC_EN low, whorls W1 to W5 at their nominal increment. -/
def Obligations.ResetValues : Prop :=
  let d := State.reset.dev
  State.reset.pending = [] ∧ d.aon.cause = 1 ∧ d.sys.mode = .standby ∧ d.sys.activeLayout = 0xFF ∧
    d.sys.layoutReqResult = 0xFF ∧ d.sys.fault = 0 ∧ d.sys.cpairErr = 0 ∧ d.pins.faultN = false ∧ d.pins.alertN = true ∧
    d.pins.pocEn = 0 ∧ (∀ r : Fin 2, d.pins.bypHold[r] = false) ∧ d.whl.tim = 0 ∧ d.whl.w6.pos = 0 ∧
    (∀ n : Fin 5, (d.whl.servo[n]).inc = 0x20000000000) ∧ (∀ u : Fin 24, (d.chk[u]).cfg = 0)

/-- The state after reset meets the invariant. -/
def Obligations.ResetMeetsInvariant : Prop := State.reset.Inv

/-- THE INVARIANT OF THE BLOCK. Every step, from every state that meets it, answers a next state that meets it: the memories keep
their canonical form, SYS_FAULT_SUM shows every condition that stands (a cleared bit whose condition still holds is set again),
FAULT_N is low exactly while a FAULT-class bit is set, the start path does not run or the reference clock fails, ALERT_N is
low exactly while an ALERT-class bit is set outside reset, and BYPA_HOLD and BYPB_HOLD are high exactly while the ring's
switch is open. -/
def Obligations.InvariantKept : Prop :=
  ∀ s t : State, s.Inv → step s = .next t → t.Inv

/-- A write access that R589 or R559 does not take is answered with ADDR_ERR and leaves every register and memory but the access
log, DIAG_WRITE counts and the answer as it was: here FAULT_SUM_CLEAR, FAULT_SET, MODE_REQUEST, NVM_PIN, CONVERTER_START,
CHK_RESTART, BROADCAST_GO. -/
def Obligations.RefusedWriteChangesNothing : Prop :=
  ∀ (s : State) (a : Access) (v : Word) (u : Fin 24) (off : Nat) (c : Instr),
    (c, off) ∈ [(.faultSumClear a v, 0x20), (.faultSet a v, 0x24), (.modeRequest a v, 0xC), (.nvmPin a v, 0x50014),
      (.converterStart a v, 0x60000), (.chkRestart a u v, 0x80024 + 0x40 * u.val), (.broadcastGo a v, 0x3010C)] →
    s.dev.accepts a (regAddr off) v = false →
    ∃ t, exec c s = .next t ∧ t.dev.bus.answer = some ⟨a.master, 2, 0, 0⟩ ∧ t.dev.unaccess s.dev = s.dev ∧ t.mem = s.mem
/-- Reset sources (R81). A power-on reset resets everything; a brown-out everything but the AON domain, whose cause register gains its
bit and whose switches close (R108); PORST_N everything but the AON domain, the ring lanes and the retimer. The NVM
keeps its contents. -/
def Obligations.ResetSources : Prop :=
  ∀ s : State,
    (∃ t, exec .powerOnReset s = .next t ∧ t.pending = s.pending ∧ t.mem = { Mem.reset with nvm := s.mem.nvm } ∧
      t.dev = { Dev.reset with
        freeIdx := s.dev.freeIdx, idleCycles := s.dev.idleCycles,
        nvm := { Nvm.reset with sfdp := s.dev.nvm.sfdp, sizeMiB := s.dev.nvm.sizeMiB } }) ∧
    (∃ t, exec .brownOut s = .next t ∧ t.pending = s.pending ∧ t.mem = { Mem.reset with nvm := s.mem.nvm } ∧
      t.dev = { Dev.reset with
        freeIdx := s.dev.freeIdx, idleCycles := s.dev.idleCycles,
        aon := { s.dev.aon with phase := .powerReset, cause := s.dev.aon.cause ||| 0b00010,
                                tier := Vector.replicate 2 .bypass, fromBrownOut := true },
        sys := { Sys.reset with fault := s.dev.sys.fault },
        nvm := { Nvm.reset with sfdp := s.dev.nvm.sfdp, sizeMiB := s.dev.nvm.sizeMiB } }) ∧
    (s.dev.aon.phase ≠ .powerReset →
      ∃ t, exec .porstAssert s = .next t ∧ t.pending = s.pending ∧ t.mem = { Mem.reset with nvm := s.mem.nvm } ∧
        t.dev = { Dev.reset with
          freeIdx := s.dev.freeIdx, idleCycles := s.dev.idleCycles,
          aon := { s.dev.aon with
            phase := .reset, cause := s.dev.aon.cause ||| 0b00100, tier := s.dev.aon.tier.map (heldTier s.dev.aon.refclk) },
          pins := { Pins.reset with
            bypHold := (s.dev.aon.tier.map (heldTier s.dev.aon.refclk)).map fun x => decide (x ≠ .bypass) },
          sys := { Sys.reset with fault := s.dev.sys.fault },
          nvm := { Nvm.reset with sfdp := s.dev.nvm.sfdp, sizeMiB := s.dev.nvm.sizeMiB },
          skn := { Skn.reset with ports := s.dev.skn.ports }, jtag := s.dev.jtag })

/-- The order that brings each ring into the retimer tier (R105, R106), and a failure of the clock (R551, R553). The release of
the power-on reset and REFCLK, whichever comes later, open a closed ring: BYPx_HOLD goes high. Both receivers locked put it in the
retimer tier, in a running state in full participation. A PLL failure sets CLOCK and drives FAULT_N low. -/
def Obligations.RetimerBringUp : Prop :=
  ∀ s : State, s.Inv →
    (s.dev.aon.phase = .powerReset → s.dev.aon.refclk = true →
      ∃ t, exec .powerOnResetRelease s = .next t ∧ t.dev.aon.phase = .reset ∧ t.mem = s.mem ∧
        (∀ r : Fin 2, t.dev.aon.tier[r] = if s.dev.aon.tier[r] = .bypass then .opening else s.dev.aon.tier[r]) ∧
        (∀ r : Fin 2, t.dev.pins.bypHold[r] = true) ∧ { t.dev.unreport s.dev with aon := s.dev.aon } = s.dev) ∧
    (s.dev.aon.phase ≠ .powerReset → s.dev.skn.stopped = false →
      ∃ t, exec .refclkValid s = .next t ∧ t.dev.aon.refclk = true ∧ t.mem = s.mem ∧
        (∀ r : Fin 2, t.dev.aon.tier[r] = if s.dev.aon.tier[r] = .bypass then .opening else s.dev.aon.tier[r]) ∧
        (∀ r : Fin 2, t.dev.pins.bypHold[r] = true) ∧ { t.dev.unreport s.dev with aon := s.dev.aon } = s.dev) ∧
    (∀ b : Bool, s.dev.aon.tier[ringIx b] = .opening →
      ∃ t, exec (.retimerLock b) s = .next t ∧ t.mem = s.mem ∧ t.dev.skn.retimerSeen = true ∧
        t.dev.aon.tier[ringIx b] = (if s.dev.pathRuns then .full else .retimer) ∧
        t.dev.aon.tier[ringIx (!b)] = s.dev.aon.tier[ringIx (!b)] ∧
        { t.dev.unreport s.dev with aon := s.dev.aon, skn := { t.dev.skn with retimerSeen := s.dev.skn.retimerSeen } } = s.dev) ∧
    (s.dev.released = true →
      ∃ t, exec .pllFailure s = .next t ∧ t.mem = s.mem ∧ t.dev.aon.refclk = false ∧ t.dev.sys.fault.getLsbD 4 = true ∧
        t.dev.pins.faultN = false ∧ { t.dev.unreport s.dev with aon := s.dev.aon } = s.dev)

/-- The rising edge of PORST_N (R82, R86 steps 1 to 5, R83): the straps are sampled, W0 starts at 0, core 3 alone runs, and the
NVM gets its reset pair and the SFDP read and, where it is usable, is switched to 8D-8D-8D mode (R45). With BOOT_SEL 0b10 Production Test begins, with 0b11 the ROM safe personality; with 0b00 and 0b01 a bank
in the R59 order is loaded, and the ROM safe personality runs where there is none, with FAULT_N low. -/
def Obligations.StartPath : Prop :=
  ∀ (s : State) (b c : BitVec 2), s.Inv → s.dev.aon.phase = .reset →
    ∃ t, exec (.porstRelease b c) s = .next t ∧ t.mem = s.mem ∧ t.pending = s.pending ∧
      t.dev.aon.bootSel = b ∧ t.dev.aon.i2ca = c ∧ t.dev.aon.refclk = true ∧ t.dev.w0 = 0 ∧
      (∀ k : Fin 4, t.dev.sys.coreRun[k] = if k = 3 then true else s.dev.sys.coreRun[k]) ∧
      (b = 2 → t.dev.aon.phase = .production ∧ t.dev.sys.mode = .production) ∧
      (b = 3 → t.dev.aon.phase = .romSafe ∧ t.dev.sys.fault.getLsbD 28 = true) ∧
      (b = 0 ∨ b = 1 →
        if ((s.dev.banks s.mem).selectBank (s.mem.scanJournal s.dev.nvm.fitted).1.pin none).2.isSome
        then t.dev.aon.phase = .loading
        else t.dev.aon.phase = .romSafe ∧ t.dev.sys.fault.getLsbD 0 = true ∧ t.dev.pins.faultN = false) ∧
      t.dev.nvm.mode = (if s.dev.nvm.fitted then .octal else .single) ∧
      t.dev.nvm.issued.take 3 = [⟨.single, 0x66, []⟩, ⟨.single, 0x99, []⟩, ⟨.single, 0x5A, []⟩] ∧
      t.dev.img = s.dev.img ∧ t.dev.ports = s.dev.ports ∧ t.dev.strands = s.dev.strands ∧ t.dev.ply = s.dev.ply ∧
      t.dev.dma = s.dev.dma ∧ t.dev.bob = s.dev.bob ∧ t.dev.fst = s.dev.fst ∧ t.dev.lay = s.dev.lay

/-- Frame store training and the end of the image load (R86 steps 5 and 6, R328). Training records its result once; it judges the
banks again with the usable capacity only while the image loads. The load ends in the running state with the booted image
in force; a shutdown accepted before it ends the start instead. -/
def Obligations.ImageLoad : Prop :=
  ∀ s : State, s.Inv →
    (∀ (gib : Nat) (ok : Bool), s.dev.released = true → s.dev.fst.trained = false → s.dev.aon.phase ≠ .loading →
      ∃ t, exec (.frameStoreTrained gib ok) s = .next t ∧ t.mem = s.mem ∧ t.dev.fst.gib = gib ∧ t.dev.fst.trained = ok ∧
        { t.dev with fst := s.dev.fst } = s.dev) ∧
    (∀ (gib : Nat) (ok : Bool), s.dev.fst.trained = true → exec (.frameStoreTrained gib ok) s = .next s) ∧
    (s.dev.aon.phase = .loading → s.dev.sys.mode ≠ .shutdown → s.dev.fst.trained = true → s.dev.nvm.booted ≠ 0 →
      ∃ t, exec .imageLoadDone s = .next t ∧ t.mem = s.mem ∧ t.pending = s.pending ∧ t.dev.aon.phase = .running ∧
        t.dev.img = some (((s.dev.banks s.mem).bank (decide (s.dev.nvm.booted = 2))).image (decide (s.dev.nvm.booted = 2))) ∧
        (∀ r : Fin 2, t.dev.aon.tier[r] = if s.dev.aon.tier[r] = .retimer then .full else s.dev.aon.tier[r]))

/-- SYS_SWRST and the JTAG system reset (R81, R82, R592): a commit of 1 from a diagnostic path resets the device and samples the
straps; a commit from a core or the DMA answers ADDR_ERR and changes nothing. -/
def Obligations.SoftwareAndJtagReset : Prop :=
  ∀ (s : State) (b c : BitVec 2), s.Inv → s.dev.released = true →
    (∀ (a : Access) (v : Word), a.master.diag = true → s.dev.pairs.swrst.pending.getLsbD 0 = true →
      v = ~~~s.dev.pairs.swrst.pending →
      ∃ t, exec (.softwareReset a v b c) s = .next t ∧ t.dev.aon.cause = s.dev.aon.cause ||| 0b01000 ∧
        t.dev.aon.bootSel = b ∧ t.dev.aon.i2ca = c ∧ t.dev.w0 = 0 ∧ t.dev.strands = Vector.replicate 64 Strand.reset ∧
        t.dev.skn.ports = s.dev.skn.ports ∧ t.mem = { Mem.reset with nvm := s.mem.nvm } ∧
        t.dev.bus.answer = some ⟨a.master, 0, 0, 0⟩) ∧
    (∀ (a : Access) (v : Word), a.master.diag = false → v = ~~~s.dev.pairs.swrst.pending →
      ∃ t, exec (.softwareReset a v b c) s = .next t ∧ t.dev.unaccess s.dev = s.dev ∧ t.mem = s.mem ∧
        t.dev.bus.answer = some ⟨a.master, 2, 0, 0⟩) ∧
    (∃ t, exec (.sysrst b c) s = .next t ∧ t.dev.aon.cause = s.dev.aon.cause ||| 0b10000 ∧ t.dev.aon.bootSel = b ∧
      t.dev.aon.i2ca = c ∧ t.dev.w0 = 0 ∧ t.dev.strands = Vector.replicate 64 Strand.reset ∧
      t.dev.skn.ports = s.dev.skn.ports ∧ t.mem = { Mem.reset with nvm := s.mem.nvm })
/-- The offsets in register space of the LO words (18_registers.md): retired spindles, ring and DMA RESCUE data, W6 with its index value,
preset and complement, SNAP6 and SNAP7, DUE and PERIOD of the scheduled actions, ply down reasons, shed streams and record
strands, pattern mask; the captures of W0 to W5 (SNAPn), ARG1 of the scheduled actions; the stress sums, the increments of W0 to W5, the scan lists, the parameters and results of the check units, the bit
counts of the lanes under test. -/
def loOffsets : List Nat :=
  [0x10010, 0x3006C, 0x70808, 0x20300, 0x20310, 0x20320, 0x20328, 0x20460, 0x20468, 0x20814, 0x20820, 0x600014, 0x600040,
    0x600048, 0x700018, 0x2082C] ++ (List.range 6).map (fun n => 0x20400 + 0x10 * n) ++
  (List.range 12).map (fun n => 0x10200 + 8 * n) ++ (List.range 6).map (fun n => 0x20110 + 0x40 * n) ++ (List.range 4).map (fun n => 0x60108 + 0x10 * n) ++
  (List.range 24).flatMap (fun n => [0x08, 0x10, 0x18, 0x28].map fun k => 0x80000 + 0x40 * n + k) ++
  (List.range 30).map (fun n => 0x700104 + 0x20 * n)

/-- A 64-bit value is a LO/HI pair. A read of the LO word by any master answers its low half, latches the high half for that master and
leaves everything else, other masters' latches included, as it was; the master's next read of HI answers the latched half. -/
def Obligations.LoReadLatchesHi : Prop :=
  ∀ (s : State) (a b : Access) (off : Nat) (x : DWord), s.dev.released = true → off ∈ loOffsets →
    s.dev.view a.master off = .lo x →
    ∃ t, exec (.loReadLatch a (regAddr off)) s = .next t ∧ t.mem = s.mem ∧
      t.dev.bus.answer = some ⟨a.master, 0, 0, (loWord x).zeroExtend 64⟩ ∧
      heldAt t.dev.bus.hi a.master (off + 4) = some (hiWord x) ∧
      (∀ m k, ¬ (m = a.master ∧ k = off + 4) → heldAt t.dev.bus.hi m k = heldAt s.dev.bus.hi m k) ∧
      { t.dev.unaccess s.dev with bus := s.dev.bus } = s.dev ∧
      ∃ u, exec (.loReadLatch { b with master := a.master } (regAddr (off + 4))) t = .next u ∧
        u.dev.bus.answer = some ⟨a.master, 0, 0, (hiWord x).zeroExtend 64⟩

/-- A HI write commits both halves in one step: the low half is the one the same master holds, without one the current low half
(here DUE, PERIOD and ARG1/ARG2 of the master's scheduled-action registers and the pattern mask). A LO write is held for its master
and commits nothing. -/
def Obligations.WideWriteCommitsBothHalves : Prop :=
  ∀ (s : State) (a : Access) (v : Word), s.dev.released = true →
    (∀ off, off ∈ [0x20814, 0x20820, 0x2082C] →
      ∃ t, exec (.registerWrite a (regAddr off) 4 (v.zeroExtend 64)) s = .next t ∧ t.mem = s.mem ∧
        heldAt t.dev.bus.lo a.master off = some v ∧ { t.dev.unaccess s.dev with bus := s.dev.bus } = s.dev) ∧
    (let r := s.dev.whl.saqRegs[a.master.ix]
      ∀ (off : Nat) (x : SaqRegs),
        (off, x) ∈ [
          (0x20814, { r with dueHi := v, dueLo := (heldAt s.dev.bus.lo a.master 0x20814).getD r.dueLo }),
          (0x20820, { r with periodHi := v, periodLo := (heldAt s.dev.bus.lo a.master 0x20820).getD r.periodLo }),
          (0x2082C, { r with arg2 := v, arg1 := (heldAt s.dev.bus.lo a.master 0x2082C).getD r.arg1 })] →
        ∃ t, exec (.wideHiWrite a (regAddr (off + 4)) v) s = .next t ∧ t.mem = s.mem ∧
          t.dev.whl.saqRegs = upd s.dev.whl.saqRegs a.master.ix (fun _ => x) ∧ heldAt t.dev.bus.lo a.master off = none ∧
          { t.dev.unaccess s.dev with bus := s.dev.bus, whl := { t.dev.whl with saqRegs := s.dev.whl.saqRegs } } = s.dev) ∧
    (s.dev.sys.mode = .production →
      ∃ t, exec (.wideHiWrite a (regAddr 0x70001C) v) s = .next t ∧ t.mem = s.mem ∧
        t.dev.tst.patMask = v ++ (heldAt s.dev.bus.lo a.master 0x700018).getD (loWord s.dev.tst.patMask) ∧
        { t.dev.unaccess s.dev with bus := s.dev.bus, tst := { t.dev.tst with patMask := s.dev.tst.patMask } } = s.dev)

/-- Single accesses to registers and to the control SRAM (R584 to R586, R8). DMA_ERRSUM answers its counts and is cleared by the read of a
core or the DMA, not by that of a diagnostic path (R12, R558);
PLY_CNT_CLR bit 0 zeroes the five ply counters; SKN_WINn keeps its fields; a write of 1, 2, 4 or 8 aligned bytes changes exactly
those bytes of the control SRAM; a write of any other size, or to an unlisted word, changes nothing and answers ADDR_ERR. -/
def Obligations.SingleRegisterAccesses : Prop :=
  ∀ (s : State) (a : Access), s.dev.released = true →
    (∃ t, exec (.rocRead a (regAddr 0x70810)) s = .next t ∧ t.mem = s.mem ∧
      (if a.master.diag then t.dev.dma.ovfCount = s.dev.dma.ovfCount ∧ t.dev.dma.startIgn = s.dev.dma.startIgn
        else t.dev.dma.ovfCount = 0 ∧ t.dev.dma.startIgn = 0) ∧
      t.dev.bus.answer = some ⟨a.master, 0, 0,
        (BitVec.ofNat 32 (s.dev.dma.ovfCount * 2 ^ 16 + s.dev.dma.startIgn)).zeroExtend 64⟩ ∧
      { t.dev.unaccess s.dev with
          dma := { t.dev.dma with ovfCount := s.dev.dma.ovfCount, startIgn := s.dev.dma.startIgn } } = s.dev) ∧
    (∀ v : Word, s.dev.accepts a (regAddr 0x600060) v = true →
      ∃ t, exec (.plyCounterClear a v) s = .next t ∧ t.mem = s.mem ∧
        t.dev.ply.counts = (if v.getLsbD 0 then Vector.replicate 5 0 else s.dev.ply.counts) ∧
        { t.dev.unaccess s.dev with ply := { t.dev.ply with counts := s.dev.ply.counts } } = s.dev) ∧
    (∀ (n : Fin 16) (v : Word),
      ∃ t, exec (.registerWrite a (regAddr (0x30000 + 4 * n.val)) 4 (v.zeroExtend 64)) s = .next t ∧ t.mem = s.mem ∧
        t.dev.skn.win = upd s.dev.skn.win n (fun _ => v &&& 0xF0FFFFFF) ∧
        { t.dev.unaccess s.dev with skn := { t.dev.skn with win := s.dev.skn.win } } = s.dev) ∧
    (∀ (off size : Nat) (x : DWord), sizeOk size = true → off % size = 0 → off < 0x100000 →
      s.dev.accepts a (regAddr (0x800000 + off)) (x.truncate 32) = true →
      ∃ t, exec (.registerWrite a (regAddr (0x800000 + off)) size x) s = .next t ∧ t.dev.unaccess s.dev = s.dev ∧
        (∀ k, k < size → Memory.read 0 t.mem.sram (off + k) = BitVec.ofNat 8 (x.toNat >>> (8 * k))) ∧
        (∀ k, k < off ∨ off + size ≤ k → Memory.read 0 t.mem.sram k = Memory.read 0 s.mem.sram k) ∧
        { t.mem with sram := s.mem.sram } = s.mem) ∧
    (∀ (off : Nat) (v : Word), off % 4 = 0 → off < 0x50000 → s.dev.listed a.master off = false →
      ∃ t, exec (.registerWrite a (regAddr off) 4 (v.zeroExtend 64)) s = .next t ∧ t.mem = s.mem ∧
        t.dev.bus.answer = some ⟨a.master, 2, 0, 0⟩ ∧ t.dev.unaccess s.dev = s.dev) ∧
    (∀ (off : Nat) (x : DWord), off < 0x50000 →
      ∃ t, exec (.registerWrite a (regAddr off) 8 x) s = .next t ∧ t.mem = s.mem ∧
        t.dev.bus.answer = some ⟨a.master, 2, 0, 0⟩ ∧ t.dev.unaccess s.dev = s.dev)

/-- While a broadcast is in flight a GO is ignored and counted, and writes of DEST, ADDR, LEN and DATA return ADDR_ERR and change
nothing of it. -/
def Obligations.BroadcastBusyWrites : Prop :=
  ∀ (s : State) (a : Access) (v : Word), s.dev.released = true → s.dev.skn.bcBusy = true →
    (v.getLsbD 0 = true →
      ∃ t, exec (.broadcastGo a v) s = .next t ∧ t.mem = s.mem ∧ t.dev.skn.bcIgnored = satAdd s.dev.skn.bcIgnored 1 ∧
        { t.dev.unaccess s.dev with skn := { t.dev.skn with bcIgnored := s.dev.skn.bcIgnored } } = s.dev) ∧
    (∀ off, off ∈ [0x30100, 0x30104, 0x30108] ∨ (0x30200 ≤ off ∧ off < 0x30300 ∧ off % 4 = 0) →
      ∃ t, exec (.registerWrite a (regAddr off) 4 (v.zeroExtend 64)) s = .next t ∧ t.mem = s.mem ∧
        t.dev.bus.answer = some ⟨a.master, 2, 0, 0⟩ ∧ t.dev.unaccess s.dev = s.dev)

/-- A write of X sets the pending value of its pair and nothing else; reserved fields read as zero, the halves of WHL_W6_PRESET are held
and joined as a LO/HI pair.
A write of X_C that is not the complement of the pending value is rejected: the committed value stays, the pending value is the
committed one again, SYS_CPAIR_ERR is set, and the access still answers OK. -/
def Obligations.PairPendingAndRejections : Prop :=
  ∀ (s : State) (a : Access) (v : Word), s.dev.released = true →
    (∀ (r : PairReg) (q : Pairs), s.dev.accepts a (regAddr (pairOff r)) v = true →
      (r, q) ∈ [(.modeReq, { s.dev.pairs with modeReq := ⟨s.dev.pairs.modeReq.committed, v &&& 0x00010F07⟩ }),
        (.swrst, { s.dev.pairs with swrst := ⟨s.dev.pairs.swrst.committed, v &&& 1⟩ }),
        (.nvmPin, { s.dev.pairs with nvmPin := ⟨s.dev.pairs.nvmPin.committed, v &&& 3⟩ }),
        (.sknPinA, { s.dev.pairs with sknPinA := ⟨s.dev.pairs.sknPinA.committed, v &&& 0xFFFF⟩ }),
        (.sknPinB, { s.dev.pairs with sknPinB := ⟨s.dev.pairs.sknPinB.committed, v &&& 0xFFFF⟩ })] →
      ∃ t, exec (.pairPendingWrite a r v) s = .next t ∧ t.mem = s.mem ∧ t.dev.pairs = q ∧
        { t.dev.unaccess s.dev with pairs := s.dev.pairs } = s.dev) ∧
    (∀ n : Fin 24, ∃ t, exec (.pairPendingWrite a (.snsWin n) v) s = .next t ∧ t.mem = s.mem ∧
        t.dev.pairs = { s.dev.pairs with win := upd s.dev.pairs.win n fun p => ⟨p.committed, v⟩ } ∧
        { t.dev.unaccess s.dev with pairs := s.dev.pairs } = s.dev) ∧
    (∃ t, exec (.pairPendingWrite a .w6Lo v) s = .next t ∧ t.mem = s.mem ∧ t.dev.pairs = s.dev.pairs ∧
        heldAt t.dev.bus.lo a.master 0x20320 = some v ∧ { t.dev.unaccess s.dev with bus := s.dev.bus } = s.dev) ∧
    (∃ t, exec (.pairPendingWrite a .w6Hi v) s = .next t ∧ t.mem = s.mem ∧
        t.dev.pairs = { s.dev.pairs with w6 := ⟨s.dev.pairs.w6.committed,
          v ++ (heldAt s.dev.bus.lo a.master 0x20320).getD (loWord s.dev.pairs.w6.committed)⟩ } ∧
        { t.dev.unaccess s.dev with pairs := s.dev.pairs, bus := s.dev.bus } = s.dev) ∧
    (∀ n : Fin 24, v ≠ ~~~(s.dev.pairs.win[n]).pending →
      ∃ t, exec (.windowCommit a n v) s = .next t ∧ t.mem = s.mem ∧ t.dev.sys.cpairErr.getLsbD 31 = true ∧
        t.dev.pairs = { s.dev.pairs with win := upd s.dev.pairs.win n fun p => ⟨p.committed, p.committed⟩ } ∧
        t.dev.bus.answer = some ⟨a.master, 0, 0, 0⟩ ∧
        { t.dev.unaccess s.dev with
          pairs := s.dev.pairs, sys := { (t.dev.unaccess s.dev).sys with cpairErr := s.dev.sys.cpairErr } } = s.dev) ∧
    (v ≠ ~~~s.dev.pairs.nvmPin.pending → s.dev.accepts a (regAddr 0x50014) v = true →
      ∃ t, exec (.nvmPin a v) s = .next t ∧ t.mem = s.mem ∧ t.dev.sys.cpairErr.getLsbD 31 = true ∧
        t.dev.pairs = { s.dev.pairs with nvmPin := ⟨s.dev.pairs.nvmPin.committed, s.dev.pairs.nvmPin.committed⟩ } ∧
        t.dev.bus.answer = some ⟨a.master, 0, 0, 0⟩ ∧
        { t.dev.unaccess s.dev with
          pairs := s.dev.pairs, sys := { (t.dev.unaccess s.dev).sys with cpairErr := s.dev.sys.cpairErr } } = s.dev) ∧
    (v ≠ ~~~s.dev.pairs.modeReq.pending →
      ∃ t, exec (.modeRequest a v) s = .next t ∧ t.mem = s.mem ∧ t.dev.sys.cpairErr.getLsbD 31 = true ∧
        t.dev.pairs = { s.dev.pairs with modeReq := ⟨s.dev.pairs.modeReq.committed, s.dev.pairs.modeReq.committed⟩ } ∧
        t.dev.bus.answer = some ⟨a.master, 0, 0, 0⟩ ∧
        { t.dev.unaccess s.dev with
          pairs := s.dev.pairs, sys := { (t.dev.unaccess s.dev).sys with cpairErr := s.dev.sys.cpairErr } } = s.dev)
/-- A write of X_C that is the complement of the pending value commits it, answers OK and acts (R592): a window is in force, NVM_PIN
names the bank of the next start (code 3 names none: the model's choice, log 16), a node ID goes to the journal and leaves
the ID in force, a pin or node ID that changes asks for a journal set, W6 takes the preset and every mode 3 strand is
re-armed, a mode request is counted and answered, and one for Standby that is accepted is served at once. -/
def Obligations.PairCommits : Prop :=
  ∀ (s : State) (a : Access), s.dev.released = true →
    (∀ n : Fin 24, ∃ t, exec (.windowCommit a n (~~~(s.dev.pairs.win[n]).pending)) s = .next t ∧ t.mem = s.mem ∧
      t.dev.pairs = { s.dev.pairs with win := upd s.dev.pairs.win n fun p => ⟨p.pending, p.pending⟩ } ∧
      t.dev.bus.answer = some ⟨a.master, 0, 0, 0⟩ ∧ { t.dev.unaccess s.dev with pairs := s.dev.pairs } = s.dev) ∧
    (s.dev.accepts a (regAddr 0x50014) (~~~s.dev.pairs.nvmPin.pending) = true →
      ∃ t, exec (.nvmPin a (~~~s.dev.pairs.nvmPin.pending)) s = .next t ∧ t.mem = s.mem ∧
        t.dev.jnl.pin = (if s.dev.pairs.nvmPin.pending.toNat % 4 = 3 then s.dev.jnl.pin
          else s.dev.pairs.nvmPin.pending.toNat % 4) ∧
        (t.dev.jnl.pin ≠ s.dev.jnl.pin → t.dev.jnl.due.isSome = true ∧ t.dev.jnl.changed = true) ∧
        t.dev.pairs = { s.dev.pairs with nvmPin := ⟨s.dev.pairs.nvmPin.pending, s.dev.pairs.nvmPin.pending⟩ } ∧
        t.dev.bus.answer = some ⟨a.master, 0, 0, 0⟩ ∧
        { t.dev.unaccess s.dev with
          pairs := s.dev.pairs, jnl := { (t.dev.unaccess s.dev).jnl with pin := s.dev.jnl.pin } } = s.dev) ∧
    (∀ b : Bool, let p := if b then s.dev.pairs.sknPinB else s.dev.pairs.sknPinA
      s.dev.accepts a (regAddr (if b then 0x300EC else 0x300E4)) (~~~p.pending) = true →
      ∃ t, exec (.nodePin a b (~~~p.pending)) s = .next t ∧ t.mem = s.mem ∧
        t.dev.jnl.nodes = upd s.dev.jnl.nodes (ringIx b) (fun _ => p.pending.truncate 16) ∧
        (p.pending.truncate 16 ≠ s.dev.jnl.nodes[ringIx b] → t.dev.jnl.due.isSome = true ∧ t.dev.jnl.changed = true) ∧
        t.dev.pairs = (if b then { s.dev.pairs with sknPinB := ⟨p.pending, p.pending⟩ }
          else { s.dev.pairs with sknPinA := ⟨p.pending, p.pending⟩ }) ∧
        t.dev.bus.answer = some ⟨a.master, 0, 0, 0⟩ ∧
        { t.dev.unaccess s.dev with
          pairs := s.dev.pairs, jnl := { (t.dev.unaccess s.dev).jnl with nodes := s.dev.jnl.nodes } } = s.dev) ∧
    (∃ t, exec (.w6Preset a (~~~s.dev.pairs.w6.pending)) s = .next t ∧ t.mem = s.mem ∧
      t.dev.whl = { s.dev.whl with w6 := { s.dev.whl.w6 with pos := s.dev.pairs.w6.pending.toInt } } ∧
      t.dev.pairs = { s.dev.pairs with w6 := ⟨s.dev.pairs.w6.pending, s.dev.pairs.w6.pending⟩ } ∧
      t.dev.bus.answer = some ⟨a.master, 0, 0, 0⟩ ∧
      (∀ n : StrandNo, if (s.dev.capture n.val).mode = 3 then (t.dev.strands[n]).presetFlag = true
        else t.dev.strands[n] = s.dev.strands[n])) ∧
    (∃ t, exec (.modeRequest a (~~~s.dev.pairs.modeReq.pending)) s = .next t ∧ t.mem = s.mem ∧
        t.dev.sys.reqCount = s.dev.sys.reqCount + 1 ∧
        t.dev.sys.result = s.dev.judgeMode (Mode.ofCode (s.dev.pairs.modeReq.pending.toNat % 8))
          (s.dev.pairs.modeReq.pending.toNat / 256 % 16) (s.dev.pairs.modeReq.pending.getLsbD 16)
          (decide (a.master = .jtag)) ∧
        t.dev.pairs.modeReq = ⟨s.dev.pairs.modeReq.pending, s.dev.pairs.modeReq.pending⟩ ∧
        t.dev.bus.answer = some ⟨a.master, 0, 0, 0⟩ ∧
        (s.dev.pairs.modeReq.pending.toNat % 8 = 0 → t.dev.sys.result = 0 → t.dev.sys.mode = .standby ∧ t.dev.pins.pocEn = 0))

/-- The mode machine's own events. Step 2 of an orderly shutdown done: POC_EN is low, the staging session is closed and the last
journal set, of cause 1, is due (R113 steps 3 and 4, R73). The 2 s limit of Warm-up: the mode becomes the target, and a strand
of the layout that is not live is reported as a lost camera (R98). A layout request of the sink is answered and never
changes the mode (R102). -/
def Obligations.ModeEvents : Prop :=
  ∀ s : State,
    (s.dev.sys.mode = .shutdown → s.dev.sys.shutdownStep = 1 → s.dev.nvm.fitted = true →
      ∃ t, exec .shutdownDrained s = .next t ∧ t.mem = s.mem ∧ t.dev.pins.pocEn = 0 ∧ t.dev.nvm.session = none ∧
        t.dev.jnl.due = some 1 ∧ t.dev.jnl.writing = none ∧ t.dev.sys.shutdownStep = 4 ∧ t.dev.sys.mode = .shutdown ∧
        t.dev.aon = s.dev.aon ∧ t.dev.ply = s.dev.ply ∧ t.dev.whl = s.dev.whl ∧ t.dev.skn = s.dev.skn ∧
        ((∀ p : PortNo, (s.dev.ports[p]).locksHeld = false) → t.dev.bob = s.dev.bob ∧ t.dev.strands = s.dev.strands)) ∧
    (∀ x : Transition, s.dev.sys.mode = .warmup → s.dev.sys.transition = some x → x.target ≠ .depot →
      ∃ t, exec .warmupTimeout s = .next t ∧ t.mem = s.mem ∧ t.dev.sys.mode = x.target ∧
        t.dev.sys.transition = none ∧
        (∀ l, s.dev.layoutCfg x.layout = some l → (∃ n ∈ l.strands, s.dev.strandLive n = false) →
          t.dev.sys.fault.getLsbD 12 = true) ∧
        (∀ l, s.dev.layoutCfg x.layout = some l → ∀ n ∈ l.strands, s.dev.strandLive n = false →
          (t.dev.strands[strandOf n]).lost = true) ∧
        (∀ n : StrandNo, { t.dev.strands[n] with lost := (s.dev.strands[n]).lost } = s.dev.strands[n]) ∧
        t.dev.aon = s.dev.aon ∧ t.dev.whl = s.dev.whl ∧ t.dev.ports = s.dev.ports ∧
        t.dev.lay = s.dev.lay ∧ t.dev.ply = s.dev.ply) ∧
    (∀ l : Byte, s.dev.tst.rlCheck = none →
      ∃ t, exec (.layoutReq l) s = .next t ∧ t.mem = s.mem ∧ t.dev.sys.mode = s.dev.sys.mode ∧
        t.dev.sys.reqCount = s.dev.sys.reqCount + 1 ∧ t.dev.sys.layoutReqId = l ∧
        t.dev.sys.layoutReqResult = t.dev.sys.result.zeroExtend 8 ∧
        (s.dev.aon.phase = .romSafe → t.dev.sys.result = 5) ∧
        (s.dev.aon.phase ≠ .romSafe → s.dev.sys.transition = none → s.dev.sys.mode ≠ .warmup → s.dev.layoutCfg l.toNat = none →
          t.dev.sys.result = 2)) ∧
    (∀ a : Access, s.dev.released = true →
      ∃ t, exec (.modeRequest a (~~~s.dev.pairs.modeReq.pending)) s = .next t ∧ t.mem = s.mem ∧
        t.dev.sys.reqCount = s.dev.sys.reqCount + 1 ∧ t.dev.bus.answer = some ⟨a.master, 0, 0, 0⟩ ∧
        t.dev.pairs.modeReq = ⟨s.dev.pairs.modeReq.pending, s.dev.pairs.modeReq.pending⟩)

/-- When journal sets fall due and are programmed. A periodic mark with changed content makes a set of cause 0 due, a waiting
power-fail set stays; a due set that R69 and R73 permit goes, all pages but the trailer page, to the target slot of the bank of its
sequence, with nothing else of the NVM changed, and leaves no content unsaved; recovery of the power-fail input lifts the
hold.
The trailer page completes a set, the target slot moves on, and after the first slot of a sector the next sector is erased (R71,
R72); an error of the NVM is reported instead and the content stays unsaved; the last set of a shutdown is followed by steps 5 to 7 (R113). A sector under erase reads 0xFF when the erase
ends. -/
def Obligations.JournalSets : Prop :=
  ∀ s : State,
    (s.dev.released = true → s.dev.jnl.changed = true → s.dev.jnl.held = false → s.dev.jnl.closed = false →
      ∃ t, exec .journalPeriodicDue s = .next t ∧ t.mem = s.mem ∧
        t.dev.jnl.due = (if s.dev.jnl.due = some 1 then some 1 else some 0) ∧
        { t.dev.unreport s.dev with jnl := { (t.dev.unreport s.dev).jnl with due := s.dev.jnl.due } } = s.dev) ∧
    (∀ cause : Nat, let seq := (s.dev.jnl.seq + 1) % 2 ^ 32
      let bank := Fin.ofNat 2 seq
      let base := slotAddr bank s.dev.jnl.slot[bank]
      let pages := (s.dev.setBytes cause seq).take 0x3F00
      s.dev.jnl.due = some cause → s.dev.mayWriteSet cause = true →
      (s.dev.jnl.erasing.any fun e => decide (e = (bank.val, s.dev.jnl.slot[bank] / 4))) = false →
      ∃ t, exec .journalSetWrite s = .next t ∧
        (t.dev.jnl.writing.map fun w => (w.1, w.2.1, w.2.2.1)) = some (bank.val, s.dev.jnl.slot[bank], seq) ∧
        t.dev.jnl.due = none ∧ t.dev.jnl.unsaved = 0 ∧
        (∀ k, k < pages.length → t.mem.nvmByte (base + k) = pages.getD k 0xFF) ∧
        (∀ k, k < base ∨ base + 0x3F00 ≤ k → t.mem.nvmByte k = s.mem.nvmByte k) ∧
        { t.mem with nvm := s.mem.nvm } = s.mem ∧ { t.dev.unreport s.dev with jnl := s.dev.jnl } = s.dev) ∧
    (∃ t, exec .powerFailRecovered s = .next t ∧ t.mem = s.mem ∧ t.dev.jnl.held = false ∧
        { t.dev.unreport s.dev with jnl := { (t.dev.unreport s.dev).jnl with held := s.dev.jnl.held } } = s.dev) ∧
    (∀ (bank : Fin 2) (slot seq : Nat) (trailer : List Byte),
      (s.dev.jnl.writing = some (bank.val, slot, seq, trailer) → s.dev.sys.shutdownStep = 0 →
        (∃ t, exec (.journalSetProgrammed true) s = .next t ∧ t.dev.jnl.writing = none ∧ t.dev.jnl.seq = seq ∧
          t.dev.jnl.slot = upd s.dev.jnl.slot bank (fun _ => (slot + 1) % 256) ∧
          t.dev.jnl.erasing = (if slot % 4 = 0 then s.dev.jnl.erasing ++ [(bank.val, (slot / 4 + 1) % 64)] else s.dev.jnl.erasing) ∧
          (∀ k, k < trailer.length → t.mem.nvmByte (slotAddr bank slot + 0x3F00 + k) = trailer.getD k 0xFF) ∧
          (∀ k, k < slotAddr bank slot + 0x3F00 ∨ slotAddr bank slot + 0x3F00 + trailer.length ≤ k →
            t.mem.nvmByte k = s.mem.nvmByte k) ∧
          { t.mem with nvm := s.mem.nvm } = s.mem ∧ { t.dev.unreport s.dev with jnl := s.dev.jnl } = s.dev) ∧
        (∃ t, exec (.journalSetProgrammed false) s = .next t ∧ t.mem = s.mem ∧ t.dev.jnl.writing = none ∧
          t.dev.jnl.seq = s.dev.jnl.seq ∧ t.dev.jnl.changed = true ∧ t.dev.sys.fault.getLsbD 2 = true)) ∧
      (∀ ok : Bool, s.dev.jnl.writing = some (bank.val, slot, seq, trailer) → s.dev.sys.shutdownStep = 4 →
        s.dev.jnl.closed = true →
        ∃ t, exec (.journalSetProgrammed ok) s = .next t ∧ t.dev.jnl.writing = none ∧ t.dev.sys.safeOff = true ∧
          t.dev.sys.shutdownStep = 7 ∧ t.dev.ply.st = .down ∧ t.dev.skn.stopped = true ∧
          ∀ r : Fin 2, t.dev.aon.tier[r] = .bypass) ∧
      (∀ (sector : Nat) (l : List (Nat × Nat)), s.dev.jnl.erasing = (bank.val, sector) :: l →
        (∃ t, exec (.sectorEraseDone true) s = .next t ∧ t.dev.jnl.erasing = l ∧
          (∀ k, k < 0x10000 → t.mem.nvmByte (slotAddr bank (4 * sector) + k) = 0xFF) ∧
          (∀ k, k < slotAddr bank (4 * sector) ∨ slotAddr bank (4 * sector) + 0x10000 ≤ k → t.mem.nvmByte k = s.mem.nvmByte k) ∧
          { t.mem with nvm := s.mem.nvm } = s.mem ∧
          { t.dev.unreport s.dev with jnl := { (t.dev.unreport s.dev).jnl with erasing := s.dev.jnl.erasing } } = s.dev) ∧
        (∃ t, exec (.sectorEraseDone false) s = .next t ∧ t.mem = s.mem ∧ t.dev.jnl.erasing = l ∧ t.dev.sys.fault.getLsbD 2 = true)))
/-- A staging session up to its last page (R74 to R77). OPEN by its owner in Standby or Depot starts the erase with the first
sector, in another mode it answers
ADDR_ERR; the erase done, the sectors read 0xFF and the status is READY; a GO within range programs the buffer half but for bank
bytes 0x00 to 0xFF, which are held; a GO out of range reads RANGE and leaves the session open; a program done reads READY. -/
def Obligations.StagingPages : Prop :=
  ∀ (s : State) (a : Access), s.dev.released = true →
    (∀ (len : Nat) (pin : Bool), s.dev.nvm.session = none →
      (s.dev.stagingMode = true →
        ∃ t, exec (.stageOpen a len pin) s = .next t ∧ t.dev.nvm.status = .erasing ∧
          (∀ k, t.mem.nvmByte k = if s.dev.nvm.fitted = true ∧ s.dev.nvm.stageBase ≤ k ∧
            k < s.dev.nvm.stageBase + min 0x10000 (Session.fresh a len pin).span then 0xFF else s.mem.nvmByte k) ∧
          { t.mem with nvm := s.mem.nvm } = s.mem ∧
          t.dev.nvm.session = some ⟨a, len, pin, [], List.replicate 256 0xFF, none, 0⟩ ∧
          t.dev.bus.answer = some ⟨a.master, 0, 0, 0⟩ ∧
          { t.dev.unaccess s.dev with
            freeIdx := s.dev.freeIdx,
            nvm := { t.dev.nvm with status := s.dev.nvm.status, session := s.dev.nvm.session } } = s.dev) ∧
      (s.dev.stagingMode = false →
        ∃ t, exec (.stageOpen a len pin) s = .next t ∧ t.mem = s.mem ∧ t.dev.nvm = s.dev.nvm ∧
          t.dev.bus.answer = some ⟨a.master, 2, 0, 0⟩)) ∧
    (∀ x, s.dev.nvm.session = some x → s.dev.nvm.status = .erasing → s.dev.nvm.fitted = true →
      ∃ t, exec (.stageEraseDone true) s = .next t ∧ t.dev.nvm = { s.dev.nvm with status := .ready } ∧
        (∀ k, s.dev.nvm.stageBase ≤ k → k < s.dev.nvm.stageBase + x.span → t.mem.nvmByte k = 0xFF) ∧
        (∀ k, k < s.dev.nvm.stageBase ∨ s.dev.nvm.stageBase + x.span ≤ k → t.mem.nvmByte k = s.mem.nvmByte k) ∧
        { t.mem with nvm := s.mem.nvm } = s.mem ∧ { t.dev.unreport s.dev with nvm := s.dev.nvm } = s.dev) ∧
    (∀ (x : Session) (half : Bool) (count : Nat), s.dev.nvm.fitted = true → s.dev.nvm.session = some x → x.owner = a →
      s.dev.nvm.status = .ready ∨ s.dev.nvm.status = .range → s.dev.accepts a (regAddr 0x5002C) 0 = true →
      (x.outOfRange s.dev.nvm.offset.toNat count = true →
        ∃ t, exec (.stageGo a half count) s = .next t ∧ t.mem = s.mem ∧ t.dev.nvm = { s.dev.nvm with status := .range }) ∧
      (x.outOfRange s.dev.nvm.offset.toNat count = false → 0 < count → 0 < s.dev.nvm.offset.toNat →
        ∃ t, exec (.stageGo a half count) s = .next t ∧ t.dev.nvm.status = .programming ∧
          (t.dev.nvm.session.map fun y => y.pages) =
            some (x.pages ++ (List.range (count / 256)).map fun k => s.dev.nvm.offset.toNat / 256 + k) ∧
          (∀ k, k < count → t.mem.nvmByte (s.dev.nvm.stageBase + s.dev.nvm.offset.toNat + k) =
            Memory.read 0 s.mem.stage ((if half then 0x4000 else 0) + k)) ∧
          (∀ k, k < s.dev.nvm.stageBase + s.dev.nvm.offset.toNat ∨ s.dev.nvm.stageBase + s.dev.nvm.offset.toNat + count ≤ k →
            t.mem.nvmByte k = s.mem.nvmByte k) ∧ { t.mem with nvm := s.mem.nvm } = s.mem) ∧
      (x.outOfRange s.dev.nvm.offset.toNat count = false → 256 ≤ count → s.dev.nvm.offset = 0 →
        ∃ t, exec (.stageGo a half count) s = .next t ∧ t.dev.nvm.status = .programming ∧
          (t.dev.nvm.session.map fun y => y.header) = some (Memory.readN 0 s.mem.stage (if half then 0x4000 else 0) 256) ∧
          (∀ k, k < 256 → t.mem.nvmByte (s.dev.nvm.stageBase + k) = s.mem.nvmByte (s.dev.nvm.stageBase + k)))) ∧
    (s.dev.nvm.status = .programming →
      ∃ t, exec (.stageProgramDone true) s = .next t ∧ t.mem = s.mem ∧ t.dev.nvm.status = .ready ∧
        { t.dev.unreport s.dev with nvm := s.dev.nvm } = s.dev)

/-- The end of a staging session (R74, R76 to R78). COMMIT with every page written starts the check; with pages missing it closes the
session as INCOMPLETE. A check that passes programs the held header and reads DONE, the pin naming the new bank or none;
one that fails reads VERIFY_FAIL; an NVM error or a timeout closes the session too. -/
def Obligations.StagingEnds : Prop :=
  ∀ (s : State) (x : Session), s.dev.released = true → s.dev.nvm.session = some x →
    (∀ a : Access, x.owner = a → s.dev.nvm.status = .ready ∨ s.dev.nvm.status = .range →
      (∀ v, s.dev.accepts a (regAddr 0x50020) v = true) →
      ∃ t, exec (.stageCommit a) s = .next t ∧ t.mem = s.mem ∧
        (if x.complete then t.dev.nvm = { s.dev.nvm with status := .verifying }
          else t.dev.nvm = { s.dev.nvm with status := .incomplete, session := none })) ∧
    (s.dev.nvm.status = .verifying → s.dev.nvm.fitted = true →
      ∃ t, exec (.stageCommitDone true) s = .next t ∧ { t.mem with nvm := s.mem.nvm } = s.mem ∧
        (if (s.mem.stagedBank s.dev.nvm x).check (some s.dev.fst.usable) = 0 then
          t.dev.nvm = { s.dev.nvm with status := .done, session := none } ∧
          t.dev.jnl.pin = (if x.pinNew then (if s.dev.nvm.inactiveB then 2 else 1) else 0) ∧
          (t.dev.jnl.pin ≠ s.dev.jnl.pin → t.dev.jnl.due.isSome = true) ∧
          (∀ k, k < (s.dev.nvm.stagedHeader x).length →
            t.mem.nvmByte (s.dev.nvm.stageBase + k) = (s.dev.nvm.stagedHeader x).getD k 0xFF)
        else
          t.mem = s.mem ∧ t.dev.nvm = { s.dev.nvm with status := .verifyFail, session := none } ∧
          t.dev.sys.fault.getLsbD 3 = true)) ∧
    (s.dev.nvm.status = .erasing → s.dev.nvm.fitted = true →
      ∃ t, exec (.stageEraseDone false) s = .next t ∧ t.mem = s.mem ∧
        t.dev.nvm = { s.dev.nvm with status := .programFail, session := none } ∧ t.dev.sys.fault.getLsbD 3 = true) ∧
    (s.dev.nvm.status = .programming →
      ∃ t, exec (.stageProgramDone false) s = .next t ∧ t.mem = s.mem ∧
        t.dev.nvm = { s.dev.nvm with status := .programFail, session := none } ∧ t.dev.sys.fault.getLsbD 3 = true) ∧
    (∃ t, exec .stageTimeout s = .next t ∧ t.mem = s.mem ∧
      t.dev.nvm = { s.dev.nvm with status := .aborted, session := none }) ∧
    (∀ a : Access, s.dev.accepts a (regAddr 0x50014) (~~~s.dev.pairs.nvmPin.pending) = true →
      ∃ t, exec (.nvmPin a (~~~s.dev.pairs.nvmPin.pending)) s = .next t ∧ t.mem = s.mem ∧ t.dev.nvm = s.dev.nvm ∧
        t.dev.jnl.pin = (if s.dev.pairs.nvmPin.pending.toNat % 4 = 3 then s.dev.jnl.pin else s.dev.pairs.nvmPin.pending.toNat % 4) ∧
        t.dev.pairs.nvmPin = ⟨s.dev.pairs.nvmPin.pending, s.dev.pairs.nvmPin.pending⟩)
/-- Training of a creel lane (R148). While step 1 lasts LINK_CFG (TS1) is repeated; a right echo of TS1 takes the port to TS2; an
adapted equaliser with at least the minimum horizontal margin takes it to LINK_UP and records the eye; with the ACK of LINK_UP
received the lane is trained and its coefficients are the working set; the retry of a waiting port starts at TS1 again. Every
state but the port (and the recorded eye) stays.
A training attempt fails (R149) where step 3 is not reached in 20 ms, where TS1 echoes a wrong port or rate, or where the horizontal
eye margin is below the minimum. The next attempt starts from the defaults; the third failure reports the port as a lost
camera and leaves it waiting for its retry. -/
def Obligations.LaneTraining : Prop :=
  ∀ (s : State) (p : PortNo),
    ((s.dev.ports[p]).step = .ts1 →
      (∃ t, exec (.linkCfgRepeat p) s = .next t ∧ t.mem = s.mem ∧
        t.dev.ports = upd s.dev.ports p (fun x => { x with sent := (0, .linkCfg 1 x.rate p.val) :: x.sent }) ∧
        { t.dev.unreport s.dev with ports := s.dev.ports } = s.dev) ∧
      (∀ rate : Byte, rate.toNat = (s.dev.ports[p]).rate →
        ∃ t, exec (.creelTs1Received p (BitVec.ofNat 8 p.val) rate) s = .next t ∧ t.mem = s.mem ∧ (t.dev.ports[p]).step = .ts2 ∧
          (t.dev.ports[p]).sent = (0, .linkCfg 2 (s.dev.ports[p]).rate p.val) :: (s.dev.ports[p]).sent ∧
          (∀ q, q ≠ p → t.dev.ports[q] = s.dev.ports[q]) ∧ { t.dev.unreport s.dev with ports := s.dev.ports } = s.dev)) ∧
    (∀ (c : EqCoeffs) (h v : Nat) (i : Image), (s.dev.ports[p]).step = .ts2 → s.dev.img = some i → (i.portCfg p.val).minEye ≤ h →
      ∃ t, exec (.equaliserAdapted p c h v) s = .next t ∧ t.mem = s.mem ∧ (t.dev.ports[p]).step = .linkUp ∧
        (t.dev.ports[p]).startCoeffs = some c ∧ (t.dev.ports[p]).eyeH = h ∧ (t.dev.ports[p]).eyeV = v ∧
        t.dev.jnl.history.eyes = (s.dev.jnl.history.setEye p.val h v).eyes ∧
        (∀ q, q ≠ p → t.dev.ports[q] = s.dev.ports[q]) ∧
        { t.dev.unreport s.dev with ports := s.dev.ports, jnl := s.dev.jnl } = s.dev) ∧
    ((s.dev.ports[p]).step = .linkUp → (s.dev.ports[p]).upAcked = true →
      ∃ t, exec (.laneTrained p) s = .next t ∧ t.mem = s.mem ∧
        t.dev.ports = upd s.dev.ports p (fun x => { x with
          step := .trained, working := x.startCoeffs, attempts := 0, lastSeq := none, trainedSincePlan := true }) ∧
        { t.dev.unreport s.dev with ports := s.dev.ports } = s.dev) ∧
    ((s.dev.ports[p]).step = .waiting →
      ∃ t, exec (.trainingRetry p) s = .next t ∧ t.mem = s.mem ∧ (t.dev.ports[p]).step = .ts1 ∧
        (t.dev.ports[p]).sent = (0, .linkCfg 1 (s.dev.ports[p]).rate p.val) :: (s.dev.ports[p]).sent ∧
        (∀ q, q ≠ p → t.dev.ports[q] = s.dev.ports[q]) ∧ { t.dev.unreport s.dev with ports := s.dev.ports } = s.dev) ∧
    (∀ c : Instr,
      ((s.dev.ports[p]).step = .ts1 ∧ c = .trainingAttemptTimeout p) ∨
      ((s.dev.ports[p]).step = .ts1 ∧ ∃ port rate : Byte, ¬ (port.toNat = p.val ∧ rate.toNat = (s.dev.ports[p]).rate) ∧
        c = .creelTs1Received p port rate) ∨
      ((s.dev.ports[p]).step = .ts2 ∧ ∃ k h v i, s.dev.img = some i ∧ h < (i.portCfg p.val).minEye ∧ c = .equaliserAdapted p k h v) →
      ∃ t, exec c s = .next t ∧ t.mem = s.mem ∧ (t.dev.ports[p]).attempts = (s.dev.ports[p]).attempts + 1 ∧
        (t.dev.ports[p]).startCoeffs = none ∧ (t.dev.ports[p]).seeded = false ∧ (t.dev.ports[p]).outstanding = [] ∧
        (t.dev.ports[p]).step = (if 3 ≤ (s.dev.ports[p]).attempts + 1 then .waiting else .ts1) ∧
        (3 ≤ (s.dev.ports[p]).attempts + 1 → t.dev.sys.fault.getLsbD 12 = true) ∧
        (∀ q, q ≠ p → t.dev.ports[q] = s.dev.ports[q]) ∧
        t.dev.strands = s.dev.strands ∧ t.dev.card = s.dev.card ∧ t.dev.ply = s.dev.ply ∧ t.dev.pins.pocEn = s.dev.pins.pocEn)
/-- A port that loses lock is reported as a lost camera and drops its unanswered requests and its synchronisation (R154, R155). The
unanswered request and a TS1 on the lane concern a trained port, a fall of POC_EN one whose POC_EN is low. Where the power of
the port still stands it starts training again with RETRAIN. Its strands lose their numbering and their live state and count
as lost cameras. -/
def Obligations.PortLosesLock : Prop :=
  ∀ (s : State) (p : PortNo) (cause : LockLossCause), (s.dev.ports[p]).locksHeld = true →
    (cause = .ts1OnTrained ∨ cause = .unanswered → s.dev.trained p = true) →
    (cause = .pocFell → s.dev.pins.pocEn.getLsbD p.val = false) →
    ∃ t, exec (.lossOfLock p cause) s = .next t ∧ t.dev.sys.fault.getLsbD 12 = true ∧
      (t.dev.ports[p]).locked = false ∧ (t.dev.ports[p]).inited = false ∧ (t.dev.ports[p]).outstanding = [] ∧
      (t.dev.ports[p]).queued = [] ∧
      (t.dev.ports[p]).step = (if s.dev.pins.pocEn.getLsbD p.val = true then .ts1 else .off) ∧
      (∀ n : StrandNo, portOf n = p → (t.dev.strands[n]).live = false ∧ (t.dev.strands[n]).numbered = false ∧
        (t.dev.strands[n]).windowless = true ∧ (t.dev.strands[n]).lost = true) ∧
      t.dev.whl = s.dev.whl ∧ t.dev.skn = s.dev.skn ∧ t.dev.pins.pocEn = s.dev.pins.pocEn

/-- Requests on the back channel (R135, R136, R138). An ACK of a request's tag takes it from the unanswered ones and does what its status
says: an accepted LINK_UP, an accepted SYNC_SET, a LATE or a BUSY trigger; an ACK of another tag changes nothing of the requests. An
I2C_DATA hands its bytes over. Without a reply in time a SYNC_REQ, or a TRIGGER on a port whose timer is not locked (R147), is dropped; another request is resent with its tag up
to three times. -/
def Obligations.BackChannelRequests : Prop :=
  ∀ (s : State) (p : PortNo) (seq tag : Byte),
    (∀ (status : Byte) (detail : Half) (r : BcReq), s.dev.hears p = true → (s.dev.ports[p]).request tag = some r →
      (s.dev.ports[p]).queued = [] →
      ∃ t, exec (.controlAck p seq tag status detail) s = .next t ∧ t.mem = s.mem ∧
        (t.dev.ports[p]).outstanding = ((s.dev.ports[p]).outstanding.filter fun r => decide (r.tag ≠ tag)) ∧
        (∀ rate port, r.msg = .linkCfg 3 rate port → status = 0 → (t.dev.ports[p]).upAcked = true) ∧
        (∀ step trim, r.msg = .syncSet step trim → status = 0 → (t.dev.ports[p]).syncAcked = true) ∧
        (∀ slot slave, r.msg = .trigger slot slave → status = 3 → (t.dev.ports[p]).late = satAdd (s.dev.ports[p]).late 1) ∧
        (∀ slot slave, r.msg = .trigger slot slave → status = 5 →
          (t.dev.ports[p]).trigBusy = satAdd (s.dev.ports[p]).trigBusy 1)) ∧
    (∀ (status : Byte) (detail : Half), s.dev.hears p = true → (s.dev.ports[p]).request tag = none →
      ∃ t, exec (.controlAck p seq tag status detail) s = .next t ∧ t.mem = s.mem ∧
        t.dev.unreport s.dev = (s.dev.takeSeq p seq).unreport s.dev ∧
        (t.dev.ports[p]).outstanding = (s.dev.ports[p]).outstanding) ∧
    (∀ (data : List Byte) (r : BcReq) (addr width reg count : Nat), s.dev.hears p = true →
      (s.dev.ports[p]).request tag = some r → r.msg = .i2cRead addr width reg count → (s.dev.ports[p]).queued = [] →
      ∃ t, exec (.i2cData p seq tag data) s = .next t ∧ t.mem = s.mem ∧ (t.dev.ports[p]).i2cData = data ∧
        (t.dev.ports[p]).outstanding = (s.dev.ports[p]).outstanding.filter fun r => decide (r.tag ≠ tag)) ∧
    (∀ r : BcReq, (s.dev.ports[p]).request tag = some r →
      (r.msg = .syncReq ∨ (s.dev.ports[p]).mayResend r.msg = false → (s.dev.ports[p]).queued = [] →
        ∃ t, exec (.requestReplyTimeout p tag) s = .next t ∧ t.mem = s.mem ∧
          t.dev.ports = upd s.dev.ports p (fun x => { x with outstanding := x.outstanding.filter fun r => decide (r.tag ≠ tag) }) ∧
          { t.dev.unreport s.dev with ports := s.dev.ports } = s.dev) ∧
      (r.msg ≠ .syncReq → (s.dev.ports[p]).mayResend r.msg = true → r.resends < 3 →
        ∃ t, exec (.requestReplyTimeout p tag) s = .next t ∧ t.mem = s.mem ∧
          (t.dev.ports[p]).sent = (tag, r.msg) :: (s.dev.ports[p]).sent ∧
          (t.dev.ports[p]).resends = satAdd (s.dev.ports[p]).resends 1 ∧
          (t.dev.ports[p]).outstanding = ((s.dev.ports[p]).outstanding.map fun y =>
            if y.tag = tag then { y with resends := y.resends + 1, sentAt := s.dev.whl.tim } else y) ∧
          (∀ q, q ≠ p → t.dev.ports[q] = s.dev.ports[q]) ∧ { t.dev.unreport s.dev with ports := s.dev.ports } = s.dev))

/-- The state messages of a head and the slave timer (R122, R143 to R147). A due SYNC_REQ leaves with the next tag and keeps its
departure time; its SYNC_RESP gives offset and delay; an offset within 1 us corrects the trim, within bounds, and one of at
most 20 ns after an accepted SYNC_SET locks the timer; a larger offset unlocks it. GPIO_STATE and HEAD_STATUS are kept; a
skip set moves the elastic buffer alone. -/
def Obligations.HeadStateAndTimer : Prop :=
  ∀ (s : State) (p : PortNo) (seq : Byte),
    (s.dev.trained p = true → (s.dev.ports[p]).outstanding.length < 8 →
      ∃ t, exec (.syncReqDue p) s = .next t ∧ t.mem = s.mem ∧ (t.dev.ports[p]).syncT1 = some s.dev.w0 ∧
        (t.dev.ports[p]).sent = ((s.dev.ports[p]).nextTag, .syncReq) :: (s.dev.ports[p]).sent ∧
        (t.dev.ports[p]).outstanding = (s.dev.ports[p]).outstanding ++ [⟨(s.dev.ports[p]).nextTag, .syncReq, 0, s.dev.whl.tim⟩] ∧
        (∀ q, q ≠ p → t.dev.ports[q] = s.dev.ports[q]) ∧ { t.dev.unreport s.dev with ports := s.dev.ports } = s.dev) ∧
    (∀ (tag : Byte) (t1 t2 t3 : Nat) (r : BcReq), s.dev.trained p = true → (s.dev.ports[p]).request tag = some r →
      r.msg = .syncReq → (s.dev.ports[p]).syncT1 = some t1 →
      let theta2 : Int := ((t2 : Int) - t1) - ((s.dev.w0 : Int) - t3)
      let far := decide (2000 < theta2.natAbs)
      ∃ t, exec (.syncResp p seq tag t2 t3) s = .next t ∧ t.mem = s.mem ∧
        (t.dev.ports[p]).offset = roundDiv theta2 2 ∧
        (t.dev.ports[p]).delay = roundDiv (((t2 : Int) - t1) + ((s.dev.w0 : Int) - t3)) 2 ∧
        (t.dev.ports[p]).trim = (if far then (s.dev.ports[p]).trim
          else bound trimBound ((s.dev.ports[p]).trim - roundDiv (theta2 * 2 ^ 40) 80000000)) ∧
        (t.dev.ports[p]).locked = (!far && ((s.dev.ports[p]).locked || ((s.dev.ports[p]).syncAcked && decide (theta2.natAbs ≤ 40)))) ∧
        t.dev.whl = s.dev.whl) ∧
    (s.dev.hears p = true →
      (∀ levels changed : Byte, ∃ t, exec (.gpioState p seq levels changed) s = .next t ∧ t.mem = s.mem ∧
        (t.dev.ports[p]).gpio = (levels, changed) ∧ t.dev.strands = (s.dev.takeSeq p seq).strands ∧ t.dev.ply = s.dev.ply) ∧
      (∀ (ty fw : Half) (errors : Word), ∃ t, exec (.headStatus p seq ty fw errors) s = .next t ∧ t.mem = s.mem ∧
        (t.dev.ports[p]).head = (ty, fw, errors) ∧ t.dev.strands = (s.dev.takeSeq p seq).strands ∧ t.dev.ply = s.dev.ply)) ∧
    (∀ (n : Nat) (adjust : Int), ∃ t, exec (.skipSet p n adjust) s = .next t ∧ t.mem = s.mem ∧
      t.dev.ports = upd s.dev.ports p (fun x => { x with elastic := x.elastic + adjust }) ∧
      { t.dev.unreport s.dev with ports := s.dev.ports } = s.dev)
/-- The framing of a packet on a trained lane (R124, R127, R128), shown by a null or blanking packet, which does nothing else (R131):
the sequence byte is kept; a gap is counted and makes every open frame of the port non-conforming; a corrected header is counted.
On a lane that is not trained nothing happens. -/
def Obligations.PacketFraming : Prop :=
  ∀ (s : State) (p : PortNo) (h : PacketHead) (vc : Fin 16),
    (s.dev.trained p = true →
      ∃ t, exec (.nullBlankingPacket p h vc) s = .next t ∧ t.mem = s.mem ∧ (t.dev.ports[p]).lastSeq = some h.seq ∧
        (let gap : Bool := (s.dev.ports[p]).lastSeq.any fun l => decide (h.seq ≠ l + 1)
         (t.dev.ports[p]).errs.gap = (if gap then satAdd (s.dev.ports[p]).errs.gap 1 else (s.dev.ports[p]).errs.gap) ∧
         (t.dev.ports[p]).errs.hdrCorrected =
          (if h.corrected then satAdd (s.dev.ports[p]).errs.hdrCorrected 1 else (s.dev.ports[p]).errs.hdrCorrected) ∧
         ∀ n : StrandNo, (t.dev.strands[n]) = (if gap = true ∧ portOf n = p then { s.dev.strands[n] with
            frames := (s.dev.strands[n]).frames.map fun f => if f.isOpen then { f with nonConforming := true } else f }
          else s.dev.strands[n])) ∧
        (∀ q, q ≠ p → t.dev.ports[q] = s.dev.ports[q]) ∧
        { t.dev.unreport s.dev with ports := s.dev.ports, strands := s.dev.strands } = s.dev) ∧
    (s.dev.trained p = false →
      ∃ t, exec (.nullBlankingPacket p h vc) s = .next t ∧ t.mem = s.mem ∧ t.dev.unreport s.dev = s.dev)

/-- Packets that are counted and discarded (R126, R127, R131, R132). Beyond the framing of the packet exactly one counter of the port
counts, by the packet's kind. Any packet of an unmapped channel counts as unmapped, one of an inactive strand as foreign. A packet
discarded for an error leaves its mark (R128) on the open frame of the strand of its virtual channel, or on every open frame
of the port when the header is uncorrectable; a damaged control packet has no channel and marks none. -/
def Obligations.DiscardedPackets : Prop :=
  ∀ (s : State) (p : PortNo) (h : PacketHead) (vc : Fin 16) (dt : Byte) (wc : Half) (payload : List Byte) (le : LineEvent)
    (es : List Exposure) (ev : EmbeddedEvent) (cause : UnknownCause),
    (s.dev.trained p = true →
      let d := s.dev.takeHead p h
      let e := (d.ports[p]).errs
      let marked (n : StrandNo) : Strand := { d.strands[n] with
        frames := (d.strands[n]).frames.map fun f => if f.isOpen then { f with nonConforming := true } else f }
      (∀ c : Instr, c ∈ [.lineStart p h vc, .lineEnd p h vc, .genericShortPacket p h vc dt, .unknownPacket p h ⟨vc, cause⟩,
          .frameEnd p h vc wc, .imageLine p h vc dt payload le, .embeddedData p h vc es ev] →
        ∀ x : CrlErrs,
          (d.strandAt p vc.val = none ∧ x = { e with unmapped := satAdd e.unmapped 1 }) ∨
          (∃ n, d.strandAt p vc.val = some n ∧ d.active n = false ∧ x = { e with foreign := satAdd e.foreign 1 }) →
          ∃ t, exec c s = .next t ∧ t.mem = s.mem ∧ t.dev.ports = upd d.ports p (fun y => { y with errs := x }) ∧
            t.dev.strands = d.strands ∧ { t.dev.unreport s.dev with ports := s.dev.ports, strands := s.dev.strands } = s.dev) ∧
      (∀ n : StrandNo, d.strandAt p vc.val = some n → d.active n = true →
        (∀ (c : Instr) (x : CrlErrs), (c, x) ∈ [
            (.lineStart p h vc, { e with lineMarks := satAdd e.lineMarks 1 }),
            (.lineEnd p h vc, { e with lineMarks := satAdd e.lineMarks 1 }),
            (.genericShortPacket p h vc dt, { e with generic := satAdd e.generic 1 }),
            (.unknownPacket p h ⟨vc, .unmappedChannel⟩, { e with unmapped := satAdd e.unmapped 1 }),
            (.unknownPacket p h ⟨vc, .foreignImageType⟩, { e with foreign := satAdd e.foreign 1 }),
            (.unknownPacket p h ⟨vc, .inactiveStrand⟩, { e with foreign := satAdd e.foreign 1 })] →
          ∃ t, exec c s = .next t ∧ t.mem = s.mem ∧ t.dev.ports = upd d.ports p (fun y => { y with errs := x }) ∧
            t.dev.strands = d.strands ∧ { t.dev.unreport s.dev with ports := s.dev.ports, strands := s.dev.strands } = s.dev) ∧
        (∃ t, exec (.unknownPacket p h ⟨vc, .dataType⟩) s = .next t ∧ t.mem = s.mem ∧
          t.dev.ports = upd d.ports p (fun y => { y with errs := { e with unknown := satAdd e.unknown 1 } }) ∧
          (∀ m : StrandNo, t.dev.strands[m] = if m = n then marked m else d.strands[m]) ∧
          { t.dev.unreport s.dev with ports := s.dev.ports, strands := s.dev.strands } = s.dev)) ∧
      (∀ (c : Instr) (x : CrlErrs), (c, x) ∈ [
          (.packetDiscard p h (.crc vc), { e with crc := satAdd e.crc 1 }),
          (.packetDiscard p h (.codeViolation (some vc)), { e with code := satAdd e.code 1 }),
          (.packetDiscard p h (.openPacket (some vc)), { e with openPacket := satAdd e.openPacket 1 }),
          (.abortedPacket p h (some vc), { e with aborted := satAdd e.aborted 1 })] →
        ∃ t, exec c s = .next t ∧ t.mem = s.mem ∧ t.dev.ports = upd d.ports p (fun y => { y with errs := x }) ∧
          (∀ n : StrandNo, t.dev.strands[n] = if d.strandAt p vc.val = some n then marked n else d.strands[n]) ∧
          { t.dev.unreport s.dev with ports := s.dev.ports, strands := s.dev.strands } = s.dev) ∧
      (∃ t, exec (.packetDiscard p h .headerUncorrectable) s = .next t ∧ t.mem = s.mem ∧
        t.dev.ports = upd d.ports p (fun y => { y with errs := { e with hdrUncorrectable := satAdd e.hdrUncorrectable 1 } }) ∧
        (∀ n : StrandNo, t.dev.strands[n] = if portOf n = p then marked n else d.strands[n]) ∧
        { t.dev.unreport s.dev with ports := s.dev.ports, strands := s.dev.strands } = s.dev)) ∧
    (s.dev.hears p = true →
      let d := s.dev.takeSeq p h.seq
      let e := (d.ports[p]).errs
      ∀ (c : Instr) (x : CrlErrs), (c, x) ∈ [
          (.packetDiscard p h .controlCrc, { e with controlCrc := satAdd e.controlCrc 1 }),
          (.packetDiscard p h (.codeViolation none), { e with code := satAdd e.code 1 }),
          (.packetDiscard p h (.openPacket none), { e with openPacket := satAdd e.openPacket 1 }),
          (.abortedPacket p h none, { e with aborted := satAdd e.aborted 1 })] →
        ∃ t, exec c s = .next t ∧ t.mem = s.mem ∧ t.dev.ports = upd d.ports p (fun y => { y with errs := x }) ∧
          t.dev.strands = d.strands ∧ { t.dev.unreport s.dev with ports := s.dev.ports, strands := s.dev.strands } = s.dev)

/-- A frame start opens a frame (R163 to R165, R331). On an active strand with no frame open the newest of at most four record slots is
the new frame: its number continues the strand's numbering by the sensor frame number (1 at the first start; by the time
passed after a loss of lock; by the difference where it lies in 1 to 8; else by one, counted as a frame-number fault where the
sensor numbers its frames), it starts now, and it takes the next of four input slots. -/
def Obligations.FrameOpens : Prop :=
  ∀ (s : State) (p : PortNo) (h : PacketHead) (vc : Fin 16) (wc : Half) (report : Bool) (n : StrandNo), s.dev.trained p = true →
    s.dev.strandAt p vc.val = some n → s.dev.active n = true → s.dev.lay.pending = none →
    (∀ f ∈ (s.dev.strands[n]).frames, f.isOpen = false) →
    let g := s.dev.strands[n]
    let old : Half := match g.frames with | f :: _ => f.sensorNo | [] => 0
    let k := (wc - old).toNat
    let e := 2 * (s.dev.whl.tim - g.lostAt.getD 0)
    ∃ (t : State) (f : Frame), exec (.frameStart p h vc wc report) s = .next t ∧ t.mem = s.mem ∧
      (t.dev.strands[n]).frames = (f :: g.frames).take 4 ∧ f.sensorNo = wc ∧ f.isOpen = true ∧ f.start = s.dev.whl.tim ∧
      f.packets = 0 ∧ f.rowsDone = 0 ∧
      f.slot = (match g.frames with | o :: _ => (o.slot + 1) % 4 | [] => 0) ∧
      (t.dev.strands[n]).frameNo = f.num ∧ (t.dev.strands[n]).numbered = true ∧
      f.num = (if g.numbered then
          (if old = 0 ∨ wc = 0 ∨ wc = 1 ∨ k = 0 ∨ 8 < k then g.frameNo + 1 else g.frameNo + BitVec.ofNat 32 k)
        else if g.lostAt.isSome then g.frameNo + BitVec.ofNat 32 (max 1 ((2 * e + s.dev.periodOf n) / (2 * s.dev.periodOf n)))
        else 1) ∧
      (t.dev.ports[p]).errs.frameNumber =
        (if g.numbered = true ∧ ¬ (old = 0 ∨ wc = 0 ∨ wc = 1) ∧ (k = 0 ∨ 8 < k) then satAdd (s.dev.ports[p]).errs.frameNumber 1
          else (s.dev.ports[p]).errs.frameNumber) ∧
      t.dev.whl = s.dev.whl ∧ t.dev.skn = s.dev.skn ∧ t.dev.pins.pocEn = s.dev.pins.pocEn

/-- A frame closes at its frame end or when its time has passed (R219, R220): it has as many rows as the profile gives, the missing ones
are emitted as padding, a frame without
a frame end, or with a word count other than its start's, is non-conforming, and a frame that departs from its format carries
FORMAT_FAULT. Only the frame store takes bytes. -/
def Obligations.FrameCloses : Prop :=
  ∀ (s : State) (n : StrandNo) (f : Frame) (l : List Frame) (i : Image), s.dev.img = some i →
    (s.dev.strands[n]).frames = f :: l → f.isOpen = true → (∀ x ∈ l, x.num ≠ f.num ∧ x.isOpen = false) →
    ∀ (c : Instr) (byEnd bad : Bool),
      (c = .frameCloseTimeout n ∧ byEnd = false ∧ bad = true) ∨
      (byEnd = true ∧ ∃ (p : PortNo) (h : PacketHead) (vc : Fin 16) (wc : Half), s.dev.trained p = true ∧
        s.dev.strandAt p vc.val = some n ∧ s.dev.active n = true ∧ c = .frameEnd p h vc wc ∧
        bad = (((s.dev.ports[p]).lastSeq.any fun x => decide (h.seq ≠ x + 1)) || decide (wc ≠ f.sensorNo))) →
      ∃ (t : State) (x : Frame), exec c s = .next t ∧ (t.dev.strands[n]).frames = x :: l ∧ x.num = f.num ∧ x.isOpen = false ∧
        x.close = s.dev.whl.tim ∧ x.byEnd = byEnd ∧ ((f.nonConforming || bad) = true → x.nonConforming = true) ∧
        ((i.prof n.val).height ≤ f.rowsDone → x.nonConforming = (f.nonConforming || bad)) ∧
        x.missing = (i.prof n.val).height - f.rowsDone ∧ x.rowsDone = max f.rowsDone (i.prof n.val).height ∧
        (x.departs = true → x.flags.getLsbD 9 = true) ∧ (t.dev.strands[n]).rowSpan = s.dev.whl.tim - f.start ∧
        { t.mem with fs := s.mem.fs } = s.mem ∧ t.dev.whl = s.dev.whl ∧ t.dev.skn = s.dev.skn

/-- An image line of an open frame (R131 to R133, R197 to R200, R219). One of another image type is counted and discarded; with the input
FIFO full it is discarded, counted, and the frame is non-conforming; one beyond the profile's lines is cut; a line that does
not complete its row waits for the others; the line that completes it commits the row: it stands in the frame store at the row's
place in the frame's input slot, or, with the pool's line queue exhausted, the row is lost and the frame non-conforming. A row
rewound for an error, or damaged on its way to the frame store, is written there with all codes C[0] and reported (R39, R324). -/
def Obligations.ImageLines : Prop :=
  ∀ (s : State) (p : PortNo) (h : PacketHead) (vc : Fin 16) (dt : Byte) (payload : List Byte) (n : StrandNo) (f : Frame)
    (l : List Frame) (i : Image), s.dev.trained p = true → s.dev.strandAt p vc.val = some n → s.dev.active n = true →
    s.dev.img = some i → ((s.dev.ports[p]).lastSeq.any fun x => decide (h.seq ≠ x + 1)) = false →
    (s.dev.strands[n]).frames = f :: l → (∀ x ∈ l, x.num ≠ f.num) → f.isOpen = true →
    let q := i.prof n.val
    (∀ ev, dt.toNat ≠ q.dataType →
      ∃ t, exec (.imageLine p h vc dt payload ev) s = .next t ∧ t.mem = s.mem ∧ t.dev.strands = s.dev.strands ∧
        (t.dev.ports[p]).errs.foreign = satAdd (s.dev.ports[p]).errs.foreign 1) ∧
    (dt.toNat = q.dataType →
      (∃ t, exec (.imageLine p h vc dt payload .fifoFull) s = .next t ∧ t.mem = s.mem ∧
        t.dev.card = upd s.dev.card p (fun c => { c with overflows := satAdd c.overflows 1 }) ∧
        (t.dev.strands[n]).frames.head? = some { f with nonConforming := true } ∧
        { t.dev.unreport s.dev with ports := s.dev.ports, strands := s.dev.strands, card := s.dev.card } = s.dev) ∧
      (q.height * q.exposures ≤ f.packets →
        ∃ t, exec (.imageLine p h vc dt payload .ok) s = .next t ∧ t.mem = s.mem ∧
          (t.dev.strands[n]).frames = { f with cut := f.cut + (unpack (rawBits q.dataType) payload).length }.fault :: l) ∧
      (f.packets < q.height * q.exposures →
        let c := i.cardLine n.val (f.packets % q.exposures) (f.packets / q.exposures) payload
        let f1 := { f with
          packets := f.packets + 1, lines := f.lines ++ [c.vs], cut := f.cut + c.beyond,
          padded := f.padded + (q.width - c.vs.length), static := f.static + c.static, dynamic := f.dynamic + c.dynamic }
        (f.lines.length + 1 ≠ q.exposures →
          ∃ t, exec (.imageLine p h vc dt payload .ok) s = .next t ∧ t.mem = s.mem ∧ (t.dev.strands[n]).frames = f1.fault :: l) ∧
        (f.lines.length + 1 = q.exposures →
          let y := (f.packets + 1) / q.exposures - 1
          let bs := codeBytes ((i.mergeRow n.val y f.opening f1.lines).map fun x => (i.blockOf n.val).compand x.1 x.2.1)
          let base := s.dev.inBase n.val f.slot + f.rowsDone * bs.length
          let room := (((s.dev.takeHead p h).sweepLines n).bob.queue n.val).room
          let pad := i.padRow n.val
          let base0 := s.dev.inBase n.val f.slot + f.rowsDone * pad.length
          (∀ ev, ev ∈ [LineEvent.rewound, LineEvent.storeDamaged] → cellsOf bs.length ≤ room → cellsOf pad.length ≤ room →
            ∃ (t : State) (x : Frame), exec (.imageLine p h vc dt payload ev) s = .next t ∧
              (t.dev.strands[n]).frames = x :: l ∧ x.lines = [] ∧ x.rowsDone = f.rowsDone + 1 ∧
              (ev = .rewound → x.nonConforming = true) ∧ t.dev.sys.fault.getLsbD 17 = true ∧
              (∀ k, k < pad.length → Memory.read 0 t.mem.fs (base0 + k) = pad.getD k 0) ∧
              (∀ k, k < base0 ∨ base0 + pad.length ≤ k → Memory.read 0 t.mem.fs k = Memory.read 0 s.mem.fs k) ∧
              { t.mem with fs := s.mem.fs } = s.mem) ∧
          ∃ (t : State) (x : Frame), exec (.imageLine p h vc dt payload .ok) s = .next t ∧
            (t.dev.strands[n]).frames = x :: l ∧ x.lines = [] ∧ x.packets = f.packets + 1 ∧
            (if cellsOf bs.length ≤ room then
              x.rowsDone = f.rowsDone + 1 ∧ (t.dev.bob.queue n.val).commits = (s.dev.bob.queue n.val).commits + 1 ∧
                (∀ k, k < bs.length → Memory.read 0 t.mem.fs (base + k) = bs.getD k 0) ∧
                (∀ k, k < base ∨ base + bs.length ≤ k → Memory.read 0 t.mem.fs k = Memory.read 0 s.mem.fs k) ∧
                { t.mem with fs := s.mem.fs } = s.mem
             else x.rowsDone = f.rowsDone ∧ x.nonConforming = true ∧ t.mem = s.mem ∧ t.dev.sys.fault.getLsbD 24 = true))))

/-- Embedded data (R190, R191): the entries of an intact packet are the readback of the open frame where the profile declares readback,
and a difference from the write log sets MISMATCH; without declared readback it changes nothing but the packet's framing. A
damaged packet is counted with its CRC (R127), one that meets the full input FIFO with that (R200), and both mark the open
frame (R128). -/
def Obligations.EmbeddedReadback : Prop :=
  ∀ (s : State) (p : PortNo) (h : PacketHead) (vc : Fin 16) (entries : List Exposure) (n : StrandNo),
    s.dev.trained p = true → s.dev.strandAt p vc.val = some n → s.dev.active n = true →
    let d := s.dev.takeHead p h
    let marked : Strand := { d.strands[n] with
      frames := (d.strands[n]).frames.map fun f => if f.isOpen then { f with nonConforming := true } else f }
    (∃ t, exec (.embeddedData p h vc entries .intact) s = .next t ∧ t.mem = s.mem ∧ t.dev.ports = d.ports ∧
      (∀ m : StrandNo, t.dev.strands[m] =
        (if m = n ∧ (d.profile n.val).readback ≠ 0 then
          let es := entries.take (d.expCount n)
          { d.strands[m] with frames := (d.strands[m]).frames.map fun f =>
            if f.isOpen then { f with readback := some es, flags := f.flags ||| (if es ≠ f.opening then 0x0010 else 0) } else f }
        else d.strands[m])) ∧
      { t.dev.unreport s.dev with ports := s.dev.ports, strands := s.dev.strands } = s.dev) ∧
    (∃ t, exec (.embeddedData p h vc entries .damaged) s = .next t ∧ t.mem = s.mem ∧
      t.dev.ports = upd d.ports p (fun y => { y with errs := { y.errs with crc := satAdd y.errs.crc 1 } }) ∧
      t.dev.strands = upd d.strands n (fun _ => marked) ∧
      { t.dev.unreport s.dev with ports := s.dev.ports, strands := s.dev.strands } = s.dev) ∧
    (∃ t, exec (.embeddedData p h vc entries .fifoFull) s = .next t ∧ t.mem = s.mem ∧ t.dev.ports = d.ports ∧
      t.dev.card = upd s.dev.card p (fun c => { c with overflows := satAdd c.overflows 1 }) ∧
      t.dev.strands = upd d.strands n (fun _ => marked) ∧
      { t.dev.unreport s.dev with ports := s.dev.ports, strands := s.dev.strands, card := s.dev.card } = s.dev)
/-- Exposure requests of the sink (R180, R181, R184 to R187, R633). A message that is not the last waits in its assembly. The last one is
judged: rejected for its owner (4), an inactive strand (8), a frame more than 64 ahead (5) or an eighth further target (6); before the
first frame it is held; else it replaces an earlier request of the same target frame (2), is reported with its target, RETARGETED and CLAMPED,
and its writes go out when the target's window is open. -/
def Obligations.SinkExposureRequests : Prop :=
  ∀ (s : State) (n : StrandNo) (index : Fin 4) (frame : Word) (e : Exposure) (i : Image), s.dev.tst.rlCheck = none →
    s.dev.img = some i →
    let g := s.dev.strands[n]
    let all := assocGet g.assembly frame [] ++ [(index.val, e)]
    let rest := g.assembly.filter fun x => decide (x.1 ≠ frame)
    let far := later frame g.frameNo = true ∧ 64 < (frame - g.frameNo).toNat
    (∃ t, exec (.exposureReq n index false frame e) s = .next t ∧ t.mem = s.mem ∧
      t.dev.strands = upd s.dev.strands n (fun g => { g with assembly := assocSet g.assembly frame all }) ∧
      { t.dev.unreport s.dev with strands := s.dev.strands } = s.dev) ∧
    (∀ code : Byte,
      (i.sinkOwner = false ∧ code = 4) ∨ (i.sinkOwner = true ∧ s.dev.active n = false ∧ code = 8) ∨
      (i.sinkOwner = true ∧ s.dev.active n = true ∧ far ∧ code = 5) ∨
      (i.sinkOwner = true ∧ s.dev.active n = true ∧ ¬ far ∧ 8 ≤ g.targets ∧ code = 6) →
      ∃ t, exec (.exposureReq n index true frame e) s = .next t ∧ t.mem = s.mem ∧
        t.dev.ply = { s.dev.ply with results := s.dev.ply.results ++ [(n.val, code, frame, frame)] } ∧
        t.dev.strands = upd s.dev.strands n (fun g => { g with assembly := rest }) ∧
        { t.dev.unreport s.dev with strands := s.dev.strands, ply := s.dev.ply } = s.dev) ∧
    (i.sinkOwner = true → s.dev.active n = true → ¬ far → g.targets < 8 →
      let v := s.dev.namedValues n all
      (g.windowless = true →
        ∃ t, exec (.exposureReq n index true frame e) s = .next t ∧ t.mem = s.mem ∧
          t.dev.strands = upd s.dev.strands n (fun g => { g with
            assembly := rest, requested := v.1, heldReqs := g.heldReqs ++ [⟨false, 0, frame, frame, v.1, v.2, false, false, false⟩] }) ∧
          { t.dev.unreport s.dev with strands := s.dev.strands } = s.dev) ∧
      (g.windowless = false →
        let x := s.dev.targetFor n frame
        let code : Byte := (if x.2 then 1 else 0) + (if v.2 then 0x80 else 0)
        ∃ (t : State) (r : ExpReq), exec (.exposureReq n index true frame e) s = .next t ∧ t.mem = s.mem ∧
          (t.dev.strands[n]).requested = v.1 ∧ r ∈ (t.dev.strands[n]).pending ∧ r.target = x.1 ∧ r.retargeted = x.2 ∧
          r.entries = v.1 ∧ (∀ y ∈ (t.dev.strands[n]).pending, y.target = x.1 → y = r) ∧
          r.sent = decide (s.dev.windowOpens n (x.1 - s.dev.latency n) ≤ (s.dev.w0 : Int)) ∧
          t.dev.ply.results = s.dev.ply.results ++
            ((g.pending.filter fun y => decide (y.target = x.1) && !y.internal).map fun y => (n.val, 2, y.named, y.target)) ++
            [(n.val, code, frame, x.1)]))

/-- Requests of core 0, and what follows a request (R181, R188, R636). GO posts the request that the registers of the port hold, for core 0 alone;
CRL_EXPRES pops the oldest result; an open window sends the write sequence of its frame and enters it in the write log,
from which the open frame takes its values again as long as no issue of its record has left; an
assembly left open is reported. -/
def Obligations.CoreRequestsAndWrites : Prop :=
  ∀ s : State, s.dev.released = true →
    (∀ (a : Access) (p : PortNo) (v : Word), s.dev.accepts a (regAddr (0x100068 + 0x10000 * p.val)) v = true →
      let x := s.dev.ports[p]
      let n := strandOf (4 * p.val + x.reqCtl.toNat % 4)
      (a.master ≠ .core 0 →
        ∃ t, exec (.exposureRequestGo a p v) s = .next t ∧ t.mem = s.mem ∧ t.dev.unaccess s.dev = s.dev ∧
          t.dev.bus.answer = some ⟨a.master, 2, 0, 0⟩) ∧
      (∀ i, a.master = .core 0 → v.getLsbD 0 = true → s.dev.img = some i →
        (i.sinkOwner = true → x.results.length < 32 →
          ∃ t, exec (.exposureRequestGo a p v) s = .next t ∧ t.mem = s.mem ∧
            t.dev.ports = upd s.dev.ports p (fun y => { y with
              results := y.results ++ [⟨BitVec.ofNat 16 (x.reqCtl.toNat / 65536), 4, x.reqTarget⟩] }) ∧
            { t.dev.unaccess s.dev with ports := s.dev.ports } = s.dev) ∧
        (i.sinkOwner = false → s.dev.active n = true → (s.dev.strands[n]).windowless = true →
          ¬ (later x.reqTarget (s.dev.strands[n]).frameNo = true ∧ 64 < (x.reqTarget - (s.dev.strands[n]).frameNo).toNat) →
          (s.dev.strands[n]).targets < 8 → x.regEntries ≠ [] →
          let u := s.dev.namedValues n x.regEntries
          ∃ t, exec (.exposureRequestGo a p v) s = .next t ∧ t.mem = s.mem ∧
            t.dev.strands = upd s.dev.strands n (fun g => { g with
              requested := u.1, heldReqs := g.heldReqs ++
                [⟨true, BitVec.ofNat 16 (x.reqCtl.toNat / 65536), x.reqTarget, x.reqTarget, u.1, u.2, false, false, false⟩] }) ∧
            { t.dev.unaccess s.dev with strands := s.dev.strands } = s.dev))) ∧
    (∀ (a : Access) (p : PortNo) (r : ExpResult) (l : List ExpResult), (s.dev.ports[p]).results = r :: l →
      ∃ t, exec (.crlExpresPop a p) s = .next t ∧ t.mem = s.mem ∧
        t.dev.ports = upd s.dev.ports p (fun y => { y with results := l, resultOvf := false }) ∧
        t.dev.bus.expFrame.head? = some (a.master, p.val, r.frame) ∧
        t.dev.bus.answer = some ⟨a.master, 0, 0, ((0x80000000 ||| (if (s.dev.ports[p]).resultOvf then 0x40000000 else 0) |||
          BitVec.ofNat 32 (r.code.toNat * 65536 + r.tag.toNat) : Word)).zeroExtend 64⟩ ∧
        { t.dev.unaccess s.dev with ports := s.dev.ports, bus := s.dev.bus } = s.dev) ∧
    (∀ (n : StrandNo) (frame : Word) (r : ExpReq),
      ((s.dev.strands[n]).pending.find? fun y => decide (y.target = frame) && !y.sent) = some r →
      ∃ t, exec (.writeWindowOpen n frame) s = .next t ∧ t.mem = s.mem ∧
        t.dev.strands = upd s.dev.strands n (fun g => ({ g with
          writeLog := ⟨r.target, r.entries.map (Config.sensorRound (s.dev.profile n.val).id), r.retargeted, !r.internal, true⟩ ::
            g.writeLog,
          pending := g.pending.map fun y => if y = r then { y with sent := true } else y }).refreshOpen (s.dev.expCount n)) ∧
        t.dev.ports = upd s.dev.ports (portOf n) (fun y => y.send s.dev.whl.tim (.expWrite (slotOf n) r.target r.entries)) ∧
        { t.dev.unreport s.dev with strands := s.dev.strands, ports := s.dev.ports } = s.dev) ∧
    (∀ (n : StrandNo) (frame : Word), ((s.dev.strands[n]).assembly.any fun y => decide (y.1 = frame)) = true →
      ∃ t, exec (.exposureAssemblyTimeout n frame) s = .next t ∧ t.mem = s.mem ∧
        t.dev.strands = upd s.dev.strands n (fun g => { g with assembly := g.assembly.filter fun y => decide (y.1 ≠ frame) }) ∧
        t.dev.ply = { s.dev.ply with results := s.dev.ply.results ++ [(n.val, 7, frame, frame)] } ∧
        { t.dev.unreport s.dev with strands := s.dev.strands, ply := s.dev.ply } = s.dev)

/-- Exposure starts of a triggered strand (R167, R168, R172 to R175, R178). At its slave time a start whose TRIGGER was sent makes the
strand busy and latches the record time, the distance and the time quality; on a busy strand it is deferred where the profile says DEFER and
none is deferred, else dropped, and a mark's start is always deferred. A start without a TRIGGER that falls due is withheld
without a locked timer, meets a busy strand in the same way, and on a free one gets a TRIGGER 100 us ahead (the model's
choice, log 21); a shutdown discards it. A busy state without a frame ends, counts as dropped and sends the deferred start 150 us
ahead. -/
def Obligations.ExposureStarts : Prop :=
  ∀ (s : State) (n : StrandNo),
    let g := s.dev.strands[n]
    let policy (t : Trig) (x : Strand) : Prop :=
      if g.deferred = none ∧ (s.dev.profile n.val).policy = 0 then
        x.deferred = some { t with deferred := true } ∧ x.dropped = g.dropped
      else x.deferred = g.deferred ∧ x.dropped = satAdd g.dropped 1
    (∀ (t : Trig) (l : List Trig), g.armed = t :: l →
      ∃ u, exec (.exposureStart n) s = .next u ∧ u.mem = s.mem ∧ (∀ m, m ≠ n → u.dev.strands[m] = s.dev.strands[m]) ∧
        (t.slave ≠ 0 → g.busy = none →
          (u.dev.strands[n]).armed = l ∧ (t.mark = none → (u.dev.strands[n]).busy = some (t, false)) ∧
          (u.dev.strands[n]).busy.isSome = true ∧
          (u.dev.strands[n]).shot = some (s.dev.whl.timeNow (s.dev.capture n.val).whorl,
            if s.dev.whl.cfg.odoEnabled then s.dev.whl.w6.um else 0, s.dev.whl.quality (s.dev.capture n.val).whorl) ∧
          { u.dev.unreport s.dev with strands := s.dev.strands } = s.dev) ∧
        (t.slave ≠ 0 → g.busy.isSome = true →
          (u.dev.strands[n]).armed = l ∧ (u.dev.strands[n]).busy = g.busy ∧ (t.mark = none → policy t (u.dev.strands[n])) ∧
          (t.mark.isSome = true → g.deferred = none → (u.dev.strands[n]).deferred = some { t with deferred := true }) ∧
          (∀ v, t.mark.isSome = true → g.deferred = some v →
            (u.dev.strands[n]).deferred = some { v with merged := v.merged + 1 } ∧
            (u.dev.strands[n]).dropped = satAdd g.dropped 1) ∧
          { u.dev.unreport s.dev with strands := s.dev.strands } = s.dev) ∧
        (t.slave = 0 →
          (s.dev.sys.mode = .shutdown → (u.dev.strands[n]).armed = l) ∧
          (s.dev.sys.mode ≠ .shutdown → s.dev.timerLocked n = false →
            (u.dev.strands[n]).armed = l ∧ (u.dev.strands[n]).withheld = satAdd g.withheld 1) ∧
          (s.dev.sys.mode ≠ .shutdown → s.dev.timerLocked n = true → g.busy.isSome = true →
            (u.dev.strands[n]).armed = l ∧ policy t (u.dev.strands[n])) ∧
          (s.dev.sys.mode ≠ .shutdown → s.dev.timerLocked n = true → g.busy = none →
            u.dev.strands[n] = { g with armed := l }.arm { t with slave := s.dev.w0 + 100000 }) ∧
          { u.dev.unreport s.dev with strands := s.dev.strands, ports := s.dev.ports } = s.dev)) ∧
    (∀ t : Trig, g.busy = some (t, false) →
      ∃ u, exec (.busyTimeout n) s = .next u ∧ u.mem = s.mem ∧ (u.dev.strands[n]).busy = none ∧
        (u.dev.strands[n]).dropped = satAdd g.dropped 1 ∧ (u.dev.strands[n]).deferred = none ∧
        (∀ v, g.deferred = some v → s.dev.sys.mode ≠ .shutdown → s.dev.timerLocked n = true →
          (u.dev.strands[n]).armed = (g.arm { v with slave := s.dev.w0 + 150000 }).armed) ∧
        (g.deferred = none → (∀ x ∈ g.armed, x.slave ≠ 0) → (u.dev.strands[n]).armed = g.armed ∧ u.dev.ports = s.dev.ports) ∧
        (∀ m, m ≠ n → u.dev.strands[m] = s.dev.strands[m]) ∧
        { u.dev.unreport s.dev with strands := s.dev.strands, ports := s.dev.ports } = s.dev)

/-- Triggers and distance marks (R170, R172, R176 to R178, R445, R446, R449). An edge of TRIG_IN is timestamped and starts every free active
mode 2 strand of that input after its phase delay; without a locked timer, or on an occupied strand, the start waits to fall due; one odometer input that changes
moves W6 by one edge and fires an armed mark it crosses, both at once are an odometer error; ODO_Z latches W6; a mark predicted within 1 ms is
committed at its crossing time or 100 us ahead. -/
def Obligations.TriggersAndMarks : Prop :=
  ∀ s : State,
    (∀ i : Fin 4, s.dev.sys.mode ≠ .shutdown →
      ∃ t, exec (.trigInEdge i) s = .next t ∧ t.mem = s.mem ∧ t.dev.whl.trigIn = upd s.dev.whl.trigIn i (fun _ => some s.dev.whl.tim) ∧
        ∀ n : StrandNo,
          (if (s.dev.capture n.val).mode = 2 ∧ s.dev.active n = true ∧ (s.dev.capture n.val).trigIn = i.val then
            let due := (s.dev.w0 + (s.dev.capture n.val).phase).toNat
            let sent := s.dev.timerLocked n && !(s.dev.strands[n]).occupied
            t.dev.strands[n] = (s.dev.strands[n]).arm ⟨due, if sent then due else 0, false, none, false, 0⟩
          else t.dev.strands[n] = s.dev.strands[n])) ∧
    (∀ a b : Bool, s.dev.whl.cfg.odoEnabled = true →
      let w := s.dev.whl.w6
      (a ≠ w.a → b ≠ w.b →
        ∃ t, exec (.odometerEdge a b) s = .next t ∧ t.mem = s.mem ∧ t.dev.whl.w6 = w.error s.dev.whl.tim a b ∧
          (15 ≤ (w.errTimes.filter fun x => decide (s.dev.whl.tim < x + 500000000)).length → t.dev.sys.fault.getLsbD 20 = true) ∧
          { t.dev.unreport s.dev with whl := s.dev.whl } = s.dev) ∧
      ((a = w.a ∧ b ≠ w.b) ∨ (a ≠ w.a ∧ b = w.b) →
        let w1 := w.edge s.dev.whl.tim s.dev.whl.cfg.edgeSize s.dev.whl.cfg.invert a b
        ∃ t, exec (.odometerEdge a b) s = .next t ∧ t.mem = s.mem ∧ t.dev.whl = { s.dev.whl with w6 := w1 } ∧
          ∀ (n : StrandNo) (k : Int), let c := s.dev.capture n.val
            c.mode = 3 → s.dev.active n = true → c.markRepeat = 0 → c.qualifies (decide (w.pos ≤ w1.pos)) = true →
            c.crossed w.pos w1.pos = [k] → (s.dev.strands[n]).disarmed.contains k = false →
            (s.dev.strands[n]).committed.contains k = false → s.dev.sys.mode ≠ .shutdown → s.dev.timerLocked n = true →
            (s.dev.strands[n]).occupied = false →
            (t.dev.strands[n]).disarmed = k :: (s.dev.strands[n]).disarmed ∧ (t.dev.strands[n]).fired = k :: (s.dev.strands[n]).fired ∧
            (t.dev.strands[n]).armed = (s.dev.strands[n]).armed ++
              [⟨s.dev.w0, s.dev.w0 + 100000, false, some (c.markUm k), true, 0⟩])) ∧
    (s.dev.whl.cfg.odoEnabled = true →
      ∃ t, exec .odoZEdge s = .next t ∧ t.mem = s.mem ∧
        t.dev.whl = { s.dev.whl with w6 := { s.dev.whl.w6 with z := s.dev.whl.w6.pos, index := satAdd s.dev.whl.w6.index 1 } } ∧
        { t.dev.unreport s.dev with whl := s.dev.whl } = s.dev) ∧
    (∀ (n : StrandNo) (k dist : Int), (s.dev.capture n.val).mode = 3 → s.dev.active n = true → s.dev.sys.mode ≠ .shutdown →
      s.dev.timerLocked n = true → s.dev.nextMark n = some (k, dist) →
      let dt := (dist * 1000000000 / (s.dev.whl.w6.velocity s.dev.whl.tim).natAbs).toNat
      let slave := s.dev.w0 + (if dt < 100000 then 100000 else dt)
      dt < 1000000 →
      ∃ t, exec (.markCommit n) s = .next t ∧ t.mem = s.mem ∧ (t.dev.strands[n]).committed = k :: (s.dev.strands[n]).committed ∧
        (t.dev.strands[n]).armed = ((s.dev.strands[n]).arm
          ⟨slave, slave, false, some ((s.dev.capture n.val).markUm k), decide (dt < 100000), 0⟩).armed ∧
        (∀ m, m ≠ n → t.dev.strands[m] = s.dev.strands[m]) ∧
        { t.dev.unreport s.dev with strands := s.dev.strands, ports := s.dev.ports } = s.dev)
/-- Tiles on the spindles (R238, R239, R241 to R243, R258, R260, R635). The first ready tile goes to the longest idle WORKING spindle; the tile completes
with the kernels' bytes in its frame-ring slot; a trap attributed to a spindle quarantines it with its cause, holds it at the third
quarantine, and is reported; one attributed to the input leaves the spindle as it is; a passed self-test makes a quarantined spindle a
spare, or working where a promotion is owed, a failed one holds it; errors corrected in a spindle's store are counted. A tile's bytes go
packed into its stream's tile queue too (01 R30), and the first copy of a shadowed tile is kept until the other is complete (R245). -/
def Obligations.SpindleScheduling : Prop :=
  ∀ s : State,
    (∀ (n : SpindleNo) (r : Ready), s.dev.longestIdle (allSpindles.filter fun n => s.dev.idleIn .working n) = some n →
      firstReady s.dev.readyTiles = some r → ∀ (f : OutFrame) (x : Tile), (s.dev.streams[r.st]).out r.key = some f →
      f.tiles[r.tile]? = some x →
      ∃ (t : State) (g : OutFrame), exec .tileDispatch s = .next t ∧ (t.dev.streams[r.st]).out r.key = some g ∧
        (g.tiles[r.tile]?.map fun y => y.st) = some .running ∧ t.mem = s.mem ∧ t.dev.spn.dispatched = s.dev.spn.dispatched + 1 ∧
        (t.dev.spn.spindles[n]).job = some ⟨r.st, r.key, r.tile, false, s.dev.whl.tim⟩ ∧
        (t.dev.spn.dispatched % 64 ≠ 0 → ∀ m, m ≠ n → t.dev.spn.spindles[m] = s.dev.spn.spindles[m]) ∧
        (∀ st, st ≠ r.st → t.dev.streams[st] = s.dev.streams[st]) ∧
        { t.dev.unreport s.dev with spn := s.dev.spn, streams := s.dev.streams } = s.dev) ∧
    (∀ (n : SpindleNo) (altered : Option (List Byte)) (corrected : Nat) (j : Job) (i : Image) (f : OutFrame) (l : LayoutCfg) (e : StreamCfg) (x : Tile),
      (s.dev.spn.spindles[n]).job = some j → s.dev.img = some i → (s.dev.streams[j.stream]).out j.key = some f →
      s.dev.cfgOf j.stream f = some (l, e) → f.tiles[j.tile]? = some x → x.st = .running ∨ x.st = .heldForShadow →
      s.dev.whl.tim ≤ f.h (l.cols e) j.tile → (x.shadowed = true → x.otherTrapped = false ∧ x.first = none) →
      let bytes := altered.getD ((s.kernelView i j.stream f l e j.tile).tileBytes (l.tileRect e j.tile))
      ∃ (t : State) (g : OutFrame), exec (.tileComplete n altered corrected) s = .next t ∧
        (t.dev.spn.spindles[n]).job = none ∧ (t.dev.streams[j.stream]).out j.key = some g ∧
        (x.shadowed = false →
          t.mem = s.mem.writeTile e (s.dev.outBase j.stream.val f.ringSlot) (l.tileRect e j.tile) bytes ∧
          (g.tiles[j.tile]?.map fun y => y.st) = some .complete ∧
          t.dev.bob = (s.dev.putPkt (128 + j.stream.val) (e.packTile (l.tileRect e j.tile) bytes) false [1] f.key j.tile).bob) ∧
        (x.shadowed = true → t.mem = s.mem ∧ t.dev.bob = s.dev.bob ∧
          g.tiles[j.tile]? = some { x with st := if j.shadow then .running else .heldForShadow, first := some bytes, firstBy := some n }) ∧
        (∀ k, k ≠ j.tile → g.tiles[k]? = f.tiles[k]?) ∧ (∀ m, m ≠ n → t.dev.spn.spindles[m] = s.dev.spn.spindles[m]) ∧
        t.dev.sys.corrected = s.dev.sys.corrected.set 1 (satAdd s.dev.sys.corrected[1] corrected) ∧
        (0 < corrected → t.dev.sys.fault.getLsbD 16 = true) ∧
        { t.dev.sys with
          fault := s.dev.sys.fault, decision := s.dev.sys.decision, applied := s.dev.sys.applied, corrected := s.dev.sys.corrected } =
          s.dev.sys ∧
        { t.dev.unreport s.dev with
          spn := s.dev.spn, streams := s.dev.streams, bob := s.dev.bob, sys := s.dev.sys } = s.dev) ∧
    (∀ (n : SpindleNo) (c : Instr) (code : Nat), (s.dev.spn.spindles[n]).job.isSome = true →
      (c, code) ∈ [(.tileFailure n .localStore, 1), (.tileFailure n .illegalOp, 2), (.tileFailure n .fetchOutside, 3),
        (.tileWatchdog n, 4), (.tileFailure n .outputParity, 5)] →
      let q := satNat 255 ((s.dev.spn.spindles[n]).quarantines + 1)
      ∃ t, exec c s = .next t ∧ (t.dev.spn.spindles[n]).job = none ∧ (t.dev.spn.spindles[n]).lastTrap = code ∧
        (t.dev.spn.spindles[n]).quarantines = q ∧ (t.dev.spn.spindles[n]).st = (if 3 ≤ q then .held else .quarantined) ∧
        t.dev.sys.fault.getLsbD 8 = true ∧ (code = 1 ∨ code = 5 → t.dev.sys.fault.getLsbD 17 = true) ∧
        t.dev.ports = s.dev.ports ∧ t.dev.whl = s.dev.whl ∧ t.dev.ply = s.dev.ply ∧ t.dev.pins.pocEn = s.dev.pins.pocEn) ∧
    (∀ (n : SpindleNo) (c : TileCause), c = .inputUncorrectable ∨ c = .inputRewound ∨ c = .inputSlotTaken →
      (s.dev.spn.spindles[n]).job.isSome = true →
      ∃ t, exec (.tileFailure n c) s = .next t ∧ (t.dev.spn.spindles[n]).lastTrap = (s.dev.spn.spindles[n]).lastTrap ∧
        (t.dev.spn.spindles[n]).quarantines = (s.dev.spn.spindles[n]).quarantines ∧
        (c = .inputUncorrectable → t.dev.sys.fault.getLsbD 17 = true) ∧ t.dev.ports = s.dev.ports ∧ t.dev.ply = s.dev.ply) ∧
    (∀ n : SpindleNo, (s.dev.spn.spindles[n]).st = .quarantined →
      ((s.dev.spn.spindles[n]).job = none →
        ∃ t, exec (.selfTestDone n true) s = .next t ∧ t.mem = s.mem ∧
          t.dev.sys.decision = s.dev.sys.decision + (if 0 < s.dev.spn.owed then 2 else 1) ∧ t.dev.sys.applied = t.dev.sys.decision ∧
          (t.dev.spn.spindles[n]).st = (if 0 < s.dev.spn.owed then .working else .spare) ∧
          t.dev.spn.owed = s.dev.spn.owed - 1 ∧ (∀ m, m ≠ n → t.dev.spn.spindles[m] = s.dev.spn.spindles[m])) ∧
      (∃ t, exec (.selfTestDone n false) s = .next t ∧ t.mem = s.mem ∧ t.dev.sys.decision = s.dev.sys.decision + 1 ∧
        (t.dev.spn.spindles[n]).st = .held ∧ t.dev.sys.fault.getLsbD 8 = true ∧ t.dev.spn.owed = s.dev.spn.owed ∧
        (∀ m, m ≠ n → t.dev.spn.spindles[m] = s.dev.spn.spindles[m]) ∧ t.dev.streams = s.dev.streams))

/-- Bands and the pool (R233, R241, R319, R322, R324, R325, R336, R390). A band handed over holds complete, substituted or filled tiles alone,
its packets leave the tile queue, and with the first band the frame start goes to the doffer of a trained link; a pop takes the next word
of the selected queue, or answers the last one and marks UNDERRUN on an empty queue, and a damaged word is flagged and reported; a drop
passes its first packet or counts; the audit returns leaked cells, and discards a queue from a damaged entry on; a scrub pass is counted and
what it found is reported. Credits follow R312 each time (`trimCredits`). A tile whose queue holds the credit is dispatched, and a completed one
is committed to that queue. -/
def Obligations.BandsAndPool : Prop :=
  ∀ s : State,
    (∀ (st : StreamNo) (errs : List (Nat × TileRead)) (f : OutFrame) (l : LayoutCfg) (e : StreamCfg),
      ((s.dev.streams[st]).frames.find? fun f => decide (f.handed < f.released.length)) = some f →
      (s.dev.streams[st]).out f.key = some f → s.dev.cfgOf st f = some (l, e) →
      ∃ (t : State) (g : OutFrame), exec (.bandHandover st errs) s = .next t ∧ (t.dev.streams[st]).out f.key = some g ∧
        g.handed = f.handed + 1 ∧
        (∀ (k : Nat) (x : Tile), k / l.cols e = f.handed → 0 < l.cols e → g.tiles[k]? = some x →
          x.st = .complete ∨ x.st = .substituted ∨ x.st = .filled) ∧
        (f.handed = 0 → s.dev.ply.map ≠ 0 → ∃ y ∈ t.dev.ply.queue, y.ptype = 2 ∧ y.id = st.val ∧ y.key = f.key) ∧
        (∀ p ∈ (t.dev.bob.queue (128 + st.val)).pkts, p.frame = f.key → p.unit / l.cols e = f.handed → p.readers.contains 1 = false) ∧
        { t.mem with fs := s.mem.fs } = s.mem ∧ (f.handed ≠ 0 → t.dev.strands = s.dev.strands) ∧
        (∀ n : StrandNo, { t.dev.strands[n] with frames := (s.dev.strands[n]).frames } = s.dev.strands[n] ∧
          (t.dev.strands[n]).frames.map (fun x => { x with issued := false }) =
            (s.dev.strands[n]).frames.map fun x => { x with issued := false }) ∧
        t.dev.ports = s.dev.ports ∧ t.dev.whl = s.dev.whl) ∧
    (s.dev.released = true → ∀ a : Access,
      let q := s.dev.bob.queue s.dev.bob.sel
      (∀ (w : Word) (q' : PoolQ), q.popWord = some (w, q') →
        (∃ t, exec (.bobPop a false) s = .next t ∧ t.mem = s.mem ∧ t.dev.bus.answer = some ⟨a.master, 0, 0, w.zeroExtend 64⟩ ∧
          t.dev.bob = (s.dev.onQueue s.dev.bob.sel fun _ => q').trimCredits.bob ∧
          { t.dev.unaccess s.dev with bob := s.dev.bob } = s.dev) ∧
        (∃ t, exec (.bobPop a true) s = .next t ∧ t.mem = s.mem ∧ t.dev.bus.answer = some ⟨a.master, 0, 0, w.zeroExtend 64⟩ ∧
          t.dev.bob = { (s.dev.onQueue s.dev.bob.sel fun _ => q').trimCredits.bob with err := Config.bobErr s.dev.bob.sel } ∧
          t.dev.sys.fault.getLsbD 17 = true ∧ { t.dev.unaccess s.dev with bob := s.dev.bob } = s.dev)) ∧
      (∀ damaged : Bool, q.front 0 = none →
        ∃ t, exec (.bobPop a damaged) s = .next t ∧ t.mem = s.mem ∧ t.dev.bus.answer = some ⟨a.master, 0, 0, q.lastPop.zeroExtend 64⟩ ∧
          t.dev.bob = (s.dev.onQueue s.dev.bob.sel fun x => { x with underrun := true }).trimCredits.bob ∧
          { t.dev.unaccess s.dev with bob := s.dev.bob } = s.dev) ∧
      (s.dev.accepts a (regAddr 0x400010) 1 = true →
        ∃ t, exec (.bobDrop a) s = .next t ∧ t.mem = s.mem ∧
          t.dev.bob = (s.dev.onQueue s.dev.bob.sel fun x => match x.front 0 with
            | none => { x with emptyDrops := satAdd x.emptyDrops 1 }
            | some _ => x.passFront 0).trimCredits.bob ∧ { t.dev.unaccess s.dev with bob := s.dev.bob } = s.dev)) ∧
    (∃ t, exec (.ownershipAudit none) s = .next t ∧ t.mem = s.mem ∧ t.dev.bob = { s.dev.bob with leaked := 0 } ∧
      { t.dev.unreport s.dev with bob := s.dev.bob } = s.dev) ∧
    (∀ (n : Fin 512) (k : Nat), k < (s.dev.bob.queue n.val).pkts.length →
      ∃ t, exec (.ownershipAudit (some (n, k))) s = .next t ∧ t.mem = s.mem ∧
        (t.dev.bob.queue n.val).pkts = (s.dev.bob.queue n.val).pkts.take k ∧
        t.dev.bob.leaked = ({ s.dev.bob.queue n.val with pkts := (s.dev.bob.queue n.val).pkts.drop k }).cells ∧
        (∀ m, m ≠ n.val → (t.dev.bob.queue m).pkts = (s.dev.bob.queue m).pkts) ∧
        t.dev.sys.fault.getLsbD 17 = true ∧ { t.dev.unreport s.dev with bob := s.dev.bob } = s.dev) ∧
    (∀ ce0 ue0 ce1 ue1 : Nat, s.dev.fst.trained = true →
      ∃ t, exec (.patrolScrub ce0 ue0 ce1 ue1) s = .next t ∧ t.mem = s.mem ∧
        t.dev.fst = { s.dev.fst with
          passes := satAdd s.dev.fst.passes 1,
          ecc := #v[satAdd s.dev.fst.ecc[0] ce0, satAdd s.dev.fst.ecc[1] ue0, satAdd s.dev.fst.ecc[2] ce1, satAdd s.dev.fst.ecc[3] ue1] } ∧
        (0 < ce0 + ce1 → t.dev.sys.fault.getLsbD 16 = true) ∧ (0 < ue0 + ue1 → t.dev.sys.fault.getLsbD 17 = true) ∧
        { t.dev.unreport s.dev with fst := s.dev.fst } = s.dev) ∧
    (∀ (n : SpindleNo) (r : Ready), s.dev.longestIdle (allSpindles.filter fun n => s.dev.idleIn .working n) = some n →
      firstReady s.dev.readyTiles = some r →
      ∃ t, exec .tileDispatch s = .next t ∧ t.mem = s.mem ∧ t.dev.bob = s.dev.bob ∧
        (t.dev.spn.spindles[n]).job = some ⟨r.st, r.key, r.tile, false, s.dev.whl.tim⟩) ∧
    (∀ (n : SpindleNo) (altered : Option (List Byte)) (j : Job) (i : Image) (f : OutFrame) (l : LayoutCfg) (e : StreamCfg) (x : Tile),
      (s.dev.spn.spindles[n]).job = some j → s.dev.img = some i → (s.dev.streams[j.stream]).out j.key = some f →
      s.dev.cfgOf j.stream f = some (l, e) → f.tiles[j.tile]? = some x → x.st = .running → x.shadowed = false →
      s.dev.whl.tim ≤ f.h (l.cols e) j.tile →
      ∃ t, exec (.tileComplete n altered 0) s = .next t ∧ (t.dev.spn.spindles[n]).job = none ∧
        (t.dev.bob.queue (128 + j.stream.val)).commits = (s.dev.bob.queue (128 + j.stream.val)).commits + 1)

/-- The hank compressor (R314, R338, R354, R356, R359 to R366). A free lane takes the oldest closed frame that waits for it, as an entry
frame where one is due, and passes over one of a shed strand; a verified hank, the lane's own or one that another conforming encoder would emit, is
committed to the lane's queue, numbers the strand's next hank and moves on in the frame; a mismatch commits nothing, is reported, and has
its range sent again as STORED; a second one in a row quarantines the lane; an abandoned frame is a loss, ends the strand's segment and is
reported. -/
def Obligations.HankLanes : Prop :=
  ∀ (s : State) (k : Fin 4),
    (∀ (n : StrandNo) (num : Word) (close : Nat) (i : Image) (f : Frame), (s.dev.hnk.lanes[k]).quarantined = false →
      (s.dev.hnk.lanes[k]).cur = none → s.dev.laneWaiting k = [(close, n, num)] →
      s.dev.img = some i → (s.dev.strands[n]).frame num = some f →
      let x := s.dev.hnk.strands[n]
      let entry := x.opensEntry f (s.dev.entryInterval f.layout)
      let left := x.waiting.filter fun y => decide (y.2 ≠ num)
      (s.dev.shedRecord n.val = false →
        ∃ (t : State) (c : HankFrame), exec (.hankLaneFrameStart k) s = .next t ∧ t.mem = s.mem ∧
          (t.dev.hnk.lanes[k]).cur = some c ∧ c.strand = n ∧ c.frame = num ∧ c.offset = 0 ∧ c.entry = entry ∧
          c.restart = (entry && x.restart) ∧ c.bytes = s.dev.residualOf i n f s.mem ∧
          (let y := t.dev.hnk.strands[n]
           y.waiting = left ∧ y.needEntry = false ∧ y.restart = false ∧ y.window = (if entry then [] else x.window) ∧
             y.seq = (if entry then 0 else x.seq) ∧ y.count = if entry then 1 else x.count + 1) ∧
          (∀ m, m ≠ n → t.dev.hnk.strands[m] = s.dev.hnk.strands[m]) ∧ (∀ m, m ≠ k → t.dev.hnk.lanes[m] = s.dev.hnk.lanes[m]) ∧
          { t.dev.unreport s.dev with hnk := s.dev.hnk } = s.dev) ∧
      (s.dev.shedRecord n.val = true →
        ∃ t, exec (.hankLaneFrameStart k) s = .next t ∧ t.mem = s.mem ∧ t.dev.hnk.lanes = s.dev.hnk.lanes ∧
          t.dev.hnk.strands = upd s.dev.hnk.strands n (fun y => { y with waiting := left }) ∧
          { t.dev.unreport s.dev with hnk := s.dev.hnk } = s.dev)) ∧
    (∀ (c : HankFrame) (i : Image) (given : Option (List Byte)) (inputLen : Nat), (s.dev.hnk.lanes[k]).cur = some c → s.dev.img = some i →
      let stored := decide (c.offset < c.storedTo)
      let x := s.dev.hnk.strands[c.strand]
      let own := c.next i.record x.window
      let payload := given.getD own.1
      let len := if given.isSome then inputLen else own.2.1
      let used := if given.isSome then 0 else own.2.2
      let input := (c.bytes.drop c.offset).take len
      let q := s.dev.bob.queue (192 + k.val)
      c.admits len = true → 256 ≤ q.room →
      (verifyHank x.window payload input stored = true →
        let hank := c.hank i.record.crc x.seq payload input stored
        cellsOf hank.length ≤ q.room →
        ∃ t, exec (.hankVerify k given inputLen) s = .next t ∧ t.mem = s.mem ∧
          t.dev.bob = { s.dev.bob.onQueue (192 + k.val) (fun q => { q with
            pkts := q.pkts ++ [⟨hank.length, hank, false, [1], 0, s.dev.bob.serial, 0, 0⟩], commits := q.commits + 1 }) with
              serial := s.dev.bob.serial + 1 } ∧
          (t.dev.hnk.strands[c.strand]).seq = (x.seq + 1) % 2 ^ 32 ∧
          (t.dev.hnk.strands[c.strand]).window = (x.window ++ input).drop ((x.window ++ input).length - 32768) ∧
          (t.dev.hnk.lanes[k]).mismatches = 0 ∧
          (t.dev.hnk.lanes[k]).cur = (if c.offset + input.length = c.bytes.length then none
            else some { c with offset := c.offset + input.length, blockUsed := used }) ∧
          { t.dev.unreport s.dev with hnk := s.dev.hnk, bob := s.dev.bob } = s.dev) ∧
      (verifyHank x.window payload input stored = false →
        ∃ t, exec (.hankVerify k given inputLen) s = .next t ∧ t.mem = s.mem ∧ t.dev.bob = s.dev.bob ∧
          t.dev.sys.fault.getLsbD 15 = true ∧ (t.dev.hnk.lanes[k]).suspect = (s.dev.hnk.lanes[k]).suspect + 1 ∧
          (t.dev.hnk.lanes[k]).quarantined = ((s.dev.hnk.lanes[k]).quarantined || decide (1 ≤ (s.dev.hnk.lanes[k]).mismatches)) ∧
          ((s.dev.hnk.lanes[k]).mismatches = 0 →
            (t.dev.hnk.lanes[k]).cur =
              some { c with storedTo := if stored then c.storedTo else c.offset + len, blockUsed := used }))) ∧
    (∀ (c : HankFrame) (cause : HankAbandonCause), (s.dev.hnk.lanes[k]).cur = some c →
      ∃ t, exec (.hankFrameAbandon k cause) s = .next t ∧ t.mem = s.mem ∧ (t.dev.hnk.lanes[k]).cur = none ∧
        (t.dev.hnk.lanes[k]).losses = (s.dev.hnk.lanes[k]).losses + 1 ∧
        t.dev.hnk.strands = upd s.dev.hnk.strands c.strand (fun x => { x with needEntry := true, restart := true, window := [] }) ∧
        t.dev.sys.fault.getLsbD 15 = true ∧ (cause = .poisoned → t.dev.sys.fault.getLsbD 17 = true) ∧
        { t.dev.unreport s.dev with hnk := s.dev.hnk } = s.dev)
/-- Training of the ply link (R374 to R376, R409). Trained with at least one configured lane up, or timed out with a lane locked and one up,
the link opens over those lanes: RESTRIPE names sequence 0, after a renegotiation the next one, and the other configured lanes retrain;
without any the attempt fails, the first one is reported, and every lane trains again. A lane status in training is kept, and TS2
goes to the lanes newly locked; lanes down for their RATE are reported. -/
def Obligations.PlyTraining : Prop :=
  ∀ (s : State) (up : Byte), s.dev.ply.inTraining = true →
    let p := s.dev.ply
    let m := up &&& p.lanes
    let seq : BitVec 24 := if p.st = .reneg then p.nextSeq else 0
    let Opens : State → Prop := fun t =>
      t.mem = s.mem ∧ t.dev.ply.st = .up ∧ t.dev.ply.map = m ∧ t.dev.ply.nextSeq = seq ∧
      t.dev.ply.acked = seq - 1 ∧ t.dev.ply.attempts = 0 ∧ t.dev.ply.retraining = p.lanes &&& ~~~m ∧
      t.dev.ply.sent = (if p.lanes &&& ~~~m = 0 then .restripe m seq :: p.sent
        else .ts1 (p.lanes &&& ~~~m) :: .restripe m seq :: p.sent) ∧
      t.dev.strands = s.dev.strands ∧ t.dev.ports = s.dev.ports ∧ t.dev.bob = s.dev.bob ∧ t.dev.whl = s.dev.whl
    (m ≠ 0 → ∃ t, exec (.plyTrained up) s = .next t ∧ Opens t) ∧
    (m ≠ 0 → p.gotLock = true → ∃ t, exec (.plyTrainingTimeout up) s = .next t ∧ Opens t) ∧
    (¬ (p.gotLock = true ∧ m ≠ 0) →
      ∃ t, exec (.plyTrainingTimeout up) s = .next t ∧ t.mem = s.mem ∧ t.dev.ply.st = p.st ∧ t.dev.ply.map = 0 ∧
        t.dev.ply.attempts = p.attempts + 1 ∧ t.dev.ply.sent = .ts1 p.lanes :: p.sent ∧
        (p.attempts = 0 → t.dev.sys.fault.getLsbD 13 = true) ∧ { t.dev.unreport s.dev with ply := s.dev.ply } = s.dev) ∧
    (∀ (locked reason : Byte) (q : BitVec 24), s.dev.returnOpen = true → reason ≠ 5 →
      let l := locked &&& p.lanes
      let fresh := l &&& ~~~p.lockedMask
      ∃ t, exec (.laneStatus up locked reason q) s = .next t ∧ t.mem = s.mem ∧
        t.dev.ply = { p with up := m, lockedMask := l, gotLock := p.gotLock || decide (l ≠ 0),
                             sent := if fresh = 0 then p.sent else .ts2 fresh :: p.sent } ∧
        { t.dev.unreport s.dev with ply := s.dev.ply } = s.dev) ∧
    (∀ (locked : Byte) (q : BitVec 24), s.dev.returnOpen = true → p.lanes &&& ~~~m ≠ 0 →
      ∃ t, exec (.laneStatus up locked 5 q) s = .next t ∧ t.mem = s.mem ∧ t.dev.ply.up = m ∧ t.dev.sys.fault.getLsbD 13 = true ∧
        (∀ k : Fin 8, t.dev.ply.downReason[k] = if (p.lanes &&& ~~~m).getLsbD k.val then 5 else p.downReason[k]) ∧
        { t.dev.unreport s.dev with ply := s.dev.ply } = s.dev)

/-- Blocks, acknowledgement and replay (R377, R378, R389, R396, R401 to R404; 01 R25, R27, R38, R39). A replay sends its next block, and where
that block cannot be read renegotiates; with 2048 blocks unacknowledged a filler goes and the stall is counted once; bytes or a packet that
wait go out in a new block of 512 bytes, kept under the next sequence, and with nothing ready a filler goes; the selected shed row is applied at
the boundary. An ACK later than the last takes every block up to its sequence; a NAK of an unacknowledged block, or no ACK in time, replays
from there, the fifth time in a row it renegotiates. Health results leave in health packets, 32 in each; markers and skip sets are sent; a
discarded return message is counted. -/
def Obligations.PlyBlocks : Prop :=
  ∀ s : State,
    let p := s.dev.ply
    let Renegotiates : State → Prop := fun t =>
      t.mem = s.mem ∧ t.dev.ply.st = .reneg ∧ t.dev.ply.map = 0 ∧ t.dev.ply.buffer = [] ∧ t.dev.sys.fault.getLsbD 14 = true
    let Replays : BitVec 24 → State → Prop := fun seq t =>
      t.mem = s.mem ∧
      t.dev.ply = { p with st := .replay, resend := p.buffer.filter (fun b => !later24 seq b.1), replayTop := some p.newest,
                           replayRun := p.replayRun + 1, counts := upd p.counts 0 fun x => satAdd x 1 } ∧
      { t.dev.unreport s.dev with ply := s.dev.ply } = s.dev
    (∀ (bad : List Nat) (corrected : Nat), p.running = true → p.shedNext = none →
      let Counts : State → Prop := fun t =>
        t.mem = s.mem ∧ t.dev.sys.corrected = s.dev.sys.corrected.set 0 (satAdd s.dev.sys.corrected[0] corrected) ∧
        { t.dev.sys with fault := s.dev.sys.fault, corrected := s.dev.sys.corrected } = s.dev.sys
      (∀ b l, p.resend = b :: l →
        (∃ t, exec (.blockSend false bad corrected) s = .next t ∧ Counts t ∧
          t.dev.ply = { p with resend := l, st := if l = [] then .up else .replay, sent := .block (resentBlock p.map b) :: p.sent } ∧
          { t.dev.unreport s.dev with ply := s.dev.ply, sys := s.dev.sys } = s.dev) ∧
        (∃ t, exec (.blockSend true bad corrected) s = .next t ∧ Renegotiates t ∧ t.dev.sys.fault.getLsbD 17 = true)) ∧
      (∀ badReplay : Bool, p.resend = [] → 2048 ≤ p.buffer.length →
        ∃ t, exec (.blockSend badReplay bad corrected) s = .next t ∧ Counts t ∧
          t.dev.ply = { p with st := .up, stalled := true, sent := .block p.fillerBlock :: p.sent,
                               counts := if p.stalled then p.counts else upd p.counts 3 fun c => satAdd c 1 } ∧
          { t.dev.unreport s.dev with ply := s.dev.ply, sys := s.dev.sys } = s.dev) ∧
      (∀ badReplay : Bool, p.resend = [] → p.buffer.length < 2048 → p.rest ≠ [] ∨ (∃ x ∈ p.queue, x.cls = 1) →
        ∃ (t : State) (bs : List Byte), exec (.blockSend badReplay bad corrected) s = .next t ∧ Counts t ∧ bs.length = 512 ∧
          t.dev.ply.buffer = p.buffer ++ [(p.nextSeq, bs)] ∧ t.dev.ply.nextSeq = p.nextSeq + 1 ∧
          t.dev.ply.sent = .block bs :: p.sent ∧ (bad = [] → t.dev.hnk = s.dev.hnk) ∧
          { t.dev.unreport s.dev with ply := s.dev.ply, bob := s.dev.bob, hnk := s.dev.hnk, sys := s.dev.sys } = s.dev) ∧
      (∀ badReplay : Bool, p.resend = [] → p.buffer.length < 2048 → p.rest = [] → p.queue = [] →
        (∀ q, (s.dev.bob.queue q).front 1 = none) →
        ∃ t, exec (.blockSend badReplay bad corrected) s = .next t ∧ Counts t ∧
          t.dev.ply = { p with st := .up, stalled := false, sent := .block p.fillerBlock :: p.sent } ∧
          { t.dev.unreport s.dev with ply := s.dev.ply, sys := s.dev.sys } = s.dev)) ∧
    (∀ (bad : List Nat) (corrected : Nat) (streams records : DWord) (number : Word), p.running = true →
      p.shedNext = some (streams, records, number) →
      ∃ t, exec (.blockSend false bad corrected) s = .next t ∧ t.mem = s.mem ∧ t.dev.ply.shedNext = none ∧
        t.dev.ply.shedStreams = streams ∧ t.dev.ply.shedRec = records ∧ t.dev.sys.applied = number) ∧
    (∀ (up : Byte) (seq : BitVec 24), p.running = true → s.dev.returnOpen = true →
      (later24 seq p.acked = true →
        let top := if later24 seq p.newest = true then p.newest else seq
        ∃ t, exec (.ack up seq) s = .next t ∧ t.mem = s.mem ∧ t.dev.ply.acked = top ∧
          t.dev.ply.buffer = (p.buffer.filter fun b => later24 b.1 top) ∧
          t.dev.ply.resend = (p.resend.filter fun b => later24 b.1 top) ∧
          (t.dev.ply.resend = [] → t.dev.ply.st = .up) ∧ t.dev.ply.sent = p.sent ∧ t.dev.ply.nextSeq = p.nextSeq ∧
          { t.dev.unreport s.dev with ply := s.dev.ply } = s.dev) ∧
      (later24 seq p.acked = false → ∃ t, exec (.ack up seq) s = .next t ∧ t.mem = s.mem ∧ t.dev.unreport s.dev = s.dev)) ∧
    (∀ (cause : Byte) (seq : BitVec 24), p.running = true → s.dev.returnOpen = true → p.nakCounts seq = true →
      (p.replayRun < 4 → ∃ t, exec (.nak cause seq) s = .next t ∧ Replays seq t) ∧
      (4 ≤ p.replayRun → ∃ t, exec (.nak cause seq) s = .next t ∧ Renegotiates t)) ∧
    (∀ b l, p.running = true → p.buffer = b :: l →
      (p.replayRun < 4 → ∃ t, exec .ackTimeout s = .next t ∧ Replays b.1 t) ∧
      (4 ≤ p.replayRun → ∃ t, exec .ackTimeout s = .next t ∧ Renegotiates t)) ∧
    (p.running = true →
      ∃ t, exec .healthPacketDue s = .next t ∧ t.mem = s.mem ∧ t.dev.ply.results = [] ∧
        t.dev.ply.healthSeq = p.healthSeq + max 1 ((p.results.length + 31) / 32) ∧ t.dev.ply.queue.take p.queue.length = p.queue ∧
        (∀ x ∈ t.dev.ply.queue.drop p.queue.length, x.cls = 1 ∧ x.ptype = 7) ∧
        (t.dev.ply.queue.drop p.queue.length).length = max 1 ((p.results.length + 31) / 32) ∧
        (p.results.length ≤ 32 → ∃ x, t.dev.ply.queue = p.queue ++ [x] ∧ x.payload = s.dev.healthBytes p.results) ∧
        { t.dev.ply with queue := p.queue, healthSeq := p.healthSeq, results := p.results } = p ∧
        { t.dev.unreport s.dev with ply := s.dev.ply, bob := s.dev.bob } = s.dev) ∧
    (p.running = true →
      ∃ (t : State) (phase : Nat), exec .alignmentMarker s = .next t ∧ t.mem = s.mem ∧ phase < 128 ∧
        t.dev.ply = { p with markers := p.markers + 1, sent := .marker p.markers.toNat phase :: p.sent } ∧
        { t.dev.unreport s.dev with ply := s.dev.ply, freeIdx := s.dev.freeIdx } = s.dev) ∧
    (∀ lane : Fin 30, s.dev.transmits lane = true →
      ∃ t, exec (.skipSetDue lane) s = .next t ∧ t.mem = s.mem ∧ t.dev.tst = { s.dev.tst with skips := upd s.dev.tst.skips lane (· + 1) } ∧
        t.dev.ply = (if 16 ≤ lane.val ∧ lane.val < 24 then { p with sent := .skip (lane.val - 16) :: p.sent } else p) ∧
        { t.dev.unreport s.dev with ply := s.dev.ply, tst := s.dev.tst } = s.dev) ∧
    (s.dev.tst.rlCheck = none →
      ∃ t, exec .returnMessageDiscard s = .next t ∧ t.mem = s.mem ∧
        t.dev.ply = { p with counts := upd p.counts 4 fun c => satAdd c 1 } ∧ { t.dev.unreport s.dev with ply := s.dev.ply } = s.dev)

/-- Lanes lost and regained while blocks flow (R371, R372, R402, R404, R406 to R409). A lane withdrawn, or reported down, leaves the map with
its reason, is counted, reported and sent TS1, and RESTRIPE names the next sequence where nothing is unacknowledged; a retrained lane that is
up rejoins with a RESTRIPE; with no lane left, without the return lane, or after four replays in a row, the link renegotiates: its blocks are
discarded and every configured lane trains. Markers and skip sets go out on the lanes; a discarded message of the return lane is counted. -/
def Obligations.PlyLanes : Prop :=
  ∀ s : State, s.dev.ply.running = true →
    let p := s.dev.ply
    let Leaves : Byte → Byte → Byte → State → Prop := fun down back reason t =>
      let m := (p.map &&& ~~~down) ||| back
      t.mem = s.mem ∧ t.dev.ply.map = m ∧ t.dev.sys.fault.getLsbD 13 = true ∧
      (reason ≠ 5 → ∀ k : Fin 8, t.dev.ply.downReason[k] = if down.getLsbD k.val then reason else p.downReason[k]) ∧
      t.dev.ply.sent = .ts1 down :: .restripe m p.nextSeq :: p.sent ∧
      t.dev.ply.retraining = (p.retraining ||| down) &&& ~~~back ∧ t.dev.ply.nextSeq = p.nextSeq ∧
      t.dev.strands = s.dev.strands ∧ t.dev.bob = s.dev.bob ∧ t.dev.ports = s.dev.ports
    let Renegotiates : State → Prop := fun t =>
      t.mem = s.mem ∧ t.dev.ply.st = .reneg ∧ t.dev.ply.map = 0 ∧ t.dev.ply.buffer = [] ∧ t.dev.ply.resend = [] ∧
      t.dev.ply.rest = [] ∧ t.dev.sys.fault.getLsbD 14 = true ∧
      t.dev.strands = s.dev.strands ∧ t.dev.ports = s.dev.ports ∧ t.dev.whl = s.dev.whl
    (∀ lane : Fin 8, p.map &&& 1#8 <<< lane.val ≠ 0 →
      let down := 1#8 <<< lane.val
      (p.map &&& ~~~down ≠ 0 → p.buffer = [] → ∃ t, exec (.arbiterLaneWithdraw lane) s = .next t ∧ Leaves down 0 6 t) ∧
      (p.map &&& ~~~down = 0 → ∃ t, exec (.arbiterLaneWithdraw lane) s = .next t ∧ Renegotiates t ∧ t.dev.sys.fault.getLsbD 13 = true)) ∧
    (∀ (up locked reason : Byte) (q : BitVec 24), s.dev.returnOpen = true →
      locked &&& p.lanes &&& ~~~p.lockedMask &&& p.retraining = 0 →
      let u := up &&& p.lanes
      let down := p.map &&& ~~~u
      let back := u &&& p.retraining
      let m := (p.map &&& ~~~down) ||| back
      (u ≠ 0 → down ≠ 0 → m ≠ 0 → p.buffer = [] →
        ∃ t, exec (.laneStatus up locked reason q) s = .next t ∧ Leaves down back reason t) ∧
      (u ≠ 0 → down ≠ 0 → m = 0 →
        ∃ t, exec (.laneStatus up locked reason q) s = .next t ∧ Renegotiates t ∧ t.dev.sys.fault.getLsbD 13 = true) ∧
      (down = 0 → back ≠ 0 →
        ∃ t, exec (.laneStatus up locked reason q) s = .next t ∧ t.mem = s.mem ∧ t.dev.ply.map = p.map ||| back ∧
          t.dev.ply.sent = .restripe (p.map ||| back) p.nextSeq :: p.sent ∧ t.dev.ply.retraining = p.retraining &&& ~~~back ∧
          t.dev.ply.buffer = p.buffer ∧ t.dev.ply.resend = p.resend ∧ t.dev.streams = s.dev.streams)) ∧
    (s.dev.tst.rlCheck = none →
      ∃ t, exec .returnLaneLockLoss s = .next t ∧ Renegotiates t ∧ t.dev.ply.sent = .ts1 p.lanes :: p.sent) ∧
    (∀ lane : Fin 8, p.retraining.getLsbD lane.val = true →
      ∃ t, exec (.laneRetrainRetry lane) s = .next t ∧ t.mem = s.mem ∧
        t.dev.ply = { p with lockedMask := p.lockedMask &&& ~~~(1#8 <<< lane.val), sent := .ts1 (1#8 <<< lane.val) :: p.sent } ∧
        { t.dev.unreport s.dev with ply := s.dev.ply } = s.dev) ∧
    (∀ (cause : Byte) (seq : BitVec 24), s.dev.returnOpen = true → p.nakCounts seq = true → 4 ≤ p.replayRun →
      ∃ t, exec (.nak cause seq) s = .next t ∧ Renegotiates t) ∧
    (∀ b l, p.buffer = b :: l → 4 ≤ p.replayRun → ∃ t, exec .ackTimeout s = .next t ∧ Renegotiates t) ∧
    (∃ t, exec .alignmentMarker s = .next t ∧ t.mem = s.mem ∧ t.dev.ply.markers = p.markers + 1 ∧
      (∃ phase, t.dev.ply.sent = .marker p.markers.toNat phase :: p.sent) ∧ t.dev.ply.map = p.map) ∧
    (∀ lane : Fin 8, lane.val < p.count →
      ∃ t, exec (.skipSetDue (Fin.ofNat 30 (16 + lane.val))) s = .next t ∧ t.mem = s.mem ∧ t.dev.ply.sent = .skip lane.val :: p.sent ∧
        t.dev.ply.map = p.map) ∧
    (s.dev.tst.rlCheck = none →
      ∃ t, exec .returnMessageDiscard s = .next t ∧ t.mem = s.mem ∧ t.dev.ply = { p with counts := upd p.counts 4 fun c => satAdd c 1 })

/-- Frames and slots of the doffer (R382, R388, R390, R391; 03 R91). With its last band sent and its sources closed a frame of the open link ends: frame
end goes out, after a slub map where tiles were substituted, and the frame is the stream's previous one. An expired slot delivers the previous
frame again, or a WARMING frame where none was delivered, counts the alive counter and restarts the timer, where the source's capture mode
is 0 or 1 or a camera is lost; before a valid frame a WARMING slot delivers a whole mid-grey frame. A health packet that waits goes before
any frame, and what is not acknowledged stays in the replay buffer, queue 196. -/
def Obligations.DofferSlots : Prop :=
  ∀ (s : State) (st : StreamNo), s.dev.ply.map ≠ 0 →
    (∀ (f : OutFrame) (fs : List OutFrame) (l : LayoutCfg) (e : StreamCfg), (s.dev.streams[st]).frames = f :: fs →
      s.dev.cfgOf st f = some (l, e) → f.handed = l.rows e → (s.dev.sourcesOf f).all (fun p => !p.2.isOpen) = true →
      s.dev.ply.linesSent st.val f.key = true → f.lost = false →
      ∃ t, exec (.frameEndSend st) s = .next t ∧ t.mem = s.mem ∧ (t.dev.streams[st]).frames = fs ∧
        (∃ y, t.dev.ply.queue.getLast? = some y ∧ y.ptype = 3 ∧ y.id = st.val ∧ y.key = f.key) ∧
        t.dev.ply.queue.length = s.dev.ply.queue.length + (if f.notOwn = [] ∨ s.dev.shed st = true then 1 else 2) ∧
        ((t.dev.streams[st]).prev.map fun p => p.num) = some f.num ∧
        (∀ u, u ≠ st → t.dev.streams[u] = s.dev.streams[u]) ∧
        { t.dev.unreport s.dev with streams := s.dev.streams, ply := s.dev.ply } = s.dev) ∧
    (∀ (l : LayoutCfg) (e : StreamCfg), s.dev.slotCfg st = some (l, e) → s.dev.pathOn = true →
      let Warms : State → Prop := fun t =>
        t.mem = s.mem ∧ (t.dev.streams[st]).alive = (s.dev.streams[st]).nextAlive ∧ (t.dev.streams[st]).counted = true ∧
        (t.dev.ply.queue.drop s.dev.ply.queue.length).map (fun y => (y.ptype, y.id)) =
          ((2, st.val) :: (if s.dev.shed st = true then [] else List.replicate e.height (1, st.val))) ++ [(3, st.val)] ∧
        t.dev.ply.queue.take s.dev.ply.queue.length = s.dev.ply.queue ∧
        { t.dev.unreport s.dev with streams := s.dev.streams, ply := s.dev.ply } = s.dev
      ((s.dev.streams[st]).live = false → ∃ t, exec (.warmingSlot st) s = .next t ∧ Warms t) ∧
      (s.dev.repeatsSlot e = true → (s.dev.streams[st]).prev = none →
        ∃ t, exec (.repeatSlot st) s = .next t ∧ Warms t ∧ (t.dev.streams[st]).slotAt = some s.dev.whl.tim) ∧
      (s.dev.repeatsSlot e = false → ∃ t, exec (.repeatSlot st) s = .next t ∧ t.mem = s.mem ∧ t.dev.unreport s.dev = s.dev) ∧
      (∀ p, s.dev.repeatsSlot e = true → (s.dev.streams[st]).prev = some p →
        ∃ t, exec (.repeatSlot st) s = .next t ∧ t.mem = s.mem ∧ (t.dev.streams[st]).alive = (s.dev.streams[st]).nextAlive ∧
          (t.dev.streams[st]).slotAt = some s.dev.whl.tim ∧ ((t.dev.streams[st]).prev.map fun x => x.num) = some p.num ∧
          (t.dev.ply.queue.drop s.dev.ply.queue.length).map (fun y => (y.ptype, y.id)) =
            ((2, st.val) :: (if s.dev.shed st = true then [] else List.replicate p.height (1, st.val) ++ [(5, st.val)])) ++ [(3, st.val)] ∧
          t.dev.ply.queue.take s.dev.ply.queue.length = s.dev.ply.queue ∧
          { t.dev.unreport s.dev with streams := s.dev.streams, ply := s.dev.ply } = s.dev)) ∧
    (s.dev.ply.running = true →
      (∃ t, exec .healthPacketDue s = .next t ∧ t.mem = s.mem ∧ t.dev.streams = s.dev.streams ∧
        t.dev.ply.queue.length = s.dev.ply.queue.length + max 1 ((s.dev.ply.results.length + 31) / 32)) ∧
      (∀ (bad : List Nat) (corrected : Nat), s.dev.ply.shedNext = none → s.dev.ply.resend = [] → s.dev.ply.buffer.length < 2048 →
        (∃ x ∈ s.dev.ply.queue, x.cls = 1) →
        ∃ t, exec (.blockSend false bad corrected) s = .next t ∧ t.mem = s.mem ∧ t.dev.streams = s.dev.streams ∧
          (t.dev.heldQueue 196).pkts.length = (s.dev.heldQueue 196).pkts.length + 1) ∧
      (∀ (up : Byte) (seq : BitVec 24), s.dev.returnOpen = true → later24 seq s.dev.ply.acked = true →
        later24 seq s.dev.ply.newest = false →
        ∃ t, exec (.ack up seq) s = .next t ∧ t.mem = s.mem ∧ t.dev.streams = s.dev.streams ∧ t.dev.ply.acked = seq ∧
          (t.dev.heldQueue 196).pkts.length = (s.dev.ply.buffer.filter fun b => later24 b.1 seq).length))
/-- The whorls and their pulses (R411, R417 to R421, R435, R436, R450, R451). SNAPSHOT latches all eight whorls; a sample of core 1 on a running W1 below the
step threshold moves its integral and increment by the law of R417 and locks it at the last of the samples within the lock threshold; in ACQUIRING it
steps W1 by its offset with a new epoch; a lost source leaves the increment without the proportional term; a PPS edge is such a sample of
a source 3 whorl; a PPS pulse leaves with its width; a turn of W7 is counted and paces the locked converters; core 1's phase correction moves
W7; a lost lock of W7 coasts; a committed preset sets W6. -/
def Obligations.WhorlsAndPulses : Prop :=
  ∀ s : State, s.dev.released = true →
    let w := s.dev.whl
    let run (v : Servo) (c : WhorlCfg) (theta : Int) : Nat :=
      incOf (bound (500000 * 65536) (-(v.integ + c.ki * theta + bound (200000 * 65536) (c.kp * theta * 256))))
    (∀ a : Access, ∃ t, exec (.snapshot a) s = .next t ∧ t.mem = s.mem ∧
      t.dev.whl.snap = ((List.range 6).flatMap fun n => timeWords (w.timeNow n)) ∧ t.dev.whl.snap6 = BitVec.ofInt 64 w.w6.pos ∧
      t.dev.whl.snap7 = w.w7.turn ++ w.w7.phase ∧
      { t.dev.unaccess s.dev with whl := { t.dev.whl with snap := w.snap, snap6 := w.snap6, snap7 := w.snap7 } } = s.dev) ∧
    (∀ (a : Access) (hi : Word), a.master = .core 1 →
      let v := w.servo[(0 : Fin 5)]
      let c := w.cfgOf 1
      let theta := (hi ++ (heldAt s.dev.bus.lo a.master 0x20168).getD 0 : BitVec 64).toInt
      (v.st = .tracking → v.first = none → theta.natAbs < c.stepThr * 1000 →
        ∃ t, exec (.sampleSubmit a hi) s = .next t ∧ t.mem = s.mem ∧
          (t.dev.whl.servo[(0 : Fin 5)]).inc = run v c theta ∧ (t.dev.whl.servo[(0 : Fin 5)]).integ = v.integ + c.ki * theta ∧
          (t.dev.whl.servo[(0 : Fin 5)]).theta = theta ∧ (t.dev.whl.servo[(0 : Fin 5)]).acc = v.acc ∧
          (t.dev.whl.servo[(0 : Fin 5)]).st = (if theta.natAbs ≤ c.lockThr ∧ c.lockCount ≤ v.good + 1 then .locked else .tracking) ∧
          (∀ k : Fin 5, k ≠ 0 → t.dev.whl.servo[k] = w.servo[k]) ∧
          { t.dev.unaccess s.dev with whl := { t.dev.whl with servo := w.servo }, bus := s.dev.bus } = s.dev) ∧
      (v.st = .acquiring → c.source ≠ 3 → w.copies 1 = [] → (∀ i : Fin 256, ∀ e, w.saq[i] = some e → e.whorl ≠ 1) →
        ∃ t, exec (.sampleSubmit a hi) s = .next t ∧ t.mem = s.mem ∧ (t.dev.whl.servo[(0 : Fin 5)]).st = .tracking ∧
          (t.dev.whl.servo[(0 : Fin 5)]).acc = (((v.acc : Int) - theta * (2 ^ 40 : Nat)) % (2 ^ 64 * 1000000000 * 2 ^ 40 : Nat)).toNat ∧
          (t.dev.whl.servo[(0 : Fin 5)]).epoch = (v.epoch + 1) % 65536 ∧ t.dev.whl.saq = w.saq)) ∧
    (∀ (a : Access) (hi : Word), a.master ≠ .core 1 →
      ∃ t, exec (.sampleSubmit a hi) s = .next t ∧ t.mem = s.mem ∧ t.dev.bus.answer = some ⟨a.master, 2, 0, 0⟩ ∧
        t.dev.unaccess s.dev = s.dev) ∧
    (∀ n : Fin 5, (w.servo[n]).st = .tracking ∨ (w.servo[n]).st = .locked →
      ∃ t, exec (.whorlLossTimeout n) s = .next t ∧ t.mem = s.mem ∧ t.dev.sys.fault.getLsbD 19 = true ∧
        t.dev.whl = { w with servo := upd w.servo n fun v => { v with
          st := .holdover, first := none, good := 0, inc := incOf (bound (500000 * 65536) (-(v.integ + 0))) } } ∧
        { t.dev.unreport s.dev with whl := w } = s.dev) ∧
    (∀ n : Fin 5, 1 ≤ n.val → (w.cfgOf (n.val + 1)).source = 3 → (∀ k : Fin 5, k ≠ n → (w.cfgOf (k.val + 1)).source ≠ 3) →
      let now : Int := w.nsOf (n.val + 1)
      let theta := now - ((now + 500000000) / 1000000000 * 1000000000 + w.cfg.ppsDelay)
      (w.servo[n]).st = .tracking → (w.servo[n]).first = none → theta.natAbs < (w.cfgOf (n.val + 1)).stepThr * 1000 →
      ∃ t, exec .ppsInEdge s = .next t ∧ t.mem = s.mem ∧ (t.dev.whl.servo[n]).inc = run (w.servo[n]) (w.cfgOf (n.val + 1)) theta ∧
        (∀ k, k ≠ n → t.dev.whl.servo[k] = w.servo[k]) ∧
        { t.dev.unreport s.dev with whl := { t.dev.whl with servo := w.servo } } = s.dev) ∧
    (w.cfg.ppsOut ≤ 5 → ∃ t, exec .ppsOutPulse s = .next t ∧ t.mem = s.mem ∧
      t.dev.pins.ppsOut = w.cfg.ppsWidth :: s.dev.pins.ppsOut ∧
      { t.dev.unreport s.dev with pins := { t.dev.pins with
          ppsOut := s.dev.pins.ppsOut, faultN := s.dev.pins.faultN, alertN := s.dev.pins.alertN, bypHold := s.dev.pins.bypHold } } = s.dev) ∧
    (w.w7.period ≠ 0 → ∃ t, exec .w7Turn s = .next t ∧ t.mem = s.mem ∧
      t.dev.whl = { w with w7 := { w.w7 with phase := 0, turn := w.w7.turn + 1 } } ∧
      (∀ c : Fin 4, (s.dev.sns.conv[c]).busy = true → (s.dev.sns.conv[c]).cfg.lockedW7 = true →
        t.dev.sns.conv[c] = { s.dev.sns.conv[c] with integ := some (match (s.dev.sns.conv[c]).integ with | some k => k + 1 | none => 0) }) ∧
      (∀ c : Fin 4, (s.dev.sns.conv[c]).cfg.lockedW7 = false → t.dev.sns.conv[c] = s.dev.sns.conv[c]) ∧
      { t.dev.unreport s.dev with whl := w, sns := s.dev.sns } = s.dev) ∧
    (∀ (a : Access) (v : Word), a.master = .core 0 → w.cfg.w7Source = 3 →
      ∃ t, exec (.w7PhaseCorrection a v) s = .next t ∧ t.mem = s.mem ∧ t.dev.whl.w7.phase = w.w7.phase + v ∧
        t.dev.whl.w7.period = (if w.w7.held = 0 then w.w7.period else w.w7.held.toNat) ∧ t.dev.whl.w7.lastEvent = some w.tim ∧
        (w.w7.locked = true → t.dev.whl.w7.locked = decide (v.toInt.natAbs ≤ 2 ^ 28)) ∧
        { t.dev.unaccess s.dev with whl := { t.dev.whl with w7 := w.w7 } } = s.dev) ∧
    (w.w7.locked = true → ∃ t, exec .w7LockLoss s = .next t ∧ t.mem = s.mem ∧ t.dev.sys.fault.getLsbD 19 = true ∧
      t.dev.whl = { w with w7 := { w.w7 with locked := false, coasting := true, good := 0 } } ∧ { t.dev.unreport s.dev with whl := w } = s.dev) ∧
    (∀ a : Access, ∃ t, exec (.w6Preset a (~~~s.dev.pairs.w6.pending)) s = .next t ∧ t.mem = s.mem ∧
      t.dev.whl = { w with w6 := { w.w6 with pos := s.dev.pairs.w6.pending.toInt } })

/-- The scheduled-action queue (R437 to R440, R594). A due entry acts and is gone, or is due again one period later; ADD answers INVALID, FULL, or the lowest
free entry from 32 on and its index; REMOVE frees the selected entry unless it is a capture entry or absent; READ shows the selected entry in
the master's registers. -/
def Obligations.ScheduledActions : Prop :=
  ∀ s : State,
    let w := s.dev.whl
    (∀ (i : Fin 256) (e : SaqEntry), w.saq[i] = some e →
      ∃ t, exec (.scheduledAction i) s = .next t ∧ t.mem = s.mem ∧
        t.dev.whl = { w with saq := upd w.saq i fun _ => if e.period = 0 then none else some { e with due := e.due + e.period } } ∧
        (e.action = 2 → t.dev.pins.trigOut = (e.arg0.toNat % 4, e.arg0.toNat / 65536) :: s.dev.pins.trigOut) ∧
        (e.action = 4 → t.dev.sys.coreEvents = (e.arg0.toNat % 4, e.arg0.toNat / 65536) :: s.dev.sys.coreEvents) ∧
        (e.action = 3 → ∀ c : Fin 4, bitAt (e.arg0.toNat % 16) c.val = true → (s.dev.sns.conv[c]).busy = true →
          t.dev.sns.conv[c] = { s.dev.sns.conv[c] with ignored := satNat 0xFFFF ((s.dev.sns.conv[c]).ignored + 1) })) ∧
    (s.dev.released = true → ∀ a : Access,
      let r := w.saqRegs[a.master.ix]
      let sel : Fin 256 := Fin.ofNat 256 r.sel.toNat
      (r.entry.invalid = true →
        ∃ t, exec (.saqAdd a) s = .next t ∧ t.mem = s.mem ∧ t.dev.whl = { w with saqResult := 4 } ∧
          { t.dev.unaccess s.dev with whl := w } = s.dev) ∧
      (r.entry.invalid = false → (∀ i : Fin 256, 32 ≤ i.val → w.saq[i] ≠ none) →
        ∃ t, exec (.saqAdd a) s = .next t ∧ t.mem = s.mem ∧ t.dev.whl = { w with saqResult := 1 } ∧
          { t.dev.unaccess s.dev with whl := w } = s.dev) ∧
      (∀ i : Fin 256, r.entry.invalid = false → 32 ≤ i.val → w.saq[i] = none → (∀ k : Fin 256, 32 ≤ k.val → k < i → w.saq[k] ≠ none) →
        w.passed r.entry = false →
        ∃ t, exec (.saqAdd a) s = .next t ∧ t.mem = s.mem ∧
          t.dev.whl = { w with saq := upd w.saq i (fun _ => some r.entry), saqResult := BitVec.ofNat 32 (i.val * 256) } ∧
          { t.dev.unaccess s.dev with whl := w } = s.dev) ∧
      (∃ t, exec (.saqRemove a) s = .next t ∧ t.mem = s.mem ∧
        t.dev.whl = (if sel.val < 32 then { w with saqResult := 2 } else if w.saq[sel] = none then { w with saqResult := 3 }
          else { w with saq := upd w.saq sel (fun _ => none), saqResult := 0 }) ∧ { t.dev.unaccess s.dev with whl := w } = s.dev) ∧
      (∃ t, exec (.saqRead a) s = .next t ∧ t.mem = s.mem ∧
        t.dev.whl = { w with saqRegs := upd w.saqRegs a.master.ix (fun r => r.show w.saq[sel]),
                             saqResult := if w.saq[sel] = none then 3 else 0 } ∧ { t.dev.unaccess s.dev with whl := w } = s.dev))

/-- The PTP port (R425 to R429; the message contents are presumed, log 30). Announce selects a first or a better master; without one W1 takes no sample; Sync is stamped
and waits for its Follow_Up, which completes the exchange and with a valid delay gives W1 a sample; a due delay request is sent and stamped; its
response gives the delay, end to end or between peers; a Pdelay_Req is answered; other messages are counted; a timestamp is popped oldest
first. -/
def Obligations.PtpPort : Prop :=
  ∀ s : State, s.dev.ptpRuns = true →
    let w := s.dev.whl
    let p := w.ptp
    (∀ m : PtpAnnounce, m.domain = w.cfg.ptpDomain →
      ∃ t, exec (.announce m) s = .next t ∧ t.mem = s.mem ∧
        t.dev.whl.ptp.master = (match p.master with
          | none => some m
          | some b => if b.srcPort = m.srcPort ∨ betterMaster m b = true then some m else some b) ∧
        t.dev.whl.ptp.counts = upd p.counts 0 (fun c => satAdd c 1) ∧
        { t.dev.unreport s.dev with whl := { t.dev.whl with ptp := p } } = s.dev) ∧
    (∃ t, exec .announceReceiptTimeout s = .next t ∧ t.mem = s.mem ∧
      t.dev.whl = { w with ptp := { p with master := none, sync := none, lastSync := none } } ∧ { t.dev.unreport s.dev with whl := w } = s.dev) ∧
    (∀ m : PtpMsg, s.dev.fromMaster m = true →
      (∃ t, exec (.sync m) s = .next t ∧ t.mem = s.mem ∧ t.dev.whl.ptp.sync = some (m.seqId, (w.nsOf 1 : Int) + w.cfg.ingress, m.corr) ∧
        t.dev.whl.ptp.counts = upd p.counts 1 (fun c => satAdd c 1) ∧ { t.dev.unreport s.dev with whl := { t.dev.whl with ptp := p } } = s.dev) ∧
      (∀ t2 corr : Int, p.sync = some (m.seqId, t2, corr) → p.delay = none ∨ (w.cfgOf 1).source ≠ 1 ∨ 16 < p.delayAge →
        ∃ t, exec (.followUp m) s = .next t ∧ t.mem = s.mem ∧
          t.dev.whl.ptp = { p with sync := none, lastSync := some (m.stamp + m.corr + corr, t2), counts := upd p.counts 2 fun c => satAdd c 1 } ∧
          { t.dev.unreport s.dev with whl := { t.dev.whl with ptp := p } } = s.dev) ∧
      (∀ t2 corr dl : Int, p.sync = some (m.seqId, t2, corr) → p.delay = some dl → (w.cfgOf 1).source = 1 → p.delayAge ≤ 16 →
        (w.servo[(0 : Fin 5)]).st = .tracking → (w.servo[(0 : Fin 5)]).first = none →
        let theta := t2 - (m.stamp + m.corr + corr) - dl
        theta.natAbs < (w.cfgOf 1).stepThr * 1000 →
        ∃ t, exec (.followUp m) s = .next t ∧ t.mem = s.mem ∧ (t.dev.whl.servo[(0 : Fin 5)]).theta = theta ∧
          (t.dev.whl.servo[(0 : Fin 5)]).integ = (w.servo[(0 : Fin 5)]).integ + (w.cfgOf 1).ki * theta ∧ t.dev.whl.ptp.sync = none) ∧
      (∀ t3 t1 t2 : Int, w.cfg.ptpProfile ≠ 1 → p.delayReq = some (m.seqId, some t3) → p.lastSync = some (t1, t2) →
        ∃ t, exec (.delayResp m) s = .next t ∧ t.mem = s.mem ∧
          t.dev.whl.ptp.delay = some (roundDiv ((t2 - t1) + (m.stamp - m.corr - t3)) 2) ∧ t.dev.whl.ptp.delayAge = 0 ∧
          t.dev.whl.ptp.delayReq = none ∧ { t.dev.unreport s.dev with whl := { t.dev.whl with ptp := p } } = s.dev)) ∧
    (w.cfg.ptpProfile = 1 ∨ p.master.isSome = true → p.tsq.length < 16 →
      ∃ (t : State) (x : TsEntry), exec .delayReqDue s = .next t ∧ t.mem = s.mem ∧ t.dev.whl.ptp.tsq = p.tsq ++ [x] ∧
        x.seqId = p.nextSeq ∧ x.mtype = (if w.cfg.ptpProfile = 1 then 2 else 1) ∧ t.dev.whl.ptp.nextSeq = p.nextSeq + 1 ∧
        t.dev.whl.ptp.delayReq = some (p.nextSeq, some ((w.nsOf 1 : Int) + w.cfg.egress)) ∧
        (t.dev.whl.ptp.sent.head?.map fun y => (y.1, y.2.1)) = some (x.mtype, p.nextSeq) ∧
        { t.dev.unreport s.dev with whl := { t.dev.whl with ptp := p } } = s.dev) ∧
    (∀ m : PtpMsg, w.cfg.ptpProfile = 1 →
      (p.tsq.length < 16 →
        ∃ (t : State) (x : TsEntry), exec (.pdelayReq m) s = .next t ∧ t.mem = s.mem ∧ t.dev.whl.ptp.tsq = p.tsq ++ [x] ∧ x.mtype = 3 ∧
          x.seqId = m.seqId ∧ t.dev.whl.ptp.counts = upd p.counts 4 (fun c => satAdd c 1) ∧
          t.dev.whl.ptp.sent = (if w.cfg.oneStep then [] else [(0xA, m.seqId, (w.nsOf 1 : Int) + w.cfg.egress)]) ++
            (3, m.seqId, (w.nsOf 1 : Int) + w.cfg.ingress) :: p.sent) ∧
      (∀ t1, p.delayReq = some (m.seqId, t1) →
        ∃ t, exec (.pdelayResp m) s = .next t ∧ t.mem = s.mem ∧
          t.dev.whl.ptp = { p with pdResp := some (m.seqId, (w.nsOf 1 : Int) + w.cfg.ingress, m.stamp, m.corr),
                                   counts := upd p.counts 3 fun c => satAdd c 1 } ∧
          { t.dev.unreport s.dev with whl := { t.dev.whl with ptp := p } } = s.dev) ∧
      (∀ (k : Half) (t1 t4 t2 corr : Int), p.delayReq = some (k, some t1) → p.pdResp = some (m.seqId, t4, t2, corr) →
        ∃ t, exec (.pdelayRespFollowUp m) s = .next t ∧ t.mem = s.mem ∧
          t.dev.whl.ptp = { p with delay := some (roundDiv ((t4 - t1) - (m.stamp - t2) - corr - m.corr) 2), delayAge := 0,
                                   delayReq := none, pdResp := none } ∧
          { t.dev.unreport s.dev with whl := { t.dev.whl with ptp := p } } = s.dev)) ∧
    (∃ t, exec .ptpDiscard s = .next t ∧ t.mem = s.mem ∧ t.dev.whl.ptp = { p with counts := upd p.counts 5 fun c => satAdd c 1 } ∧
      { t.dev.unreport s.dev with whl := { t.dev.whl with ptp := p } } = s.dev) ∧
    (∀ (a : Access) (x : TsEntry) (l : List TsEntry), p.tsq = x :: l →
      ∃ t, exec (.ethTsqPop a) s = .next t ∧ t.mem = s.mem ∧ t.dev.whl.ptp = { p with tsq := l } ∧
        t.dev.bus.answer = some ⟨a.master, 0, 0, (BitVec.ofNat 32 (x.time.frac + x.time.epoch * 65536)).zeroExtend 64⟩ ∧
        { t.dev.unaccess s.dev with whl := { t.dev.whl with ptp := p } } = s.dev)
/-- Ring ports and messages between neighbours (R458, R459, R463 to R465, R475; 03 R109). A trained port comes up with its coefficients, and its node tells the
head of its segment by LINK_EVENT; a port that loses lock goes down, is reported, and counts its retries. An up port asks its neighbour for the
link delay, is answered with t2 and t3, and keeps the last eight measurements. A unicast message in transit leaves by the port of its
direction with its hop count raised, reversed and WRAPPED at a down port, discarded at a second one or at 255 hops; the retimer tier passes every
message to the opposite port unchanged but for the residence added to a TIME correction; a junction moves it to its other interface, and answers for an unenumerated child. -/
def Obligations.RingPorts : Prop :=
  ∀ (s : State) (p : Fin 4),
    let k := s.dev.skn
    let r := ringOf p
    let id := s.dev.nodeId r
    (∀ c : EqCoeffs, s.dev.aon.tier[r] = .retimer ∨ s.dev.aon.tier[r] = .full → k.stopped = false → s.dev.laneServes (ringLane p) = true →
      (k.ports[p]).up = false →
      ∃ t, exec (.ringPortUp p c) s = .next t ∧ t.mem = s.mem ∧
        t.dev.skn.ports = upd k.ports p (fun x => { x with up := true, coeffs := some c, attempts := 0 }) ∧
        (s.dev.aon.tier[r] = .retimer ∨ id = 0xFFFF → t.dev.skn.sent = k.sent) ∧
        (s.dev.aon.tier[r] = .full → id ≠ 0xFFFF → posOf id ≠ 0 →
          ∃ q m, t.dev.skn.sent = (q, m) :: k.sent ∧ ringOf q = r ∧ m.mtype = 0x19 ∧ m.dest = BitVec.ofNat 16 (segOf id * 256) ∧
            m.payload = [BitVec.ofNat 8 p.val, 1]) ∧
        (s.dev.aon.tier[r] = .full → id ≠ 0xFFFF → posOf id = 0 → t.dev.skn.enumDue[r] = true ∧ t.dev.skn.sent = k.sent) ∧
        { t.dev.unreport s.dev with skn := k } = s.dev) ∧
    ((k.ports[p]).up = true →
      ∃ t, exec (.ringPortLoss p) s = .next t ∧ t.mem = s.mem ∧ t.dev.sys.fault.getLsbD 21 = true ∧ (t.dev.skn.ports[p]).up = false ∧
        (t.dev.skn.ports[p]).delays = [] ∧ (t.dev.skn.ports[p]).coeffs = (k.ports[p]).coeffs ∧
        (∀ q : Fin 4, ringOf q ≠ r → t.dev.skn.ports[q] = k.ports[q]) ∧ { t.dev.unreport s.dev with skn := k } = s.dev) ∧
    ((k.ports[p]).up = false →
      ∃ t, exec (.ringPortRetry p) s = .next t ∧ t.mem = s.mem ∧
        t.dev.skn = { k with ports := upd k.ports p fun x => { x with attempts := x.attempts + 1 } } ∧
        { t.dev.unreport s.dev with skn := k } = s.dev) ∧
    (s.dev.ringIn p = true →
      (∃ t m, exec (.ldlySend p) s = .next t ∧ t.mem = s.mem ∧
        t.dev.skn = { k with ports := upd k.ports p (fun x => { x with ldlyT1 := some s.dev.w0 }), sent := (p, m) :: k.sent } ∧
        m.mtype = 0x11 ∧ m.len = 0 ∧ { t.dev.unreport s.dev with skn := k } = s.dev) ∧
      (∀ q : RingMsg, ∃ t m, exec (.ldlyReq p q) s = .next t ∧ t.mem = s.mem ∧ t.dev.skn = { k with sent := (p, m) :: k.sent } ∧
        m.mtype = 0x12 ∧ m.payload = le 8 s.dev.w0 ++ le 8 s.dev.w0 ∧ { t.dev.unreport s.dev with skn := k } = s.dev) ∧
      (∀ (head : MsgHead) (t1 t2 t3 : Nat), (k.ports[p]).ldlyT1 = some t1 →
        ∃ t, exec (.ldlyResp ⟨p, head⟩ t2 t3) s = .next t ∧ t.mem = s.mem ∧
          t.dev.skn = { k with ports := upd k.ports p fun x =>
            { x with ldlyT1 := none, delays := (((s.dev.w0 : Int) - t1 - (t3 - t2)) :: x.delays).take 8 } } ∧
          { t.dev.unreport s.dev with skn := k } = s.dev)) ∧
    (s.dev.aon.tier[r] = .retimer →
      let Passes : RingMsg → State → Prop := fun m t =>
        t.mem = s.mem ∧ t.dev.skn = { k with sent := (acrossPort p, m) :: k.sent } ∧ { t.dev.unreport s.dev with skn := k } = s.dev
      (∀ (m : RingMsg) (res : Nat), m.mtype ≠ 0x10 → ∃ t, exec (.ringTransit p m res) s = .next t ∧ Passes m t) ∧
      (∀ (m : RingMsg) (res : Nat), m.mtype = 0x10 →
        ∃ t, exec (.ringTransit p m res) s = .next t ∧ Passes { m with
          payload := m.payload.take 16 ++ le 8 (fromLe ((m.payload.drop 16).take 8) + res) ++ m.payload.drop 24 } t) ∧
      (∀ m : RingMsg, ∃ t, exec (.ldlyReq p m) s = .next t ∧ Passes m t) ∧
      (∀ (head : MsgHead) (t2 t3 : Nat),
        ∃ t m, exec (.ldlyResp ⟨p, head⟩ t2 t3) s = .next t ∧ Passes m t ∧ m.mtype = 0x12 ∧ m.src = head.src ∧ m.hops = head.hops ∧
          m.payload = le 8 t2 ++ le 8 t3)) ∧
    (∀ (m : RingMsg) (res : Nat),
      let out := portFor r m.west
      let back := portFor r !m.west
      let below := s.dev.inSubtree (segOf (s.dev.nodeId 1)) (segOf m.dest)
      let crosses := k.junction && decide (segOf m.dest ≠ segOf (s.dev.nodeId r)) && (if r = 0 then below else !below)
      (s.dev.ringIn p = true → crosses = false →
        ∃ t, exec (.ringTransit p m res) s = .next t ∧ t.mem = s.mem ∧ { t.dev.unreport s.dev with skn := k } = s.dev ∧
          (254 ≤ m.hops → t.dev.skn = { k with ports := upd k.ports p fun x => { x with discarded := satAdd x.discarded 1 } }) ∧
          (m.hops < 254 → (k.ports[out]).up = true → t.dev.skn = { k with sent := (out, { m with hops := m.hops + 1 }) :: k.sent }) ∧
          (m.hops < 254 → (k.ports[out]).up = false → m.wrapped = false → (k.ports[back]).up = true →
            t.dev.skn = { k with sent := (back, { m with west := !m.west, wrapped := true, hops := 0 }) :: k.sent }) ∧
          (m.hops < 254 → (k.ports[out]).up = false → m.wrapped = true →
            t.dev.skn = { k with ports := upd k.ports out fun x => { x with discarded := satAdd x.discarded 1 } })) ∧
      (s.dev.ringIn p = true → crosses = true →
        let q := portFor (if r = 0 then 1 else 0) m.west
        (r = 0 → k.enumd[1] = true) → (k.ports[q]).up = true →
        ∃ t, exec (.ringTransit p m res) s = .next t ∧ t.mem = s.mem ∧ t.dev.skn = { k with sent := (q, { m with hops := 0 }) :: k.sent } ∧
          { t.dev.unreport s.dev with skn := k } = s.dev) ∧
      (s.dev.ringIn p = true → crosses = true → r = 0 → k.enumd[1] = false → m.mtype = 1 ∨ m.mtype = 2 ∨ m.mtype = 3 ∨ m.mtype = 8 →
        let q := portFor 0 (s.dev.goesWest 0 (s.dev.targetPos 0 m.src))
        (k.ports[q]).up = true →
        ∃ t x, exec (.ringTransit p m res) s = .next t ∧ t.mem = s.mem ∧ t.dev.skn = { k with sent := (q, x) :: k.sent } ∧
          x.mtype = (if m.mtype = 3 then 6 else 4) ∧ x.code = 1 ∧ x.dest = m.src ∧ x.src = s.dev.nodeId 0 ∧ x.tag = m.tag ∧
          { t.dev.unreport s.dev with skn := k } = s.dev))

/-- Ring time and enumeration (R430, R431, R433, R466 to R469). A node that originates ring time sends TIME with its W2, its ID and its quality
in both directions on its interfaces; a forwarding node adds the link delay and the residence and raises the hop count, samples W2 where it
follows ring time, and ends its own message; the retimer tier adds its residence only. The head sends ENUM with position 1 eastward, takes its
own back with the node count, and sends it westward when it returns WRAPPED; an unpinned node takes the position it carries and passes the next
one; above 255 it takes none and reports. A LINK_EVENT in its segment makes the head's ENUM due, and any other node passes it on. What is passed
on keeps its source. A complement write pins the node ID for the next start. -/
def Obligations.RingTimeAndEnumeration : Prop :=
  ∀ s : State,
    let k := s.dev.skn
    let w := s.dev.whl
    (s.dev.timeOrigin 0 = true ∨ s.dev.timeOrigin 1 = true →
      ∃ t l, exec .timeOriginate s = .next t ∧ t.mem = s.mem ∧ t.dev.skn.timeSeq = (k.timeSeq + 1) % 2 ^ 32 ∧ t.dev.skn.sent = l ++ k.sent ∧
        (∀ r west, s.dev.timeOrigin r = true → (k.ports[portFor r west]).up = true → ∃ m, (portFor r west, m) ∈ l ∧ m.mtype = 0x10 ∧
          m.payload = timeBytes ⟨w.timeNow 2, 0, s.dev.nodeId r, 0, w.quality 2, k.timeSeq⟩) ∧
        (∀ x ∈ l, s.dev.timeOrigin (ringOf x.1) = true ∧ (k.ports[x.1]).up = true) ∧ { t.dev.unreport s.dev with skn := k } = s.dev) ∧
    (∀ (p : Fin 4) (head : MsgHead) (x : TimeMsg) (res : Nat),
      let out := portFor (ringOf p) (decide (p.val % 2 = 0))
      let delay := (k.ports[p]).delay
      (s.dev.ringIn p = true → s.dev.isMe x.node = true →
        ∃ t, exec (.timeMsg ⟨p, head⟩ x res) s = .next t ∧ t.mem = s.mem ∧ t.dev.unreport s.dev = s.dev) ∧
      (s.dev.aon.tier[ringOf p] = .retimer →
        ∃ t m, exec (.timeMsg ⟨p, head⟩ x res) s = .next t ∧ t.mem = s.mem ∧ t.dev.skn = { k with sent := (out, m) :: k.sent } ∧ m.mtype = 0x10 ∧
          m.payload = timeBytes { x with corr := x.corr + res } ∧ m.src = head.src ∧ m.hops = head.hops ∧ { t.dev.unreport s.dev with skn := k } = s.dev) ∧
      (s.dev.ringIn p = true → s.dev.isMe x.node = false → w.cfg.ringQueueMode = false → (w.cfgOf 2).source ≠ 2 → x.hops < 254 →
        (k.ports[out]).up = true →
        ∃ t m, exec (.timeMsg ⟨p, head⟩ x res) s = .next t ∧ t.mem = s.mem ∧ t.dev.skn = { k with sent := (out, m) :: k.sent } ∧ m.mtype = 0x10 ∧
          m.payload = timeBytes { x with corr := x.corr + delay + res, hops := x.hops + 1 } ∧ m.src = head.src ∧ m.hops = head.hops + 1 ∧
          { t.dev.unreport s.dev with skn := k } = s.dev) ∧
      (s.dev.ringIn p = true → s.dev.isMe x.node = false → w.cfg.ringQueueMode = false → (w.cfgOf 2).source = 2 → k.junction = false →
        segOf x.node = segOf (s.dev.nodeId 0) → k.follow = none → (w.servo[(1 : Fin 5)]).st = .tracking →
        (w.servo[(1 : Fin 5)]).first = none →
        let theta : Int := w.nsOf 2 - (x.origin.toNs + (x.origin.frac + (x.corr + delay)) / 65536)
        theta.natAbs < (w.cfgOf 2).stepThr * 1000 →
        ∃ t, exec (.timeMsg ⟨p, head⟩ x res) s = .next t ∧ t.mem = s.mem ∧ (t.dev.whl.servo[(1 : Fin 5)]).theta = theta ∧
          t.dev.whl.originQuality = x.quality ∧ t.dev.skn.follow = some (x.node, x.seq, x.hops, p) ∧
          (∀ n : Fin 5, n ≠ 1 → t.dev.whl.servo[n] = w.servo[n]))) ∧
    (∀ b : Bool, let r := ringIx b
      s.dev.headOn r = true → s.dev.ringOn r = true → (k.ports[portFor r false]).up = true →
        ∃ t m, exec (.enumSend b) s = .next t ∧ t.mem = s.mem ∧
          t.dev.skn = { k with enumDue := upd k.enumDue r (fun _ => false), sent := (portFor r false, m) :: k.sent } ∧ m.mtype = 0x18 ∧
          m.west = false ∧ m.payload = le 1 (segOf (s.dev.nodeId r)) ++ le 1 1 ∧ { t.dev.unreport s.dev with skn := k } = s.dev) ∧
    (∀ (p : Fin 4) (head : MsgHead) (west wrapped : Bool) (segment next count : Nat), s.dev.ringIn p = true →
      let r := ringOf p
      (s.dev.headOn r = true → segment = segOf (s.dev.nodeId r) →
        ∃ t, exec (.enumMsg ⟨p, head⟩ west wrapped segment next count) s = .next t ∧ t.mem = s.mem ∧ t.dev.skn.enumd[r] = true ∧
          t.dev.skn.count[r] = count ∧ t.dev.skn.ids = k.ids ∧
          ((wrapped && west) = false → t.dev.skn.sent = k.sent) ∧
          ((wrapped && west) = true → (k.ports[portFor r true]).up = true →
            ∃ m, t.dev.skn.sent = (portFor r true, m) :: k.sent ∧ m.mtype = 0x18 ∧ m.west = true) ∧
          { t.dev.unreport s.dev with skn := k } = s.dev) ∧
      (s.dev.headOn r = false → k.pins[r] = 0xFFFF → (r = 1 → k.ids[0] = none) →
        (next ≤ 255 → head.hops < 254 → (k.ports[portFor r false]).up = true →
          let id : Half := BitVec.ofNat 16 (segment * 256 + next)
          ∃ t m, exec (.enumMsg ⟨p, head⟩ false false segment next count) s = .next t ∧ t.mem = s.mem ∧ t.dev.skn.ids[r] = some id ∧
            t.dev.skn.enumd[r] = true ∧ t.dev.skn.count[r] = count ∧ t.dev.skn.sent = (portFor r false, m) :: k.sent ∧
            m.mtype = 0x18 ∧ m.payload = le 1 segment ++ le 1 (next + 1) ∧ m.src = head.src ∧ m.hops = head.hops + 1 ∧
            (k.ids[r].isSome = true → k.ids[r] ≠ some id → t.dev.sys.fault.getLsbD 21 = true) ∧
            { t.dev.unreport s.dev with skn := k } = s.dev) ∧
        (255 < next →
          ∃ t, exec (.enumMsg ⟨p, head⟩ false false segment next count) s = .next t ∧ t.mem = s.mem ∧ t.dev.skn.ids[r] = none ∧
            t.dev.sys.fault.getLsbD 21 = true ∧ { t.dev.unreport s.dev with skn := k } = s.dev))) ∧
    (∀ (p : Fin 4) (head : MsgHead) (code now : Byte),
      let r := ringOf p
      let m := linkEventMsg p head code now
      (s.dev.ringIn p = true → s.dev.headOn r = true → segOf head.src = segOf (s.dev.nodeId r) →
        ∃ t, exec (.linkEvent ⟨p, head⟩ code now) s = .next t ∧ t.mem = s.mem ∧
          t.dev.skn = { k with enumDue := upd k.enumDue r fun _ => true } ∧ { t.dev.unreport s.dev with skn := k } = s.dev) ∧
      (s.dev.ringIn p = true → s.dev.headOn r = false → k.junction = false → head.hops < 254 → (k.ports[acrossPort p]).up = true →
        ∃ t, exec (.linkEvent ⟨p, head⟩ code now) s = .next t ∧ t.mem = s.mem ∧
          t.dev.skn = { k with sent := (acrossPort p, { m with hops := head.hops + 1 }) :: k.sent } ∧
          { t.dev.unreport s.dev with skn := k } = s.dev) ∧
      (s.dev.aon.tier[r] = .retimer →
        ∃ t, exec (.linkEvent ⟨p, head⟩ code now) s = .next t ∧ t.mem = s.mem ∧ t.dev.skn = { k with sent := (acrossPort p, m) :: k.sent } ∧
          m.mtype = 0x19 ∧ m.src = head.src ∧ m.hops = head.hops ∧ m.payload = [code, now] ∧ { t.dev.unreport s.dev with skn := k } = s.dev)) ∧
    (∀ (a : Access) (b : Bool), let q := if b then s.dev.pairs.sknPinB else s.dev.pairs.sknPinA
      s.dev.released = true → s.dev.accepts a (regAddr (if b then 0x300EC else 0x300E4)) (~~~q.pending) = true →
      ∃ t, exec (.nodePin a b (~~~q.pending)) s = .next t ∧ t.mem = s.mem ∧
        t.dev.jnl.nodes = upd s.dev.jnl.nodes (ringIx b) (fun _ => q.pending.truncate 16) ∧ t.dev.skn = k)
/-- The bridge at the source (R470, R471, R473 to R475, R478 to R481). A disabled window and an exclusive access are refused; a beat through an enabled window
becomes one request with a free tag, sent towards its node, a posted write answered at once; behind 32 outstanding requests it waits; for an absent
node the requester gets NODE_ABSENT, a posted write a late error. A response ends its request with data or its code, a late one of a read goes
to SKN_RESCUE; an acknowledgement ends a posted write, a LATE_ERROR is logged; without a response the requester gets TIMEOUT; a fence waits for
the master's posted writes and answers the count of the failed ones; the late-error queue pops oldest first. -/
def Obligations.BridgeSource : Prop :=
  ∀ s : State,
    let k := s.dev.skn
    (∀ (a : Access) (write : Bool) (addr : Word) (win off beats size : Nat) (data : List Byte) (ex : Bool), regionOf addr = .ring win off →
      let w := k.win[Fin.ofNat 16 win]
      let posted := write && w.getLsbD 30
      let node : Half := w.truncate 16
      let r := s.dev.ringTo node (w.getLsbD 29)
      let far : Word := BitVec.ofNat 32 (w.toNat / 2 ^ 16 % 256 * 2 ^ 24 + off)
      (a.master = .ring ∨ s.dev.released = false ∨ w.getLsbD 31 = false →
        ∃ t, exec (.windowAccess a write addr beats size data ex) s = .next t ∧ t.mem = s.mem ∧
          t.dev.bus.answer = some ⟨a.master, 2, 0, 0⟩ ∧ t.dev.unaccess s.dev = s.dev) ∧
      (a.master ≠ .ring → s.dev.released = true → w.getLsbD 31 = true →
        (ex = true →
          ∃ t, exec (.windowAccess a write addr beats size data ex) s = .next t ∧ t.mem = s.mem ∧
            t.dev.bus.answer = some ⟨a.master, 3, 0, 0⟩ ∧ t.dev.unaccess s.dev = s.dev) ∧
        (ex = false → k.stalled = [] →
          (32 ≤ k.outstanding a.master →
            ∃ t, exec (.windowAccess a write addr beats size data ex) s = .next t ∧ t.mem = s.mem ∧
              t.dev.skn = { k with stalled := windowTxns w a.master k.nextBurst (w.toNat / 2 ^ 16 % 256 * 2 ^ 24 + off) beats size write data,
                                   nextBurst := k.nextBurst + 1 } ∧
              (posted = true → t.dev.bus.answer = some ⟨a.master, 0, 0, 0⟩) ∧ { t.dev.unaccess s.dev with skn := k } = s.dev) ∧
          (beats = 1 → w.getLsbD 28 = false → k.outstanding a.master < 32 → s.dev.absent r node = false →
            let q := portFor r (s.dev.goesWest r (s.dev.targetPos r node))
            (k.ports[q]).up = true →
            ∃ t x m, exec (.windowAccess a write addr beats size data ex) s = .next t ∧ t.mem = s.mem ∧
              t.dev.skn.txns = (k.txns.filter fun y => decide (y.tag ≠ x.tag)) ++ [x] ∧ x.tag = k.freeTag a.master ∧ x.master = a.master ∧
              x.node = node ∧ x.addr = far ∧ x.len = size ∧ x.write = write ∧ x.posted = posted ∧ x.dead = false ∧
              t.dev.skn.sent = (q, m) :: k.sent ∧ m.mtype = (if write then (if posted then 3 else 2) else 1) ∧ m.tag = x.tag ∧
              m.dest = node ∧ m.src = s.dev.nodeId r ∧ m.addr = far ∧ m.len = size ∧ m.payload = (if write then data.take size else []) ∧
              t.dev.skn.stalled = [] ∧ t.dev.bus.answer = (if posted then some ⟨a.master, 0, 0, 0⟩ else s.dev.bus.answer) ∧
              { t.dev.unaccess s.dev with skn := k } = s.dev) ∧
          (beats = 1 → w.getLsbD 28 = false → k.outstanding a.master < 32 → s.dev.absent r node = true →
            ∃ t, exec (.windowAccess a write addr beats size data ex) s = .next t ∧ t.mem = s.mem ∧ t.dev.skn.txns = k.txns ∧
              t.dev.skn.sent = k.sent ∧
              (posted = false → t.dev.bus.answer = some ⟨a.master, 1, 0, 0⟩ ∧ t.dev.bus.ringFail = some (far, write) ∧ t.dev.skn.leq = k.leq) ∧
              (posted = true → t.dev.bus.answer = some ⟨a.master, 0, 0, 0⟩ ∧ (k.leq.length < 16 →
                ∃ e, t.dev.skn.leq = k.leq ++ [e] ∧ e.code = 1 ∧ e.node = node ∧ e.addr = far ∧ e.master = a.master.ix.val)) ∧
              { t.dev.unaccess s.dev with skn := k, bus := s.dev.bus } = s.dev)))) ∧
    (∀ (p : Fin 4) (m : RingMsg),
      ((s.dev.ringIn p && s.dev.isMe m.dest) = false →
        ∀ c ∈ [Instr.resp p m, .postedAck p m, .lateError p m], ∀ res, exec c s = exec (.ringTransit p m res) s) ∧
      ((s.dev.ringIn p && s.dev.isMe m.dest) = true → k.stalled = [] →
        (∀ x, k.txnOf m false = some x →
          ∃ t, exec (.resp p m) s = .next t ∧ t.mem = s.mem ∧ t.dev.skn.txns = (k.txns.filter fun y => decide (y.tag ≠ x.tag)) ∧
            (x.dead = false → (m.code.truncate 4 : BitVec 4) ≠ 0 →
              t.dev.bus.answer = some ⟨x.master, m.code.truncate 4, m.detail, 0⟩ ∧ t.dev.bus.ringFail = some (x.addr, x.write)) ∧
            (x.dead = false → (m.code.truncate 4 : BitVec 4) = 0 →
              t.dev.bus.answer = some ⟨x.master, 0, 0, BitVec.ofNat 64 (fromLe (m.payload.take 8))⟩ ∧
              t.dev.bus.readData = (if x.write then s.dev.bus.readData else m.payload)) ∧
            (x.dead = true → (m.code.truncate 4 : BitVec 4) = 0 → x.single = true → x.write = false → k.rescueValid = false →
              t.dev.skn.rescueValid = true ∧ t.dev.skn.rescueNode = x.node ∧ t.dev.skn.rescueAddr = x.addr ∧ t.dev.skn.rescueLen = x.len ∧
              t.dev.skn.rescueData = BitVec.ofNat 64 (fromLe (m.payload.take 8)) ∧ t.dev.bus.answer = s.dev.bus.answer) ∧
            { t.dev.unaccess s.dev with skn := k, bus := s.dev.bus } = s.dev) ∧
        (∀ x, k.txnOf m true = some x →
          (∃ t, exec (.postedAck p m) s = .next t ∧ t.mem = s.mem ∧
            t.dev.skn = { k with txns := k.txns.filter fun y => decide (y.tag ≠ x.tag) } ∧ { t.dev.unaccess s.dev with skn := k } = s.dev) ∧
          (k.leq.length < 16 →
            ∃ t e, exec (.lateError p m) s = .next t ∧ t.mem = s.mem ∧ t.dev.skn.txns = (k.txns.filter fun y => decide (y.tag ≠ x.tag)) ∧
              t.dev.skn.leq = k.leq ++ [e] ∧ e.tag = x.tag ∧ e.code = m.code.truncate 4 ∧ e.detail = m.detail ∧
              e.master = x.master.ix.val ∧ e.node = x.node ∧ e.addr = x.addr ∧
              assocGet t.dev.skn.postedFails x.master 0 = satNat 0xFFFF (assocGet k.postedFails x.master 0 + 1) ∧
              { t.dev.unaccess s.dev with skn := k } = s.dev)) ∧
        (k.txnOf m true = none → ∀ c ∈ [Instr.postedAck p m, .lateError p m],
          ∃ t, exec c s = .next t ∧ t.mem = s.mem ∧ t.dev.skn = { k with strays := satAdd k.strays 1 } ∧
            { t.dev.unaccess s.dev with skn := k } = s.dev))) ∧
    (∀ (tag : Byte) (x : Txn), k.stalled = [] → (k.txns.find? fun y => decide (y.tag = tag) && !y.dead) = some x →
      ∃ t, exec (.responseTimeout tag) s = .next t ∧ t.mem = s.mem ∧
        (x.posted = false → t.dev.bus.answer = some ⟨x.master, 4, 0, 0⟩ ∧ t.dev.skn.leq = k.leq) ∧
        (x.posted = true → k.leq.length < 16 → ∃ e, t.dev.skn.leq = k.leq ++ [e] ∧ e.code = 4 ∧ e.tag = x.tag) ∧
        t.dev.skn.txns = (if x.write then k.txns.filter fun y => decide (y.tag ≠ x.tag)
          else k.txns.map fun y => if y.tag = tag then { y with dead := true } else y) ∧
        { t.dev.unaccess s.dev with skn := k, bus := s.dev.bus } = s.dev) ∧
    (∀ a : Access,
      (∀ c, (c = .fenceRead a ∧ s.dev.released = true) ∨ (c = .fenceDrained a ∧ a.master ∈ k.fences) → k.postedOpen a.master = false →
        ∃ t, exec c s = .next t ∧ t.mem = s.mem ∧
          t.dev.bus.answer = some ⟨a.master, 0, 0, BitVec.ofNat 64 (assocGet k.postedFails a.master 0)⟩ ∧
          t.dev.skn = { k with postedFails := k.postedFails.filter (fun p => decide (p.1 ≠ a.master)),
                               fences := k.fences.filter fun m => decide (m ≠ a.master) } ∧
          { t.dev.unaccess s.dev with skn := k } = s.dev) ∧
      (s.dev.released = true → k.postedOpen a.master = true →
        ∃ t, exec (.fenceRead a) s = .next t ∧ t.mem = s.mem ∧ a.master ∈ t.dev.skn.fences ∧ (∀ m, m ∈ t.dev.skn.fences → m ∈ k.fences ∨ m = a.master) ∧
          { t.dev.unreport s.dev with skn := { t.dev.skn with fences := k.fences } } = s.dev) ∧
      (s.dev.released = true →
        (∀ e es, k.leq = e :: es →
          ∃ t, exec (.leqPop a) s = .next t ∧ t.mem = s.mem ∧ t.dev.bus.answer = some ⟨a.master, 0, 0, (wordAt e.bytes 3).zeroExtend 64⟩ ∧
            t.dev.skn = { k with leq := es, leqLast := wordAt e.bytes 3 } ∧ { t.dev.unaccess s.dev with skn := k } = s.dev) ∧
        (k.leq = [] →
          ∃ t, exec (.leqPop a) s = .next t ∧ t.mem = s.mem ∧ t.dev.bus.answer = some ⟨a.master, 0, 0, k.leqLast.zeroExtend 64⟩ ∧
            t.dev.skn = { k with leqUnder := true } ∧ { t.dev.unaccess s.dev with skn := k } = s.dev)))

/-- The bridge at the target (R464, R472, R475, R477, R478, R482). A request that is not for this device passes on. A request for it is one access
by the ring: a window register is written, or read and kept for SKN_SERVED, and the answer returns on the arrival ring with the request's tag;
a size that the register does not have is answered with ADDR_ERR and changes nothing. A request that comes back to its source without WRAPPED ends as
NODE_ABSENT. -/
def Obligations.BridgeTarget : Prop :=
  ∀ (s : State) (p : Fin 4) (m : RingMsg),
    let k := s.dev.skn
    let r := ringOf p
    let q := portFor r (s.dev.goesWest r (s.dev.targetPos r m.src))
    (s.dev.ringIn p = false ∨ s.dev.takes p m = false ∧ (s.dev.isMe m.src && !m.wrapped) = false →
      ∀ c ∈ [Instr.readReq p m, .writeReq p m, .postedWrite p m, .bcastReq p m], ∀ res, exec c s = exec (.ringTransit p m res) s) ∧
    (s.dev.ringIn p = true → s.dev.takes p m = true → s.dev.released = true → (k.ports[q]).up = true →
      (∀ n : Fin 16, m.addr = regAddr (0x30000 + 4 * n.val) →
        (m.len = 4 →
          ∃ t x, exec (.readReq p m) s = .next t ∧ t.mem = s.mem ∧ t.dev.skn.win = k.win ∧
            t.dev.skn.served = ((m.src, m.tag, m.addr, (k.win[n]).zeroExtend 64) :: k.served).take 4 ∧
            t.dev.skn.sent = (q, x) :: k.sent ∧ x.mtype = 4 ∧ x.code = 0 ∧ x.tag = m.tag ∧ x.dest = m.src ∧
            x.payload = le 4 (k.win[n]).toNat ∧ { t.dev.unaccess s.dev with skn := k, bus := s.dev.bus } = s.dev) ∧
        (m.payload.length = 4 → ∀ (c : Instr) (b : Bool), (c = .writeReq p m ∧ b = false) ∨ (c = .postedWrite p m ∧ b = true) →
          ∃ t x, exec c s = .next t ∧ t.mem = s.mem ∧
            t.dev.skn.win = upd k.win n (fun _ => BitVec.ofNat 32 (fromLe m.payload) &&& winMask) ∧
            t.dev.skn.sent = (q, x) :: k.sent ∧ x.mtype = (if b then 5 else 4) ∧ x.code = 0 ∧ x.tag = m.tag ∧ x.dest = m.src ∧
            x.payload = [] ∧ { t.dev.unaccess s.dev with skn := k, bus := s.dev.bus } = s.dev) ∧
        (m.len = 8 →
          ∃ t x, exec (.readReq p m) s = .next t ∧ t.mem = s.mem ∧ t.dev.skn = { k with sent := (q, x) :: k.sent } ∧ x.mtype = 4 ∧
            x.code = 2 ∧ x.tag = m.tag ∧ x.dest = m.src ∧ { t.dev.unaccess s.dev with skn := k } = s.dev) ∧
        (m.payload.length = 8 → ∀ (c : Instr) (b : Bool), (c = .writeReq p m ∧ b = false) ∨ (c = .postedWrite p m ∧ b = true) →
          ∃ t x, exec c s = .next t ∧ t.mem = s.mem ∧ t.dev.skn = { k with sent := (q, x) :: k.sent } ∧ x.mtype = (if b then 6 else 4) ∧
            x.code = 2 ∧ x.tag = m.tag ∧ x.dest = m.src ∧ { t.dev.unaccess s.dev with skn := k } = s.dev))) ∧
    (∀ x, s.dev.ringIn p = true → s.dev.takes p m = false → (s.dev.isMe m.src && !m.wrapped) = true → k.stalled = [] →
      (k.txns.find? fun t => decide (t.tag = m.tag) && decide (t.node = m.dest)) = some x → x.dead = false → x.posted = false →
      ∀ c ∈ [Instr.readReq p m, .writeReq p m],
        ∃ t, exec c s = .next t ∧ t.mem = s.mem ∧ t.dev.bus.answer = some ⟨x.master, 1, 0, 0⟩ ∧
          t.dev.skn.txns = (k.txns.filter fun y => decide (y.tag ≠ x.tag)) ∧
          { t.dev.unaccess s.dev with skn := k, bus := s.dev.bus } = s.dev)
/-- Broadcasts (R474, R483 to R487). GO of an idle source sends BCAST_REQ to the head of the segment, or ends as NODE_ABSENT; an unfit range sends
nothing. A node that is not the head refuses the request; the head queues it behind a running sweep, answers BUSY when 64 wait, and else executes
the write itself and sends SWEEP. A node executes a sweep once and forwards it with its answer in the tally; a junction holds it while it sweeps its
child segment, or lets it go on with one more missed segment; the head starts the next phase or gives the tally to the source, which takes it or
times out. -/
def Obligations.Broadcasts : Prop :=
  ∀ s : State,
    let k := s.dev.skn
    (∀ (a : Access) (v : Word), s.dev.accepts a (regAddr 0x3010C) v = true → v.getLsbD 0 = true → k.bcBusy = false →
      let dest : Half := BitVec.ofNat 16 (k.bcDest.toNat % 256 * 256)
      let r := s.dev.ringTo dest false
      let q := portFor r (s.dev.goesWest r (s.dev.targetPos r dest))
      let tag := tagOf a.master ((k.bcTag.toNat + 1) % 32)
      (k.bcFits = false →
        ∃ t, exec (.broadcastGo a v) s = .next t ∧ t.mem = s.mem ∧ t.dev.skn = { k with bcIgnored := satAdd k.bcIgnored 1 } ∧
          { t.dev.unaccess s.dev with skn := k } = s.dev) ∧
      (k.bcFits = true → s.dev.absent r dest = true →
        ∃ t, exec (.broadcastGo a v) s = .next t ∧ t.mem = s.mem ∧ t.dev.skn.bcBusy = false ∧ t.dev.skn.bcDone = true ∧
          t.dev.skn.bcResult = ⟨0, 0, dest.toNat, 1, 0, 0⟩ ∧ t.dev.skn.sent = k.sent ∧ { t.dev.unaccess s.dev with skn := k } = s.dev) ∧
      (k.bcFits = true → s.dev.absent r dest = false → s.dev.headFor dest = false → (k.ports[q]).up = true →
        ∃ t m, exec (.broadcastGo a v) s = .next t ∧ t.mem = s.mem ∧
          t.dev.skn = { k with bcBusy := true, bcTag := tag, sent := (q, m) :: k.sent } ∧ m.mtype = 8 ∧ m.tag = tag ∧ m.dest = dest ∧
          m.src = s.dev.nodeId r ∧ m.addr = k.bcAddr ∧ m.payload = [BitVec.ofNat 8 (k.bcDest.toNat / 256 % 2), 0, 0, 0] ++ k.bcBytes ∧
          { t.dev.unaccess s.dev with skn := k } = s.dev)) ∧
    (∀ (p : Fin 4) (m : RingMsg), s.dev.ringIn p = true →
      let r := ringOf p
      let q := portFor r (s.dev.goesWest r (s.dev.targetPos r m.src))
      let out := portFor r m.west
      (s.dev.takes p m = true → (k.ports[q]).up = true → ∀ code : BitVec 4,
        (s.dev.headFor m.dest = false ∧ code = 2) ∨ (s.dev.headFor m.dest = true ∧ 64 ≤ k.bcWaiting.length ∧ code = 6) →
        ∃ t x, exec (.bcastReq p m) s = .next t ∧ t.mem = s.mem ∧ t.dev.skn = { k with sent := (q, x) :: k.sent } ∧ x.mtype = 4 ∧
          x.code = code.zeroExtend 8 ∧ x.tag = m.tag ∧ x.dest = m.src ∧ { t.dev.unreport s.dev with skn := k } = s.dev) ∧
      (s.dev.takes p m = true → s.dev.headFor m.dest = true → k.bcWaiting.length < 64 → k.sweep.isSome = true →
        ∃ t, exec (.bcastReq p m) s = .next t ∧ t.mem = s.mem ∧
          t.dev.skn = { k with bcWaiting := k.bcWaiting ++ [{ m with ringB := decide (r = 1) }] } ∧
          { t.dev.unreport s.dev with skn := k } = s.dev) ∧
      (∀ n : Fin 16, s.dev.takes p m = true → s.dev.headFor m.dest = true → k.bcWaiting = [] → k.sweep = none → k.parentHeld = none →
        k.junction = false → s.dev.released = true → (k.ports[(0 : Fin 4)]).up = true → k.hasExecuted m.src m.tag = false →
        m.addr = regAddr (0x30000 + 4 * n.val) → m.payload.length = 8 →
        ∃ t x, exec (.bcastReq p m) s = .next t ∧ t.mem = s.mem ∧
          t.dev.skn.win = upd k.win n (fun _ => BitVec.ofNat 32 (fromLe (m.payload.drop 4)) &&& winMask) ∧
          t.dev.skn.hasExecuted m.src m.tag = true ∧ t.dev.skn.sent = (0, x) :: k.sent ∧ x.mtype = 9 ∧ x.tag = m.tag ∧ x.src = m.src ∧
          x.addr = m.addr ∧ x.payload = Tally.bytes ⟨1, 1, 0xFFFFFFFF, 0, 0, 0⟩ ++ m.payload.drop 4 ∧ t.dev.skn.sweep.isSome = true ∧
          { t.dev.unaccess s.dev with skn := k, bus := s.dev.bus } = s.dev) ∧
      (s.dev.ownSweep p m = none → m.hops < 254 → (k.ports[out]).up = true →
        ((m.wrapped || k.hasExecuted m.src m.tag) = true →
          ∃ t, exec (.sweep p m) s = .next t ∧ t.mem = s.mem ∧ t.dev.skn = { k with sent := (out, { m with hops := m.hops + 1 }) :: k.sent } ∧
            { t.dev.unreport s.dev with skn := k } = s.dev) ∧
        (∀ n : Fin 16, (m.wrapped || k.hasExecuted m.src m.tag) = false → s.dev.released = true →
          m.addr = regAddr (0x30000 + 4 * n.val) → m.payload.length = 20 →
          let y := Tally.ofBytes m.payload
          let y1 : Tally := { y with reached := y.reached + 1, acked := y.acked + 1 }
          let data := m.payload.drop 16
          let win := upd k.win n (fun _ => BitVec.ofNat 32 (fromLe data) &&& winMask)
          ((k.junction && decide (r = 0) && decide (m.detail = 1)) = false →
            ∃ t, exec (.sweep p m) s = .next t ∧ t.mem = s.mem ∧ t.dev.skn.win = win ∧ t.dev.skn.hasExecuted m.src m.tag = true ∧
              t.dev.skn.sent = (out, { m with hops := m.hops + 1, payload := y1.bytes ++ data }) :: k.sent ∧
              { t.dev.unaccess s.dev with skn := k, bus := s.dev.bus } = s.dev) ∧
          (k.junction = true → r = 0 → m.detail = 1 → k.parentHeld = none → k.sweep = none → (k.ports[(2 : Fin 4)]).up = true →
            ∃ t x, exec (.sweep p m) s = .next t ∧ t.mem = s.mem ∧ t.dev.skn.win = win ∧ t.dev.skn.parentHeld.isSome = true ∧
              t.dev.skn.sent = (2, x) :: k.sent ∧ x.mtype = 9 ∧ x.tag = m.tag ∧ x.src = m.src ∧ x.payload = Tally.empty.bytes ++ data ∧
              { t.dev.unaccess s.dev with skn := k, bus := s.dev.bus } = s.dev))) ∧
      (∀ h, s.dev.ownSweep p m = some h →
        let y := Tally.ofBytes m.payload
        (∀ j, s.dev.nextPhase s.dev.sweepRing y.reached (afterPhase h.phase m.wrapped) = some j →
          ∃ t x, exec (.sweep p m) s = .next t ∧ t.mem = s.mem ∧ t.dev.skn.sweep = some { h with tally := y, phase := j } ∧
            t.dev.skn.sent = (phasePort s.dev.sweepRing j, x) :: k.sent ∧ x.mtype = 9 ∧ x.tag = h.tag ∧ x.payload = y.bytes ++ h.data ∧
            { t.dev.unreport s.dev with skn := k } = s.dev) ∧
        (s.dev.nextPhase s.dev.sweepRing y.reached (afterPhase h.phase m.wrapped) = none → h.forParent = false → k.parentHeld = none →
          k.bcWaiting = [] →
          (s.dev.isMe h.src = true → k.bcBusy = true → h.tag = k.bcTag →
            ∃ t, exec (.sweep p m) s = .next t ∧ t.mem = s.mem ∧
              t.dev.skn = { k with sweep := none, bcBusy := false, bcDone := true, bcResult := y } ∧
              { t.dev.unreport s.dev with skn := k } = s.dev) ∧
          (let c := ringIx h.onB
           let u := portFor c (s.dev.goesWest c (s.dev.targetPos c h.src))
           s.dev.isMe h.src = false → (k.ports[u]).up = true →
            ∃ t x, exec (.sweep p m) s = .next t ∧ t.mem = s.mem ∧ t.dev.skn = { k with sweep := none, sent := (u, x) :: k.sent } ∧
              x.mtype = 0x0A ∧ x.tag = h.tag ∧ x.dest = h.src ∧ x.payload = y.bytes ∧ { t.dev.unreport s.dev with skn := k } = s.dev))) ∧
      (s.dev.isMe m.dest = true → k.bcBusy = true → m.tag = k.bcTag →
        ∃ t, exec (.bcastResp p m) s = .next t ∧ t.mem = s.mem ∧
          t.dev.skn = { k with bcBusy := false, bcDone := true, bcResult := Tally.ofBytes m.payload } ∧
          { t.dev.unreport s.dev with skn := k } = s.dev) ∧
      (s.dev.isMe m.dest = false → exec (.bcastResp p m) s = exec (.ringTransit p m 0) s)) ∧
    (∀ m, k.parentHeld = some m → k.bcWaiting = [] → (∀ h, k.sweep = some h → h.forParent = true) → m.hops < 254 →
      (k.ports[portFor 0 m.west]).up = true →
      let y := Tally.ofBytes m.payload
      let y1 : Tally := { y with missed := satNat 0xFFFF (y.missed + 1) }
      let x : RingMsg := { m with hops := m.hops + 1, payload := y1.bytes ++ m.payload.drop 16 }
      ∃ t, exec .junctionBroadcastWait s = .next t ∧ t.mem = s.mem ∧
        t.dev.skn = { k with sweep := none, parentHeld := none, sent := (portFor 0 m.west, x) :: k.sent } ∧
        { t.dev.unreport s.dev with skn := k } = s.dev) ∧
    (k.bcBusy = true → ∃ t, exec .broadcastTimeout s = .next t ∧ t.mem = s.mem ∧
      t.dev.skn = { k with bcBusy := false, bcTimeout := true } ∧ { t.dev.unreport s.dev with skn := k } = s.dev)

/-- Layout staging and activation at a node, and the audit token (R488, R489, R491 to R494, R498, R596). The last word of a block judges it: a known
layout with the digest, outside a transition, in a mode of its mask is staged; the activation of the staged layout becomes a LAYOUT_ACTIVATE
entry. The root head launches a numbered lap with its own references, counted itself; a node of the segment is counted once, a differing layout
only when it differed in the previous lap; the lap that returns is kept, and a mismatch or a silent segment is reported;
the retimer tier passes the token unchanged (03 R109). -/
def Obligations.LayoutActivationAndAudit : Prop :=
  ∀ s : State,
    let k := s.dev.skn
    (∀ (a : Access) (v : Word), s.dev.accepts a (regAddr 0x3030C) v = true →
      let w := heldWord (assocSet k.lstage 3 v)
      let id := (w 0).toNat % 256
      let digest : DWord := w 3 ++ w 2
      (∀ (code : BitVec 4) (detail : Byte),
        (s.dev.layoutCfg id = none ∧ code = 2 ∧ detail = 1) ∨
        (∃ l, s.dev.layoutCfg id = some l ∧
          ((BitVec.ofNat 64 l.digest ≠ digest ∧ code = 2 ∧ detail = 2) ∨
           (BitVec.ofNat 64 l.digest = digest ∧ s.dev.sys.transition.isSome = true ∧ code = 6 ∧ detail = 4) ∨
           (BitVec.ofNat 64 l.digest = digest ∧ s.dev.sys.transition = none ∧ l.allows s.dev.sys.mode = false ∧ code = 2 ∧ detail = 3))) →
        ∃ t, exec (.lstageWrite a v) s = .next t ∧ t.mem = s.mem ∧ t.dev.bus.answer = some ⟨a.master, code, detail, 0⟩ ∧
          t.dev.skn = { k with lstage := [] } ∧ { t.dev.unaccess s.dev with skn := k } = s.dev) ∧
      (∀ l, s.dev.layoutCfg id = some l → BitVec.ofNat 64 l.digest = digest → s.dev.sys.transition = none → l.allows s.dev.sys.mode = true →
        ∃ t, exec (.lstageWrite a v) s = .next t ∧ t.mem = s.mem ∧ t.dev.bus.answer = some ⟨a.master, 0, 0, 0⟩ ∧
          t.dev.skn = { k with lstage := [] } ∧ t.dev.lay = { s.dev.lay with staged := some (id, digest) } ∧
          { t.dev.unaccess s.dev with skn := k, lay := s.dev.lay } = s.dev)) ∧
    (∀ (a : Access) (v : Word), s.dev.accepts a (regAddr 0x3033C) v = true →
      let w := heldWord (assocSet k.lact 7 v)
      let id := (w 0).toNat / 2 ^ 16 % 256
      let whorl := (w 0).toNat % 256
      let digest : DWord := w 7 ++ w 6
      (∀ (code : BitVec 4) (detail : Byte),
        (5 < whorl ∧ code = 2 ∧ detail = 5) ∨ (whorl ≤ 5 ∧ s.dev.lay.staged ≠ some (id, digest) ∧ code = 2 ∧ detail = 6) ∨
        (whorl ≤ 5 ∧ s.dev.lay.staged = some (id, digest) ∧ s.dev.whl.freeEntry = none ∧ code = 6 ∧ detail = 7) →
        ∃ t, exec (.lactWrite a v) s = .next t ∧ t.mem = s.mem ∧ t.dev.bus.answer = some ⟨a.master, code, detail, 0⟩ ∧
          t.dev.skn = { k with lact := [] } ∧ { t.dev.unaccess s.dev with skn := k } = s.dev) ∧
      (∀ i, whorl ≤ 5 → s.dev.lay.staged = some (id, digest) → s.dev.whl.freeEntry = some i →
        let e : SaqEntry := ⟨whorl, ((w 3 ++ w 2 : BitVec 64).toNat * 1000000000 + (w 4).toNat : Nat), 0, true, (w 0).toNat / 256 % 2, 1,
          BitVec.ofNat 32 id, loWord digest, hiWord digest, 0, 0⟩
        s.dev.whl.passed e = false →
        ∃ t, exec (.lactWrite a v) s = .next t ∧ t.mem = s.mem ∧ t.dev.bus.answer = some ⟨a.master, 0, 0, 0⟩ ∧
          t.dev.skn = { k with lact := [] } ∧ t.dev.whl = { s.dev.whl with saq := upd s.dev.whl.saq i fun _ => some e } ∧
          { t.dev.unaccess s.dev with skn := k, whl := s.dev.whl } = s.dev)) ∧
    (∀ (b : Bool) (j : Nat),
      let r := ringIx b
      let id := s.dev.nodeId r
      let x := s.dev.auditSelf
      s.dev.headOn r = true → s.dev.ringOn r = true → id ≠ 0xFFFF → segOf id = 0 → k.junction = false → s.dev.nextPhase r 1 0 = some j →
      ∃ t m y, exec (.auditLaunch b) s = .next t ∧ t.mem = s.mem ∧ t.dev.skn.sent = (phasePort r j, m) :: k.sent ∧ m.mtype = 0x1A ∧
        m.payload = auditBytes y ∧ y.lap = k.lap ∧ y.segment = 0 ∧ y.refLayout = x.layout ∧ y.refGen = x.gen ∧ y.refDigest = x.digest ∧
        y.nodes = 1 ∧ y.mismatch = 0 ∧ y.layoutMismatch = 0 ∧ t.dev.skn.lap = (k.lap + 1) % 2 ^ 32 ∧ t.dev.skn.lapPhase = some j ∧
        { t.dev.unreport s.dev with skn := k } = s.dev) ∧
    (∀ (p : Fin 4) (head : MsgHead) (west wrapped : Bool) (x : AuditToken), s.dev.aon.tier[ringOf p] = .retimer →
      ∃ t m, exec (.audit ⟨p, head⟩ west wrapped x) s = .next t ∧ t.mem = s.mem ∧ t.dev.skn = { k with sent := (acrossPort p, m) :: k.sent } ∧
        m.mtype = 0x1A ∧ m.src = head.src ∧ m.hops = head.hops ∧ m.wrapped = wrapped ∧ m.payload = auditBytes x ∧
        { t.dev.unreport s.dev with skn := k } = s.dev) ∧
    (∀ (p : Fin 4) (head : MsgHead) (west wrapped : Bool) (x : AuditToken), s.dev.ringIn p = true → k.junction = false →
      (s.dev.headOn 0 = false ∨ x.segment ≠ segOf (s.dev.nodeId 0) → head.hops < 254 → (k.ports[portFor (ringOf p) west]).up = true →
        let seen := wrapped || k.lapSeen.any fun y => decide (y = (x.segment, x.lap))
        let me := s.dev.auditSelf
        ∃ t m y, exec (.audit ⟨p, head⟩ west wrapped x) s = .next t ∧ t.mem = s.mem ∧ t.dev.skn.sent = (portFor (ringOf p) west, m) :: k.sent ∧
          m.mtype = 0x1A ∧ m.wrapped = wrapped ∧ m.src = head.src ∧ m.hops = head.hops + 1 ∧ m.payload = auditBytes y ∧
          (seen = true → y = x ∧ t.dev.skn.layoutDiffered = k.layoutDiffered) ∧
          (seen = false → y.nodes = x.nodes + 1 ∧ y.minGen = min x.minGen me.gen ∧ y.maxGen = max x.maxGen me.gen ∧
            y.mismatch = x.mismatch + (if me.gen ≠ x.refGen ∨ me.digest ≠ x.refDigest then 1 else 0) ∧
            y.layoutMismatch = x.layoutMismatch + (if me.layout ≠ x.refLayout ∧ k.layoutDiffered = true then 1 else 0) ∧
            y.silent = x.silent ∧ t.dev.skn.layoutDiffered = decide (me.layout ≠ x.refLayout)) ∧
          { t.dev.unreport s.dev with skn := k } = s.dev) ∧
      (∀ j, s.dev.headOn 0 = true → x.segment = segOf (s.dev.nodeId 0) → k.lapPhase = some j → x.lap = (k.lap + 2 ^ 32 - 1) % 2 ^ 32 →
        s.dev.nextPhase 0 x.nodes (afterPhase j wrapped) = none →
        ∃ t, exec (.audit ⟨p, head⟩ west wrapped x) s = .next t ∧ t.mem = s.mem ∧
          t.dev.skn = { k with lapPhase := none, lapDone := some (s.dev.whl.tim, x) } ∧
          (x.segment = 0 → x.mismatch ≠ 0 ∨ x.layoutMismatch ≠ 0 ∨ x.silent ≠ 0 → t.dev.sys.fault.getLsbD 22 = true) ∧
          { t.dev.unreport s.dev with skn := k } = s.dev))
/-- The sense converters and comparators (R499, R502, R504 to R516; 02 R73). A start begins a triggered converter at its first scan entry with the settings then in
force, and counts on a busy one. A finished conversion delivers round(N x 2^20 / M) with its flags, reports an open wire, and goes on to
the next entry or ends the pass; a read takes the result and clears NEW and OVERRUN. A crossing marks its input and takes the entry's actions: a trip
drops POC_EN, which takes the port's lock, and is counted and reported, a start keeps the crossing time, the power-fail input counts and
reports; blanking ends with a level check; a tripped port is re-enabled below three trips. A complement write commits the window pair of an
input. -/
def Obligations.SenseUnits : Prop :=
  ∀ s : State,
    let x := s.dev.sns
    (∀ (a : Access) (v : Word), s.dev.accepts a (regAddr 0x60000) v = true →
      ∃ t, exec (.converterStart a v) s = .next t ∧ t.mem = s.mem ∧ { t.dev.unaccess s.dev with sns := x } = s.dev ∧
        ∀ c : Fin 4, let u := x.conv[c]
          (bitAt (v.toNat % 16) c.val = false → t.dev.sns.conv[c] = u) ∧
          (bitAt (v.toNat % 16) c.val = true →
            (u.busy = true → t.dev.sns.conv[c] = { u with ignored := satNat 0xFFFF (u.ignored + 1) }) ∧
            (u.busy = false → u.cfg.mode ≠ 2 → t.dev.sns.conv[c] = u) ∧
            (u.busy = false → u.cfg.mode = 2 → u.next = none →
              let n := inputIx (nth u.cfg.scan 0 0)
              let g := (x.inp[n]).next.getD (x.inp[n]).cfg
              (t.dev.sns.conv[c]).busy = true ∧ (t.dev.sns.conv[c]).idx = 0 ∧ (t.dev.sns.conv[c]).cross = none ∧
              (t.dev.sns.conv[c]).last = some (n.val, g.gain, g.pull) ∧
              (t.dev.sns.conv[c]).integ = (if u.cfg.lockedW7 then none else some 0) ∧ (t.dev.sns.conv[c]).res = u.res))) ∧
    (∀ (c : Fin 4) (packets cycles n gain pull : Nat), let u := x.conv[c]
      u.last = some (n, gain, pull) → u.ending = true → cycles ≠ 0 →
      let code := min 0xFFFFF ((packets * 2 ^ 20 + cycles / 2) / cycles)
      let thr := 16 * (x.inp[inputIx n]).cfg.openThr
      let wire : Bool := decide (u.settle = 0) && (decide (pull = 1 ∧ thr ≤ code) || decide (pull = 2 ∧ code ≤ thr))
      ∃ t, exec (.conversionDone c packets cycles) s = .next t ∧ t.mem = s.mem ∧
        (t.dev.sns.conv[c]).res = BitVec.ofNat 32 (2 ^ 31 + (if u.res.getLsbD 31 then 2 ^ 30 else 0) + (if 0 < u.settle then 2 ^ 29 else 0) +
          (if u.cross.isSome then 2 ^ 28 else 0) + (if wire then 2 ^ 27 else 0) + gain * 2 ^ 25 + n * 2 ^ 20 + code) ∧
        (t.dev.sns.conv[c]).resTime = s.dev.w0 ∧ (t.dev.sns.conv[c]).resCross = u.cross ∧
        (wire = true → t.dev.sys.fault.getLsbD 12 = true) ∧
        (u.settle = 0 → u.idx + 1 < u.cfg.scan.length → u.next = none → u.cfg.mode ≠ 0 →
          (t.dev.sns.conv[c]).idx = u.idx + 1 ∧ (t.dev.sns.conv[c]).busy = true) ∧
        (u.settle = 0 → u.cfg.scan.length ≤ u.idx + 1 → u.next = none → u.cfg.mode = 2 →
          (t.dev.sns.conv[c]).idx = 0 ∧ (t.dev.sns.conv[c]).busy = false) ∧
        (∀ k, k ≠ c → t.dev.sns.conv[k] = x.conv[k]) ∧ { t.dev.unreport s.dev with sns := x, age := s.dev.age } = s.dev) ∧
    (∀ (a : Access) (c : Fin 4), s.dev.released = true → let u := x.conv[c]
      (∃ t, exec (.resultRead a c) s = .next t ∧ t.mem = s.mem ∧ t.dev.bus.answer = some ⟨a.master, 0, 0, u.res.zeroExtend 64⟩ ∧
        t.dev.sns = { x with conv := upd x.conv c fun v =>
          { v with res := u.res &&& 0x3FFFFFFF, ts := u.resTime, cts := u.resCross.getD 0 } } ∧
        { t.dev.unaccess s.dev with sns := x } = s.dev) ∧
      (∃ t, exec (.dmaResultRead a c) s = .next t ∧ t.mem = s.mem ∧
        t.dev.bus.answer = some ⟨a.master, 0, 0, if a.master = .dma then BitVec.ofNat 32 (u.resTime % 1000000000) ++ u.res else u.res.zeroExtend 64⟩ ∧
        t.dev.sns = { x with conv := upd x.conv c fun v =>
          { v with res := u.res &&& 0x3FFFFFFF, ts := u.resTime, cts := u.resCross.getD 0,
                   dmaNs := BitVec.ofNat 32 (u.resTime % 1000000000) } } ∧
        { t.dev.unaccess s.dev with sns := x } = s.dev)) ∧
    (∀ (n : Fin 24) (rising : Bool), s.dev.released = true →
      let g := (x.inp[n]).cfg
      let p : PortNo := Fin.ofNat 16 n.val
      let marked := upd x.inp n fun i => { i with above := rising, below := !rising }
      let trips : Bool := rising && decide (n.val < 16) && decide (g.kind = 1) && bitAt g.actions 0 && !s.dev.isBlanked p
      let starts : Bool := bitAt g.actions (if rising then 1 else 2) && decide (g.startConv ≤ 3)
      (trips = false → starts = false → (rising = true → n.val < 16) → (rising = false → s.dev.pfInput ≠ some n.val) →
        ∃ t, exec (.comparatorCrossing n rising) s = .next t ∧ t.mem = s.mem ∧ t.dev.sns = { x with inp := marked } ∧
          { t.dev.unreport s.dev with sns := x } = s.dev) ∧
      (trips = true → starts = false →
        ∃ t, exec (.comparatorCrossing n rising) s = .next t ∧ t.mem = s.mem ∧ t.dev.sns.inp = marked ∧
          t.dev.sns.trip = x.trip ||| (1#16 <<< p.val) ∧ t.dev.sns.trips = upd x.trips p (fun k => min 3 (k + 1)) ∧
          t.dev.pins.pocEn = s.dev.pins.pocEn &&& ~~~(x.trip ||| (1#16 <<< p.val)) ∧ t.dev.sys.fault.getLsbD 12 = true ∧
          t.dev.sns.conv = x.conv ∧
          (x.trip &&& s.dev.pins.pocEn = 0 →
            (s.dev.pins.pocEn.getLsbD p.val = true → (s.dev.ports[p]).locksHeld = true → (t.dev.ports[p]).step = .off) ∧
            (s.dev.pins.pocEn.getLsbD p.val = false ∨ (s.dev.ports[p]).locksHeld = false →
              t.dev.whl = s.dev.whl ∧ t.dev.ports = s.dev.ports ∧ t.dev.strands = s.dev.strands ∧ t.dev.streams = s.dev.streams))) ∧
      (trips = false → starts = true → n.val < 16 → (rising = false → s.dev.pfInput ≠ some n.val) →
        let c : Fin 4 := Fin.ofNat 4 g.startConv
        (x.conv[c]).busy = false → (x.conv[c]).cfg.mode = 2 → (x.conv[c]).next = none →
        ∃ t, exec (.comparatorCrossing n rising) s = .next t ∧ t.mem = s.mem ∧ (t.dev.sns.conv[c]).busy = true ∧
          (t.dev.sns.conv[c]).cross = some s.dev.w0 ∧ (∀ k, k ≠ c → t.dev.sns.conv[k] = x.conv[k]) ∧
          { t.dev.unreport s.dev with sns := x } = s.dev) ∧
      (rising = false → s.dev.pfInput = some n.val →
        ∃ t, exec (.comparatorCrossing n rising) s = .next t ∧ t.mem = s.mem ∧ t.dev.sys.fault.getLsbD 29 = true ∧
          t.dev.jnl.history.powerFails = satNat 0xFFFFFFFF (s.dev.jnl.history.powerFails + 1) ∧ t.dev.whl = s.dev.whl ∧
          t.dev.pins.pocEn = s.dev.pins.pocEn ∧ t.dev.ports = s.dev.ports)) ∧
    (∀ p : PortNo, x.blanked.getLsbD p.val = true →
      let n : Fin 24 := ⟨p.val, by omega⟩
      let g := (x.inp[n]).cfg
      (∃ t, exec (.blankingEnd p false) s = .next t ∧ t.mem = s.mem ∧ t.dev.sns = { x with blanked := x.blanked &&& ~~~(1#16 <<< p.val) } ∧
        { t.dev.unreport s.dev with sns := x } = s.dev) ∧
      (g.kind = 1 → bitAt g.actions 0 = true →
        ∃ t, exec (.blankingEnd p true) s = .next t ∧ t.mem = s.mem ∧ t.dev.sns.trip = x.trip ||| (1#16 <<< p.val) ∧
          t.dev.pins.pocEn = s.dev.pins.pocEn &&& ~~~(x.trip ||| (1#16 <<< p.val)) ∧ t.dev.sys.fault.getLsbD 12 = true)) ∧
    (∀ p : PortNo, x.trip.getLsbD p.val = true → x.trips[p] < 3 → s.dev.livePorts.getLsbD p.val = true →
      ∃ t, exec (.tripReenable p) s = .next t ∧ t.mem = s.mem ∧ t.dev.sns.trip = x.trip &&& ~~~(1#16 <<< p.val) ∧
        t.dev.pins.pocEn = (s.dev.pins.pocEn ||| (1#16 <<< p.val)) &&& ~~~(x.trip &&& ~~~(1#16 <<< p.val)) ∧
        t.dev.sns.conv = x.conv ∧ t.dev.sns.inp = x.inp ∧ t.dev.sns.trips = x.trips ∧ t.dev.strands = s.dev.strands) ∧
    (∀ (a : Access) (n : Fin 24), s.dev.released = true →
      ∃ t, exec (.windowCommit a n (~~~(s.dev.pairs.win[n]).pending)) s = .next t ∧ t.mem = s.mem ∧
        t.dev.pairs.win[n] = ⟨(s.dev.pairs.win[n]).pending, (s.dev.pairs.win[n]).pending⟩ ∧ t.dev.sns = x)
/-- The management DMA (R520 to R522, R524, R525, R527 to R531). START arms an idle channel that passes its check, sets error 8 on one that fails it, and is counted on a
busy one; RESUME repeats a halted burst; ABORT idles the channel and rescues an element that was popped and not written. A free engine takes
the lowest ready channel, and reads the first element of a register source; a finished service has moved its bytes, sets DONE and
raises its event; a failing access halts the channel with its address, direction and code, and nothing is written after it; poisoned data is reported
(01 R39). -/
def Obligations.DmaChannels : Prop :=
  ∀ (s : State) (k : Fin 8),
    let m := s.dev.dma
    let c := m.ch[k]
    let go (st : DmaState) : Chan := { c with st := st }
    let run : DmaState := if c.pace = 0 then .active else .armed
    let event (err : Bool) := if c.ctrl.getLsbD 16 then (c.ctrl.toNat / 2 ^ 17 % 4, k.val, err) :: m.events else m.events
    (∀ (a : Access) (x : Instr) (v : Word), (x, v) ∈ [(Instr.dmaStart a k, 1), (.dmaResume a k, 2), (.dmaAbort a k, 4)] →
      s.dev.accepts a (regAddr (0x70010 + 0x100 * k.val)) v = true →
      ∃ t, exec x s = .next t ∧ t.mem = s.mem ∧ t.dev.bus.answer = some ⟨a.master, 0, 0, 0⟩ ∧ (∀ j, j ≠ k → t.dev.dma.ch[j] = m.ch[j]) ∧
        { t.dev.unaccess s.dev with dma := m } = s.dev ∧
        (v = 1 → c.st ≠ .idle → t.dev.dma = { m with startIgn := satNat 0xFFFF (m.startIgn + 1) }) ∧
        (v = 1 → c.st = .idle → s.dev.startFails k = true → t.dev.dma.ch[k] = { c with err := true, code := 8 } ∧ t.dev.dma.events = event true) ∧
        (v = 1 → c.st = .idle → s.dev.startFails k = false →
          t.dev.dma.ch[k] = { (go run) with remain := c.len.toNat % 2 ^ 24, moved := 0, backward := c.descends, element := none, inService := false } ∧
          t.dev.dma.events = m.events) ∧
        (v = 2 → t.dev.dma.ch[k] = (if c.st = .halted then go run else c) ∧ t.dev.dma.events = m.events) ∧
        (v = 4 → c.st = .idle → t.dev.dma = m) ∧
        (v = 4 → c.st ≠ .idle → t.dev.dma.ch[k] = { (go .idle) with inService := false, element := none } ∧
          t.dev.dma.serving = (if m.serving = some k then none else m.serving) ∧ t.dev.dma.events = m.events ∧
          (∀ e, c.element = some e → m.rescueValid = false → t.dev.dma.rescueValid = true ∧ t.dev.dma.rescueCh = k.val ∧
            t.dev.dma.rescueCount = e.2.length ∧ t.dev.dma.rescueAddr = e.1 ∧ t.dev.dma.rescueData = BitVec.ofNat 64 (fromLe e.2)) ∧
          (∀ e, c.element = some e → m.rescueValid = true → t.dev.dma.rescueOvf = true ∧ t.dev.dma.rescueData = m.rescueData))) ∧
    (m.serving = none → ((List.finRange 8).find? fun j => s.dev.chanReady j) = some k →
      (s.dev.sideEffect c.src = false →
        ∃ t, exec .dmaServiceStart s = .next t ∧ t.mem = s.mem ∧ t.dev.dma.serving = some k ∧
          t.dev.dma.ch = upd m.ch k (fun x => { x with st := .active, inService := true }) ∧
          { t.dev.unreport s.dev with dma := m } = s.dev) ∧
      (∀ n : Fin 16, s.dev.released = true → c.src = regAddr (0x30000 + 4 * n.val) → c.size = 4 → c.moved = 0 → c.backward = false →
        c.element = none →
        ∃ t, exec .dmaServiceStart s = .next t ∧ t.mem = s.mem ∧ t.dev.dma.serving = some k ∧
          t.dev.dma.ch = upd m.ch k (fun x => { x with st := .active, inService := true,
                                                       element := some (c.src, le 4 (s.dev.skn.win[n]).toNat) }) ∧
          { t.dev.unreport s.dev with dma := m, bus := s.dev.bus } = s.dev)) ∧
    (∀ (src dst : Nat) (ring : List Byte), s.dev.released = true → m.serving = some k → c.st = .active → c.pace = 0 → c.ctrl.getLsbD 0 = false →
      c.ctrl.getLsbD 1 = false → c.swap = 0 → c.chkEn = false → c.len.toNat % 2 ^ 24 = 8 → c.moved = 0 → c.backward = false → c.element = none →
      src + 8 ≤ 0x2000000 → dst + 8 ≤ 0x2000000 → src % 8 = 0 → dst % 8 = 0 →
      c.src = BitVec.ofNat 32 (0x20000000 + src) → c.dst = BitVec.ofNat 32 (0x20000000 + dst) →
      (∃ t, exec (.dmaServiceDone ring) s = .next t ∧
        t.mem = { s.mem with stores := Memory.write 0 s.mem.stores dst (Memory.readN 0 s.mem.stores src 8) } ∧
        t.dev.dma.ch[k] = { (go .idle) with done := true, inService := false, remain := 0, moved := 8 } ∧ t.dev.dma.serving = none ∧
        t.dev.dma.events = event false ∧ (∀ j, j ≠ k → t.dev.dma.ch[j] = m.ch[j]) ∧
        { t.dev.unreport s.dev with dma := m, bus := s.dev.bus } = s.dev) ∧
      (∀ (at_ : Nat) (write : Bool) (code : Fin 16), at_ < 8 →
        ∃ t, exec (.dmaAccessFailure k at_ write code ring) s = .next t ∧ t.mem = s.mem ∧
          t.dev.dma.ch[k] = { (go .halted) with err := true, code := code.val, dir := write, moved := 0, remain := 8, inService := false,
                                                errAddr := if write then c.dst else c.src + BitVec.ofNat 32 at_ } ∧
          t.dev.dma.serving = none ∧ t.dev.dma.events = event true ∧ (∀ j, j ≠ k → t.dev.dma.ch[j] = m.ch[j]) ∧
          (code = 5 → t.dev.sys.fault.getLsbD 17 = true) ∧
          { t.dev.unreport s.dev with dma := m, bus := s.dev.bus } = s.dev))

/-- The check units (R534 to R536, R538, R540). Data of the unit's user feeds its CRC, or is judged as an alive value: a repeat, a loss within the gap, or an
error; a restart loads the preset's parameters or the written ones and sets the register to init; any other master's write changes nothing, is
refused and sets FOREIGN. -/
def Obligations.CheckUnits : Prop :=
  ∀ (s : State) (a : Access) (n : Fin 24),
    let u := s.dev.chk[n]
    let base := regAddr (0x80000 + 0x40 * n.val + 0x20)
    (∀ bs : List Byte, s.dev.accepts a base (BitVec.ofNat 32 (fromLe bs)) = true →
      (s.dev.chkMay a.master n true = true →
        (u.act.alive = false → 1 ≤ u.act.w → u.act.w ≤ 64 →
          ∃ t, exec (.chkData a n bs) s = .next t ∧ t.mem = s.mem ∧ t.dev.bus.answer = some ⟨a.master, 0, 0, 0⟩ ∧
            t.dev.chk = upd s.dev.chk n (fun x => { x with
              reg := BitVec.ofNat 64 (bs.foldl (crcByte u.act.w u.act.poly.toNat u.act.refIn) u.reg.toNat) }) ∧
            { t.dev.unaccess s.dev with chk := s.dev.chk } = s.dev) ∧
        (u.act.alive = true → (u.act.w = 16 ∨ u.act.w = 32) → bs.length * 8 = u.act.w →
          let v := fromLe bs
          let d := (v + 2 ^ u.act.w - u.last.toNat) % 2 ^ u.act.w
          ∃ t, exec (.chkData a n bs) s = .next t ∧ t.mem = s.mem ∧ (t.dev.chk[n]).last = BitVec.ofNat 64 v ∧ (t.dev.chk[n]).baseline = true ∧
            (t.dev.chk[n]).repeats = (if u.baseline = true ∧ d = 0 then satNat 0xFF (u.repeats + 1) else u.repeats) ∧
            (t.dev.chk[n]).lost = (if u.baseline = true ∧ 2 ≤ d ∧ d ≤ u.act.gap + 1 then satNat 0xFFFF (u.lost + (d - 1)) else u.lost) ∧
            (t.dev.chk[n]).errors = (if u.baseline = true ∧ 2 ≤ d ∧ u.act.gap + 1 < d then satNat 0xFF (u.errors + 1) else u.errors) ∧
            (∀ j, j ≠ n → t.dev.chk[j] = s.dev.chk[j]) ∧ { t.dev.unaccess s.dev with chk := s.dev.chk } = s.dev)) ∧
      (s.dev.chkMay a.master n true = false →
        ∃ t, exec (.chkData a n bs) s = .next t ∧ t.mem = s.mem ∧ t.dev.bus.answer = some ⟨a.master, 2, 0, 0⟩ ∧
          t.dev.chk = upd s.dev.chk n (fun x => { x with foreign := true }) ∧ { t.dev.unaccess s.dev with chk := s.dev.chk } = s.dev)) ∧
    (∀ v : Word, v.getLsbD 0 = true → s.dev.accepts a (regAddr (0x80000 + 0x40 * n.val + 0x24)) v = true →
      (s.dev.chkMay a.master n false = true →
        ∃ t, exec (.chkRestart a n v) s = .next t ∧ t.mem = s.mem ∧ (t.dev.chk[n]).baseline = false ∧
          (∀ w poly init xor refl, (u.cfg.toNat / 2 ^ 12 % 16, w, poly, init, xor, refl) ∈
            ([(1, 32, 0x1EDC6F41, 0xFFFFFFFF, 0xFFFFFFFF, true), (2, 32, 0x04C11DB7, 0xFFFFFFFF, 0xFFFFFFFF, true),
              (3, 64, 0x42F0E1EBA9EA3693, 0xFFFFFFFFFFFFFFFF, 0xFFFFFFFFFFFFFFFF, true), (4, 16, 0x1021, 0xFFFF, 0, true)] :
              List (Nat × Nat × DWord × DWord × DWord × Bool)) →
            (t.dev.chk[n]).act = ⟨w, poly, init, xor, refl, refl, u.cfg.getLsbD 10, u.cfg.toNat / 2 ^ 16 % 256⟩ ∧ (t.dev.chk[n]).reg = init ∧
            (t.dev.chk[n]).config = u.config) ∧
          (u.cfg.toNat / 2 ^ 12 % 16 = 0 →
            (t.dev.chk[n]).act = ⟨u.cfg.toNat % 128, u.poly, u.init, u.xorOut, u.cfg.getLsbD 8, u.cfg.getLsbD 9, u.cfg.getLsbD 10,
              u.cfg.toNat / 2 ^ 16 % 256⟩ ∧
            (t.dev.chk[n]).config = (u.config || decide (u.cfg.toNat % 128 = 0) || decide (64 < u.cfg.toNat % 128))) ∧
          (∀ j, j ≠ n → t.dev.chk[j] = s.dev.chk[j]) ∧ { t.dev.unaccess s.dev with chk := s.dev.chk } = s.dev) ∧
      (s.dev.chkMay a.master n false = false →
        ∃ t, exec (.chkRestart a n v) s = .next t ∧ t.mem = s.mem ∧ t.dev.bus.answer = some ⟨a.master, 2, 0, 0⟩ ∧
          t.dev.chk = upd s.dev.chk n (fun x => { x with foreign := true }) ∧ { t.dev.unaccess s.dev with chk := s.dev.chk } = s.dev))
/-- The fault summary, the watchdogs, temperature and supply (R551, R552, R556, R557, R606; 07 R242, R243, R258; 02 R68, R73; log 12). A clear takes the bits written as 1, and those whose condition
still stands show again; only core 2 sets bits. A core services its own watchdog; an expired one resets its core, is counted, and reports CORE,
from the second time on CORE_FAIL. A sample keeps the present and the highest temperatures and reports the hot; an AVS target that is not
reached is retried once, then 0.85 V is commanded and SUPPLY reported; either way the cores are released. A spindle that traps, overruns or
fails its self-test is reported. With changed content a journal set falls due, and after a power-fail warning once the input has
recovered. -/
def Obligations.HealthAndSupply : Prop :=
  ∀ (s : State) (a : Access), s.dev.released = true →
    (∀ v : Word, ∃ t, exec (.faultSumClear a v) s = .next t ∧ t.mem = s.mem ∧ t.dev.bus.answer = some ⟨a.master, 0, 0, 0⟩ ∧
      (∀ i, i < 31 → t.dev.sys.fault.getLsbD i =
        ((s.dev.sys.fault.getLsbD i && !v.getLsbD i) || decide ((i, true) ∈ s.dev.standing) || (decide (i = 30) && a.master.diag))) ∧
      t.dev.unaccess s.dev = s.dev) ∧
    (∀ v : Word, a.master = .core 2 →
      ∃ t, exec (.faultSet a v) s = .next t ∧ t.mem = s.mem ∧ t.dev.bus.answer = some ⟨a.master, 0, 0, 0⟩ ∧
        (∀ i, i < 31 → t.dev.sys.fault.getLsbD i = (s.dev.sys.fault.getLsbD i || v.getLsbD i || decide ((i, true) ∈ s.dev.standing))) ∧
        t.dev.unaccess s.dev = s.dev) ∧
    (∀ v : Word, a.master ≠ .core 2 →
      ∃ t, exec (.faultSet a v) s = .next t ∧ t.mem = s.mem ∧ t.dev.bus.answer = some ⟨a.master, 2, 0, 0⟩ ∧ t.dev.unaccess s.dev = s.dev) ∧
    (∀ n : Fin 4,
      (∃ t, exec (.watchdogService a n) s = .next t ∧ t.mem = s.mem ∧
        t.dev.bus.answer = some ⟨a.master, if a.master = .core n then 0 else 2, 0, 0⟩ ∧
        t.dev.sys.serviced = (if a.master = .core n then upd s.dev.sys.serviced n (· + 1) else s.dev.sys.serviced) ∧
        { t.dev.unaccess s.dev with sys := { t.dev.sys with fault := s.dev.sys.fault, serviced := s.dev.sys.serviced } } = s.dev) ∧
      (s.dev.sys.coreRun[n] = true →
        ∃ t, exec (.coreWatchdogExpiry n) s = .next t ∧ t.mem = s.mem ∧ t.dev.sys.wdog = upd s.dev.sys.wdog n (fun c => satAdd c 1) ∧
          t.dev.sys.coreRestarts = upd s.dev.sys.coreRestarts n (· + 1) ∧ t.dev.sys.fault.getLsbD 25 = true ∧
          (s.dev.sys.wdog[n] ≠ 0 → t.dev.sys.fault.getLsbD 26 = true) ∧ { t.dev.unreport s.dev with sys := s.dev.sys } = s.dev)) ∧
    (∀ l : List Int, let now (k : Fin 12) : Int := nth l k.val s.dev.age.temp[k]
      ∃ t, exec (.thermalSample l) s = .next t ∧ t.mem = s.mem ∧ (∀ k : Fin 12, t.dev.age.temp[k] = now k ∧
          t.dev.age.tempMax[k] = (if s.dev.age.tempSeen then max s.dev.age.tempMax[k] (now k) else now k)) ∧
        (∀ k : Fin 12, 120 * 16 ≤ now k → t.dev.sys.fault.getLsbD 6 = true) ∧
        (∀ k : Fin 12, 130 * 16 ≤ now k → t.dev.sys.fault.getLsbD 7 = true) ∧
        (t.dev.fst.hot = true ↔ ∃ k : Fin 12, 85 * 16 < now k) ∧
        { t.dev.unreport s.dev with age := s.dev.age, fst := s.dev.fst } = s.dev) ∧
    (s.dev.age.avsOk = false → s.dev.age.avsRetried = false →
      ∃ t, exec .avsTimeout s = .next t ∧ t.mem = s.mem ∧ t.dev.age = { s.dev.age with avsRetry := true, avsRetried := true } ∧
        { t.dev.unreport s.dev with age := s.dev.age } = s.dev) ∧
    (s.dev.age.avsOk = false → s.dev.age.avsRetried = true →
      ∃ t, exec .avsTimeout s = .next t ∧ t.mem = s.mem ∧ t.dev.age.avsTarget = 850 ∧ t.dev.age.avsEnded = true ∧
        t.dev.sys.fault.getLsbD 5 = true ∧
        (∀ k : Fin 4, s.dev.aon.phase = .running → t.dev.sys.coreRun[k] = true) ∧
        { t.dev.unreport s.dev with age := s.dev.age, sys := s.dev.sys } = s.dev) ∧
    (∀ mv : Nat, ∃ t, exec (.avsTargetReached mv) s = .next t ∧ t.mem = s.mem ∧ t.dev.age = { s.dev.age with avsRead := mv, avsOk := true } ∧
      (∀ k : Fin 4, t.dev.sys.coreRun[k] = (s.dev.sys.coreRun[k] || decide (s.dev.aon.phase = .running))) ∧
      { t.dev.unreport s.dev with age := s.dev.age, sys := s.dev.sys } = s.dev) ∧
    (∀ n : SpindleNo,
      ((s.dev.spn.spindles[n]).job.isSome = true →
        (∃ t, exec (.tileFailure n .illegalOp) s = .next t ∧ t.dev.sys.fault.getLsbD 8 = true ∧ (t.dev.spn.spindles[n]).lastTrap = 2 ∧
          (t.dev.spn.spindles[n]).job = none) ∧
        (∃ t, exec (.tileWatchdog n) s = .next t ∧ t.dev.sys.fault.getLsbD 8 = true ∧ (t.dev.spn.spindles[n]).lastTrap = 4 ∧
          (t.dev.spn.spindles[n]).job = none)) ∧
      ((s.dev.spn.spindles[n]).st = .quarantined →
        ∃ t, exec (.selfTestDone n false) s = .next t ∧ t.mem = s.mem ∧ (t.dev.spn.spindles[n]).st = .held ∧
          t.dev.sys.fault.getLsbD 8 = true)) ∧
    (s.dev.jnl.changed = true → s.dev.jnl.held = false → s.dev.jnl.closed = false →
      ∃ t, exec .journalPeriodicDue s = .next t ∧ t.mem = s.mem ∧ t.dev.jnl.due.isSome = true) ∧
    (∃ t, exec .powerFailRecovered s = .next t ∧ t.mem = s.mem ∧ t.dev.jnl.held = false)

/-- The ageing monitors and the re-plan (R561 to R565, R567 to R569, R593). A delay sample keeps the present and the lowest slacks; a powered minute is
counted, and its stress weighted by the band of the sensor's temperature; in Depot, or after 60,000 minutes, a re-plan is due. An AGE_CTRL bit
outside its mode is counted; a finished probe or scan goes to the history. A finished re-plan is numbered and goes to the journal, retires
every held spindle, and takes effect at once in Depot with NOLIVE alone; the set that is due is programmed and completed, and a sector that is
due is erased. -/
def Obligations.AgeingAndReplan : Prop :=
  ∀ s : State, s.dev.released = true →
    let h := s.dev.jnl.history
    (∀ l : List Nat, let now (k : Nat) := nth l k (nth s.dev.age.slack k 0)
      ∃ t, exec (.delayMonitorSample l) s = .next t ∧ t.mem = s.mem ∧ (∀ k, k < 80 → nth t.dev.age.slack k 0 = now k ∧
          nth t.dev.age.slackMin k 0 = (if s.dev.age.slackSeen then min (nth s.dev.age.slackMin k 0) (now k) else now k) ∧
          (nth t.dev.jnl.history.slack k (0, 0)).1 = now k) ∧
        { t.dev.unreport s.dev with age := s.dev.age, jnl := s.dev.jnl } = s.dev) ∧
    (∃ t, exec .minuteTick s = .next t ∧ t.mem = s.mem ∧ t.dev.jnl.history.minutes = satNat 0xFFFFFFFF (h.minutes + 1) ∧
      t.dev.jnl.history.sincePlan = satNat 0xFFFFFFFF (h.sincePlan + 1) ∧
      (∀ (k : Fin 12) (lo hi : Int) (w : Nat), (lo, hi, w) ∈ [(-4096, 0, 1), (0, 20, 3), (20, 40, 20), (40, 60, 106), (60, 70, 323), (70, 80, 643),
          (80, 90, 1234), (90, 100, 2285), (100, 105, 3550), (105, 110, 4716), (110, 115, 6220), (115, 120, 8144), (120, 125, 10592),
          (125, 130, 13686), (130, 4096, 19864)] → lo * 16 ≤ s.dev.age.temp[k] → s.dev.age.temp[k] < hi * 16 →
        nth t.dev.jnl.history.stress k.val 0 = nth h.stress k.val 0 + w) ∧
      (t.dev.age.replan = if 60000 ≤ satNat 0xFFFFFFFF (h.sincePlan + 1) then some (s.dev.age.replan.getD 0 ||| 2) else s.dev.age.replan) ∧
      { t.dev.unreport s.dev with age := s.dev.age, jnl := s.dev.jnl } = s.dev) ∧
    (s.dev.sys.mode = .depot →
      ∃ t, exec (.replan none) s = .next t ∧ t.mem = s.mem ∧ t.dev.age = { s.dev.age with replan := some (s.dev.age.replan.getD 0 ||| 1) } ∧
        { t.dev.unreport s.dev with age := s.dev.age } = s.dev) ∧
    (∀ (a : Access) (c : Instr) (v : Word), (c, v) ∈ [(Instr.replan (some a), 1), (.vminProbe a, 2), (.eyeScan a, 4)] →
      s.dev.accepts a (regAddr 0x10004) v = true →
      ∃ t, exec c s = .next t ∧ t.mem = s.mem ∧ t.dev.bus.answer = some ⟨a.master, 0, 0, 0⟩ ∧
        (s.dev.sys.mode = .depot → s.dev.sys.nolive = true → t.dev.age =
          (if v = 1 then { s.dev.age with replan := some (s.dev.age.replan.getD 0 ||| 1) }
           else if v = 2 then { s.dev.age with vminBusy := true } else { s.dev.age with eyeBusy := true })) ∧
        (s.dev.sys.mode ≠ .depot → t.dev.age = { s.dev.age with ignored := satAdd s.dev.age.ignored 1 }) ∧
        { t.dev.unaccess s.dev with age := s.dev.age } = s.dev) ∧
    (∀ mv worst : Nat, s.dev.age.vminBusy = true →
      ∃ t, exec (.vminProbeDone mv worst) s = .next t ∧ t.mem = s.mem ∧ t.dev.age = { s.dev.age with vminBusy := false } ∧
        t.dev.jnl.history.vmin = mv ∧ t.dev.jnl.history.vminWorst = worst ∧
        t.dev.jnl.history.vminBase = (if h.vminBase = 0 then mv else h.vminBase) ∧
        { t.dev.unreport s.dev with age := s.dev.age, jnl := s.dev.jnl } = s.dev) ∧
    (∀ l : List (Option (Nat × Nat)), s.dev.age.eyeBusy = true →
      ∃ t, exec (.eyeScanDone l) s = .next t ∧ t.mem = s.mem ∧ t.dev.age = { s.dev.age with eyeBusy := false } ∧
        (∀ p : PortNo, (∀ e, nth l p.val none = some e → (t.dev.ports[p]).eyeH = e.1 ∧ (t.dev.ports[p]).eyeV = e.2) ∧
          (nth l p.val none = none → t.dev.ports[p] = s.dev.ports[p])) ∧
        { t.dev.unreport s.dev with age := s.dev.age, jnl := s.dev.jnl, ports := s.dev.ports } = s.dev) ∧
    (∀ (rows : List SlackRow) (cause : Nat), s.dev.age.replan = some cause →
      ∃ t, exec (.replanDone rows) s = .next t ∧ t.mem = s.mem ∧ t.dev.age.replan = none ∧ t.dev.jnl.plan.valid = true ∧
        t.dev.jnl.plan.number = ((if s.dev.jnl.plan.valid then s.dev.jnl.plan.number else 0) + 1) % 2 ^ 32 ∧
        t.dev.jnl.plan.minutes = h.minutes ∧ t.dev.jnl.plan.cause &&& (cause &&& 3) = cause &&& 3 ∧
        (∀ n : SpindleNo, (s.dev.spn.spindles[n]).st = .held → t.dev.jnl.plan.retired.getLsbD n.val = true) ∧
        t.dev.jnl.history.sincePlan = 0 ∧ t.dev.jnl.due = (match s.dev.jnl.due with | some c => some c | none => some 3) ∧
        t.dev.age.planPending = !s.dev.inNolive ∧ (s.dev.inNolive = false → t.dev.spn = s.dev.spn ∧ t.dev.age.avsTarget = s.dev.age.avsTarget) ∧
        (s.dev.inNolive = true → t.dev.spn.spa = t.dev.jnl.plan.spa ∧ t.dev.spn.spb = t.dev.jnl.plan.spb ∧
          t.dev.age.avsTarget = t.dev.jnl.plan.avs) ∧
        t.dev.strands = s.dev.strands ∧ t.dev.streams = s.dev.streams ∧ t.dev.whl = s.dev.whl ∧ t.dev.ply = s.dev.ply) ∧
    (∀ cause : Nat, s.dev.jnl.due = some cause → s.dev.mayWriteSet cause = true →
      (let bank := Fin.ofNat 2 ((s.dev.jnl.seq + 1) % 2 ^ 32)
       (s.dev.jnl.erasing.any fun e => decide (e = (bank.val, s.dev.jnl.slot[bank] / 4))) = false) →
      ∃ t, exec .journalSetWrite s = .next t ∧ t.dev.jnl.due = none ∧ t.dev.jnl.writing.isSome = true ∧
        { t.mem with nvm := s.mem.nvm } = s.mem) ∧
    (∀ (bank : Fin 2) (slot seq : Nat) (trailer : List Byte), s.dev.jnl.writing = some (bank.val, slot, seq, trailer) →
      s.dev.sys.shutdownStep = 0 →
      ∃ t, exec (.journalSetProgrammed true) s = .next t ∧ t.dev.jnl.writing = none ∧ t.dev.jnl.seq = seq ∧
        { t.mem with nvm := s.mem.nvm } = s.mem) ∧
    (∀ (bank : Fin 2) (sector : Nat) (l : List (Nat × Nat)), s.dev.jnl.erasing = (bank.val, sector) :: l →
      ∃ t, exec (.sectorEraseDone true) s = .next t ∧ t.dev.jnl.erasing = l ∧ { t.mem with nvm := s.mem.nvm } = s.mem)
/-- Lanes under test (R571 to R577). In Production Test a lane control keeps the counters, latches or clears them, and restarts the lock where its pattern or loop changes;
near-end loopback on a second ply lane ends it on the first; a ring port under test goes down; outside Production Test the write is refused. A working checker
locks; a loss counts what was received in lock. TEST_CTRL withdraws ply lanes and starts their generators, returns them, and checks the
return lane for its duration; in another mode it is counted. -/
def Obligations.TestLanes : Prop :=
  ∀ s : State,
    let x := s.dev.tst
    let p := s.dev.ply
    (∀ (a : Access) (lane : Fin 30) (bits errs : Nat) (loop pattern : BitVec 2) (on inv : Bool), s.dev.released = true →
      let l := x.lanes[lane]
      let n : TestLane := if l.locked then
        { l with bits := satNat (2 ^ 64 - 1) (l.bits + bits), errs := satNat (2 ^ 32 - 1) (l.errs + errs) } else l
      let keeps (y : TestLane) : TestLane :=
        { y with locked := l.locked && y.chkEn && decide (y.loop = l.loop) && decide (y.pattern = l.pattern) }
      (s.dev.sys.mode = .production → ∀ (c : Instr) (y : TestLane),
        (c, y) ∈ [(Instr.laneSnap a lane bits errs, { n with snapBits := n.bits, snapErrs := n.errs, snapLosses := n.losses }),
          (.laneClear a lane, { l with bits := 0, errs := 0, losses := 0 }), (.loopbackSelect a lane loop, { l with loop := loop }),
          (.patternSelect a lane pattern, { l with pattern := pattern }), (.generatorEnable a lane on, { l with genEn := on }),
          (.checkerEnable a lane on inv, { l with chkEn := on, invert := inv })] →
        ∃ t, exec c s = .next t ∧ t.mem = s.mem ∧ t.dev.bus.answer = some ⟨a.master, 0, 0, 0⟩ ∧ t.dev.tst.lanes[lane] = keeps y ∧
          (∀ k : Fin 30, k ≠ lane → t.dev.tst.lanes[k] =
            if 16 ≤ lane.val ∧ lane.val < 24 ∧ 16 ≤ k.val ∧ k.val < 24 ∧ y.loop = 1 ∧ (x.lanes[k]).loop = 1 then
              { x.lanes[k] with loop := 0, locked := false } else x.lanes[k]) ∧
          (∀ q : Fin 4, lane.val = 25 + q.val → y.genEn = true ∨ y.loop ≠ 0 → (t.dev.skn.ports[q]).up = false) ∧
          { t.dev.unaccess s.dev with tst := x, skn := s.dev.skn } = s.dev) ∧
      (s.dev.sys.mode ≠ .production → ∀ c ∈ [Instr.laneClear a lane, .loopbackSelect a lane loop, .patternSelect a lane pattern,
          .generatorEnable a lane on, .checkerEnable a lane on inv],
        ∃ t, exec c s = .next t ∧ t.mem = s.mem ∧ t.dev.bus.answer = some ⟨a.master, 2, 0, 0⟩ ∧ t.dev.unaccess s.dev = s.dev)) ∧
    (∀ (lane : Fin 30) (bits errs : Nat), let l := x.lanes[lane]
      (l.chkEn = true → l.loop ≠ 3 → (16 ≤ lane.val → lane.val < 24 → l.loop ≠ 0) →
        ∃ t, exec (.checkerLock lane) s = .next t ∧ t.mem = s.mem ∧
          t.dev.tst = { x with lanes := upd x.lanes lane fun y => { y with locked := true, everLocked := true } } ∧
          { t.dev.unreport s.dev with tst := x } = s.dev) ∧
      (l.locked = true →
        ∃ t, exec (.checkerLoss lane bits errs) s = .next t ∧ t.mem = s.mem ∧
          t.dev.tst = { x with lanes := upd x.lanes lane fun y =>
            { y with bits := satNat (2 ^ 64 - 1) (l.bits + bits), errs := satNat (2 ^ 32 - 1) (l.errs + errs), locked := false,
                     losses := satNat 0xFFFF (l.losses + 1) } } ∧
          { t.dev.unreport s.dev with tst := x } = s.dev)) ∧
    (∀ (mask : Byte) (pattern : BitVec 2) (ms : Nat), s.dev.returnOpen = true →
      (s.dev.sys.mode ≠ .production → ∀ c ∈ [Instr.generatorsOn mask pattern, .generatorsOff mask, .returnLaneChecker pattern ms],
        ∃ t, exec c s = .next t ∧ t.mem = s.mem ∧ t.dev.ply = { p with counts := upd p.counts 4 fun c => satAdd c 1 } ∧
          { t.dev.unreport s.dev with ply := p } = s.dev) ∧
      (s.dev.sys.mode = .production →
        let down := mask &&& p.map
        let back := mask &&& x.genLanes &&& p.lanes
        (∃ t, exec (.generatorsOn mask pattern) s = .next t ∧ t.mem = s.mem ∧ t.dev.tst.genLanes = x.genLanes ||| mask ∧
          (∀ k : Fin 30, t.dev.tst.lanes[k] = if 16 ≤ k.val ∧ k.val < 24 ∧ mask.getLsbD (k.val - 16) = true then
            { x.lanes[k] with genEn := true, pattern := pattern } else x.lanes[k]) ∧
          (p.running = true → down ≠ 0 → t.dev.sys.fault.getLsbD 13 = true ∧
            (p.map &&& ~~~down = 0 → t.dev.ply.st = .test ∧ t.dev.ply.map = 0) ∧
            (p.map &&& ~~~down ≠ 0 → p.buffer = [] → t.dev.ply.map = p.map &&& ~~~down)) ∧
          ((p.running = false ∨ down = 0) → { t.dev.unreport s.dev with tst := x } = s.dev)) ∧
        (∃ t, exec (.generatorsOff mask) s = .next t ∧ t.mem = s.mem ∧ t.dev.tst.genLanes = x.genLanes &&& ~~~mask ∧
          (∀ k : Fin 30, t.dev.tst.lanes[k] = if 16 ≤ k.val ∧ k.val < 24 ∧ mask.getLsbD (k.val - 16) = true then
            { x.lanes[k] with genEn := false } else x.lanes[k]) ∧
          (back = 0 → { t.dev.unreport s.dev with tst := x } = s.dev) ∧
          (back ≠ 0 → p.st = .test → t.dev.ply.st = .reneg ∧ t.dev.ply.map = 0 ∧ t.dev.sys.fault.getLsbD 14 = true) ∧
          (back ≠ 0 → p.st ≠ .test → p.running = true →
            t.dev.ply = { p with retraining := p.retraining ||| back, lockedMask := p.lockedMask &&& ~~~back, sent := .ts1 back :: p.sent } ∧
            { t.dev.unreport s.dev with tst := x, ply := p } = s.dev)) ∧
        (0 < ms →
          ∃ t, exec (.returnLaneChecker pattern ms) s = .next t ∧ t.mem = s.mem ∧
            t.dev.tst = { x with rlCheck := some (pattern.toNat, ms), lanes := upd x.lanes 24 fun l =>
              { l with chkEn := true, pattern := pattern, locked := false } } ∧
            { t.dev.unreport s.dev with tst := x } = s.dev))) ∧
    (x.rlCheck.isSome = true →
      ∃ t, exec .returnLaneCheckEnd s = .next t ∧ t.mem = s.mem ∧
        t.dev.tst = { x with rlCheck := none, lanes := upd x.lanes 24 fun l => { l with chkEn := false, locked := false } } ∧
        { t.dev.unreport s.dev with tst := x } = s.dev)

/-- Image test patterns and self-test (R163, R578 to R582). In Production Test RUN adopts the layout it names for the strands that stand at a frame boundary, or is
counted without that layout or after a self-test; a selected strand delivers one closed frame with every row and zero exposure entries, an
unselected one nothing; RUN 0 ends it. A self-test marks its groups RUNNING and ends every pattern, its end gives PASS or FAIL; what it does not test
keeps its contents. -/
def Obligations.PatternsAndSelfTest : Prop :=
  ∀ s : State,
    let x := s.dev.tst
    (∀ (a : Access) (layout : BitVec 4) (pattern : BitVec 2) (groups : BitVec 4), s.dev.released = true →
      let w : Word := BitVec.ofNat 32 (256 + pattern.toNat * 16 + layout.toNat)
      (s.dev.sys.mode ≠ .production → ∀ c ∈ [Instr.patternRun a layout pattern, .patternStop a, .bistStart a groups],
        ∃ t, exec c s = .next t ∧ t.mem = s.mem ∧ t.dev.bus.answer = some ⟨a.master, 2, 0, 0⟩ ∧ t.dev.unaccess s.dev = s.dev) ∧
      (s.dev.sys.mode = .production →
        (∀ l, s.dev.layoutCfg layout.toNat = some l → x.bistRan = false →
          ∃ t, exec (.patternRun a layout pattern) s = .next t ∧ t.mem = s.mem ∧ t.dev.bus.answer = some ⟨a.master, 0, 0, 0⟩ ∧
            t.dev.tst = { x with patCtrl := w, run := some (layout.toNat, pattern.toNat) } ∧
            (∀ n : StrandNo, (s.dev.strands[n]).inFrame = false →
              t.dev.lay.strand[n] = some l.id ∧ t.dev.strands[n] = s.dev.strands[n]) ∧
            (∀ n : StrandNo, { t.dev.strands[n] with frames := (s.dev.strands[n]).frames } = s.dev.strands[n]) ∧
            t.dev.pins.pocEn = s.dev.pins.pocEn ∧ t.dev.whl = s.dev.whl) ∧
        (s.dev.layoutCfg layout.toNat = none ∨ x.bistRan = true →
          ∃ t, exec (.patternRun a layout pattern) s = .next t ∧ t.mem = s.mem ∧
            t.dev.tst = { x with patCtrl := w, ignored := satAdd x.ignored 1 } ∧ { t.dev.unaccess s.dev with tst := x } = s.dev) ∧
        (∃ t, exec (.patternStop a) s = .next t ∧ t.mem = s.mem ∧ t.dev.tst = { x with patCtrl := x.patCtrl &&& 0x3F, run := none } ∧
          { t.dev.unaccess s.dev with tst := x } = s.dev) ∧
        (groups ≠ 0 →
          ∃ t, exec (.bistStart a groups) s = .next t ∧ { t.mem with sram := s.mem.sram, stage := s.mem.stage, stores := s.mem.stores } = s.mem ∧
            (groups.getLsbD 0 = false → t.mem.sram = s.mem.sram ∧ t.mem.stage = s.mem.stage ∧ t.dev.bob = s.dev.bob) ∧
            (groups.getLsbD 0 = false → groups.getLsbD 1 = false → t.mem = s.mem) ∧ t.dev.tst.bistRan = true ∧ t.dev.tst.run = none ∧
            (∀ g : Fin 4, t.dev.tst.bist[g] = if groups.getLsbD g.val then 3 else x.bist[g]) ∧
            { t.dev.unaccess s.dev with tst := x, bob := s.dev.bob, freeIdx := s.dev.freeIdx } = s.dev))) ∧
    (∀ (g : Fin 4) (pass : Bool), x.bist[g] = 3 →
      ∃ t, exec (.bistDone g pass) s = .next t ∧ t.dev.tst = { x with bist := upd x.bist g fun _ => if pass then 1 else 2 } ∧
        t.mem.fs = s.mem.fs ∧ t.mem.nvm = s.mem.nvm ∧ (2 ≤ g.val → t.mem = s.mem ∧ t.dev.bob = s.dev.bob) ∧
        { t.dev.unreport s.dev with tst := x, bob := s.dev.bob, freeIdx := s.dev.freeIdx } = s.dev) ∧
    (∀ (n : StrandNo) (i : Image) (l pat : Nat), s.dev.img = some i → x.run = some (l, pat) → s.dev.lay.pending = none → x.bistRan = false →
      s.dev.active n = true → s.dev.sys.mode = .production →
      let g := s.dev.strands[n]
      let q := i.prof n.val
      (x.patMask.getLsbD n.val = true → g.numbered = false → g.lostAt = none → g.frames = [] → g.written = false → g.busy = none →
        ∃ t f, exec (.syntheticFrame n) s = .next t ∧ (t.dev.strands[n]).frames = [f] ∧ f.num = 1 ∧ f.isOpen = false ∧ f.byEnd = true ∧
          f.valid = true ∧ f.rowsDone = q.height ∧ f.opening = List.replicate q.exposures ⟨0, 0, 0⟩ ∧
          f.closing = List.replicate q.exposures ⟨0, 0, 0⟩ ∧ (t.dev.strands[n]).live = true ∧ (t.dev.strands[n]).frameNo = 1 ∧
          { t.mem with fs := s.mem.fs } = s.mem ∧ t.dev.whl = s.dev.whl ∧ t.dev.skn = s.dev.skn ∧ t.dev.pins.pocEn = s.dev.pins.pocEn) ∧
      (x.patMask.getLsbD n.val = false →
        ∃ t, exec (.syntheticFrame n) s = .next t ∧ t.mem = s.mem ∧ t.dev.unreport s.dev = s.dev))
/-- The JTAG port, the I2C target port and the management datagrams (R84, R559, R560, R583, R618 to R620; 19; what the standards add, log 10 and log 37). An
instruction is taken with its data register and leaves the block alone: IDCODE reads 0xB16645C7, the EXTEST family and CLAMP drive the pins from
the cells, HIGHZ releases them, a TAP reset selects IDCODE, PTEST enters Production Test where the request is served. An access through MEMAP, the I2C port
or a datagram acts as the access it is, logged with its path; the I2C port answers to 0x5C plus its straps alone; spindle stores are refused outside Production Test; a stopped Ethernet port
answers nothing. -/
def Obligations.RemotePorts : Prop :=
  ∀ s : State,
    let j := s.dev.jtag
    let Takes : Jtag → State → Prop := fun y t => t.mem = s.mem ∧ t.dev.jtag = y ∧ { t.dev.unreport s.dev with jtag := j } = s.dev
    (∃ t, exec .bypass s = .next t ∧ Takes { j with ir := .bypass, dr := 0, pinsFromCells := false, highz := false } t) ∧
    (∃ t, exec .idcode s = .next t ∧ Takes { j with ir := .idcode, dr := 0xB16645C7, pinsFromCells := false, highz := false } t) ∧
    (∃ t, exec .extest s = .next t ∧ Takes { j with ir := .extest, dr := 0, pinsFromCells := true, highz := false } t) ∧
    (∃ t, exec .extestPulse s = .next t ∧ Takes { j with ir := .extestPulse, dr := 0, pinsFromCells := true, highz := false } t) ∧
    (∃ t, exec .extestTrain s = .next t ∧ Takes { j with ir := .extestTrain, dr := 0, pinsFromCells := true, highz := false } t) ∧
    (∃ t, exec .clamp s = .next t ∧ Takes { j with ir := .clamp, dr := 0, pinsFromCells := true, highz := false } t) ∧
    (∃ t, exec .highz s = .next t ∧ Takes { j with ir := .highz, dr := 0, pinsFromCells := false, highz := true } t) ∧
    (∃ t, exec .trstReset s = .next t ∧ Takes ⟨.idcode, 0, [], false, false⟩ t) ∧
    (∀ cells : List Bool, ∃ t, exec (.samplePreload cells) s = .next t ∧ Takes ⟨.sample, 0, cells, false, false⟩ t) ∧
    (let e : Dev := { s.dev with jtag := { j with ir := .ptest, dr := 0, pinsFromCells := false, highz := false } }
     (e.judgeMode (some .production) 0 false true = 0 →
       ∃ t, exec .ptest s = .next t ∧ t.mem = s.mem ∧ t.dev.jtag = e.jtag ∧ t.dev.sys.mode = .production ∧ t.dev.aon.phase = .production ∧
         t.dev.sys.reqCount = s.dev.sys.reqCount ∧ t.dev.tst = s.dev.tst ∧ t.dev.nvm.fitted = s.dev.nvm.fitted ∧ t.dev.pairs = s.dev.pairs) ∧
     (e.judgeMode (some .production) 0 false true ≠ 0 →
       ∃ t, exec .ptest s = .next t ∧ t.mem = s.mem ∧ t.dev.jtag = e.jtag ∧ { t.dev.unreport s.dev with jtag := j } = s.dev)) ∧
    (∀ (port : Half) (ip v : Word) (n : Fin 16) (target : BitVec 7), s.dev.released = true →
      let addr := regAddr (0x30000 + 4 * n.val)
      let Writes : Nat → Half → Word → State → Prop := fun path origin detail t =>
        ∃ r, t.mem = s.mem ∧ t.dev.skn = { s.dev.skn with win := upd s.dev.skn.win n fun _ => v &&& winMask } ∧
          t.dev.jnl.log = (r :: s.dev.jnl.log).take 64 ∧ r.path = path ∧ r.origin = origin ∧ r.detail = detail ∧ r.addr = addr ∧
          r.value = v ∧ r.result = 0 ∧ t.dev.sys.fault.getLsbD 30 = true ∧
          { t.dev.unaccess s.dev with skn := s.dev.skn, jtag := j } = s.dev
      (∃ t, exec (.memap true addr 4 (v.zeroExtend 64)) s = .next t ∧ Writes 1 0 0 t) ∧
      (target.toNat = 0x5C + s.dev.aon.i2ca.toNat → ∃ t, exec (.i2cTargetWrite ⟨target, addr⟩ (le 4 v.toNat)) s = .next t ∧ Writes 2 0 0 t) ∧
      (s.dev.ethRuns = true →
        ∃ t, exec (.managementDatagram port ip true addr 4 (v.zeroExtend 64)) s = .next t ∧ Writes 4 port ip t) ∧
      (∃ t, exec (.memap false addr 4 0) s = .next t ∧ t.mem = s.mem ∧
        t.dev.bus.answer = some ⟨.jtag, 0, 0, (s.dev.skn.win[n]).zeroExtend 64⟩ ∧
        { t.dev.unaccess s.dev with jtag := j, bus := s.dev.bus } = s.dev) ∧
      (target.toNat = 0x5C + s.dev.aon.i2ca.toNat →
        ∃ t, exec (.i2cTargetRead ⟨target, addr⟩ 1) s = .next t ∧ t.mem = s.mem ∧ t.dev.bus.readData = le 4 (s.dev.skn.win[n]).toNat ∧
          { t.dev.unaccess s.dev with bus := s.dev.bus } = s.dev) ∧
      (s.dev.ethRuns = true →
        ∃ t, exec (.managementDatagram port ip false addr 4 0) s = .next t ∧ t.mem = s.mem ∧
          t.dev.bus.answer = some ⟨.eth, 0, 0, (s.dev.skn.win[n]).zeroExtend 64⟩ ∧ { t.dev.unaccess s.dev with bus := s.dev.bus } = s.dev) ∧
      (∀ off : Nat, s.dev.sys.mode ≠ .production → off < 0x2000000 → off % 4 = 0 →
        let cell : Word := BitVec.ofNat 32 (0x20000000 + off)
        (∃ t, exec (.memap true cell 4 (v.zeroExtend 64)) s = .next t ∧ t.mem = s.mem ∧ { t.dev.unaccess s.dev with jtag := j } = s.dev) ∧
        (∃ t, exec (.i2cTargetWrite ⟨target, cell⟩ (le 4 v.toNat)) s = .next t ∧ t.mem = s.mem ∧ t.dev.unaccess s.dev = s.dev) ∧
        (∃ t, exec (.managementDatagram port ip true cell 4 (v.zeroExtend 64)) s = .next t ∧ t.mem = s.mem ∧
          t.dev.unaccess s.dev = s.dev))) ∧
    (∀ (target : BitVec 7) (addr : Word) (bytes : List Byte) (words : Nat), target.toNat ≠ 0x5C + s.dev.aon.i2ca.toNat →
      (∃ t, exec (.i2cTargetWrite ⟨target, addr⟩ bytes) s = .next t ∧ t.mem = s.mem ∧ t.dev.unreport s.dev = s.dev) ∧
      (∃ t, exec (.i2cTargetRead ⟨target, addr⟩ words) s = .next t ∧ t.mem = s.mem ∧ t.dev.unreport s.dev = s.dev)) ∧
    (∀ (port : Half) (ip : Word) (write : Bool) (addr : Word) (size : Nat) (data : DWord), s.dev.ethRuns = false →
      ∃ t, exec (.managementDatagram port ip write addr size data) s = .next t ∧ t.mem = s.mem ∧ t.dev.unreport s.dev = s.dev)
end

