-- ==== Sys2Proof/Laws/State.lean ====
section
/-! SUPPORT. One lemma per field of the registers and per shared update: what the update leaves alone, and what it sets. -/

namespace Sys2Proof.Machine

/-! ### `Dev.onWhl` -/

@[simp] theorem Dev.onWhl_freeIdx (d : Dev) (f : Whl → Whl) : (d.onWhl f).freeIdx = d.freeIdx := rfl
@[simp] theorem Dev.onWhl_idleCycles (d : Dev) (f : Whl → Whl) : (d.onWhl f).idleCycles = d.idleCycles := rfl
@[simp] theorem Dev.onWhl_aon (d : Dev) (f : Whl → Whl) : (d.onWhl f).aon = d.aon := rfl
@[simp] theorem Dev.onWhl_pins (d : Dev) (f : Whl → Whl) : (d.onWhl f).pins = d.pins := rfl
@[simp] theorem Dev.onWhl_sys (d : Dev) (f : Whl → Whl) : (d.onWhl f).sys = d.sys := rfl
@[simp] theorem Dev.onWhl_pairs (d : Dev) (f : Whl → Whl) : (d.onWhl f).pairs = d.pairs := rfl
@[simp] theorem Dev.onWhl_bus (d : Dev) (f : Whl → Whl) : (d.onWhl f).bus = d.bus := rfl
@[simp] theorem Dev.onWhl_jnl (d : Dev) (f : Whl → Whl) : (d.onWhl f).jnl = d.jnl := rfl
@[simp] theorem Dev.onWhl_nvm (d : Dev) (f : Whl → Whl) : (d.onWhl f).nvm = d.nvm := rfl
@[simp] theorem Dev.onWhl_lay (d : Dev) (f : Whl → Whl) : (d.onWhl f).lay = d.lay := rfl
@[simp] theorem Dev.onWhl_img (d : Dev) (f : Whl → Whl) : (d.onWhl f).img = d.img := rfl
@[simp] theorem Dev.onWhl_whl (d : Dev) (f : Whl → Whl) : (d.onWhl f).whl = f d.whl := rfl
@[simp] theorem Dev.onWhl_ports (d : Dev) (f : Whl → Whl) : (d.onWhl f).ports = d.ports := rfl
@[simp] theorem Dev.onWhl_card (d : Dev) (f : Whl → Whl) : (d.onWhl f).card = d.card := rfl
@[simp] theorem Dev.onWhl_strands (d : Dev) (f : Whl → Whl) : (d.onWhl f).strands = d.strands := rfl
@[simp] theorem Dev.onWhl_spn (d : Dev) (f : Whl → Whl) : (d.onWhl f).spn = d.spn := rfl
@[simp] theorem Dev.onWhl_streams (d : Dev) (f : Whl → Whl) : (d.onWhl f).streams = d.streams := rfl
@[simp] theorem Dev.onWhl_bob (d : Dev) (f : Whl → Whl) : (d.onWhl f).bob = d.bob := rfl
@[simp] theorem Dev.onWhl_fst (d : Dev) (f : Whl → Whl) : (d.onWhl f).fst = d.fst := rfl
@[simp] theorem Dev.onWhl_ply (d : Dev) (f : Whl → Whl) : (d.onWhl f).ply = d.ply := rfl
@[simp] theorem Dev.onWhl_hnk (d : Dev) (f : Whl → Whl) : (d.onWhl f).hnk = d.hnk := rfl
@[simp] theorem Dev.onWhl_skn (d : Dev) (f : Whl → Whl) : (d.onWhl f).skn = d.skn := rfl
@[simp] theorem Dev.onWhl_sns (d : Dev) (f : Whl → Whl) : (d.onWhl f).sns = d.sns := rfl
@[simp] theorem Dev.onWhl_dma (d : Dev) (f : Whl → Whl) : (d.onWhl f).dma = d.dma := rfl
@[simp] theorem Dev.onWhl_chk (d : Dev) (f : Whl → Whl) : (d.onWhl f).chk = d.chk := rfl
@[simp] theorem Dev.onWhl_age (d : Dev) (f : Whl → Whl) : (d.onWhl f).age = d.age := rfl
@[simp] theorem Dev.onWhl_tst (d : Dev) (f : Whl → Whl) : (d.onWhl f).tst = d.tst := rfl
@[simp] theorem Dev.onWhl_jtag (d : Dev) (f : Whl → Whl) : (d.onWhl f).jtag = d.jtag := rfl

/-! ### `Dev.onJnl` -/

@[simp] theorem Dev.onJnl_freeIdx (d : Dev) (f : Journal → Journal) : (d.onJnl f).freeIdx = d.freeIdx := rfl
@[simp] theorem Dev.onJnl_idleCycles (d : Dev) (f : Journal → Journal) : (d.onJnl f).idleCycles = d.idleCycles := rfl
@[simp] theorem Dev.onJnl_aon (d : Dev) (f : Journal → Journal) : (d.onJnl f).aon = d.aon := rfl
@[simp] theorem Dev.onJnl_pins (d : Dev) (f : Journal → Journal) : (d.onJnl f).pins = d.pins := rfl
@[simp] theorem Dev.onJnl_sys (d : Dev) (f : Journal → Journal) : (d.onJnl f).sys = d.sys := rfl
@[simp] theorem Dev.onJnl_pairs (d : Dev) (f : Journal → Journal) : (d.onJnl f).pairs = d.pairs := rfl
@[simp] theorem Dev.onJnl_bus (d : Dev) (f : Journal → Journal) : (d.onJnl f).bus = d.bus := rfl
@[simp] theorem Dev.onJnl_jnl (d : Dev) (f : Journal → Journal) : (d.onJnl f).jnl = { f d.jnl with changed := true } := rfl
@[simp] theorem Dev.onJnl_nvm (d : Dev) (f : Journal → Journal) : (d.onJnl f).nvm = d.nvm := rfl
@[simp] theorem Dev.onJnl_lay (d : Dev) (f : Journal → Journal) : (d.onJnl f).lay = d.lay := rfl
@[simp] theorem Dev.onJnl_img (d : Dev) (f : Journal → Journal) : (d.onJnl f).img = d.img := rfl
@[simp] theorem Dev.onJnl_whl (d : Dev) (f : Journal → Journal) : (d.onJnl f).whl = d.whl := rfl
@[simp] theorem Dev.onJnl_ports (d : Dev) (f : Journal → Journal) : (d.onJnl f).ports = d.ports := rfl
@[simp] theorem Dev.onJnl_card (d : Dev) (f : Journal → Journal) : (d.onJnl f).card = d.card := rfl
@[simp] theorem Dev.onJnl_strands (d : Dev) (f : Journal → Journal) : (d.onJnl f).strands = d.strands := rfl
@[simp] theorem Dev.onJnl_spn (d : Dev) (f : Journal → Journal) : (d.onJnl f).spn = d.spn := rfl
@[simp] theorem Dev.onJnl_streams (d : Dev) (f : Journal → Journal) : (d.onJnl f).streams = d.streams := rfl
@[simp] theorem Dev.onJnl_bob (d : Dev) (f : Journal → Journal) : (d.onJnl f).bob = d.bob := rfl
@[simp] theorem Dev.onJnl_fst (d : Dev) (f : Journal → Journal) : (d.onJnl f).fst = d.fst := rfl
@[simp] theorem Dev.onJnl_ply (d : Dev) (f : Journal → Journal) : (d.onJnl f).ply = d.ply := rfl
@[simp] theorem Dev.onJnl_hnk (d : Dev) (f : Journal → Journal) : (d.onJnl f).hnk = d.hnk := rfl
@[simp] theorem Dev.onJnl_skn (d : Dev) (f : Journal → Journal) : (d.onJnl f).skn = d.skn := rfl
@[simp] theorem Dev.onJnl_sns (d : Dev) (f : Journal → Journal) : (d.onJnl f).sns = d.sns := rfl
@[simp] theorem Dev.onJnl_dma (d : Dev) (f : Journal → Journal) : (d.onJnl f).dma = d.dma := rfl
@[simp] theorem Dev.onJnl_chk (d : Dev) (f : Journal → Journal) : (d.onJnl f).chk = d.chk := rfl
@[simp] theorem Dev.onJnl_age (d : Dev) (f : Journal → Journal) : (d.onJnl f).age = d.age := rfl
@[simp] theorem Dev.onJnl_tst (d : Dev) (f : Journal → Journal) : (d.onJnl f).tst = d.tst := rfl
@[simp] theorem Dev.onJnl_jtag (d : Dev) (f : Journal → Journal) : (d.onJnl f).jtag = d.jtag := rfl

/-! ### `Dev.onHist` -/

@[simp] theorem Dev.onHist_freeIdx (d : Dev) (f : History → History) : (d.onHist f).freeIdx = d.freeIdx := rfl
@[simp] theorem Dev.onHist_idleCycles (d : Dev) (f : History → History) : (d.onHist f).idleCycles = d.idleCycles := rfl
@[simp] theorem Dev.onHist_aon (d : Dev) (f : History → History) : (d.onHist f).aon = d.aon := rfl
@[simp] theorem Dev.onHist_pins (d : Dev) (f : History → History) : (d.onHist f).pins = d.pins := rfl
@[simp] theorem Dev.onHist_sys (d : Dev) (f : History → History) : (d.onHist f).sys = d.sys := rfl
@[simp] theorem Dev.onHist_pairs (d : Dev) (f : History → History) : (d.onHist f).pairs = d.pairs := rfl
@[simp] theorem Dev.onHist_bus (d : Dev) (f : History → History) : (d.onHist f).bus = d.bus := rfl
@[simp] theorem Dev.onHist_nvm (d : Dev) (f : History → History) : (d.onHist f).nvm = d.nvm := rfl
@[simp] theorem Dev.onHist_lay (d : Dev) (f : History → History) : (d.onHist f).lay = d.lay := rfl
@[simp] theorem Dev.onHist_img (d : Dev) (f : History → History) : (d.onHist f).img = d.img := rfl
@[simp] theorem Dev.onHist_whl (d : Dev) (f : History → History) : (d.onHist f).whl = d.whl := rfl
@[simp] theorem Dev.onHist_ports (d : Dev) (f : History → History) : (d.onHist f).ports = d.ports := rfl
@[simp] theorem Dev.onHist_card (d : Dev) (f : History → History) : (d.onHist f).card = d.card := rfl
@[simp] theorem Dev.onHist_strands (d : Dev) (f : History → History) : (d.onHist f).strands = d.strands := rfl
@[simp] theorem Dev.onHist_spn (d : Dev) (f : History → History) : (d.onHist f).spn = d.spn := rfl
@[simp] theorem Dev.onHist_streams (d : Dev) (f : History → History) : (d.onHist f).streams = d.streams := rfl
@[simp] theorem Dev.onHist_bob (d : Dev) (f : History → History) : (d.onHist f).bob = d.bob := rfl
@[simp] theorem Dev.onHist_fst (d : Dev) (f : History → History) : (d.onHist f).fst = d.fst := rfl
@[simp] theorem Dev.onHist_ply (d : Dev) (f : History → History) : (d.onHist f).ply = d.ply := rfl
@[simp] theorem Dev.onHist_hnk (d : Dev) (f : History → History) : (d.onHist f).hnk = d.hnk := rfl
@[simp] theorem Dev.onHist_skn (d : Dev) (f : History → History) : (d.onHist f).skn = d.skn := rfl
@[simp] theorem Dev.onHist_sns (d : Dev) (f : History → History) : (d.onHist f).sns = d.sns := rfl
@[simp] theorem Dev.onHist_dma (d : Dev) (f : History → History) : (d.onHist f).dma = d.dma := rfl
@[simp] theorem Dev.onHist_chk (d : Dev) (f : History → History) : (d.onHist f).chk = d.chk := rfl
@[simp] theorem Dev.onHist_age (d : Dev) (f : History → History) : (d.onHist f).age = d.age := rfl
@[simp] theorem Dev.onHist_tst (d : Dev) (f : History → History) : (d.onHist f).tst = d.tst := rfl
@[simp] theorem Dev.onHist_jtag (d : Dev) (f : History → History) : (d.onHist f).jtag = d.jtag := rfl

/-! ### `Dev.numberDecision` -/

@[simp] theorem Dev.numberDecision_freeIdx (d : Dev) : (d.numberDecision).freeIdx = d.freeIdx := rfl
@[simp] theorem Dev.numberDecision_idleCycles (d : Dev) : (d.numberDecision).idleCycles = d.idleCycles := rfl
@[simp] theorem Dev.numberDecision_aon (d : Dev) : (d.numberDecision).aon = d.aon := rfl
@[simp] theorem Dev.numberDecision_pins (d : Dev) : (d.numberDecision).pins = d.pins := rfl
@[simp] theorem Dev.numberDecision_pairs (d : Dev) : (d.numberDecision).pairs = d.pairs := rfl
@[simp] theorem Dev.numberDecision_bus (d : Dev) : (d.numberDecision).bus = d.bus := rfl
@[simp] theorem Dev.numberDecision_jnl (d : Dev) : (d.numberDecision).jnl = d.jnl := rfl
@[simp] theorem Dev.numberDecision_nvm (d : Dev) : (d.numberDecision).nvm = d.nvm := rfl
@[simp] theorem Dev.numberDecision_lay (d : Dev) : (d.numberDecision).lay = d.lay := rfl
@[simp] theorem Dev.numberDecision_img (d : Dev) : (d.numberDecision).img = d.img := rfl
@[simp] theorem Dev.numberDecision_whl (d : Dev) : (d.numberDecision).whl = d.whl := rfl
@[simp] theorem Dev.numberDecision_ports (d : Dev) : (d.numberDecision).ports = d.ports := rfl
@[simp] theorem Dev.numberDecision_card (d : Dev) : (d.numberDecision).card = d.card := rfl
@[simp] theorem Dev.numberDecision_strands (d : Dev) : (d.numberDecision).strands = d.strands := rfl
@[simp] theorem Dev.numberDecision_spn (d : Dev) : (d.numberDecision).spn = d.spn := rfl
@[simp] theorem Dev.numberDecision_streams (d : Dev) : (d.numberDecision).streams = d.streams := rfl
@[simp] theorem Dev.numberDecision_bob (d : Dev) : (d.numberDecision).bob = d.bob := rfl
@[simp] theorem Dev.numberDecision_fst (d : Dev) : (d.numberDecision).fst = d.fst := rfl
@[simp] theorem Dev.numberDecision_ply (d : Dev) : (d.numberDecision).ply = d.ply := rfl
@[simp] theorem Dev.numberDecision_hnk (d : Dev) : (d.numberDecision).hnk = d.hnk := rfl
@[simp] theorem Dev.numberDecision_skn (d : Dev) : (d.numberDecision).skn = d.skn := rfl
@[simp] theorem Dev.numberDecision_sns (d : Dev) : (d.numberDecision).sns = d.sns := rfl
@[simp] theorem Dev.numberDecision_dma (d : Dev) : (d.numberDecision).dma = d.dma := rfl
@[simp] theorem Dev.numberDecision_chk (d : Dev) : (d.numberDecision).chk = d.chk := rfl
@[simp] theorem Dev.numberDecision_age (d : Dev) : (d.numberDecision).age = d.age := rfl
@[simp] theorem Dev.numberDecision_tst (d : Dev) : (d.numberDecision).tst = d.tst := rfl
@[simp] theorem Dev.numberDecision_jtag (d : Dev) : (d.numberDecision).jtag = d.jtag := rfl

/-! ### `Dev.issueDecision` -/

@[simp] theorem Dev.issueDecision_freeIdx (d : Dev) : (d.issueDecision).freeIdx = d.freeIdx := rfl
@[simp] theorem Dev.issueDecision_idleCycles (d : Dev) : (d.issueDecision).idleCycles = d.idleCycles := rfl
@[simp] theorem Dev.issueDecision_aon (d : Dev) : (d.issueDecision).aon = d.aon := rfl
@[simp] theorem Dev.issueDecision_pins (d : Dev) : (d.issueDecision).pins = d.pins := rfl
@[simp] theorem Dev.issueDecision_pairs (d : Dev) : (d.issueDecision).pairs = d.pairs := rfl
@[simp] theorem Dev.issueDecision_bus (d : Dev) : (d.issueDecision).bus = d.bus := rfl
@[simp] theorem Dev.issueDecision_jnl (d : Dev) : (d.issueDecision).jnl = d.jnl := rfl
@[simp] theorem Dev.issueDecision_nvm (d : Dev) : (d.issueDecision).nvm = d.nvm := rfl
@[simp] theorem Dev.issueDecision_lay (d : Dev) : (d.issueDecision).lay = d.lay := rfl
@[simp] theorem Dev.issueDecision_img (d : Dev) : (d.issueDecision).img = d.img := rfl
@[simp] theorem Dev.issueDecision_whl (d : Dev) : (d.issueDecision).whl = d.whl := rfl
@[simp] theorem Dev.issueDecision_ports (d : Dev) : (d.issueDecision).ports = d.ports := rfl
@[simp] theorem Dev.issueDecision_card (d : Dev) : (d.issueDecision).card = d.card := rfl
@[simp] theorem Dev.issueDecision_strands (d : Dev) : (d.issueDecision).strands = d.strands := rfl
@[simp] theorem Dev.issueDecision_spn (d : Dev) : (d.issueDecision).spn = d.spn := rfl
@[simp] theorem Dev.issueDecision_streams (d : Dev) : (d.issueDecision).streams = d.streams := rfl
@[simp] theorem Dev.issueDecision_bob (d : Dev) : (d.issueDecision).bob = d.bob := rfl
@[simp] theorem Dev.issueDecision_fst (d : Dev) : (d.issueDecision).fst = d.fst := rfl
@[simp] theorem Dev.issueDecision_ply (d : Dev) : (d.issueDecision).ply = d.ply := rfl
@[simp] theorem Dev.issueDecision_hnk (d : Dev) : (d.issueDecision).hnk = d.hnk := rfl
@[simp] theorem Dev.issueDecision_skn (d : Dev) : (d.issueDecision).skn = d.skn := rfl
@[simp] theorem Dev.issueDecision_sns (d : Dev) : (d.issueDecision).sns = d.sns := rfl
@[simp] theorem Dev.issueDecision_dma (d : Dev) : (d.issueDecision).dma = d.dma := rfl
@[simp] theorem Dev.issueDecision_chk (d : Dev) : (d.issueDecision).chk = d.chk := rfl
@[simp] theorem Dev.issueDecision_age (d : Dev) : (d.issueDecision).age = d.age := rfl
@[simp] theorem Dev.issueDecision_tst (d : Dev) : (d.issueDecision).tst = d.tst := rfl
@[simp] theorem Dev.issueDecision_jtag (d : Dev) : (d.issueDecision).jtag = d.jtag := rfl

/-! ### `Dev.jnlDue` -/

@[simp] theorem Dev.jnlDue_freeIdx (d : Dev) (c : Nat) : (d.jnlDue c).freeIdx = d.freeIdx := rfl
@[simp] theorem Dev.jnlDue_idleCycles (d : Dev) (c : Nat) : (d.jnlDue c).idleCycles = d.idleCycles := rfl
@[simp] theorem Dev.jnlDue_aon (d : Dev) (c : Nat) : (d.jnlDue c).aon = d.aon := rfl
@[simp] theorem Dev.jnlDue_pins (d : Dev) (c : Nat) : (d.jnlDue c).pins = d.pins := rfl
@[simp] theorem Dev.jnlDue_sys (d : Dev) (c : Nat) : (d.jnlDue c).sys = d.sys := rfl
@[simp] theorem Dev.jnlDue_pairs (d : Dev) (c : Nat) : (d.jnlDue c).pairs = d.pairs := rfl
@[simp] theorem Dev.jnlDue_bus (d : Dev) (c : Nat) : (d.jnlDue c).bus = d.bus := rfl
@[simp] theorem Dev.jnlDue_nvm (d : Dev) (c : Nat) : (d.jnlDue c).nvm = d.nvm := rfl
@[simp] theorem Dev.jnlDue_lay (d : Dev) (c : Nat) : (d.jnlDue c).lay = d.lay := rfl
@[simp] theorem Dev.jnlDue_img (d : Dev) (c : Nat) : (d.jnlDue c).img = d.img := rfl
@[simp] theorem Dev.jnlDue_whl (d : Dev) (c : Nat) : (d.jnlDue c).whl = d.whl := rfl
@[simp] theorem Dev.jnlDue_ports (d : Dev) (c : Nat) : (d.jnlDue c).ports = d.ports := rfl
@[simp] theorem Dev.jnlDue_card (d : Dev) (c : Nat) : (d.jnlDue c).card = d.card := rfl
@[simp] theorem Dev.jnlDue_strands (d : Dev) (c : Nat) : (d.jnlDue c).strands = d.strands := rfl
@[simp] theorem Dev.jnlDue_spn (d : Dev) (c : Nat) : (d.jnlDue c).spn = d.spn := rfl
@[simp] theorem Dev.jnlDue_streams (d : Dev) (c : Nat) : (d.jnlDue c).streams = d.streams := rfl
@[simp] theorem Dev.jnlDue_bob (d : Dev) (c : Nat) : (d.jnlDue c).bob = d.bob := rfl
@[simp] theorem Dev.jnlDue_fst (d : Dev) (c : Nat) : (d.jnlDue c).fst = d.fst := rfl
@[simp] theorem Dev.jnlDue_ply (d : Dev) (c : Nat) : (d.jnlDue c).ply = d.ply := rfl
@[simp] theorem Dev.jnlDue_hnk (d : Dev) (c : Nat) : (d.jnlDue c).hnk = d.hnk := rfl
@[simp] theorem Dev.jnlDue_skn (d : Dev) (c : Nat) : (d.jnlDue c).skn = d.skn := rfl
@[simp] theorem Dev.jnlDue_sns (d : Dev) (c : Nat) : (d.jnlDue c).sns = d.sns := rfl
@[simp] theorem Dev.jnlDue_dma (d : Dev) (c : Nat) : (d.jnlDue c).dma = d.dma := rfl
@[simp] theorem Dev.jnlDue_chk (d : Dev) (c : Nat) : (d.jnlDue c).chk = d.chk := rfl
@[simp] theorem Dev.jnlDue_age (d : Dev) (c : Nat) : (d.jnlDue c).age = d.age := rfl
@[simp] theorem Dev.jnlDue_tst (d : Dev) (c : Nat) : (d.jnlDue c).tst = d.tst := rfl
@[simp] theorem Dev.jnlDue_jtag (d : Dev) (c : Nat) : (d.jnlDue c).jtag = d.jtag := rfl

/-! ### `Dev.coreEvent` -/

@[simp] theorem Dev.coreEvent_freeIdx (d : Dev) (c e : Nat) : (d.coreEvent c e).freeIdx = d.freeIdx := rfl
@[simp] theorem Dev.coreEvent_idleCycles (d : Dev) (c e : Nat) : (d.coreEvent c e).idleCycles = d.idleCycles := rfl
@[simp] theorem Dev.coreEvent_aon (d : Dev) (c e : Nat) : (d.coreEvent c e).aon = d.aon := rfl
@[simp] theorem Dev.coreEvent_pins (d : Dev) (c e : Nat) : (d.coreEvent c e).pins = d.pins := rfl
@[simp] theorem Dev.coreEvent_pairs (d : Dev) (c e : Nat) : (d.coreEvent c e).pairs = d.pairs := rfl
@[simp] theorem Dev.coreEvent_bus (d : Dev) (c e : Nat) : (d.coreEvent c e).bus = d.bus := rfl
@[simp] theorem Dev.coreEvent_jnl (d : Dev) (c e : Nat) : (d.coreEvent c e).jnl = d.jnl := rfl
@[simp] theorem Dev.coreEvent_nvm (d : Dev) (c e : Nat) : (d.coreEvent c e).nvm = d.nvm := rfl
@[simp] theorem Dev.coreEvent_lay (d : Dev) (c e : Nat) : (d.coreEvent c e).lay = d.lay := rfl
@[simp] theorem Dev.coreEvent_img (d : Dev) (c e : Nat) : (d.coreEvent c e).img = d.img := rfl
@[simp] theorem Dev.coreEvent_whl (d : Dev) (c e : Nat) : (d.coreEvent c e).whl = d.whl := rfl
@[simp] theorem Dev.coreEvent_ports (d : Dev) (c e : Nat) : (d.coreEvent c e).ports = d.ports := rfl
@[simp] theorem Dev.coreEvent_card (d : Dev) (c e : Nat) : (d.coreEvent c e).card = d.card := rfl
@[simp] theorem Dev.coreEvent_strands (d : Dev) (c e : Nat) : (d.coreEvent c e).strands = d.strands := rfl
@[simp] theorem Dev.coreEvent_spn (d : Dev) (c e : Nat) : (d.coreEvent c e).spn = d.spn := rfl
@[simp] theorem Dev.coreEvent_streams (d : Dev) (c e : Nat) : (d.coreEvent c e).streams = d.streams := rfl
@[simp] theorem Dev.coreEvent_bob (d : Dev) (c e : Nat) : (d.coreEvent c e).bob = d.bob := rfl
@[simp] theorem Dev.coreEvent_fst (d : Dev) (c e : Nat) : (d.coreEvent c e).fst = d.fst := rfl
@[simp] theorem Dev.coreEvent_ply (d : Dev) (c e : Nat) : (d.coreEvent c e).ply = d.ply := rfl
@[simp] theorem Dev.coreEvent_hnk (d : Dev) (c e : Nat) : (d.coreEvent c e).hnk = d.hnk := rfl
@[simp] theorem Dev.coreEvent_skn (d : Dev) (c e : Nat) : (d.coreEvent c e).skn = d.skn := rfl
@[simp] theorem Dev.coreEvent_sns (d : Dev) (c e : Nat) : (d.coreEvent c e).sns = d.sns := rfl
@[simp] theorem Dev.coreEvent_dma (d : Dev) (c e : Nat) : (d.coreEvent c e).dma = d.dma := rfl
@[simp] theorem Dev.coreEvent_chk (d : Dev) (c e : Nat) : (d.coreEvent c e).chk = d.chk := rfl
@[simp] theorem Dev.coreEvent_age (d : Dev) (c e : Nat) : (d.coreEvent c e).age = d.age := rfl
@[simp] theorem Dev.coreEvent_tst (d : Dev) (c e : Nat) : (d.coreEvent c e).tst = d.tst := rfl
@[simp] theorem Dev.coreEvent_jtag (d : Dev) (c e : Nat) : (d.coreEvent c e).jtag = d.jtag := rfl

/-! ### `Dev.onPort` -/

@[simp] theorem Dev.onPort_freeIdx (d : Dev) (p : PortNo) (f : Port → Port) : (d.onPort p f).freeIdx = d.freeIdx := rfl
@[simp] theorem Dev.onPort_idleCycles (d : Dev) (p : PortNo) (f : Port → Port) : (d.onPort p f).idleCycles = d.idleCycles := rfl
@[simp] theorem Dev.onPort_aon (d : Dev) (p : PortNo) (f : Port → Port) : (d.onPort p f).aon = d.aon := rfl
@[simp] theorem Dev.onPort_pins (d : Dev) (p : PortNo) (f : Port → Port) : (d.onPort p f).pins = d.pins := rfl
@[simp] theorem Dev.onPort_sys (d : Dev) (p : PortNo) (f : Port → Port) : (d.onPort p f).sys = d.sys := rfl
@[simp] theorem Dev.onPort_pairs (d : Dev) (p : PortNo) (f : Port → Port) : (d.onPort p f).pairs = d.pairs := rfl
@[simp] theorem Dev.onPort_bus (d : Dev) (p : PortNo) (f : Port → Port) : (d.onPort p f).bus = d.bus := rfl
@[simp] theorem Dev.onPort_jnl (d : Dev) (p : PortNo) (f : Port → Port) : (d.onPort p f).jnl = d.jnl := rfl
@[simp] theorem Dev.onPort_nvm (d : Dev) (p : PortNo) (f : Port → Port) : (d.onPort p f).nvm = d.nvm := rfl
@[simp] theorem Dev.onPort_lay (d : Dev) (p : PortNo) (f : Port → Port) : (d.onPort p f).lay = d.lay := rfl
@[simp] theorem Dev.onPort_img (d : Dev) (p : PortNo) (f : Port → Port) : (d.onPort p f).img = d.img := rfl
@[simp] theorem Dev.onPort_whl (d : Dev) (p : PortNo) (f : Port → Port) : (d.onPort p f).whl = d.whl := rfl
@[simp] theorem Dev.onPort_ports (d : Dev) (p : PortNo) (f : Port → Port) : (d.onPort p f).ports = upd d.ports p f := rfl
@[simp] theorem Dev.onPort_card (d : Dev) (p : PortNo) (f : Port → Port) : (d.onPort p f).card = d.card := rfl
@[simp] theorem Dev.onPort_strands (d : Dev) (p : PortNo) (f : Port → Port) : (d.onPort p f).strands = d.strands := rfl
@[simp] theorem Dev.onPort_spn (d : Dev) (p : PortNo) (f : Port → Port) : (d.onPort p f).spn = d.spn := rfl
@[simp] theorem Dev.onPort_streams (d : Dev) (p : PortNo) (f : Port → Port) : (d.onPort p f).streams = d.streams := rfl
@[simp] theorem Dev.onPort_bob (d : Dev) (p : PortNo) (f : Port → Port) : (d.onPort p f).bob = d.bob := rfl
@[simp] theorem Dev.onPort_fst (d : Dev) (p : PortNo) (f : Port → Port) : (d.onPort p f).fst = d.fst := rfl
@[simp] theorem Dev.onPort_ply (d : Dev) (p : PortNo) (f : Port → Port) : (d.onPort p f).ply = d.ply := rfl
@[simp] theorem Dev.onPort_hnk (d : Dev) (p : PortNo) (f : Port → Port) : (d.onPort p f).hnk = d.hnk := rfl
@[simp] theorem Dev.onPort_skn (d : Dev) (p : PortNo) (f : Port → Port) : (d.onPort p f).skn = d.skn := rfl
@[simp] theorem Dev.onPort_sns (d : Dev) (p : PortNo) (f : Port → Port) : (d.onPort p f).sns = d.sns := rfl
@[simp] theorem Dev.onPort_dma (d : Dev) (p : PortNo) (f : Port → Port) : (d.onPort p f).dma = d.dma := rfl
@[simp] theorem Dev.onPort_chk (d : Dev) (p : PortNo) (f : Port → Port) : (d.onPort p f).chk = d.chk := rfl
@[simp] theorem Dev.onPort_age (d : Dev) (p : PortNo) (f : Port → Port) : (d.onPort p f).age = d.age := rfl
@[simp] theorem Dev.onPort_tst (d : Dev) (p : PortNo) (f : Port → Port) : (d.onPort p f).tst = d.tst := rfl
@[simp] theorem Dev.onPort_jtag (d : Dev) (p : PortNo) (f : Port → Port) : (d.onPort p f).jtag = d.jtag := rfl

/-! ### `Dev.onStrand` -/

@[simp] theorem Dev.onStrand_freeIdx (d : Dev) (n : StrandNo) (f : Strand → Strand) : (d.onStrand n f).freeIdx = d.freeIdx := rfl
@[simp] theorem Dev.onStrand_idleCycles (d : Dev) (n : StrandNo) (f : Strand → Strand) : (d.onStrand n f).idleCycles = d.idleCycles := rfl
@[simp] theorem Dev.onStrand_aon (d : Dev) (n : StrandNo) (f : Strand → Strand) : (d.onStrand n f).aon = d.aon := rfl
@[simp] theorem Dev.onStrand_pins (d : Dev) (n : StrandNo) (f : Strand → Strand) : (d.onStrand n f).pins = d.pins := rfl
@[simp] theorem Dev.onStrand_sys (d : Dev) (n : StrandNo) (f : Strand → Strand) : (d.onStrand n f).sys = d.sys := rfl
@[simp] theorem Dev.onStrand_pairs (d : Dev) (n : StrandNo) (f : Strand → Strand) : (d.onStrand n f).pairs = d.pairs := rfl
@[simp] theorem Dev.onStrand_bus (d : Dev) (n : StrandNo) (f : Strand → Strand) : (d.onStrand n f).bus = d.bus := rfl
@[simp] theorem Dev.onStrand_jnl (d : Dev) (n : StrandNo) (f : Strand → Strand) : (d.onStrand n f).jnl = d.jnl := rfl
@[simp] theorem Dev.onStrand_nvm (d : Dev) (n : StrandNo) (f : Strand → Strand) : (d.onStrand n f).nvm = d.nvm := rfl
@[simp] theorem Dev.onStrand_lay (d : Dev) (n : StrandNo) (f : Strand → Strand) : (d.onStrand n f).lay = d.lay := rfl
@[simp] theorem Dev.onStrand_img (d : Dev) (n : StrandNo) (f : Strand → Strand) : (d.onStrand n f).img = d.img := rfl
@[simp] theorem Dev.onStrand_whl (d : Dev) (n : StrandNo) (f : Strand → Strand) : (d.onStrand n f).whl = d.whl := rfl
@[simp] theorem Dev.onStrand_ports (d : Dev) (n : StrandNo) (f : Strand → Strand) : (d.onStrand n f).ports = d.ports := rfl
@[simp] theorem Dev.onStrand_card (d : Dev) (n : StrandNo) (f : Strand → Strand) : (d.onStrand n f).card = d.card := rfl
@[simp] theorem Dev.onStrand_strands (d : Dev) (n : StrandNo) (f : Strand → Strand) : (d.onStrand n f).strands = upd d.strands n f := rfl
@[simp] theorem Dev.onStrand_spn (d : Dev) (n : StrandNo) (f : Strand → Strand) : (d.onStrand n f).spn = d.spn := rfl
@[simp] theorem Dev.onStrand_streams (d : Dev) (n : StrandNo) (f : Strand → Strand) : (d.onStrand n f).streams = d.streams := rfl
@[simp] theorem Dev.onStrand_bob (d : Dev) (n : StrandNo) (f : Strand → Strand) : (d.onStrand n f).bob = d.bob := rfl
@[simp] theorem Dev.onStrand_fst (d : Dev) (n : StrandNo) (f : Strand → Strand) : (d.onStrand n f).fst = d.fst := rfl
@[simp] theorem Dev.onStrand_ply (d : Dev) (n : StrandNo) (f : Strand → Strand) : (d.onStrand n f).ply = d.ply := rfl
@[simp] theorem Dev.onStrand_hnk (d : Dev) (n : StrandNo) (f : Strand → Strand) : (d.onStrand n f).hnk = d.hnk := rfl
@[simp] theorem Dev.onStrand_skn (d : Dev) (n : StrandNo) (f : Strand → Strand) : (d.onStrand n f).skn = d.skn := rfl
@[simp] theorem Dev.onStrand_sns (d : Dev) (n : StrandNo) (f : Strand → Strand) : (d.onStrand n f).sns = d.sns := rfl
@[simp] theorem Dev.onStrand_dma (d : Dev) (n : StrandNo) (f : Strand → Strand) : (d.onStrand n f).dma = d.dma := rfl
@[simp] theorem Dev.onStrand_chk (d : Dev) (n : StrandNo) (f : Strand → Strand) : (d.onStrand n f).chk = d.chk := rfl
@[simp] theorem Dev.onStrand_age (d : Dev) (n : StrandNo) (f : Strand → Strand) : (d.onStrand n f).age = d.age := rfl
@[simp] theorem Dev.onStrand_tst (d : Dev) (n : StrandNo) (f : Strand → Strand) : (d.onStrand n f).tst = d.tst := rfl
@[simp] theorem Dev.onStrand_jtag (d : Dev) (n : StrandNo) (f : Strand → Strand) : (d.onStrand n f).jtag = d.jtag := rfl

/-! ### `Dev.onStream` -/

@[simp] theorem Dev.onStream_freeIdx (d : Dev) (n : StreamNo) (f : Stream → Stream) : (d.onStream n f).freeIdx = d.freeIdx := rfl
@[simp] theorem Dev.onStream_idleCycles (d : Dev) (n : StreamNo) (f : Stream → Stream) : (d.onStream n f).idleCycles = d.idleCycles := rfl
@[simp] theorem Dev.onStream_aon (d : Dev) (n : StreamNo) (f : Stream → Stream) : (d.onStream n f).aon = d.aon := rfl
@[simp] theorem Dev.onStream_pins (d : Dev) (n : StreamNo) (f : Stream → Stream) : (d.onStream n f).pins = d.pins := rfl
@[simp] theorem Dev.onStream_sys (d : Dev) (n : StreamNo) (f : Stream → Stream) : (d.onStream n f).sys = d.sys := rfl
@[simp] theorem Dev.onStream_pairs (d : Dev) (n : StreamNo) (f : Stream → Stream) : (d.onStream n f).pairs = d.pairs := rfl
@[simp] theorem Dev.onStream_bus (d : Dev) (n : StreamNo) (f : Stream → Stream) : (d.onStream n f).bus = d.bus := rfl
@[simp] theorem Dev.onStream_jnl (d : Dev) (n : StreamNo) (f : Stream → Stream) : (d.onStream n f).jnl = d.jnl := rfl
@[simp] theorem Dev.onStream_nvm (d : Dev) (n : StreamNo) (f : Stream → Stream) : (d.onStream n f).nvm = d.nvm := rfl
@[simp] theorem Dev.onStream_lay (d : Dev) (n : StreamNo) (f : Stream → Stream) : (d.onStream n f).lay = d.lay := rfl
@[simp] theorem Dev.onStream_img (d : Dev) (n : StreamNo) (f : Stream → Stream) : (d.onStream n f).img = d.img := rfl
@[simp] theorem Dev.onStream_whl (d : Dev) (n : StreamNo) (f : Stream → Stream) : (d.onStream n f).whl = d.whl := rfl
@[simp] theorem Dev.onStream_ports (d : Dev) (n : StreamNo) (f : Stream → Stream) : (d.onStream n f).ports = d.ports := rfl
@[simp] theorem Dev.onStream_card (d : Dev) (n : StreamNo) (f : Stream → Stream) : (d.onStream n f).card = d.card := rfl
@[simp] theorem Dev.onStream_strands (d : Dev) (n : StreamNo) (f : Stream → Stream) : (d.onStream n f).strands = d.strands := rfl
@[simp] theorem Dev.onStream_spn (d : Dev) (n : StreamNo) (f : Stream → Stream) : (d.onStream n f).spn = d.spn := rfl
@[simp] theorem Dev.onStream_streams (d : Dev) (n : StreamNo) (f : Stream → Stream) : (d.onStream n f).streams = upd d.streams n f := rfl
@[simp] theorem Dev.onStream_bob (d : Dev) (n : StreamNo) (f : Stream → Stream) : (d.onStream n f).bob = d.bob := rfl
@[simp] theorem Dev.onStream_fst (d : Dev) (n : StreamNo) (f : Stream → Stream) : (d.onStream n f).fst = d.fst := rfl
@[simp] theorem Dev.onStream_ply (d : Dev) (n : StreamNo) (f : Stream → Stream) : (d.onStream n f).ply = d.ply := rfl
@[simp] theorem Dev.onStream_hnk (d : Dev) (n : StreamNo) (f : Stream → Stream) : (d.onStream n f).hnk = d.hnk := rfl
@[simp] theorem Dev.onStream_skn (d : Dev) (n : StreamNo) (f : Stream → Stream) : (d.onStream n f).skn = d.skn := rfl
@[simp] theorem Dev.onStream_sns (d : Dev) (n : StreamNo) (f : Stream → Stream) : (d.onStream n f).sns = d.sns := rfl
@[simp] theorem Dev.onStream_dma (d : Dev) (n : StreamNo) (f : Stream → Stream) : (d.onStream n f).dma = d.dma := rfl
@[simp] theorem Dev.onStream_chk (d : Dev) (n : StreamNo) (f : Stream → Stream) : (d.onStream n f).chk = d.chk := rfl
@[simp] theorem Dev.onStream_age (d : Dev) (n : StreamNo) (f : Stream → Stream) : (d.onStream n f).age = d.age := rfl
@[simp] theorem Dev.onStream_tst (d : Dev) (n : StreamNo) (f : Stream → Stream) : (d.onStream n f).tst = d.tst := rfl
@[simp] theorem Dev.onStream_jtag (d : Dev) (n : StreamNo) (f : Stream → Stream) : (d.onStream n f).jtag = d.jtag := rfl

/-! ### `Dev.onSys` -/

@[simp] theorem Dev.onSys_freeIdx (d : Dev) (f : Sys → Sys) : (d.onSys f).freeIdx = d.freeIdx := rfl
@[simp] theorem Dev.onSys_idleCycles (d : Dev) (f : Sys → Sys) : (d.onSys f).idleCycles = d.idleCycles := rfl
@[simp] theorem Dev.onSys_aon (d : Dev) (f : Sys → Sys) : (d.onSys f).aon = d.aon := rfl
@[simp] theorem Dev.onSys_pins (d : Dev) (f : Sys → Sys) : (d.onSys f).pins = d.pins := rfl
@[simp] theorem Dev.onSys_sys (d : Dev) (f : Sys → Sys) : (d.onSys f).sys = f d.sys := rfl
@[simp] theorem Dev.onSys_pairs (d : Dev) (f : Sys → Sys) : (d.onSys f).pairs = d.pairs := rfl
@[simp] theorem Dev.onSys_bus (d : Dev) (f : Sys → Sys) : (d.onSys f).bus = d.bus := rfl
@[simp] theorem Dev.onSys_jnl (d : Dev) (f : Sys → Sys) : (d.onSys f).jnl = d.jnl := rfl
@[simp] theorem Dev.onSys_nvm (d : Dev) (f : Sys → Sys) : (d.onSys f).nvm = d.nvm := rfl
@[simp] theorem Dev.onSys_lay (d : Dev) (f : Sys → Sys) : (d.onSys f).lay = d.lay := rfl
@[simp] theorem Dev.onSys_img (d : Dev) (f : Sys → Sys) : (d.onSys f).img = d.img := rfl
@[simp] theorem Dev.onSys_whl (d : Dev) (f : Sys → Sys) : (d.onSys f).whl = d.whl := rfl
@[simp] theorem Dev.onSys_ports (d : Dev) (f : Sys → Sys) : (d.onSys f).ports = d.ports := rfl
@[simp] theorem Dev.onSys_card (d : Dev) (f : Sys → Sys) : (d.onSys f).card = d.card := rfl
@[simp] theorem Dev.onSys_strands (d : Dev) (f : Sys → Sys) : (d.onSys f).strands = d.strands := rfl
@[simp] theorem Dev.onSys_spn (d : Dev) (f : Sys → Sys) : (d.onSys f).spn = d.spn := rfl
@[simp] theorem Dev.onSys_streams (d : Dev) (f : Sys → Sys) : (d.onSys f).streams = d.streams := rfl
@[simp] theorem Dev.onSys_bob (d : Dev) (f : Sys → Sys) : (d.onSys f).bob = d.bob := rfl
@[simp] theorem Dev.onSys_fst (d : Dev) (f : Sys → Sys) : (d.onSys f).fst = d.fst := rfl
@[simp] theorem Dev.onSys_ply (d : Dev) (f : Sys → Sys) : (d.onSys f).ply = d.ply := rfl
@[simp] theorem Dev.onSys_hnk (d : Dev) (f : Sys → Sys) : (d.onSys f).hnk = d.hnk := rfl
@[simp] theorem Dev.onSys_skn (d : Dev) (f : Sys → Sys) : (d.onSys f).skn = d.skn := rfl
@[simp] theorem Dev.onSys_sns (d : Dev) (f : Sys → Sys) : (d.onSys f).sns = d.sns := rfl
@[simp] theorem Dev.onSys_dma (d : Dev) (f : Sys → Sys) : (d.onSys f).dma = d.dma := rfl
@[simp] theorem Dev.onSys_chk (d : Dev) (f : Sys → Sys) : (d.onSys f).chk = d.chk := rfl
@[simp] theorem Dev.onSys_age (d : Dev) (f : Sys → Sys) : (d.onSys f).age = d.age := rfl
@[simp] theorem Dev.onSys_tst (d : Dev) (f : Sys → Sys) : (d.onSys f).tst = d.tst := rfl
@[simp] theorem Dev.onSys_jtag (d : Dev) (f : Sys → Sys) : (d.onSys f).jtag = d.jtag := rfl

/-! ### `Dev.onPly` -/

@[simp] theorem Dev.onPly_freeIdx (d : Dev) (f : Ply → Ply) : (d.onPly f).freeIdx = d.freeIdx := rfl
@[simp] theorem Dev.onPly_idleCycles (d : Dev) (f : Ply → Ply) : (d.onPly f).idleCycles = d.idleCycles := rfl
@[simp] theorem Dev.onPly_aon (d : Dev) (f : Ply → Ply) : (d.onPly f).aon = d.aon := rfl
@[simp] theorem Dev.onPly_pins (d : Dev) (f : Ply → Ply) : (d.onPly f).pins = d.pins := rfl
@[simp] theorem Dev.onPly_sys (d : Dev) (f : Ply → Ply) : (d.onPly f).sys = d.sys := rfl
@[simp] theorem Dev.onPly_pairs (d : Dev) (f : Ply → Ply) : (d.onPly f).pairs = d.pairs := rfl
@[simp] theorem Dev.onPly_bus (d : Dev) (f : Ply → Ply) : (d.onPly f).bus = d.bus := rfl
@[simp] theorem Dev.onPly_jnl (d : Dev) (f : Ply → Ply) : (d.onPly f).jnl = d.jnl := rfl
@[simp] theorem Dev.onPly_nvm (d : Dev) (f : Ply → Ply) : (d.onPly f).nvm = d.nvm := rfl
@[simp] theorem Dev.onPly_lay (d : Dev) (f : Ply → Ply) : (d.onPly f).lay = d.lay := rfl
@[simp] theorem Dev.onPly_img (d : Dev) (f : Ply → Ply) : (d.onPly f).img = d.img := rfl
@[simp] theorem Dev.onPly_whl (d : Dev) (f : Ply → Ply) : (d.onPly f).whl = d.whl := rfl
@[simp] theorem Dev.onPly_ports (d : Dev) (f : Ply → Ply) : (d.onPly f).ports = d.ports := rfl
@[simp] theorem Dev.onPly_card (d : Dev) (f : Ply → Ply) : (d.onPly f).card = d.card := rfl
@[simp] theorem Dev.onPly_strands (d : Dev) (f : Ply → Ply) : (d.onPly f).strands = d.strands := rfl
@[simp] theorem Dev.onPly_spn (d : Dev) (f : Ply → Ply) : (d.onPly f).spn = d.spn := rfl
@[simp] theorem Dev.onPly_streams (d : Dev) (f : Ply → Ply) : (d.onPly f).streams = d.streams := rfl
@[simp] theorem Dev.onPly_bob (d : Dev) (f : Ply → Ply) : (d.onPly f).bob = d.bob := rfl
@[simp] theorem Dev.onPly_fst (d : Dev) (f : Ply → Ply) : (d.onPly f).fst = d.fst := rfl
@[simp] theorem Dev.onPly_ply (d : Dev) (f : Ply → Ply) : (d.onPly f).ply = f d.ply := rfl
@[simp] theorem Dev.onPly_hnk (d : Dev) (f : Ply → Ply) : (d.onPly f).hnk = d.hnk := rfl
@[simp] theorem Dev.onPly_skn (d : Dev) (f : Ply → Ply) : (d.onPly f).skn = d.skn := rfl
@[simp] theorem Dev.onPly_sns (d : Dev) (f : Ply → Ply) : (d.onPly f).sns = d.sns := rfl
@[simp] theorem Dev.onPly_dma (d : Dev) (f : Ply → Ply) : (d.onPly f).dma = d.dma := rfl
@[simp] theorem Dev.onPly_chk (d : Dev) (f : Ply → Ply) : (d.onPly f).chk = d.chk := rfl
@[simp] theorem Dev.onPly_age (d : Dev) (f : Ply → Ply) : (d.onPly f).age = d.age := rfl
@[simp] theorem Dev.onPly_tst (d : Dev) (f : Ply → Ply) : (d.onPly f).tst = d.tst := rfl
@[simp] theorem Dev.onPly_jtag (d : Dev) (f : Ply → Ply) : (d.onPly f).jtag = d.jtag := rfl

/-! ### `Dev.onSkn` -/

@[simp] theorem Dev.onSkn_freeIdx (d : Dev) (f : Skn → Skn) : (d.onSkn f).freeIdx = d.freeIdx := rfl
@[simp] theorem Dev.onSkn_idleCycles (d : Dev) (f : Skn → Skn) : (d.onSkn f).idleCycles = d.idleCycles := rfl
@[simp] theorem Dev.onSkn_aon (d : Dev) (f : Skn → Skn) : (d.onSkn f).aon = d.aon := rfl
@[simp] theorem Dev.onSkn_pins (d : Dev) (f : Skn → Skn) : (d.onSkn f).pins = d.pins := rfl
@[simp] theorem Dev.onSkn_sys (d : Dev) (f : Skn → Skn) : (d.onSkn f).sys = d.sys := rfl
@[simp] theorem Dev.onSkn_pairs (d : Dev) (f : Skn → Skn) : (d.onSkn f).pairs = d.pairs := rfl
@[simp] theorem Dev.onSkn_bus (d : Dev) (f : Skn → Skn) : (d.onSkn f).bus = d.bus := rfl
@[simp] theorem Dev.onSkn_jnl (d : Dev) (f : Skn → Skn) : (d.onSkn f).jnl = d.jnl := rfl
@[simp] theorem Dev.onSkn_nvm (d : Dev) (f : Skn → Skn) : (d.onSkn f).nvm = d.nvm := rfl
@[simp] theorem Dev.onSkn_lay (d : Dev) (f : Skn → Skn) : (d.onSkn f).lay = d.lay := rfl
@[simp] theorem Dev.onSkn_img (d : Dev) (f : Skn → Skn) : (d.onSkn f).img = d.img := rfl
@[simp] theorem Dev.onSkn_whl (d : Dev) (f : Skn → Skn) : (d.onSkn f).whl = d.whl := rfl
@[simp] theorem Dev.onSkn_ports (d : Dev) (f : Skn → Skn) : (d.onSkn f).ports = d.ports := rfl
@[simp] theorem Dev.onSkn_card (d : Dev) (f : Skn → Skn) : (d.onSkn f).card = d.card := rfl
@[simp] theorem Dev.onSkn_strands (d : Dev) (f : Skn → Skn) : (d.onSkn f).strands = d.strands := rfl
@[simp] theorem Dev.onSkn_spn (d : Dev) (f : Skn → Skn) : (d.onSkn f).spn = d.spn := rfl
@[simp] theorem Dev.onSkn_streams (d : Dev) (f : Skn → Skn) : (d.onSkn f).streams = d.streams := rfl
@[simp] theorem Dev.onSkn_bob (d : Dev) (f : Skn → Skn) : (d.onSkn f).bob = d.bob := rfl
@[simp] theorem Dev.onSkn_fst (d : Dev) (f : Skn → Skn) : (d.onSkn f).fst = d.fst := rfl
@[simp] theorem Dev.onSkn_ply (d : Dev) (f : Skn → Skn) : (d.onSkn f).ply = d.ply := rfl
@[simp] theorem Dev.onSkn_hnk (d : Dev) (f : Skn → Skn) : (d.onSkn f).hnk = d.hnk := rfl
@[simp] theorem Dev.onSkn_skn (d : Dev) (f : Skn → Skn) : (d.onSkn f).skn = f d.skn := rfl
@[simp] theorem Dev.onSkn_sns (d : Dev) (f : Skn → Skn) : (d.onSkn f).sns = d.sns := rfl
@[simp] theorem Dev.onSkn_dma (d : Dev) (f : Skn → Skn) : (d.onSkn f).dma = d.dma := rfl
@[simp] theorem Dev.onSkn_chk (d : Dev) (f : Skn → Skn) : (d.onSkn f).chk = d.chk := rfl
@[simp] theorem Dev.onSkn_age (d : Dev) (f : Skn → Skn) : (d.onSkn f).age = d.age := rfl
@[simp] theorem Dev.onSkn_tst (d : Dev) (f : Skn → Skn) : (d.onSkn f).tst = d.tst := rfl
@[simp] theorem Dev.onSkn_jtag (d : Dev) (f : Skn → Skn) : (d.onSkn f).jtag = d.jtag := rfl

/-! ### `Dev.onSpn` -/

@[simp] theorem Dev.onSpn_freeIdx (d : Dev) (f : Spn → Spn) : (d.onSpn f).freeIdx = d.freeIdx := rfl
@[simp] theorem Dev.onSpn_idleCycles (d : Dev) (f : Spn → Spn) : (d.onSpn f).idleCycles = d.idleCycles := rfl
@[simp] theorem Dev.onSpn_aon (d : Dev) (f : Spn → Spn) : (d.onSpn f).aon = d.aon := rfl
@[simp] theorem Dev.onSpn_pins (d : Dev) (f : Spn → Spn) : (d.onSpn f).pins = d.pins := rfl
@[simp] theorem Dev.onSpn_sys (d : Dev) (f : Spn → Spn) : (d.onSpn f).sys = d.sys := rfl
@[simp] theorem Dev.onSpn_pairs (d : Dev) (f : Spn → Spn) : (d.onSpn f).pairs = d.pairs := rfl
@[simp] theorem Dev.onSpn_bus (d : Dev) (f : Spn → Spn) : (d.onSpn f).bus = d.bus := rfl
@[simp] theorem Dev.onSpn_jnl (d : Dev) (f : Spn → Spn) : (d.onSpn f).jnl = d.jnl := rfl
@[simp] theorem Dev.onSpn_nvm (d : Dev) (f : Spn → Spn) : (d.onSpn f).nvm = d.nvm := rfl
@[simp] theorem Dev.onSpn_lay (d : Dev) (f : Spn → Spn) : (d.onSpn f).lay = d.lay := rfl
@[simp] theorem Dev.onSpn_img (d : Dev) (f : Spn → Spn) : (d.onSpn f).img = d.img := rfl
@[simp] theorem Dev.onSpn_whl (d : Dev) (f : Spn → Spn) : (d.onSpn f).whl = d.whl := rfl
@[simp] theorem Dev.onSpn_ports (d : Dev) (f : Spn → Spn) : (d.onSpn f).ports = d.ports := rfl
@[simp] theorem Dev.onSpn_card (d : Dev) (f : Spn → Spn) : (d.onSpn f).card = d.card := rfl
@[simp] theorem Dev.onSpn_strands (d : Dev) (f : Spn → Spn) : (d.onSpn f).strands = d.strands := rfl
@[simp] theorem Dev.onSpn_spn (d : Dev) (f : Spn → Spn) : (d.onSpn f).spn = f d.spn := rfl
@[simp] theorem Dev.onSpn_streams (d : Dev) (f : Spn → Spn) : (d.onSpn f).streams = d.streams := rfl
@[simp] theorem Dev.onSpn_bob (d : Dev) (f : Spn → Spn) : (d.onSpn f).bob = d.bob := rfl
@[simp] theorem Dev.onSpn_fst (d : Dev) (f : Spn → Spn) : (d.onSpn f).fst = d.fst := rfl
@[simp] theorem Dev.onSpn_ply (d : Dev) (f : Spn → Spn) : (d.onSpn f).ply = d.ply := rfl
@[simp] theorem Dev.onSpn_hnk (d : Dev) (f : Spn → Spn) : (d.onSpn f).hnk = d.hnk := rfl
@[simp] theorem Dev.onSpn_skn (d : Dev) (f : Spn → Spn) : (d.onSpn f).skn = d.skn := rfl
@[simp] theorem Dev.onSpn_sns (d : Dev) (f : Spn → Spn) : (d.onSpn f).sns = d.sns := rfl
@[simp] theorem Dev.onSpn_dma (d : Dev) (f : Spn → Spn) : (d.onSpn f).dma = d.dma := rfl
@[simp] theorem Dev.onSpn_chk (d : Dev) (f : Spn → Spn) : (d.onSpn f).chk = d.chk := rfl
@[simp] theorem Dev.onSpn_age (d : Dev) (f : Spn → Spn) : (d.onSpn f).age = d.age := rfl
@[simp] theorem Dev.onSpn_tst (d : Dev) (f : Spn → Spn) : (d.onSpn f).tst = d.tst := rfl
@[simp] theorem Dev.onSpn_jtag (d : Dev) (f : Spn → Spn) : (d.onSpn f).jtag = d.jtag := rfl

/-! ### `Dev.onHnk` -/

@[simp] theorem Dev.onHnk_freeIdx (d : Dev) (f : Hnk → Hnk) : (d.onHnk f).freeIdx = d.freeIdx := rfl
@[simp] theorem Dev.onHnk_idleCycles (d : Dev) (f : Hnk → Hnk) : (d.onHnk f).idleCycles = d.idleCycles := rfl
@[simp] theorem Dev.onHnk_aon (d : Dev) (f : Hnk → Hnk) : (d.onHnk f).aon = d.aon := rfl
@[simp] theorem Dev.onHnk_pins (d : Dev) (f : Hnk → Hnk) : (d.onHnk f).pins = d.pins := rfl
@[simp] theorem Dev.onHnk_sys (d : Dev) (f : Hnk → Hnk) : (d.onHnk f).sys = d.sys := rfl
@[simp] theorem Dev.onHnk_pairs (d : Dev) (f : Hnk → Hnk) : (d.onHnk f).pairs = d.pairs := rfl
@[simp] theorem Dev.onHnk_bus (d : Dev) (f : Hnk → Hnk) : (d.onHnk f).bus = d.bus := rfl
@[simp] theorem Dev.onHnk_jnl (d : Dev) (f : Hnk → Hnk) : (d.onHnk f).jnl = d.jnl := rfl
@[simp] theorem Dev.onHnk_nvm (d : Dev) (f : Hnk → Hnk) : (d.onHnk f).nvm = d.nvm := rfl
@[simp] theorem Dev.onHnk_lay (d : Dev) (f : Hnk → Hnk) : (d.onHnk f).lay = d.lay := rfl
@[simp] theorem Dev.onHnk_img (d : Dev) (f : Hnk → Hnk) : (d.onHnk f).img = d.img := rfl
@[simp] theorem Dev.onHnk_whl (d : Dev) (f : Hnk → Hnk) : (d.onHnk f).whl = d.whl := rfl
@[simp] theorem Dev.onHnk_ports (d : Dev) (f : Hnk → Hnk) : (d.onHnk f).ports = d.ports := rfl
@[simp] theorem Dev.onHnk_card (d : Dev) (f : Hnk → Hnk) : (d.onHnk f).card = d.card := rfl
@[simp] theorem Dev.onHnk_strands (d : Dev) (f : Hnk → Hnk) : (d.onHnk f).strands = d.strands := rfl
@[simp] theorem Dev.onHnk_spn (d : Dev) (f : Hnk → Hnk) : (d.onHnk f).spn = d.spn := rfl
@[simp] theorem Dev.onHnk_streams (d : Dev) (f : Hnk → Hnk) : (d.onHnk f).streams = d.streams := rfl
@[simp] theorem Dev.onHnk_bob (d : Dev) (f : Hnk → Hnk) : (d.onHnk f).bob = d.bob := rfl
@[simp] theorem Dev.onHnk_fst (d : Dev) (f : Hnk → Hnk) : (d.onHnk f).fst = d.fst := rfl
@[simp] theorem Dev.onHnk_ply (d : Dev) (f : Hnk → Hnk) : (d.onHnk f).ply = d.ply := rfl
@[simp] theorem Dev.onHnk_hnk (d : Dev) (f : Hnk → Hnk) : (d.onHnk f).hnk = f d.hnk := rfl
@[simp] theorem Dev.onHnk_skn (d : Dev) (f : Hnk → Hnk) : (d.onHnk f).skn = d.skn := rfl
@[simp] theorem Dev.onHnk_sns (d : Dev) (f : Hnk → Hnk) : (d.onHnk f).sns = d.sns := rfl
@[simp] theorem Dev.onHnk_dma (d : Dev) (f : Hnk → Hnk) : (d.onHnk f).dma = d.dma := rfl
@[simp] theorem Dev.onHnk_chk (d : Dev) (f : Hnk → Hnk) : (d.onHnk f).chk = d.chk := rfl
@[simp] theorem Dev.onHnk_age (d : Dev) (f : Hnk → Hnk) : (d.onHnk f).age = d.age := rfl
@[simp] theorem Dev.onHnk_tst (d : Dev) (f : Hnk → Hnk) : (d.onHnk f).tst = d.tst := rfl
@[simp] theorem Dev.onHnk_jtag (d : Dev) (f : Hnk → Hnk) : (d.onHnk f).jtag = d.jtag := rfl

/-! ### `Dev.onSns` -/

@[simp] theorem Dev.onSns_freeIdx (d : Dev) (f : Sns → Sns) : (d.onSns f).freeIdx = d.freeIdx := rfl
@[simp] theorem Dev.onSns_idleCycles (d : Dev) (f : Sns → Sns) : (d.onSns f).idleCycles = d.idleCycles := rfl
@[simp] theorem Dev.onSns_aon (d : Dev) (f : Sns → Sns) : (d.onSns f).aon = d.aon := rfl
@[simp] theorem Dev.onSns_pins (d : Dev) (f : Sns → Sns) : (d.onSns f).pins = d.pins := rfl
@[simp] theorem Dev.onSns_sys (d : Dev) (f : Sns → Sns) : (d.onSns f).sys = d.sys := rfl
@[simp] theorem Dev.onSns_pairs (d : Dev) (f : Sns → Sns) : (d.onSns f).pairs = d.pairs := rfl
@[simp] theorem Dev.onSns_bus (d : Dev) (f : Sns → Sns) : (d.onSns f).bus = d.bus := rfl
@[simp] theorem Dev.onSns_jnl (d : Dev) (f : Sns → Sns) : (d.onSns f).jnl = d.jnl := rfl
@[simp] theorem Dev.onSns_nvm (d : Dev) (f : Sns → Sns) : (d.onSns f).nvm = d.nvm := rfl
@[simp] theorem Dev.onSns_lay (d : Dev) (f : Sns → Sns) : (d.onSns f).lay = d.lay := rfl
@[simp] theorem Dev.onSns_img (d : Dev) (f : Sns → Sns) : (d.onSns f).img = d.img := rfl
@[simp] theorem Dev.onSns_whl (d : Dev) (f : Sns → Sns) : (d.onSns f).whl = d.whl := rfl
@[simp] theorem Dev.onSns_ports (d : Dev) (f : Sns → Sns) : (d.onSns f).ports = d.ports := rfl
@[simp] theorem Dev.onSns_card (d : Dev) (f : Sns → Sns) : (d.onSns f).card = d.card := rfl
@[simp] theorem Dev.onSns_strands (d : Dev) (f : Sns → Sns) : (d.onSns f).strands = d.strands := rfl
@[simp] theorem Dev.onSns_spn (d : Dev) (f : Sns → Sns) : (d.onSns f).spn = d.spn := rfl
@[simp] theorem Dev.onSns_streams (d : Dev) (f : Sns → Sns) : (d.onSns f).streams = d.streams := rfl
@[simp] theorem Dev.onSns_bob (d : Dev) (f : Sns → Sns) : (d.onSns f).bob = d.bob := rfl
@[simp] theorem Dev.onSns_fst (d : Dev) (f : Sns → Sns) : (d.onSns f).fst = d.fst := rfl
@[simp] theorem Dev.onSns_ply (d : Dev) (f : Sns → Sns) : (d.onSns f).ply = d.ply := rfl
@[simp] theorem Dev.onSns_hnk (d : Dev) (f : Sns → Sns) : (d.onSns f).hnk = d.hnk := rfl
@[simp] theorem Dev.onSns_skn (d : Dev) (f : Sns → Sns) : (d.onSns f).skn = d.skn := rfl
@[simp] theorem Dev.onSns_sns (d : Dev) (f : Sns → Sns) : (d.onSns f).sns = f d.sns := rfl
@[simp] theorem Dev.onSns_dma (d : Dev) (f : Sns → Sns) : (d.onSns f).dma = d.dma := rfl
@[simp] theorem Dev.onSns_chk (d : Dev) (f : Sns → Sns) : (d.onSns f).chk = d.chk := rfl
@[simp] theorem Dev.onSns_age (d : Dev) (f : Sns → Sns) : (d.onSns f).age = d.age := rfl
@[simp] theorem Dev.onSns_tst (d : Dev) (f : Sns → Sns) : (d.onSns f).tst = d.tst := rfl
@[simp] theorem Dev.onSns_jtag (d : Dev) (f : Sns → Sns) : (d.onSns f).jtag = d.jtag := rfl

/-! ### `Dev.onDma` -/

@[simp] theorem Dev.onDma_freeIdx (d : Dev) (f : Dma → Dma) : (d.onDma f).freeIdx = d.freeIdx := rfl
@[simp] theorem Dev.onDma_idleCycles (d : Dev) (f : Dma → Dma) : (d.onDma f).idleCycles = d.idleCycles := rfl
@[simp] theorem Dev.onDma_aon (d : Dev) (f : Dma → Dma) : (d.onDma f).aon = d.aon := rfl
@[simp] theorem Dev.onDma_pins (d : Dev) (f : Dma → Dma) : (d.onDma f).pins = d.pins := rfl
@[simp] theorem Dev.onDma_sys (d : Dev) (f : Dma → Dma) : (d.onDma f).sys = d.sys := rfl
@[simp] theorem Dev.onDma_pairs (d : Dev) (f : Dma → Dma) : (d.onDma f).pairs = d.pairs := rfl
@[simp] theorem Dev.onDma_bus (d : Dev) (f : Dma → Dma) : (d.onDma f).bus = d.bus := rfl
@[simp] theorem Dev.onDma_jnl (d : Dev) (f : Dma → Dma) : (d.onDma f).jnl = d.jnl := rfl
@[simp] theorem Dev.onDma_nvm (d : Dev) (f : Dma → Dma) : (d.onDma f).nvm = d.nvm := rfl
@[simp] theorem Dev.onDma_lay (d : Dev) (f : Dma → Dma) : (d.onDma f).lay = d.lay := rfl
@[simp] theorem Dev.onDma_img (d : Dev) (f : Dma → Dma) : (d.onDma f).img = d.img := rfl
@[simp] theorem Dev.onDma_whl (d : Dev) (f : Dma → Dma) : (d.onDma f).whl = d.whl := rfl
@[simp] theorem Dev.onDma_ports (d : Dev) (f : Dma → Dma) : (d.onDma f).ports = d.ports := rfl
@[simp] theorem Dev.onDma_card (d : Dev) (f : Dma → Dma) : (d.onDma f).card = d.card := rfl
@[simp] theorem Dev.onDma_strands (d : Dev) (f : Dma → Dma) : (d.onDma f).strands = d.strands := rfl
@[simp] theorem Dev.onDma_spn (d : Dev) (f : Dma → Dma) : (d.onDma f).spn = d.spn := rfl
@[simp] theorem Dev.onDma_streams (d : Dev) (f : Dma → Dma) : (d.onDma f).streams = d.streams := rfl
@[simp] theorem Dev.onDma_bob (d : Dev) (f : Dma → Dma) : (d.onDma f).bob = d.bob := rfl
@[simp] theorem Dev.onDma_fst (d : Dev) (f : Dma → Dma) : (d.onDma f).fst = d.fst := rfl
@[simp] theorem Dev.onDma_ply (d : Dev) (f : Dma → Dma) : (d.onDma f).ply = d.ply := rfl
@[simp] theorem Dev.onDma_hnk (d : Dev) (f : Dma → Dma) : (d.onDma f).hnk = d.hnk := rfl
@[simp] theorem Dev.onDma_skn (d : Dev) (f : Dma → Dma) : (d.onDma f).skn = d.skn := rfl
@[simp] theorem Dev.onDma_sns (d : Dev) (f : Dma → Dma) : (d.onDma f).sns = d.sns := rfl
@[simp] theorem Dev.onDma_dma (d : Dev) (f : Dma → Dma) : (d.onDma f).dma = f d.dma := rfl
@[simp] theorem Dev.onDma_chk (d : Dev) (f : Dma → Dma) : (d.onDma f).chk = d.chk := rfl
@[simp] theorem Dev.onDma_age (d : Dev) (f : Dma → Dma) : (d.onDma f).age = d.age := rfl
@[simp] theorem Dev.onDma_tst (d : Dev) (f : Dma → Dma) : (d.onDma f).tst = d.tst := rfl
@[simp] theorem Dev.onDma_jtag (d : Dev) (f : Dma → Dma) : (d.onDma f).jtag = d.jtag := rfl

/-! ### `Dev.onAge` -/

@[simp] theorem Dev.onAge_freeIdx (d : Dev) (f : Age → Age) : (d.onAge f).freeIdx = d.freeIdx := rfl
@[simp] theorem Dev.onAge_idleCycles (d : Dev) (f : Age → Age) : (d.onAge f).idleCycles = d.idleCycles := rfl
@[simp] theorem Dev.onAge_aon (d : Dev) (f : Age → Age) : (d.onAge f).aon = d.aon := rfl
@[simp] theorem Dev.onAge_pins (d : Dev) (f : Age → Age) : (d.onAge f).pins = d.pins := rfl
@[simp] theorem Dev.onAge_sys (d : Dev) (f : Age → Age) : (d.onAge f).sys = d.sys := rfl
@[simp] theorem Dev.onAge_pairs (d : Dev) (f : Age → Age) : (d.onAge f).pairs = d.pairs := rfl
@[simp] theorem Dev.onAge_bus (d : Dev) (f : Age → Age) : (d.onAge f).bus = d.bus := rfl
@[simp] theorem Dev.onAge_jnl (d : Dev) (f : Age → Age) : (d.onAge f).jnl = d.jnl := rfl
@[simp] theorem Dev.onAge_nvm (d : Dev) (f : Age → Age) : (d.onAge f).nvm = d.nvm := rfl
@[simp] theorem Dev.onAge_lay (d : Dev) (f : Age → Age) : (d.onAge f).lay = d.lay := rfl
@[simp] theorem Dev.onAge_img (d : Dev) (f : Age → Age) : (d.onAge f).img = d.img := rfl
@[simp] theorem Dev.onAge_whl (d : Dev) (f : Age → Age) : (d.onAge f).whl = d.whl := rfl
@[simp] theorem Dev.onAge_ports (d : Dev) (f : Age → Age) : (d.onAge f).ports = d.ports := rfl
@[simp] theorem Dev.onAge_card (d : Dev) (f : Age → Age) : (d.onAge f).card = d.card := rfl
@[simp] theorem Dev.onAge_strands (d : Dev) (f : Age → Age) : (d.onAge f).strands = d.strands := rfl
@[simp] theorem Dev.onAge_spn (d : Dev) (f : Age → Age) : (d.onAge f).spn = d.spn := rfl
@[simp] theorem Dev.onAge_streams (d : Dev) (f : Age → Age) : (d.onAge f).streams = d.streams := rfl
@[simp] theorem Dev.onAge_bob (d : Dev) (f : Age → Age) : (d.onAge f).bob = d.bob := rfl
@[simp] theorem Dev.onAge_fst (d : Dev) (f : Age → Age) : (d.onAge f).fst = d.fst := rfl
@[simp] theorem Dev.onAge_ply (d : Dev) (f : Age → Age) : (d.onAge f).ply = d.ply := rfl
@[simp] theorem Dev.onAge_hnk (d : Dev) (f : Age → Age) : (d.onAge f).hnk = d.hnk := rfl
@[simp] theorem Dev.onAge_skn (d : Dev) (f : Age → Age) : (d.onAge f).skn = d.skn := rfl
@[simp] theorem Dev.onAge_sns (d : Dev) (f : Age → Age) : (d.onAge f).sns = d.sns := rfl
@[simp] theorem Dev.onAge_dma (d : Dev) (f : Age → Age) : (d.onAge f).dma = d.dma := rfl
@[simp] theorem Dev.onAge_chk (d : Dev) (f : Age → Age) : (d.onAge f).chk = d.chk := rfl
@[simp] theorem Dev.onAge_age (d : Dev) (f : Age → Age) : (d.onAge f).age = f d.age := rfl
@[simp] theorem Dev.onAge_tst (d : Dev) (f : Age → Age) : (d.onAge f).tst = d.tst := rfl
@[simp] theorem Dev.onAge_jtag (d : Dev) (f : Age → Age) : (d.onAge f).jtag = d.jtag := rfl

/-! ### `Dev.onTst` -/

@[simp] theorem Dev.onTst_freeIdx (d : Dev) (f : Tst → Tst) : (d.onTst f).freeIdx = d.freeIdx := rfl
@[simp] theorem Dev.onTst_idleCycles (d : Dev) (f : Tst → Tst) : (d.onTst f).idleCycles = d.idleCycles := rfl
@[simp] theorem Dev.onTst_aon (d : Dev) (f : Tst → Tst) : (d.onTst f).aon = d.aon := rfl
@[simp] theorem Dev.onTst_pins (d : Dev) (f : Tst → Tst) : (d.onTst f).pins = d.pins := rfl
@[simp] theorem Dev.onTst_sys (d : Dev) (f : Tst → Tst) : (d.onTst f).sys = d.sys := rfl
@[simp] theorem Dev.onTst_pairs (d : Dev) (f : Tst → Tst) : (d.onTst f).pairs = d.pairs := rfl
@[simp] theorem Dev.onTst_bus (d : Dev) (f : Tst → Tst) : (d.onTst f).bus = d.bus := rfl
@[simp] theorem Dev.onTst_jnl (d : Dev) (f : Tst → Tst) : (d.onTst f).jnl = d.jnl := rfl
@[simp] theorem Dev.onTst_nvm (d : Dev) (f : Tst → Tst) : (d.onTst f).nvm = d.nvm := rfl
@[simp] theorem Dev.onTst_lay (d : Dev) (f : Tst → Tst) : (d.onTst f).lay = d.lay := rfl
@[simp] theorem Dev.onTst_img (d : Dev) (f : Tst → Tst) : (d.onTst f).img = d.img := rfl
@[simp] theorem Dev.onTst_whl (d : Dev) (f : Tst → Tst) : (d.onTst f).whl = d.whl := rfl
@[simp] theorem Dev.onTst_ports (d : Dev) (f : Tst → Tst) : (d.onTst f).ports = d.ports := rfl
@[simp] theorem Dev.onTst_card (d : Dev) (f : Tst → Tst) : (d.onTst f).card = d.card := rfl
@[simp] theorem Dev.onTst_strands (d : Dev) (f : Tst → Tst) : (d.onTst f).strands = d.strands := rfl
@[simp] theorem Dev.onTst_spn (d : Dev) (f : Tst → Tst) : (d.onTst f).spn = d.spn := rfl
@[simp] theorem Dev.onTst_streams (d : Dev) (f : Tst → Tst) : (d.onTst f).streams = d.streams := rfl
@[simp] theorem Dev.onTst_bob (d : Dev) (f : Tst → Tst) : (d.onTst f).bob = d.bob := rfl
@[simp] theorem Dev.onTst_fst (d : Dev) (f : Tst → Tst) : (d.onTst f).fst = d.fst := rfl
@[simp] theorem Dev.onTst_ply (d : Dev) (f : Tst → Tst) : (d.onTst f).ply = d.ply := rfl
@[simp] theorem Dev.onTst_hnk (d : Dev) (f : Tst → Tst) : (d.onTst f).hnk = d.hnk := rfl
@[simp] theorem Dev.onTst_skn (d : Dev) (f : Tst → Tst) : (d.onTst f).skn = d.skn := rfl
@[simp] theorem Dev.onTst_sns (d : Dev) (f : Tst → Tst) : (d.onTst f).sns = d.sns := rfl
@[simp] theorem Dev.onTst_dma (d : Dev) (f : Tst → Tst) : (d.onTst f).dma = d.dma := rfl
@[simp] theorem Dev.onTst_chk (d : Dev) (f : Tst → Tst) : (d.onTst f).chk = d.chk := rfl
@[simp] theorem Dev.onTst_age (d : Dev) (f : Tst → Tst) : (d.onTst f).age = d.age := rfl
@[simp] theorem Dev.onTst_tst (d : Dev) (f : Tst → Tst) : (d.onTst f).tst = f d.tst := rfl
@[simp] theorem Dev.onTst_jtag (d : Dev) (f : Tst → Tst) : (d.onTst f).jtag = d.jtag := rfl

/-! ### `Dev.onNvm` -/

@[simp] theorem Dev.onNvm_freeIdx (d : Dev) (f : Nvm → Nvm) : (d.onNvm f).freeIdx = d.freeIdx := rfl
@[simp] theorem Dev.onNvm_idleCycles (d : Dev) (f : Nvm → Nvm) : (d.onNvm f).idleCycles = d.idleCycles := rfl
@[simp] theorem Dev.onNvm_aon (d : Dev) (f : Nvm → Nvm) : (d.onNvm f).aon = d.aon := rfl
@[simp] theorem Dev.onNvm_pins (d : Dev) (f : Nvm → Nvm) : (d.onNvm f).pins = d.pins := rfl
@[simp] theorem Dev.onNvm_sys (d : Dev) (f : Nvm → Nvm) : (d.onNvm f).sys = d.sys := rfl
@[simp] theorem Dev.onNvm_pairs (d : Dev) (f : Nvm → Nvm) : (d.onNvm f).pairs = d.pairs := rfl
@[simp] theorem Dev.onNvm_bus (d : Dev) (f : Nvm → Nvm) : (d.onNvm f).bus = d.bus := rfl
@[simp] theorem Dev.onNvm_jnl (d : Dev) (f : Nvm → Nvm) : (d.onNvm f).jnl = d.jnl := rfl
@[simp] theorem Dev.onNvm_nvm (d : Dev) (f : Nvm → Nvm) : (d.onNvm f).nvm = f d.nvm := rfl
@[simp] theorem Dev.onNvm_lay (d : Dev) (f : Nvm → Nvm) : (d.onNvm f).lay = d.lay := rfl
@[simp] theorem Dev.onNvm_img (d : Dev) (f : Nvm → Nvm) : (d.onNvm f).img = d.img := rfl
@[simp] theorem Dev.onNvm_whl (d : Dev) (f : Nvm → Nvm) : (d.onNvm f).whl = d.whl := rfl
@[simp] theorem Dev.onNvm_ports (d : Dev) (f : Nvm → Nvm) : (d.onNvm f).ports = d.ports := rfl
@[simp] theorem Dev.onNvm_card (d : Dev) (f : Nvm → Nvm) : (d.onNvm f).card = d.card := rfl
@[simp] theorem Dev.onNvm_strands (d : Dev) (f : Nvm → Nvm) : (d.onNvm f).strands = d.strands := rfl
@[simp] theorem Dev.onNvm_spn (d : Dev) (f : Nvm → Nvm) : (d.onNvm f).spn = d.spn := rfl
@[simp] theorem Dev.onNvm_streams (d : Dev) (f : Nvm → Nvm) : (d.onNvm f).streams = d.streams := rfl
@[simp] theorem Dev.onNvm_bob (d : Dev) (f : Nvm → Nvm) : (d.onNvm f).bob = d.bob := rfl
@[simp] theorem Dev.onNvm_fst (d : Dev) (f : Nvm → Nvm) : (d.onNvm f).fst = d.fst := rfl
@[simp] theorem Dev.onNvm_ply (d : Dev) (f : Nvm → Nvm) : (d.onNvm f).ply = d.ply := rfl
@[simp] theorem Dev.onNvm_hnk (d : Dev) (f : Nvm → Nvm) : (d.onNvm f).hnk = d.hnk := rfl
@[simp] theorem Dev.onNvm_skn (d : Dev) (f : Nvm → Nvm) : (d.onNvm f).skn = d.skn := rfl
@[simp] theorem Dev.onNvm_sns (d : Dev) (f : Nvm → Nvm) : (d.onNvm f).sns = d.sns := rfl
@[simp] theorem Dev.onNvm_dma (d : Dev) (f : Nvm → Nvm) : (d.onNvm f).dma = d.dma := rfl
@[simp] theorem Dev.onNvm_chk (d : Dev) (f : Nvm → Nvm) : (d.onNvm f).chk = d.chk := rfl
@[simp] theorem Dev.onNvm_age (d : Dev) (f : Nvm → Nvm) : (d.onNvm f).age = d.age := rfl
@[simp] theorem Dev.onNvm_tst (d : Dev) (f : Nvm → Nvm) : (d.onNvm f).tst = d.tst := rfl
@[simp] theorem Dev.onNvm_jtag (d : Dev) (f : Nvm → Nvm) : (d.onNvm f).jtag = d.jtag := rfl

/-! ### `Dev.onBus` -/

@[simp] theorem Dev.onBus_freeIdx (d : Dev) (f : Bus → Bus) : (d.onBus f).freeIdx = d.freeIdx := rfl
@[simp] theorem Dev.onBus_idleCycles (d : Dev) (f : Bus → Bus) : (d.onBus f).idleCycles = d.idleCycles := rfl
@[simp] theorem Dev.onBus_aon (d : Dev) (f : Bus → Bus) : (d.onBus f).aon = d.aon := rfl
@[simp] theorem Dev.onBus_pins (d : Dev) (f : Bus → Bus) : (d.onBus f).pins = d.pins := rfl
@[simp] theorem Dev.onBus_sys (d : Dev) (f : Bus → Bus) : (d.onBus f).sys = d.sys := rfl
@[simp] theorem Dev.onBus_pairs (d : Dev) (f : Bus → Bus) : (d.onBus f).pairs = d.pairs := rfl
@[simp] theorem Dev.onBus_bus (d : Dev) (f : Bus → Bus) : (d.onBus f).bus = f d.bus := rfl
@[simp] theorem Dev.onBus_jnl (d : Dev) (f : Bus → Bus) : (d.onBus f).jnl = d.jnl := rfl
@[simp] theorem Dev.onBus_nvm (d : Dev) (f : Bus → Bus) : (d.onBus f).nvm = d.nvm := rfl
@[simp] theorem Dev.onBus_lay (d : Dev) (f : Bus → Bus) : (d.onBus f).lay = d.lay := rfl
@[simp] theorem Dev.onBus_img (d : Dev) (f : Bus → Bus) : (d.onBus f).img = d.img := rfl
@[simp] theorem Dev.onBus_whl (d : Dev) (f : Bus → Bus) : (d.onBus f).whl = d.whl := rfl
@[simp] theorem Dev.onBus_ports (d : Dev) (f : Bus → Bus) : (d.onBus f).ports = d.ports := rfl
@[simp] theorem Dev.onBus_card (d : Dev) (f : Bus → Bus) : (d.onBus f).card = d.card := rfl
@[simp] theorem Dev.onBus_strands (d : Dev) (f : Bus → Bus) : (d.onBus f).strands = d.strands := rfl
@[simp] theorem Dev.onBus_spn (d : Dev) (f : Bus → Bus) : (d.onBus f).spn = d.spn := rfl
@[simp] theorem Dev.onBus_streams (d : Dev) (f : Bus → Bus) : (d.onBus f).streams = d.streams := rfl
@[simp] theorem Dev.onBus_bob (d : Dev) (f : Bus → Bus) : (d.onBus f).bob = d.bob := rfl
@[simp] theorem Dev.onBus_fst (d : Dev) (f : Bus → Bus) : (d.onBus f).fst = d.fst := rfl
@[simp] theorem Dev.onBus_ply (d : Dev) (f : Bus → Bus) : (d.onBus f).ply = d.ply := rfl
@[simp] theorem Dev.onBus_hnk (d : Dev) (f : Bus → Bus) : (d.onBus f).hnk = d.hnk := rfl
@[simp] theorem Dev.onBus_skn (d : Dev) (f : Bus → Bus) : (d.onBus f).skn = d.skn := rfl
@[simp] theorem Dev.onBus_sns (d : Dev) (f : Bus → Bus) : (d.onBus f).sns = d.sns := rfl
@[simp] theorem Dev.onBus_dma (d : Dev) (f : Bus → Bus) : (d.onBus f).dma = d.dma := rfl
@[simp] theorem Dev.onBus_chk (d : Dev) (f : Bus → Bus) : (d.onBus f).chk = d.chk := rfl
@[simp] theorem Dev.onBus_age (d : Dev) (f : Bus → Bus) : (d.onBus f).age = d.age := rfl
@[simp] theorem Dev.onBus_tst (d : Dev) (f : Bus → Bus) : (d.onBus f).tst = d.tst := rfl
@[simp] theorem Dev.onBus_jtag (d : Dev) (f : Bus → Bus) : (d.onBus f).jtag = d.jtag := rfl

/-! ### `Dev.onBob` -/

@[simp] theorem Dev.onBob_freeIdx (d : Dev) (f : Bob → Bob) : (d.onBob f).freeIdx = d.freeIdx := rfl
@[simp] theorem Dev.onBob_idleCycles (d : Dev) (f : Bob → Bob) : (d.onBob f).idleCycles = d.idleCycles := rfl
@[simp] theorem Dev.onBob_aon (d : Dev) (f : Bob → Bob) : (d.onBob f).aon = d.aon := rfl
@[simp] theorem Dev.onBob_pins (d : Dev) (f : Bob → Bob) : (d.onBob f).pins = d.pins := rfl
@[simp] theorem Dev.onBob_sys (d : Dev) (f : Bob → Bob) : (d.onBob f).sys = d.sys := rfl
@[simp] theorem Dev.onBob_pairs (d : Dev) (f : Bob → Bob) : (d.onBob f).pairs = d.pairs := rfl
@[simp] theorem Dev.onBob_bus (d : Dev) (f : Bob → Bob) : (d.onBob f).bus = d.bus := rfl
@[simp] theorem Dev.onBob_jnl (d : Dev) (f : Bob → Bob) : (d.onBob f).jnl = d.jnl := rfl
@[simp] theorem Dev.onBob_nvm (d : Dev) (f : Bob → Bob) : (d.onBob f).nvm = d.nvm := rfl
@[simp] theorem Dev.onBob_lay (d : Dev) (f : Bob → Bob) : (d.onBob f).lay = d.lay := rfl
@[simp] theorem Dev.onBob_img (d : Dev) (f : Bob → Bob) : (d.onBob f).img = d.img := rfl
@[simp] theorem Dev.onBob_whl (d : Dev) (f : Bob → Bob) : (d.onBob f).whl = d.whl := rfl
@[simp] theorem Dev.onBob_ports (d : Dev) (f : Bob → Bob) : (d.onBob f).ports = d.ports := rfl
@[simp] theorem Dev.onBob_card (d : Dev) (f : Bob → Bob) : (d.onBob f).card = d.card := rfl
@[simp] theorem Dev.onBob_strands (d : Dev) (f : Bob → Bob) : (d.onBob f).strands = d.strands := rfl
@[simp] theorem Dev.onBob_spn (d : Dev) (f : Bob → Bob) : (d.onBob f).spn = d.spn := rfl
@[simp] theorem Dev.onBob_streams (d : Dev) (f : Bob → Bob) : (d.onBob f).streams = d.streams := rfl
@[simp] theorem Dev.onBob_bob (d : Dev) (f : Bob → Bob) : (d.onBob f).bob = f d.bob := rfl
@[simp] theorem Dev.onBob_fst (d : Dev) (f : Bob → Bob) : (d.onBob f).fst = d.fst := rfl
@[simp] theorem Dev.onBob_ply (d : Dev) (f : Bob → Bob) : (d.onBob f).ply = d.ply := rfl
@[simp] theorem Dev.onBob_hnk (d : Dev) (f : Bob → Bob) : (d.onBob f).hnk = d.hnk := rfl
@[simp] theorem Dev.onBob_skn (d : Dev) (f : Bob → Bob) : (d.onBob f).skn = d.skn := rfl
@[simp] theorem Dev.onBob_sns (d : Dev) (f : Bob → Bob) : (d.onBob f).sns = d.sns := rfl
@[simp] theorem Dev.onBob_dma (d : Dev) (f : Bob → Bob) : (d.onBob f).dma = d.dma := rfl
@[simp] theorem Dev.onBob_chk (d : Dev) (f : Bob → Bob) : (d.onBob f).chk = d.chk := rfl
@[simp] theorem Dev.onBob_age (d : Dev) (f : Bob → Bob) : (d.onBob f).age = d.age := rfl
@[simp] theorem Dev.onBob_tst (d : Dev) (f : Bob → Bob) : (d.onBob f).tst = d.tst := rfl
@[simp] theorem Dev.onBob_jtag (d : Dev) (f : Bob → Bob) : (d.onBob f).jtag = d.jtag := rfl

/-! ### `Dev.latchHi` -/

@[simp] theorem Dev.latchHi_freeIdx (d : Dev) (m : Master) (o : Nat) (v : Word) : (d.latchHi m o v).freeIdx = d.freeIdx := rfl
@[simp] theorem Dev.latchHi_idleCycles (d : Dev) (m : Master) (o : Nat) (v : Word) : (d.latchHi m o v).idleCycles = d.idleCycles := rfl
@[simp] theorem Dev.latchHi_aon (d : Dev) (m : Master) (o : Nat) (v : Word) : (d.latchHi m o v).aon = d.aon := rfl
@[simp] theorem Dev.latchHi_pins (d : Dev) (m : Master) (o : Nat) (v : Word) : (d.latchHi m o v).pins = d.pins := rfl
@[simp] theorem Dev.latchHi_sys (d : Dev) (m : Master) (o : Nat) (v : Word) : (d.latchHi m o v).sys = d.sys := rfl
@[simp] theorem Dev.latchHi_pairs (d : Dev) (m : Master) (o : Nat) (v : Word) : (d.latchHi m o v).pairs = d.pairs := rfl
@[simp] theorem Dev.latchHi_jnl (d : Dev) (m : Master) (o : Nat) (v : Word) : (d.latchHi m o v).jnl = d.jnl := rfl
@[simp] theorem Dev.latchHi_nvm (d : Dev) (m : Master) (o : Nat) (v : Word) : (d.latchHi m o v).nvm = d.nvm := rfl
@[simp] theorem Dev.latchHi_lay (d : Dev) (m : Master) (o : Nat) (v : Word) : (d.latchHi m o v).lay = d.lay := rfl
@[simp] theorem Dev.latchHi_img (d : Dev) (m : Master) (o : Nat) (v : Word) : (d.latchHi m o v).img = d.img := rfl
@[simp] theorem Dev.latchHi_whl (d : Dev) (m : Master) (o : Nat) (v : Word) : (d.latchHi m o v).whl = d.whl := rfl
@[simp] theorem Dev.latchHi_ports (d : Dev) (m : Master) (o : Nat) (v : Word) : (d.latchHi m o v).ports = d.ports := rfl
@[simp] theorem Dev.latchHi_card (d : Dev) (m : Master) (o : Nat) (v : Word) : (d.latchHi m o v).card = d.card := rfl
@[simp] theorem Dev.latchHi_strands (d : Dev) (m : Master) (o : Nat) (v : Word) : (d.latchHi m o v).strands = d.strands := rfl
@[simp] theorem Dev.latchHi_spn (d : Dev) (m : Master) (o : Nat) (v : Word) : (d.latchHi m o v).spn = d.spn := rfl
@[simp] theorem Dev.latchHi_streams (d : Dev) (m : Master) (o : Nat) (v : Word) : (d.latchHi m o v).streams = d.streams := rfl
@[simp] theorem Dev.latchHi_bob (d : Dev) (m : Master) (o : Nat) (v : Word) : (d.latchHi m o v).bob = d.bob := rfl
@[simp] theorem Dev.latchHi_fst (d : Dev) (m : Master) (o : Nat) (v : Word) : (d.latchHi m o v).fst = d.fst := rfl
@[simp] theorem Dev.latchHi_ply (d : Dev) (m : Master) (o : Nat) (v : Word) : (d.latchHi m o v).ply = d.ply := rfl
@[simp] theorem Dev.latchHi_hnk (d : Dev) (m : Master) (o : Nat) (v : Word) : (d.latchHi m o v).hnk = d.hnk := rfl
@[simp] theorem Dev.latchHi_skn (d : Dev) (m : Master) (o : Nat) (v : Word) : (d.latchHi m o v).skn = d.skn := rfl
@[simp] theorem Dev.latchHi_sns (d : Dev) (m : Master) (o : Nat) (v : Word) : (d.latchHi m o v).sns = d.sns := rfl
@[simp] theorem Dev.latchHi_dma (d : Dev) (m : Master) (o : Nat) (v : Word) : (d.latchHi m o v).dma = d.dma := rfl
@[simp] theorem Dev.latchHi_chk (d : Dev) (m : Master) (o : Nat) (v : Word) : (d.latchHi m o v).chk = d.chk := rfl
@[simp] theorem Dev.latchHi_age (d : Dev) (m : Master) (o : Nat) (v : Word) : (d.latchHi m o v).age = d.age := rfl
@[simp] theorem Dev.latchHi_tst (d : Dev) (m : Master) (o : Nat) (v : Word) : (d.latchHi m o v).tst = d.tst := rfl
@[simp] theorem Dev.latchHi_jtag (d : Dev) (m : Master) (o : Nat) (v : Word) : (d.latchHi m o v).jtag = d.jtag := rfl

/-! ### `Dev.holdLo` -/

@[simp] theorem Dev.holdLo_freeIdx (d : Dev) (m : Master) (o : Nat) (v : Word) : (d.holdLo m o v).freeIdx = d.freeIdx := rfl
@[simp] theorem Dev.holdLo_idleCycles (d : Dev) (m : Master) (o : Nat) (v : Word) : (d.holdLo m o v).idleCycles = d.idleCycles := rfl
@[simp] theorem Dev.holdLo_aon (d : Dev) (m : Master) (o : Nat) (v : Word) : (d.holdLo m o v).aon = d.aon := rfl
@[simp] theorem Dev.holdLo_pins (d : Dev) (m : Master) (o : Nat) (v : Word) : (d.holdLo m o v).pins = d.pins := rfl
@[simp] theorem Dev.holdLo_sys (d : Dev) (m : Master) (o : Nat) (v : Word) : (d.holdLo m o v).sys = d.sys := rfl
@[simp] theorem Dev.holdLo_pairs (d : Dev) (m : Master) (o : Nat) (v : Word) : (d.holdLo m o v).pairs = d.pairs := rfl
@[simp] theorem Dev.holdLo_jnl (d : Dev) (m : Master) (o : Nat) (v : Word) : (d.holdLo m o v).jnl = d.jnl := rfl
@[simp] theorem Dev.holdLo_nvm (d : Dev) (m : Master) (o : Nat) (v : Word) : (d.holdLo m o v).nvm = d.nvm := rfl
@[simp] theorem Dev.holdLo_lay (d : Dev) (m : Master) (o : Nat) (v : Word) : (d.holdLo m o v).lay = d.lay := rfl
@[simp] theorem Dev.holdLo_img (d : Dev) (m : Master) (o : Nat) (v : Word) : (d.holdLo m o v).img = d.img := rfl
@[simp] theorem Dev.holdLo_whl (d : Dev) (m : Master) (o : Nat) (v : Word) : (d.holdLo m o v).whl = d.whl := rfl
@[simp] theorem Dev.holdLo_ports (d : Dev) (m : Master) (o : Nat) (v : Word) : (d.holdLo m o v).ports = d.ports := rfl
@[simp] theorem Dev.holdLo_card (d : Dev) (m : Master) (o : Nat) (v : Word) : (d.holdLo m o v).card = d.card := rfl
@[simp] theorem Dev.holdLo_strands (d : Dev) (m : Master) (o : Nat) (v : Word) : (d.holdLo m o v).strands = d.strands := rfl
@[simp] theorem Dev.holdLo_spn (d : Dev) (m : Master) (o : Nat) (v : Word) : (d.holdLo m o v).spn = d.spn := rfl
@[simp] theorem Dev.holdLo_streams (d : Dev) (m : Master) (o : Nat) (v : Word) : (d.holdLo m o v).streams = d.streams := rfl
@[simp] theorem Dev.holdLo_bob (d : Dev) (m : Master) (o : Nat) (v : Word) : (d.holdLo m o v).bob = d.bob := rfl
@[simp] theorem Dev.holdLo_fst (d : Dev) (m : Master) (o : Nat) (v : Word) : (d.holdLo m o v).fst = d.fst := rfl
@[simp] theorem Dev.holdLo_ply (d : Dev) (m : Master) (o : Nat) (v : Word) : (d.holdLo m o v).ply = d.ply := rfl
@[simp] theorem Dev.holdLo_hnk (d : Dev) (m : Master) (o : Nat) (v : Word) : (d.holdLo m o v).hnk = d.hnk := rfl
@[simp] theorem Dev.holdLo_skn (d : Dev) (m : Master) (o : Nat) (v : Word) : (d.holdLo m o v).skn = d.skn := rfl
@[simp] theorem Dev.holdLo_sns (d : Dev) (m : Master) (o : Nat) (v : Word) : (d.holdLo m o v).sns = d.sns := rfl
@[simp] theorem Dev.holdLo_dma (d : Dev) (m : Master) (o : Nat) (v : Word) : (d.holdLo m o v).dma = d.dma := rfl
@[simp] theorem Dev.holdLo_chk (d : Dev) (m : Master) (o : Nat) (v : Word) : (d.holdLo m o v).chk = d.chk := rfl
@[simp] theorem Dev.holdLo_age (d : Dev) (m : Master) (o : Nat) (v : Word) : (d.holdLo m o v).age = d.age := rfl
@[simp] theorem Dev.holdLo_tst (d : Dev) (m : Master) (o : Nat) (v : Word) : (d.holdLo m o v).tst = d.tst := rfl
@[simp] theorem Dev.holdLo_jtag (d : Dev) (m : Master) (o : Nat) (v : Word) : (d.holdLo m o v).jtag = d.jtag := rfl

/-! ### `Dev.pairError` -/

@[simp] theorem Dev.pairError_freeIdx (d : Dev) (a : Access) (o : Nat) : (d.pairError a o).freeIdx = d.freeIdx := rfl
@[simp] theorem Dev.pairError_idleCycles (d : Dev) (a : Access) (o : Nat) : (d.pairError a o).idleCycles = d.idleCycles := rfl
@[simp] theorem Dev.pairError_aon (d : Dev) (a : Access) (o : Nat) : (d.pairError a o).aon = d.aon := rfl
@[simp] theorem Dev.pairError_pins (d : Dev) (a : Access) (o : Nat) : (d.pairError a o).pins = d.pins := rfl
@[simp] theorem Dev.pairError_pairs (d : Dev) (a : Access) (o : Nat) : (d.pairError a o).pairs = d.pairs := rfl
@[simp] theorem Dev.pairError_bus (d : Dev) (a : Access) (o : Nat) : (d.pairError a o).bus = d.bus := rfl
@[simp] theorem Dev.pairError_jnl (d : Dev) (a : Access) (o : Nat) : (d.pairError a o).jnl = d.jnl := rfl
@[simp] theorem Dev.pairError_nvm (d : Dev) (a : Access) (o : Nat) : (d.pairError a o).nvm = d.nvm := rfl
@[simp] theorem Dev.pairError_lay (d : Dev) (a : Access) (o : Nat) : (d.pairError a o).lay = d.lay := rfl
@[simp] theorem Dev.pairError_img (d : Dev) (a : Access) (o : Nat) : (d.pairError a o).img = d.img := rfl
@[simp] theorem Dev.pairError_whl (d : Dev) (a : Access) (o : Nat) : (d.pairError a o).whl = d.whl := rfl
@[simp] theorem Dev.pairError_ports (d : Dev) (a : Access) (o : Nat) : (d.pairError a o).ports = d.ports := rfl
@[simp] theorem Dev.pairError_card (d : Dev) (a : Access) (o : Nat) : (d.pairError a o).card = d.card := rfl
@[simp] theorem Dev.pairError_strands (d : Dev) (a : Access) (o : Nat) : (d.pairError a o).strands = d.strands := rfl
@[simp] theorem Dev.pairError_spn (d : Dev) (a : Access) (o : Nat) : (d.pairError a o).spn = d.spn := rfl
@[simp] theorem Dev.pairError_streams (d : Dev) (a : Access) (o : Nat) : (d.pairError a o).streams = d.streams := rfl
@[simp] theorem Dev.pairError_bob (d : Dev) (a : Access) (o : Nat) : (d.pairError a o).bob = d.bob := rfl
@[simp] theorem Dev.pairError_fst (d : Dev) (a : Access) (o : Nat) : (d.pairError a o).fst = d.fst := rfl
@[simp] theorem Dev.pairError_ply (d : Dev) (a : Access) (o : Nat) : (d.pairError a o).ply = d.ply := rfl
@[simp] theorem Dev.pairError_hnk (d : Dev) (a : Access) (o : Nat) : (d.pairError a o).hnk = d.hnk := rfl
@[simp] theorem Dev.pairError_skn (d : Dev) (a : Access) (o : Nat) : (d.pairError a o).skn = d.skn := rfl
@[simp] theorem Dev.pairError_sns (d : Dev) (a : Access) (o : Nat) : (d.pairError a o).sns = d.sns := rfl
@[simp] theorem Dev.pairError_dma (d : Dev) (a : Access) (o : Nat) : (d.pairError a o).dma = d.dma := rfl
@[simp] theorem Dev.pairError_chk (d : Dev) (a : Access) (o : Nat) : (d.pairError a o).chk = d.chk := rfl
@[simp] theorem Dev.pairError_age (d : Dev) (a : Access) (o : Nat) : (d.pairError a o).age = d.age := rfl
@[simp] theorem Dev.pairError_tst (d : Dev) (a : Access) (o : Nat) : (d.pairError a o).tst = d.tst := rfl
@[simp] theorem Dev.pairError_jtag (d : Dev) (a : Access) (o : Nat) : (d.pairError a o).jtag = d.jtag := rfl

/-! ### `Dev.answer` -/

@[simp] theorem Dev.answer_freeIdx (d : Dev) (a : Access) (c : BitVec 4) (x : Byte) (v : DWord) : (d.answer a c x v).freeIdx = d.freeIdx := rfl
@[simp] theorem Dev.answer_idleCycles (d : Dev) (a : Access) (c : BitVec 4) (x : Byte) (v : DWord) : (d.answer a c x v).idleCycles = d.idleCycles := rfl
@[simp] theorem Dev.answer_aon (d : Dev) (a : Access) (c : BitVec 4) (x : Byte) (v : DWord) : (d.answer a c x v).aon = d.aon := rfl
@[simp] theorem Dev.answer_pins (d : Dev) (a : Access) (c : BitVec 4) (x : Byte) (v : DWord) : (d.answer a c x v).pins = d.pins := rfl
@[simp] theorem Dev.answer_sys (d : Dev) (a : Access) (c : BitVec 4) (x : Byte) (v : DWord) : (d.answer a c x v).sys = d.sys := rfl
@[simp] theorem Dev.answer_pairs (d : Dev) (a : Access) (c : BitVec 4) (x : Byte) (v : DWord) : (d.answer a c x v).pairs = d.pairs := rfl
@[simp] theorem Dev.answer_jnl (d : Dev) (a : Access) (c : BitVec 4) (x : Byte) (v : DWord) : (d.answer a c x v).jnl = d.jnl := rfl
@[simp] theorem Dev.answer_nvm (d : Dev) (a : Access) (c : BitVec 4) (x : Byte) (v : DWord) : (d.answer a c x v).nvm = d.nvm := rfl
@[simp] theorem Dev.answer_lay (d : Dev) (a : Access) (c : BitVec 4) (x : Byte) (v : DWord) : (d.answer a c x v).lay = d.lay := rfl
@[simp] theorem Dev.answer_img (d : Dev) (a : Access) (c : BitVec 4) (x : Byte) (v : DWord) : (d.answer a c x v).img = d.img := rfl
@[simp] theorem Dev.answer_whl (d : Dev) (a : Access) (c : BitVec 4) (x : Byte) (v : DWord) : (d.answer a c x v).whl = d.whl := rfl
@[simp] theorem Dev.answer_ports (d : Dev) (a : Access) (c : BitVec 4) (x : Byte) (v : DWord) : (d.answer a c x v).ports = d.ports := rfl
@[simp] theorem Dev.answer_card (d : Dev) (a : Access) (c : BitVec 4) (x : Byte) (v : DWord) : (d.answer a c x v).card = d.card := rfl
@[simp] theorem Dev.answer_strands (d : Dev) (a : Access) (c : BitVec 4) (x : Byte) (v : DWord) : (d.answer a c x v).strands = d.strands := rfl
@[simp] theorem Dev.answer_spn (d : Dev) (a : Access) (c : BitVec 4) (x : Byte) (v : DWord) : (d.answer a c x v).spn = d.spn := rfl
@[simp] theorem Dev.answer_streams (d : Dev) (a : Access) (c : BitVec 4) (x : Byte) (v : DWord) : (d.answer a c x v).streams = d.streams := rfl
@[simp] theorem Dev.answer_bob (d : Dev) (a : Access) (c : BitVec 4) (x : Byte) (v : DWord) : (d.answer a c x v).bob = d.bob := rfl
@[simp] theorem Dev.answer_fst (d : Dev) (a : Access) (c : BitVec 4) (x : Byte) (v : DWord) : (d.answer a c x v).fst = d.fst := rfl
@[simp] theorem Dev.answer_ply (d : Dev) (a : Access) (c : BitVec 4) (x : Byte) (v : DWord) : (d.answer a c x v).ply = d.ply := rfl
@[simp] theorem Dev.answer_hnk (d : Dev) (a : Access) (c : BitVec 4) (x : Byte) (v : DWord) : (d.answer a c x v).hnk = d.hnk := rfl
@[simp] theorem Dev.answer_skn (d : Dev) (a : Access) (c : BitVec 4) (x : Byte) (v : DWord) : (d.answer a c x v).skn = d.skn := rfl
@[simp] theorem Dev.answer_sns (d : Dev) (a : Access) (c : BitVec 4) (x : Byte) (v : DWord) : (d.answer a c x v).sns = d.sns := rfl
@[simp] theorem Dev.answer_dma (d : Dev) (a : Access) (c : BitVec 4) (x : Byte) (v : DWord) : (d.answer a c x v).dma = d.dma := rfl
@[simp] theorem Dev.answer_chk (d : Dev) (a : Access) (c : BitVec 4) (x : Byte) (v : DWord) : (d.answer a c x v).chk = d.chk := rfl
@[simp] theorem Dev.answer_age (d : Dev) (a : Access) (c : BitVec 4) (x : Byte) (v : DWord) : (d.answer a c x v).age = d.age := rfl
@[simp] theorem Dev.answer_tst (d : Dev) (a : Access) (c : BitVec 4) (x : Byte) (v : DWord) : (d.answer a c x v).tst = d.tst := rfl
@[simp] theorem Dev.answer_jtag (d : Dev) (a : Access) (c : BitVec 4) (x : Byte) (v : DWord) : (d.answer a c x v).jtag = d.jtag := rfl

/-! ### `Dev.drivePins` -/

@[simp] theorem Dev.drivePins_freeIdx (d : Dev) : (d.drivePins).freeIdx = d.freeIdx := rfl
@[simp] theorem Dev.drivePins_idleCycles (d : Dev) : (d.drivePins).idleCycles = d.idleCycles := rfl
@[simp] theorem Dev.drivePins_aon (d : Dev) : (d.drivePins).aon = d.aon := rfl
@[simp] theorem Dev.drivePins_sys (d : Dev) : (d.drivePins).sys = d.sys := rfl
@[simp] theorem Dev.drivePins_pairs (d : Dev) : (d.drivePins).pairs = d.pairs := rfl
@[simp] theorem Dev.drivePins_bus (d : Dev) : (d.drivePins).bus = d.bus := rfl
@[simp] theorem Dev.drivePins_jnl (d : Dev) : (d.drivePins).jnl = d.jnl := rfl
@[simp] theorem Dev.drivePins_nvm (d : Dev) : (d.drivePins).nvm = d.nvm := rfl
@[simp] theorem Dev.drivePins_lay (d : Dev) : (d.drivePins).lay = d.lay := rfl
@[simp] theorem Dev.drivePins_img (d : Dev) : (d.drivePins).img = d.img := rfl
@[simp] theorem Dev.drivePins_whl (d : Dev) : (d.drivePins).whl = d.whl := rfl
@[simp] theorem Dev.drivePins_ports (d : Dev) : (d.drivePins).ports = d.ports := rfl
@[simp] theorem Dev.drivePins_card (d : Dev) : (d.drivePins).card = d.card := rfl
@[simp] theorem Dev.drivePins_strands (d : Dev) : (d.drivePins).strands = d.strands := rfl
@[simp] theorem Dev.drivePins_spn (d : Dev) : (d.drivePins).spn = d.spn := rfl
@[simp] theorem Dev.drivePins_streams (d : Dev) : (d.drivePins).streams = d.streams := rfl
@[simp] theorem Dev.drivePins_bob (d : Dev) : (d.drivePins).bob = d.bob := rfl
@[simp] theorem Dev.drivePins_fst (d : Dev) : (d.drivePins).fst = d.fst := rfl
@[simp] theorem Dev.drivePins_ply (d : Dev) : (d.drivePins).ply = d.ply := rfl
@[simp] theorem Dev.drivePins_hnk (d : Dev) : (d.drivePins).hnk = d.hnk := rfl
@[simp] theorem Dev.drivePins_skn (d : Dev) : (d.drivePins).skn = d.skn := rfl
@[simp] theorem Dev.drivePins_sns (d : Dev) : (d.drivePins).sns = d.sns := rfl
@[simp] theorem Dev.drivePins_dma (d : Dev) : (d.drivePins).dma = d.dma := rfl
@[simp] theorem Dev.drivePins_chk (d : Dev) : (d.drivePins).chk = d.chk := rfl
@[simp] theorem Dev.drivePins_age (d : Dev) : (d.drivePins).age = d.age := rfl
@[simp] theorem Dev.drivePins_tst (d : Dev) : (d.drivePins).tst = d.tst := rfl
@[simp] theorem Dev.drivePins_jtag (d : Dev) : (d.drivePins).jtag = d.jtag := rfl

/-! ### `Dev.jtagTake` -/

@[simp] theorem Dev.jtagTake_freeIdx (d : Dev) (i : JtagIr) (r : Word) (p h : Bool) : (d.jtagTake i r p h).freeIdx = d.freeIdx := rfl
@[simp] theorem Dev.jtagTake_idleCycles (d : Dev) (i : JtagIr) (r : Word) (p h : Bool) : (d.jtagTake i r p h).idleCycles = d.idleCycles := rfl
@[simp] theorem Dev.jtagTake_aon (d : Dev) (i : JtagIr) (r : Word) (p h : Bool) : (d.jtagTake i r p h).aon = d.aon := rfl
@[simp] theorem Dev.jtagTake_pins (d : Dev) (i : JtagIr) (r : Word) (p h : Bool) : (d.jtagTake i r p h).pins = d.pins := rfl
@[simp] theorem Dev.jtagTake_sys (d : Dev) (i : JtagIr) (r : Word) (p h : Bool) : (d.jtagTake i r p h).sys = d.sys := rfl
@[simp] theorem Dev.jtagTake_pairs (d : Dev) (i : JtagIr) (r : Word) (p h : Bool) : (d.jtagTake i r p h).pairs = d.pairs := rfl
@[simp] theorem Dev.jtagTake_bus (d : Dev) (i : JtagIr) (r : Word) (p h : Bool) : (d.jtagTake i r p h).bus = d.bus := rfl
@[simp] theorem Dev.jtagTake_jnl (d : Dev) (i : JtagIr) (r : Word) (p h : Bool) : (d.jtagTake i r p h).jnl = d.jnl := rfl
@[simp] theorem Dev.jtagTake_nvm (d : Dev) (i : JtagIr) (r : Word) (p h : Bool) : (d.jtagTake i r p h).nvm = d.nvm := rfl
@[simp] theorem Dev.jtagTake_lay (d : Dev) (i : JtagIr) (r : Word) (p h : Bool) : (d.jtagTake i r p h).lay = d.lay := rfl
@[simp] theorem Dev.jtagTake_img (d : Dev) (i : JtagIr) (r : Word) (p h : Bool) : (d.jtagTake i r p h).img = d.img := rfl
@[simp] theorem Dev.jtagTake_whl (d : Dev) (i : JtagIr) (r : Word) (p h : Bool) : (d.jtagTake i r p h).whl = d.whl := rfl
@[simp] theorem Dev.jtagTake_ports (d : Dev) (i : JtagIr) (r : Word) (p h : Bool) : (d.jtagTake i r p h).ports = d.ports := rfl
@[simp] theorem Dev.jtagTake_card (d : Dev) (i : JtagIr) (r : Word) (p h : Bool) : (d.jtagTake i r p h).card = d.card := rfl
@[simp] theorem Dev.jtagTake_strands (d : Dev) (i : JtagIr) (r : Word) (p h : Bool) : (d.jtagTake i r p h).strands = d.strands := rfl
@[simp] theorem Dev.jtagTake_spn (d : Dev) (i : JtagIr) (r : Word) (p h : Bool) : (d.jtagTake i r p h).spn = d.spn := rfl
@[simp] theorem Dev.jtagTake_streams (d : Dev) (i : JtagIr) (r : Word) (p h : Bool) : (d.jtagTake i r p h).streams = d.streams := rfl
@[simp] theorem Dev.jtagTake_bob (d : Dev) (i : JtagIr) (r : Word) (p h : Bool) : (d.jtagTake i r p h).bob = d.bob := rfl
@[simp] theorem Dev.jtagTake_fst (d : Dev) (i : JtagIr) (r : Word) (p h : Bool) : (d.jtagTake i r p h).fst = d.fst := rfl
@[simp] theorem Dev.jtagTake_ply (d : Dev) (i : JtagIr) (r : Word) (p h : Bool) : (d.jtagTake i r p h).ply = d.ply := rfl
@[simp] theorem Dev.jtagTake_hnk (d : Dev) (i : JtagIr) (r : Word) (p h : Bool) : (d.jtagTake i r p h).hnk = d.hnk := rfl
@[simp] theorem Dev.jtagTake_skn (d : Dev) (i : JtagIr) (r : Word) (p h : Bool) : (d.jtagTake i r p h).skn = d.skn := rfl
@[simp] theorem Dev.jtagTake_sns (d : Dev) (i : JtagIr) (r : Word) (p h : Bool) : (d.jtagTake i r p h).sns = d.sns := rfl
@[simp] theorem Dev.jtagTake_dma (d : Dev) (i : JtagIr) (r : Word) (p h : Bool) : (d.jtagTake i r p h).dma = d.dma := rfl
@[simp] theorem Dev.jtagTake_chk (d : Dev) (i : JtagIr) (r : Word) (p h : Bool) : (d.jtagTake i r p h).chk = d.chk := rfl
@[simp] theorem Dev.jtagTake_age (d : Dev) (i : JtagIr) (r : Word) (p h : Bool) : (d.jtagTake i r p h).age = d.age := rfl
@[simp] theorem Dev.jtagTake_tst (d : Dev) (i : JtagIr) (r : Word) (p h : Bool) : (d.jtagTake i r p h).tst = d.tst := rfl

/-! ### `Dev.raise` and what is built on it -/

@[simp] theorem Dev.raise_freeIdx (d : Dev) (b s x : Nat) : (d.raise b s x).freeIdx = d.freeIdx := by
  unfold Dev.raise; split_ifs <;> rfl
@[simp] theorem Dev.raise_idleCycles (d : Dev) (b s x : Nat) : (d.raise b s x).idleCycles = d.idleCycles := by
  unfold Dev.raise; split_ifs <;> rfl
@[simp] theorem Dev.raise_aon (d : Dev) (b s x : Nat) : (d.raise b s x).aon = d.aon := by
  unfold Dev.raise; split_ifs <;> rfl
@[simp] theorem Dev.raise_pins (d : Dev) (b s x : Nat) : (d.raise b s x).pins = d.pins := by
  unfold Dev.raise; split_ifs <;> rfl
@[simp] theorem Dev.raise_pairs (d : Dev) (b s x : Nat) : (d.raise b s x).pairs = d.pairs := by
  unfold Dev.raise; split_ifs <;> rfl
@[simp] theorem Dev.raise_bus (d : Dev) (b s x : Nat) : (d.raise b s x).bus = d.bus := by
  unfold Dev.raise; split_ifs <;> rfl
@[simp] theorem Dev.raise_nvm (d : Dev) (b s x : Nat) : (d.raise b s x).nvm = d.nvm := by
  unfold Dev.raise; split_ifs <;> rfl
@[simp] theorem Dev.raise_lay (d : Dev) (b s x : Nat) : (d.raise b s x).lay = d.lay := by
  unfold Dev.raise; split_ifs <;> rfl
@[simp] theorem Dev.raise_img (d : Dev) (b s x : Nat) : (d.raise b s x).img = d.img := by
  unfold Dev.raise; split_ifs <;> rfl
@[simp] theorem Dev.raise_whl (d : Dev) (b s x : Nat) : (d.raise b s x).whl = d.whl := by
  unfold Dev.raise; split_ifs <;> rfl
@[simp] theorem Dev.raise_ports (d : Dev) (b s x : Nat) : (d.raise b s x).ports = d.ports := by
  unfold Dev.raise; split_ifs <;> rfl
@[simp] theorem Dev.raise_card (d : Dev) (b s x : Nat) : (d.raise b s x).card = d.card := by
  unfold Dev.raise; split_ifs <;> rfl
@[simp] theorem Dev.raise_strands (d : Dev) (b s x : Nat) : (d.raise b s x).strands = d.strands := by
  unfold Dev.raise; split_ifs <;> rfl
@[simp] theorem Dev.raise_spn (d : Dev) (b s x : Nat) : (d.raise b s x).spn = d.spn := by
  unfold Dev.raise; split_ifs <;> rfl
@[simp] theorem Dev.raise_streams (d : Dev) (b s x : Nat) : (d.raise b s x).streams = d.streams := by
  unfold Dev.raise; split_ifs <;> rfl
@[simp] theorem Dev.raise_bob (d : Dev) (b s x : Nat) : (d.raise b s x).bob = d.bob := by
  unfold Dev.raise; split_ifs <;> rfl
@[simp] theorem Dev.raise_fst (d : Dev) (b s x : Nat) : (d.raise b s x).fst = d.fst := by
  unfold Dev.raise; split_ifs <;> rfl
@[simp] theorem Dev.raise_ply (d : Dev) (b s x : Nat) : (d.raise b s x).ply = d.ply := by
  unfold Dev.raise; split_ifs <;> rfl
@[simp] theorem Dev.raise_hnk (d : Dev) (b s x : Nat) : (d.raise b s x).hnk = d.hnk := by
  unfold Dev.raise; split_ifs <;> rfl
@[simp] theorem Dev.raise_skn (d : Dev) (b s x : Nat) : (d.raise b s x).skn = d.skn := by
  unfold Dev.raise; split_ifs <;> rfl
@[simp] theorem Dev.raise_sns (d : Dev) (b s x : Nat) : (d.raise b s x).sns = d.sns := by
  unfold Dev.raise; split_ifs <;> rfl
@[simp] theorem Dev.raise_dma (d : Dev) (b s x : Nat) : (d.raise b s x).dma = d.dma := by
  unfold Dev.raise; split_ifs <;> rfl
@[simp] theorem Dev.raise_chk (d : Dev) (b s x : Nat) : (d.raise b s x).chk = d.chk := by
  unfold Dev.raise; split_ifs <;> rfl
@[simp] theorem Dev.raise_age (d : Dev) (b s x : Nat) : (d.raise b s x).age = d.age := by
  unfold Dev.raise; split_ifs <;> rfl
@[simp] theorem Dev.raise_tst (d : Dev) (b s x : Nat) : (d.raise b s x).tst = d.tst := by
  unfold Dev.raise; split_ifs <;> rfl
@[simp] theorem Dev.raise_jtag (d : Dev) (b s x : Nat) : (d.raise b s x).jtag = d.jtag := by
  unfold Dev.raise; split_ifs <;> rfl
@[simp] theorem Dev.raise_sys_mode (d : Dev) (b s x : Nat) : (d.raise b s x).sys.mode = d.sys.mode := by
  unfold Dev.raise; split_ifs <;> rfl
@[simp] theorem Dev.raise_sys_nolive (d : Dev) (b s x : Nat) : (d.raise b s x).sys.nolive = d.sys.nolive := by
  unfold Dev.raise; split_ifs <;> rfl
@[simp] theorem Dev.raise_sys_transition (d : Dev) (b s x : Nat) : (d.raise b s x).sys.transition = d.sys.transition := by
  unfold Dev.raise; split_ifs <;> rfl
@[simp] theorem Dev.raise_sys_reqCount (d : Dev) (b s x : Nat) : (d.raise b s x).sys.reqCount = d.sys.reqCount := by
  unfold Dev.raise; split_ifs <;> rfl
@[simp] theorem Dev.raise_sys_result (d : Dev) (b s x : Nat) : (d.raise b s x).sys.result = d.sys.result := by
  unfold Dev.raise; split_ifs <;> rfl
@[simp] theorem Dev.raise_sys_activeLayout (d : Dev) (b s x : Nat) : (d.raise b s x).sys.activeLayout = d.sys.activeLayout := by
  unfold Dev.raise; split_ifs <;> rfl
@[simp] theorem Dev.raise_sys_layoutReqResult (d : Dev) (b s x : Nat) : (d.raise b s x).sys.layoutReqResult = d.sys.layoutReqResult := by
  unfold Dev.raise; split_ifs <;> rfl
@[simp] theorem Dev.raise_sys_layoutReqId (d : Dev) (b s x : Nat) : (d.raise b s x).sys.layoutReqId = d.sys.layoutReqId := by
  unfold Dev.raise; split_ifs <;> rfl
@[simp] theorem Dev.raise_sys_safeOff (d : Dev) (b s x : Nat) : (d.raise b s x).sys.safeOff = d.sys.safeOff := by
  unfold Dev.raise; split_ifs <;> rfl
@[simp] theorem Dev.raise_sys_shutdownStep (d : Dev) (b s x : Nat) : (d.raise b s x).sys.shutdownStep = d.sys.shutdownStep := by
  unfold Dev.raise; split_ifs <;> rfl
@[simp] theorem Dev.raise_sys_cpairErr (d : Dev) (b s x : Nat) : (d.raise b s x).sys.cpairErr = d.sys.cpairErr := by
  unfold Dev.raise; split_ifs <;> rfl
@[simp] theorem Dev.raise_sys_wdog (d : Dev) (b s x : Nat) : (d.raise b s x).sys.wdog = d.sys.wdog := by
  unfold Dev.raise; split_ifs <;> rfl
@[simp] theorem Dev.raise_sys_serviced (d : Dev) (b s x : Nat) : (d.raise b s x).sys.serviced = d.sys.serviced := by
  unfold Dev.raise; split_ifs <;> rfl
@[simp] theorem Dev.raise_sys_coreRun (d : Dev) (b s x : Nat) : (d.raise b s x).sys.coreRun = d.sys.coreRun := by
  unfold Dev.raise; split_ifs <;> rfl
@[simp] theorem Dev.raise_sys_coreRestarts (d : Dev) (b s x : Nat) : (d.raise b s x).sys.coreRestarts = d.sys.coreRestarts := by
  unfold Dev.raise; split_ifs <;> rfl
@[simp] theorem Dev.raise_sys_coreEvents (d : Dev) (b s x : Nat) : (d.raise b s x).sys.coreEvents = d.sys.coreEvents := by
  unfold Dev.raise; split_ifs <;> rfl
@[simp] theorem Dev.raise_sys_decision (d : Dev) (b s x : Nat) : (d.raise b s x).sys.decision = d.sys.decision := by
  unfold Dev.raise; split_ifs <;> rfl
@[simp] theorem Dev.raise_sys_applied (d : Dev) (b s x : Nat) : (d.raise b s x).sys.applied = d.sys.applied := by
  unfold Dev.raise; split_ifs <;> rfl
@[simp] theorem Dev.raise_sys_corrected (d : Dev) (b s x : Nat) : (d.raise b s x).sys.corrected = d.sys.corrected := by
  unfold Dev.raise; split_ifs <;> rfl
@[simp] theorem Dev.raise_sys_warmupStart (d : Dev) (b s x : Nat) : (d.raise b s x).sys.warmupStart = d.sys.warmupStart := by
  unfold Dev.raise; split_ifs <;> rfl
@[simp] theorem Dev.raise_sys_laneStart (d : Dev) (b s x : Nat) : (d.raise b s x).sys.laneStart = d.sys.laneStart := by
  unfold Dev.raise; split_ifs <;> rfl
@[simp] theorem Dev.raise_jnl_pin (d : Dev) (b s x : Nat) : (d.raise b s x).jnl.pin = d.jnl.pin := by
  unfold Dev.raise; split_ifs <;> rfl
@[simp] theorem Dev.raise_jnl_nodes (d : Dev) (b s x : Nat) : (d.raise b s x).jnl.nodes = d.jnl.nodes := by
  unfold Dev.raise; split_ifs <;> rfl
@[simp] theorem Dev.raise_jnl_expSeeds (d : Dev) (b s x : Nat) : (d.raise b s x).jnl.expSeeds = d.jnl.expSeeds := by
  unfold Dev.raise; split_ifs <;> rfl
@[simp] theorem Dev.raise_jnl_eqSeeds (d : Dev) (b s x : Nat) : (d.raise b s x).jnl.eqSeeds = d.jnl.eqSeeds := by
  unfold Dev.raise; split_ifs <;> rfl
@[simp] theorem Dev.raise_jnl_plan (d : Dev) (b s x : Nat) : (d.raise b s x).jnl.plan = d.jnl.plan := by
  unfold Dev.raise; split_ifs <;> rfl
@[simp] theorem Dev.raise_jnl_log (d : Dev) (b s x : Nat) : (d.raise b s x).jnl.log = d.jnl.log := by
  unfold Dev.raise; split_ifs <;> rfl
@[simp] theorem Dev.raise_jnl_logTotal (d : Dev) (b s x : Nat) : (d.raise b s x).jnl.logTotal = d.jnl.logTotal := by
  unfold Dev.raise; split_ifs <;> rfl
@[simp] theorem Dev.raise_jnl_logDropped (d : Dev) (b s x : Nat) : (d.raise b s x).jnl.logDropped = d.jnl.logDropped := by
  unfold Dev.raise; split_ifs <;> rfl
@[simp] theorem Dev.raise_jnl_unsaved (d : Dev) (b s x : Nat) : (d.raise b s x).jnl.unsaved = d.jnl.unsaved := by
  unfold Dev.raise; split_ifs <;> rfl
@[simp] theorem Dev.raise_jnl_seq (d : Dev) (b s x : Nat) : (d.raise b s x).jnl.seq = d.jnl.seq := by
  unfold Dev.raise; split_ifs <;> rfl
@[simp] theorem Dev.raise_jnl_slot (d : Dev) (b s x : Nat) : (d.raise b s x).jnl.slot = d.jnl.slot := by
  unfold Dev.raise; split_ifs <;> rfl
@[simp] theorem Dev.raise_jnl_due (d : Dev) (b s x : Nat) : (d.raise b s x).jnl.due = d.jnl.due := by
  unfold Dev.raise; split_ifs <;> rfl
@[simp] theorem Dev.raise_jnl_lastSet (d : Dev) (b s x : Nat) : (d.raise b s x).jnl.lastSet = d.jnl.lastSet := by
  unfold Dev.raise; split_ifs <;> rfl
@[simp] theorem Dev.raise_jnl_writing (d : Dev) (b s x : Nat) : (d.raise b s x).jnl.writing = d.jnl.writing := by
  unfold Dev.raise; split_ifs <;> rfl
@[simp] theorem Dev.raise_jnl_erasing (d : Dev) (b s x : Nat) : (d.raise b s x).jnl.erasing = d.jnl.erasing := by
  unfold Dev.raise; split_ifs <;> rfl
@[simp] theorem Dev.raise_jnl_held (d : Dev) (b s x : Nat) : (d.raise b s x).jnl.held = d.jnl.held := by
  unfold Dev.raise; split_ifs <;> rfl
@[simp] theorem Dev.raise_jnl_closed (d : Dev) (b s x : Nat) : (d.raise b s x).jnl.closed = d.jnl.closed := by
  unfold Dev.raise; split_ifs <;> rfl
@[simp] theorem Dev.raise_jnl_history_minutes (d : Dev) (b s x : Nat) :
    (d.raise b s x).jnl.history.minutes = d.jnl.history.minutes := by
  unfold Dev.raise; split_ifs <;> rfl
@[simp] theorem Dev.raise_jnl_history_sincePlan (d : Dev) (b s x : Nat) :
    (d.raise b s x).jnl.history.sincePlan = d.jnl.history.sincePlan := by
  unfold Dev.raise; split_ifs <;> rfl
@[simp] theorem Dev.raise_jnl_history_starts (d : Dev) (b s x : Nat) :
    (d.raise b s x).jnl.history.starts = d.jnl.history.starts := by
  unfold Dev.raise; split_ifs <;> rfl
@[simp] theorem Dev.raise_jnl_history_brownOuts (d : Dev) (b s x : Nat) :
    (d.raise b s x).jnl.history.brownOuts = d.jnl.history.brownOuts := by
  unfold Dev.raise; split_ifs <;> rfl
@[simp] theorem Dev.raise_jnl_history_powerFails (d : Dev) (b s x : Nat) :
    (d.raise b s x).jnl.history.powerFails = d.jnl.history.powerFails := by
  unfold Dev.raise; split_ifs <;> rfl
@[simp] theorem Dev.raise_jnl_history_plyEvents (d : Dev) (b s x : Nat) :
    (d.raise b s x).jnl.history.plyEvents = d.jnl.history.plyEvents := by
  unfold Dev.raise; split_ifs <;> rfl
@[simp] theorem Dev.raise_jnl_history_hist (d : Dev) (b s x : Nat) :
    (d.raise b s x).jnl.history.hist = d.jnl.history.hist := by
  unfold Dev.raise; split_ifs <;> rfl
@[simp] theorem Dev.raise_jnl_history_stress (d : Dev) (b s x : Nat) :
    (d.raise b s x).jnl.history.stress = d.jnl.history.stress := by
  unfold Dev.raise; split_ifs <;> rfl
@[simp] theorem Dev.raise_jnl_history_slack (d : Dev) (b s x : Nat) :
    (d.raise b s x).jnl.history.slack = d.jnl.history.slack := by
  unfold Dev.raise; split_ifs <;> rfl
@[simp] theorem Dev.raise_jnl_history_eyes (d : Dev) (b s x : Nat) :
    (d.raise b s x).jnl.history.eyes = d.jnl.history.eyes := by
  unfold Dev.raise; split_ifs <;> rfl
@[simp] theorem Dev.raise_jnl_history_currents (d : Dev) (b s x : Nat) :
    (d.raise b s x).jnl.history.currents = d.jnl.history.currents := by
  unfold Dev.raise; split_ifs <;> rfl
@[simp] theorem Dev.raise_jnl_history_vmin (d : Dev) (b s x : Nat) :
    (d.raise b s x).jnl.history.vmin = d.jnl.history.vmin := by
  unfold Dev.raise; split_ifs <;> rfl
@[simp] theorem Dev.raise_jnl_history_vminBase (d : Dev) (b s x : Nat) :
    (d.raise b s x).jnl.history.vminBase = d.jnl.history.vminBase := by
  unfold Dev.raise; split_ifs <;> rfl
@[simp] theorem Dev.raise_jnl_history_vminWorst (d : Dev) (b s x : Nat) :
    (d.raise b s x).jnl.history.vminWorst = d.jnl.history.vminWorst := by
  unfold Dev.raise; split_ifs <;> rfl
@[simp] theorem Dev.report_freeIdx (d : Dev) (b : Nat) : (d.report b).freeIdx = d.freeIdx := by simp [Dev.report]
@[simp] theorem Dev.report_idleCycles (d : Dev) (b : Nat) : (d.report b).idleCycles = d.idleCycles := by simp [Dev.report]
@[simp] theorem Dev.report_aon (d : Dev) (b : Nat) : (d.report b).aon = d.aon := by simp [Dev.report]
@[simp] theorem Dev.report_pins (d : Dev) (b : Nat) : (d.report b).pins = d.pins := by simp [Dev.report]
@[simp] theorem Dev.report_pairs (d : Dev) (b : Nat) : (d.report b).pairs = d.pairs := by simp [Dev.report]
@[simp] theorem Dev.report_bus (d : Dev) (b : Nat) : (d.report b).bus = d.bus := by simp [Dev.report]
@[simp] theorem Dev.report_nvm (d : Dev) (b : Nat) : (d.report b).nvm = d.nvm := by simp [Dev.report]
@[simp] theorem Dev.report_lay (d : Dev) (b : Nat) : (d.report b).lay = d.lay := by simp [Dev.report]
@[simp] theorem Dev.report_img (d : Dev) (b : Nat) : (d.report b).img = d.img := by simp [Dev.report]
@[simp] theorem Dev.report_whl (d : Dev) (b : Nat) : (d.report b).whl = d.whl := by simp [Dev.report]
@[simp] theorem Dev.report_ports (d : Dev) (b : Nat) : (d.report b).ports = d.ports := by simp [Dev.report]
@[simp] theorem Dev.report_card (d : Dev) (b : Nat) : (d.report b).card = d.card := by simp [Dev.report]
@[simp] theorem Dev.report_strands (d : Dev) (b : Nat) : (d.report b).strands = d.strands := by simp [Dev.report]
@[simp] theorem Dev.report_spn (d : Dev) (b : Nat) : (d.report b).spn = d.spn := by simp [Dev.report]
@[simp] theorem Dev.report_streams (d : Dev) (b : Nat) : (d.report b).streams = d.streams := by simp [Dev.report]
@[simp] theorem Dev.report_bob (d : Dev) (b : Nat) : (d.report b).bob = d.bob := by simp [Dev.report]
@[simp] theorem Dev.report_fst (d : Dev) (b : Nat) : (d.report b).fst = d.fst := by simp [Dev.report]
@[simp] theorem Dev.report_ply (d : Dev) (b : Nat) : (d.report b).ply = d.ply := by simp [Dev.report]
@[simp] theorem Dev.report_hnk (d : Dev) (b : Nat) : (d.report b).hnk = d.hnk := by simp [Dev.report]
@[simp] theorem Dev.report_skn (d : Dev) (b : Nat) : (d.report b).skn = d.skn := by simp [Dev.report]
@[simp] theorem Dev.report_sns (d : Dev) (b : Nat) : (d.report b).sns = d.sns := by simp [Dev.report]
@[simp] theorem Dev.report_dma (d : Dev) (b : Nat) : (d.report b).dma = d.dma := by simp [Dev.report]
@[simp] theorem Dev.report_chk (d : Dev) (b : Nat) : (d.report b).chk = d.chk := by simp [Dev.report]
@[simp] theorem Dev.report_age (d : Dev) (b : Nat) : (d.report b).age = d.age := by simp [Dev.report]
@[simp] theorem Dev.report_tst (d : Dev) (b : Nat) : (d.report b).tst = d.tst := by simp [Dev.report]
@[simp] theorem Dev.report_jtag (d : Dev) (b : Nat) : (d.report b).jtag = d.jtag := by simp [Dev.report]
@[simp] theorem Dev.report_sys_mode (d : Dev) (b : Nat) : (d.report b).sys.mode = d.sys.mode := by simp [Dev.report]
@[simp] theorem Dev.report_sys_nolive (d : Dev) (b : Nat) : (d.report b).sys.nolive = d.sys.nolive := by simp [Dev.report]
@[simp] theorem Dev.report_sys_transition (d : Dev) (b : Nat) : (d.report b).sys.transition = d.sys.transition := by simp [Dev.report]
@[simp] theorem Dev.report_sys_reqCount (d : Dev) (b : Nat) : (d.report b).sys.reqCount = d.sys.reqCount := by simp [Dev.report]
@[simp] theorem Dev.report_sys_result (d : Dev) (b : Nat) : (d.report b).sys.result = d.sys.result := by simp [Dev.report]
@[simp] theorem Dev.report_sys_activeLayout (d : Dev) (b : Nat) : (d.report b).sys.activeLayout = d.sys.activeLayout := by simp [Dev.report]
@[simp] theorem Dev.report_sys_layoutReqResult (d : Dev) (b : Nat) : (d.report b).sys.layoutReqResult = d.sys.layoutReqResult := by simp [Dev.report]
@[simp] theorem Dev.report_sys_layoutReqId (d : Dev) (b : Nat) : (d.report b).sys.layoutReqId = d.sys.layoutReqId := by simp [Dev.report]
@[simp] theorem Dev.report_sys_safeOff (d : Dev) (b : Nat) : (d.report b).sys.safeOff = d.sys.safeOff := by simp [Dev.report]
@[simp] theorem Dev.report_sys_shutdownStep (d : Dev) (b : Nat) : (d.report b).sys.shutdownStep = d.sys.shutdownStep := by simp [Dev.report]
@[simp] theorem Dev.report_sys_cpairErr (d : Dev) (b : Nat) : (d.report b).sys.cpairErr = d.sys.cpairErr := by simp [Dev.report]
@[simp] theorem Dev.report_sys_wdog (d : Dev) (b : Nat) : (d.report b).sys.wdog = d.sys.wdog := by simp [Dev.report]
@[simp] theorem Dev.report_sys_serviced (d : Dev) (b : Nat) : (d.report b).sys.serviced = d.sys.serviced := by simp [Dev.report]
@[simp] theorem Dev.report_sys_coreRun (d : Dev) (b : Nat) : (d.report b).sys.coreRun = d.sys.coreRun := by simp [Dev.report]
@[simp] theorem Dev.report_sys_coreRestarts (d : Dev) (b : Nat) : (d.report b).sys.coreRestarts = d.sys.coreRestarts := by simp [Dev.report]
@[simp] theorem Dev.report_sys_coreEvents (d : Dev) (b : Nat) : (d.report b).sys.coreEvents = d.sys.coreEvents := by simp [Dev.report]
@[simp] theorem Dev.report_sys_decision (d : Dev) (b : Nat) : (d.report b).sys.decision = d.sys.decision := by simp [Dev.report]
@[simp] theorem Dev.report_sys_applied (d : Dev) (b : Nat) : (d.report b).sys.applied = d.sys.applied := by simp [Dev.report]
@[simp] theorem Dev.report_sys_corrected (d : Dev) (b : Nat) : (d.report b).sys.corrected = d.sys.corrected := by simp [Dev.report]
@[simp] theorem Dev.report_sys_warmupStart (d : Dev) (b : Nat) : (d.report b).sys.warmupStart = d.sys.warmupStart := by simp [Dev.report]
@[simp] theorem Dev.report_sys_laneStart (d : Dev) (b : Nat) : (d.report b).sys.laneStart = d.sys.laneStart := by simp [Dev.report]
@[simp] theorem Dev.report_jnl_pin (d : Dev) (b : Nat) : (d.report b).jnl.pin = d.jnl.pin := by simp [Dev.report]
@[simp] theorem Dev.report_jnl_nodes (d : Dev) (b : Nat) : (d.report b).jnl.nodes = d.jnl.nodes := by simp [Dev.report]
@[simp] theorem Dev.report_jnl_expSeeds (d : Dev) (b : Nat) : (d.report b).jnl.expSeeds = d.jnl.expSeeds := by simp [Dev.report]
@[simp] theorem Dev.report_jnl_eqSeeds (d : Dev) (b : Nat) : (d.report b).jnl.eqSeeds = d.jnl.eqSeeds := by simp [Dev.report]
@[simp] theorem Dev.report_jnl_plan (d : Dev) (b : Nat) : (d.report b).jnl.plan = d.jnl.plan := by simp [Dev.report]
@[simp] theorem Dev.report_jnl_log (d : Dev) (b : Nat) : (d.report b).jnl.log = d.jnl.log := by simp [Dev.report]
@[simp] theorem Dev.report_jnl_logTotal (d : Dev) (b : Nat) : (d.report b).jnl.logTotal = d.jnl.logTotal := by simp [Dev.report]
@[simp] theorem Dev.report_jnl_logDropped (d : Dev) (b : Nat) : (d.report b).jnl.logDropped = d.jnl.logDropped := by simp [Dev.report]
@[simp] theorem Dev.report_jnl_unsaved (d : Dev) (b : Nat) : (d.report b).jnl.unsaved = d.jnl.unsaved := by simp [Dev.report]
@[simp] theorem Dev.report_jnl_seq (d : Dev) (b : Nat) : (d.report b).jnl.seq = d.jnl.seq := by simp [Dev.report]
@[simp] theorem Dev.report_jnl_slot (d : Dev) (b : Nat) : (d.report b).jnl.slot = d.jnl.slot := by simp [Dev.report]
@[simp] theorem Dev.report_jnl_due (d : Dev) (b : Nat) : (d.report b).jnl.due = d.jnl.due := by simp [Dev.report]
@[simp] theorem Dev.report_jnl_lastSet (d : Dev) (b : Nat) : (d.report b).jnl.lastSet = d.jnl.lastSet := by simp [Dev.report]
@[simp] theorem Dev.report_jnl_writing (d : Dev) (b : Nat) : (d.report b).jnl.writing = d.jnl.writing := by simp [Dev.report]
@[simp] theorem Dev.report_jnl_erasing (d : Dev) (b : Nat) : (d.report b).jnl.erasing = d.jnl.erasing := by simp [Dev.report]
@[simp] theorem Dev.report_jnl_held (d : Dev) (b : Nat) : (d.report b).jnl.held = d.jnl.held := by simp [Dev.report]
@[simp] theorem Dev.report_jnl_closed (d : Dev) (b : Nat) : (d.report b).jnl.closed = d.jnl.closed := by simp [Dev.report]
@[simp] theorem Dev.report_jnl_history_minutes (d : Dev) (b : Nat) : (d.report b).jnl.history.minutes = d.jnl.history.minutes := by simp [Dev.report]
@[simp] theorem Dev.report_jnl_history_sincePlan (d : Dev) (b : Nat) : (d.report b).jnl.history.sincePlan = d.jnl.history.sincePlan := by simp [Dev.report]
@[simp] theorem Dev.report_jnl_history_starts (d : Dev) (b : Nat) : (d.report b).jnl.history.starts = d.jnl.history.starts := by simp [Dev.report]
@[simp] theorem Dev.report_jnl_history_brownOuts (d : Dev) (b : Nat) : (d.report b).jnl.history.brownOuts = d.jnl.history.brownOuts := by simp [Dev.report]
@[simp] theorem Dev.report_jnl_history_powerFails (d : Dev) (b : Nat) : (d.report b).jnl.history.powerFails = d.jnl.history.powerFails := by simp [Dev.report]
@[simp] theorem Dev.report_jnl_history_plyEvents (d : Dev) (b : Nat) : (d.report b).jnl.history.plyEvents = d.jnl.history.plyEvents := by simp [Dev.report]
@[simp] theorem Dev.report_jnl_history_hist (d : Dev) (b : Nat) : (d.report b).jnl.history.hist = d.jnl.history.hist := by simp [Dev.report]
@[simp] theorem Dev.report_jnl_history_stress (d : Dev) (b : Nat) : (d.report b).jnl.history.stress = d.jnl.history.stress := by simp [Dev.report]
@[simp] theorem Dev.report_jnl_history_slack (d : Dev) (b : Nat) : (d.report b).jnl.history.slack = d.jnl.history.slack := by simp [Dev.report]
@[simp] theorem Dev.report_jnl_history_eyes (d : Dev) (b : Nat) : (d.report b).jnl.history.eyes = d.jnl.history.eyes := by simp [Dev.report]
@[simp] theorem Dev.report_jnl_history_currents (d : Dev) (b : Nat) : (d.report b).jnl.history.currents = d.jnl.history.currents := by simp [Dev.report]
@[simp] theorem Dev.report_jnl_history_vmin (d : Dev) (b : Nat) : (d.report b).jnl.history.vmin = d.jnl.history.vmin := by simp [Dev.report]
@[simp] theorem Dev.report_jnl_history_vminBase (d : Dev) (b : Nat) : (d.report b).jnl.history.vminBase = d.jnl.history.vminBase := by simp [Dev.report]
@[simp] theorem Dev.report_jnl_history_vminWorst (d : Dev) (b : Nat) : (d.report b).jnl.history.vminWorst = d.jnl.history.vminWorst := by simp [Dev.report]

/-- A field that no report touches survives a run of reports. -/
theorem Dev.foldl_report {α : Type} (g : Dev → α) (h : ∀ d b, g (d.report b) = g d) (l : List (Nat × Bool)) (d : Dev) :
    g (l.foldl (fun e p => if p.2 then e.report p.1 else e) d) = g d := by
  induction l generalizing d with
  | nil => rfl
  | cons p l ih => rw [List.foldl_cons, ih]; split_ifs <;> simp [h]

/-- The same for a list of reports without conditions. -/
theorem Dev.foldl_reports {α : Type} (g : Dev → α) (h : ∀ d b, g (d.report b) = g d) :
    ∀ (l : List Nat) (d : Dev), g (l.foldl Dev.report d) = g d
  | [], _ => rfl
  | x :: l, d => by rw [List.foldl_cons, Dev.foldl_reports g h l, h]

@[simp] theorem Dev.reports_freeIdx (d : Dev) (l : List Nat) : (l.foldl Dev.report d).freeIdx = d.freeIdx :=
  Dev.foldl_reports (fun e => e.freeIdx) (by simp) l d
@[simp] theorem Dev.reports_idleCycles (d : Dev) (l : List Nat) : (l.foldl Dev.report d).idleCycles = d.idleCycles :=
  Dev.foldl_reports (fun e => e.idleCycles) (by simp) l d
@[simp] theorem Dev.reports_aon (d : Dev) (l : List Nat) : (l.foldl Dev.report d).aon = d.aon :=
  Dev.foldl_reports (fun e => e.aon) (by simp) l d
@[simp] theorem Dev.reports_pins (d : Dev) (l : List Nat) : (l.foldl Dev.report d).pins = d.pins :=
  Dev.foldl_reports (fun e => e.pins) (by simp) l d
@[simp] theorem Dev.reports_pairs (d : Dev) (l : List Nat) : (l.foldl Dev.report d).pairs = d.pairs :=
  Dev.foldl_reports (fun e => e.pairs) (by simp) l d
@[simp] theorem Dev.reports_bus (d : Dev) (l : List Nat) : (l.foldl Dev.report d).bus = d.bus :=
  Dev.foldl_reports (fun e => e.bus) (by simp) l d
@[simp] theorem Dev.reports_nvm (d : Dev) (l : List Nat) : (l.foldl Dev.report d).nvm = d.nvm :=
  Dev.foldl_reports (fun e => e.nvm) (by simp) l d
@[simp] theorem Dev.reports_lay (d : Dev) (l : List Nat) : (l.foldl Dev.report d).lay = d.lay :=
  Dev.foldl_reports (fun e => e.lay) (by simp) l d
@[simp] theorem Dev.reports_img (d : Dev) (l : List Nat) : (l.foldl Dev.report d).img = d.img :=
  Dev.foldl_reports (fun e => e.img) (by simp) l d
@[simp] theorem Dev.reports_whl (d : Dev) (l : List Nat) : (l.foldl Dev.report d).whl = d.whl :=
  Dev.foldl_reports (fun e => e.whl) (by simp) l d
@[simp] theorem Dev.reports_ports (d : Dev) (l : List Nat) : (l.foldl Dev.report d).ports = d.ports :=
  Dev.foldl_reports (fun e => e.ports) (by simp) l d
@[simp] theorem Dev.reports_card (d : Dev) (l : List Nat) : (l.foldl Dev.report d).card = d.card :=
  Dev.foldl_reports (fun e => e.card) (by simp) l d
@[simp] theorem Dev.reports_strands (d : Dev) (l : List Nat) : (l.foldl Dev.report d).strands = d.strands :=
  Dev.foldl_reports (fun e => e.strands) (by simp) l d
@[simp] theorem Dev.reports_spn (d : Dev) (l : List Nat) : (l.foldl Dev.report d).spn = d.spn :=
  Dev.foldl_reports (fun e => e.spn) (by simp) l d
@[simp] theorem Dev.reports_streams (d : Dev) (l : List Nat) : (l.foldl Dev.report d).streams = d.streams :=
  Dev.foldl_reports (fun e => e.streams) (by simp) l d
@[simp] theorem Dev.reports_bob (d : Dev) (l : List Nat) : (l.foldl Dev.report d).bob = d.bob :=
  Dev.foldl_reports (fun e => e.bob) (by simp) l d
@[simp] theorem Dev.reports_fst (d : Dev) (l : List Nat) : (l.foldl Dev.report d).fst = d.fst :=
  Dev.foldl_reports (fun e => e.fst) (by simp) l d
@[simp] theorem Dev.reports_ply (d : Dev) (l : List Nat) : (l.foldl Dev.report d).ply = d.ply :=
  Dev.foldl_reports (fun e => e.ply) (by simp) l d
@[simp] theorem Dev.reports_hnk (d : Dev) (l : List Nat) : (l.foldl Dev.report d).hnk = d.hnk :=
  Dev.foldl_reports (fun e => e.hnk) (by simp) l d
@[simp] theorem Dev.reports_skn (d : Dev) (l : List Nat) : (l.foldl Dev.report d).skn = d.skn :=
  Dev.foldl_reports (fun e => e.skn) (by simp) l d
@[simp] theorem Dev.reports_sns (d : Dev) (l : List Nat) : (l.foldl Dev.report d).sns = d.sns :=
  Dev.foldl_reports (fun e => e.sns) (by simp) l d
@[simp] theorem Dev.reports_dma (d : Dev) (l : List Nat) : (l.foldl Dev.report d).dma = d.dma :=
  Dev.foldl_reports (fun e => e.dma) (by simp) l d
@[simp] theorem Dev.reports_chk (d : Dev) (l : List Nat) : (l.foldl Dev.report d).chk = d.chk :=
  Dev.foldl_reports (fun e => e.chk) (by simp) l d
@[simp] theorem Dev.reports_age (d : Dev) (l : List Nat) : (l.foldl Dev.report d).age = d.age :=
  Dev.foldl_reports (fun e => e.age) (by simp) l d
@[simp] theorem Dev.reports_tst (d : Dev) (l : List Nat) : (l.foldl Dev.report d).tst = d.tst :=
  Dev.foldl_reports (fun e => e.tst) (by simp) l d
@[simp] theorem Dev.reports_jtag (d : Dev) (l : List Nat) : (l.foldl Dev.report d).jtag = d.jtag :=
  Dev.foldl_reports (fun e => e.jtag) (by simp) l d
@[simp] theorem Dev.reports_sys_mode (d : Dev) (l : List Nat) : (l.foldl Dev.report d).sys.mode = d.sys.mode :=
  Dev.foldl_reports (fun e => e.sys.mode) (by simp) l d
@[simp] theorem Dev.reports_sys_nolive (d : Dev) (l : List Nat) : (l.foldl Dev.report d).sys.nolive = d.sys.nolive :=
  Dev.foldl_reports (fun e => e.sys.nolive) (by simp) l d
@[simp] theorem Dev.reports_sys_transition (d : Dev) (l : List Nat) : (l.foldl Dev.report d).sys.transition = d.sys.transition :=
  Dev.foldl_reports (fun e => e.sys.transition) (by simp) l d
@[simp] theorem Dev.reports_sys_reqCount (d : Dev) (l : List Nat) : (l.foldl Dev.report d).sys.reqCount = d.sys.reqCount :=
  Dev.foldl_reports (fun e => e.sys.reqCount) (by simp) l d
@[simp] theorem Dev.reports_sys_result (d : Dev) (l : List Nat) : (l.foldl Dev.report d).sys.result = d.sys.result :=
  Dev.foldl_reports (fun e => e.sys.result) (by simp) l d
@[simp] theorem Dev.reports_sys_activeLayout (d : Dev) (l : List Nat) : (l.foldl Dev.report d).sys.activeLayout = d.sys.activeLayout :=
  Dev.foldl_reports (fun e => e.sys.activeLayout) (by simp) l d
@[simp] theorem Dev.reports_sys_layoutReqResult (d : Dev) (l : List Nat) : (l.foldl Dev.report d).sys.layoutReqResult = d.sys.layoutReqResult :=
  Dev.foldl_reports (fun e => e.sys.layoutReqResult) (by simp) l d
@[simp] theorem Dev.reports_sys_layoutReqId (d : Dev) (l : List Nat) : (l.foldl Dev.report d).sys.layoutReqId = d.sys.layoutReqId :=
  Dev.foldl_reports (fun e => e.sys.layoutReqId) (by simp) l d
@[simp] theorem Dev.reports_sys_safeOff (d : Dev) (l : List Nat) : (l.foldl Dev.report d).sys.safeOff = d.sys.safeOff :=
  Dev.foldl_reports (fun e => e.sys.safeOff) (by simp) l d
@[simp] theorem Dev.reports_sys_shutdownStep (d : Dev) (l : List Nat) : (l.foldl Dev.report d).sys.shutdownStep = d.sys.shutdownStep :=
  Dev.foldl_reports (fun e => e.sys.shutdownStep) (by simp) l d
@[simp] theorem Dev.reports_sys_cpairErr (d : Dev) (l : List Nat) : (l.foldl Dev.report d).sys.cpairErr = d.sys.cpairErr :=
  Dev.foldl_reports (fun e => e.sys.cpairErr) (by simp) l d
@[simp] theorem Dev.reports_sys_wdog (d : Dev) (l : List Nat) : (l.foldl Dev.report d).sys.wdog = d.sys.wdog :=
  Dev.foldl_reports (fun e => e.sys.wdog) (by simp) l d
@[simp] theorem Dev.reports_sys_serviced (d : Dev) (l : List Nat) : (l.foldl Dev.report d).sys.serviced = d.sys.serviced :=
  Dev.foldl_reports (fun e => e.sys.serviced) (by simp) l d
@[simp] theorem Dev.reports_sys_coreRun (d : Dev) (l : List Nat) : (l.foldl Dev.report d).sys.coreRun = d.sys.coreRun :=
  Dev.foldl_reports (fun e => e.sys.coreRun) (by simp) l d
@[simp] theorem Dev.reports_sys_coreRestarts (d : Dev) (l : List Nat) : (l.foldl Dev.report d).sys.coreRestarts = d.sys.coreRestarts :=
  Dev.foldl_reports (fun e => e.sys.coreRestarts) (by simp) l d
@[simp] theorem Dev.reports_sys_coreEvents (d : Dev) (l : List Nat) : (l.foldl Dev.report d).sys.coreEvents = d.sys.coreEvents :=
  Dev.foldl_reports (fun e => e.sys.coreEvents) (by simp) l d
@[simp] theorem Dev.reports_sys_decision (d : Dev) (l : List Nat) : (l.foldl Dev.report d).sys.decision = d.sys.decision :=
  Dev.foldl_reports (fun e => e.sys.decision) (by simp) l d
@[simp] theorem Dev.reports_sys_applied (d : Dev) (l : List Nat) : (l.foldl Dev.report d).sys.applied = d.sys.applied :=
  Dev.foldl_reports (fun e => e.sys.applied) (by simp) l d
@[simp] theorem Dev.reports_sys_corrected (d : Dev) (l : List Nat) : (l.foldl Dev.report d).sys.corrected = d.sys.corrected :=
  Dev.foldl_reports (fun e => e.sys.corrected) (by simp) l d
@[simp] theorem Dev.reports_sys_warmupStart (d : Dev) (l : List Nat) : (l.foldl Dev.report d).sys.warmupStart = d.sys.warmupStart :=
  Dev.foldl_reports (fun e => e.sys.warmupStart) (by simp) l d
@[simp] theorem Dev.reports_sys_laneStart (d : Dev) (l : List Nat) : (l.foldl Dev.report d).sys.laneStart = d.sys.laneStart :=
  Dev.foldl_reports (fun e => e.sys.laneStart) (by simp) l d
@[simp] theorem Dev.reports_jnl_pin (d : Dev) (l : List Nat) : (l.foldl Dev.report d).jnl.pin = d.jnl.pin :=
  Dev.foldl_reports (fun e => e.jnl.pin) (by simp) l d
@[simp] theorem Dev.reports_jnl_nodes (d : Dev) (l : List Nat) : (l.foldl Dev.report d).jnl.nodes = d.jnl.nodes :=
  Dev.foldl_reports (fun e => e.jnl.nodes) (by simp) l d
@[simp] theorem Dev.reports_jnl_expSeeds (d : Dev) (l : List Nat) : (l.foldl Dev.report d).jnl.expSeeds = d.jnl.expSeeds :=
  Dev.foldl_reports (fun e => e.jnl.expSeeds) (by simp) l d
@[simp] theorem Dev.reports_jnl_eqSeeds (d : Dev) (l : List Nat) : (l.foldl Dev.report d).jnl.eqSeeds = d.jnl.eqSeeds :=
  Dev.foldl_reports (fun e => e.jnl.eqSeeds) (by simp) l d
@[simp] theorem Dev.reports_jnl_plan (d : Dev) (l : List Nat) : (l.foldl Dev.report d).jnl.plan = d.jnl.plan :=
  Dev.foldl_reports (fun e => e.jnl.plan) (by simp) l d
@[simp] theorem Dev.reports_jnl_log (d : Dev) (l : List Nat) : (l.foldl Dev.report d).jnl.log = d.jnl.log :=
  Dev.foldl_reports (fun e => e.jnl.log) (by simp) l d
@[simp] theorem Dev.reports_jnl_logTotal (d : Dev) (l : List Nat) : (l.foldl Dev.report d).jnl.logTotal = d.jnl.logTotal :=
  Dev.foldl_reports (fun e => e.jnl.logTotal) (by simp) l d
@[simp] theorem Dev.reports_jnl_logDropped (d : Dev) (l : List Nat) : (l.foldl Dev.report d).jnl.logDropped = d.jnl.logDropped :=
  Dev.foldl_reports (fun e => e.jnl.logDropped) (by simp) l d
@[simp] theorem Dev.reports_jnl_unsaved (d : Dev) (l : List Nat) : (l.foldl Dev.report d).jnl.unsaved = d.jnl.unsaved :=
  Dev.foldl_reports (fun e => e.jnl.unsaved) (by simp) l d
@[simp] theorem Dev.reports_jnl_seq (d : Dev) (l : List Nat) : (l.foldl Dev.report d).jnl.seq = d.jnl.seq :=
  Dev.foldl_reports (fun e => e.jnl.seq) (by simp) l d
@[simp] theorem Dev.reports_jnl_slot (d : Dev) (l : List Nat) : (l.foldl Dev.report d).jnl.slot = d.jnl.slot :=
  Dev.foldl_reports (fun e => e.jnl.slot) (by simp) l d
@[simp] theorem Dev.reports_jnl_due (d : Dev) (l : List Nat) : (l.foldl Dev.report d).jnl.due = d.jnl.due :=
  Dev.foldl_reports (fun e => e.jnl.due) (by simp) l d
@[simp] theorem Dev.reports_jnl_lastSet (d : Dev) (l : List Nat) : (l.foldl Dev.report d).jnl.lastSet = d.jnl.lastSet :=
  Dev.foldl_reports (fun e => e.jnl.lastSet) (by simp) l d
@[simp] theorem Dev.reports_jnl_writing (d : Dev) (l : List Nat) : (l.foldl Dev.report d).jnl.writing = d.jnl.writing :=
  Dev.foldl_reports (fun e => e.jnl.writing) (by simp) l d
@[simp] theorem Dev.reports_jnl_erasing (d : Dev) (l : List Nat) : (l.foldl Dev.report d).jnl.erasing = d.jnl.erasing :=
  Dev.foldl_reports (fun e => e.jnl.erasing) (by simp) l d
@[simp] theorem Dev.reports_jnl_held (d : Dev) (l : List Nat) : (l.foldl Dev.report d).jnl.held = d.jnl.held :=
  Dev.foldl_reports (fun e => e.jnl.held) (by simp) l d
@[simp] theorem Dev.reports_jnl_closed (d : Dev) (l : List Nat) : (l.foldl Dev.report d).jnl.closed = d.jnl.closed :=
  Dev.foldl_reports (fun e => e.jnl.closed) (by simp) l d
@[simp] theorem Dev.reports_jnl_history_minutes (d : Dev) (l : List Nat) : (l.foldl Dev.report d).jnl.history.minutes = d.jnl.history.minutes :=
  Dev.foldl_reports (fun e => e.jnl.history.minutes) (by simp) l d
@[simp] theorem Dev.reports_jnl_history_sincePlan (d : Dev) (l : List Nat) : (l.foldl Dev.report d).jnl.history.sincePlan = d.jnl.history.sincePlan :=
  Dev.foldl_reports (fun e => e.jnl.history.sincePlan) (by simp) l d
@[simp] theorem Dev.reports_jnl_history_starts (d : Dev) (l : List Nat) : (l.foldl Dev.report d).jnl.history.starts = d.jnl.history.starts :=
  Dev.foldl_reports (fun e => e.jnl.history.starts) (by simp) l d
@[simp] theorem Dev.reports_jnl_history_brownOuts (d : Dev) (l : List Nat) : (l.foldl Dev.report d).jnl.history.brownOuts = d.jnl.history.brownOuts :=
  Dev.foldl_reports (fun e => e.jnl.history.brownOuts) (by simp) l d
@[simp] theorem Dev.reports_jnl_history_powerFails (d : Dev) (l : List Nat) : (l.foldl Dev.report d).jnl.history.powerFails = d.jnl.history.powerFails :=
  Dev.foldl_reports (fun e => e.jnl.history.powerFails) (by simp) l d
@[simp] theorem Dev.reports_jnl_history_plyEvents (d : Dev) (l : List Nat) : (l.foldl Dev.report d).jnl.history.plyEvents = d.jnl.history.plyEvents :=
  Dev.foldl_reports (fun e => e.jnl.history.plyEvents) (by simp) l d
@[simp] theorem Dev.reports_jnl_history_hist (d : Dev) (l : List Nat) : (l.foldl Dev.report d).jnl.history.hist = d.jnl.history.hist :=
  Dev.foldl_reports (fun e => e.jnl.history.hist) (by simp) l d
@[simp] theorem Dev.reports_jnl_history_stress (d : Dev) (l : List Nat) : (l.foldl Dev.report d).jnl.history.stress = d.jnl.history.stress :=
  Dev.foldl_reports (fun e => e.jnl.history.stress) (by simp) l d
@[simp] theorem Dev.reports_jnl_history_slack (d : Dev) (l : List Nat) : (l.foldl Dev.report d).jnl.history.slack = d.jnl.history.slack :=
  Dev.foldl_reports (fun e => e.jnl.history.slack) (by simp) l d
@[simp] theorem Dev.reports_jnl_history_eyes (d : Dev) (l : List Nat) : (l.foldl Dev.report d).jnl.history.eyes = d.jnl.history.eyes :=
  Dev.foldl_reports (fun e => e.jnl.history.eyes) (by simp) l d
@[simp] theorem Dev.reports_jnl_history_currents (d : Dev) (l : List Nat) : (l.foldl Dev.report d).jnl.history.currents = d.jnl.history.currents :=
  Dev.foldl_reports (fun e => e.jnl.history.currents) (by simp) l d
@[simp] theorem Dev.reports_jnl_history_vmin (d : Dev) (l : List Nat) : (l.foldl Dev.report d).jnl.history.vmin = d.jnl.history.vmin :=
  Dev.foldl_reports (fun e => e.jnl.history.vmin) (by simp) l d
@[simp] theorem Dev.reports_jnl_history_vminBase (d : Dev) (l : List Nat) : (l.foldl Dev.report d).jnl.history.vminBase = d.jnl.history.vminBase :=
  Dev.foldl_reports (fun e => e.jnl.history.vminBase) (by simp) l d
@[simp] theorem Dev.reports_jnl_history_vminWorst (d : Dev) (l : List Nat) : (l.foldl Dev.report d).jnl.history.vminWorst = d.jnl.history.vminWorst :=
  Dev.foldl_reports (fun e => e.jnl.history.vminWorst) (by simp) l d
@[simp] theorem Dev.raiseStanding_freeIdx (d : Dev) : d.raiseStanding.freeIdx = d.freeIdx :=
  Dev.foldl_report (fun e => e.freeIdx) (by simp) _ _
@[simp] theorem Dev.raiseStanding_idleCycles (d : Dev) : d.raiseStanding.idleCycles = d.idleCycles :=
  Dev.foldl_report (fun e => e.idleCycles) (by simp) _ _
@[simp] theorem Dev.raiseStanding_aon (d : Dev) : d.raiseStanding.aon = d.aon :=
  Dev.foldl_report (fun e => e.aon) (by simp) _ _
@[simp] theorem Dev.raiseStanding_pins (d : Dev) : d.raiseStanding.pins = d.pins :=
  Dev.foldl_report (fun e => e.pins) (by simp) _ _
@[simp] theorem Dev.raiseStanding_pairs (d : Dev) : d.raiseStanding.pairs = d.pairs :=
  Dev.foldl_report (fun e => e.pairs) (by simp) _ _
@[simp] theorem Dev.raiseStanding_bus (d : Dev) : d.raiseStanding.bus = d.bus :=
  Dev.foldl_report (fun e => e.bus) (by simp) _ _
@[simp] theorem Dev.raiseStanding_nvm (d : Dev) : d.raiseStanding.nvm = d.nvm :=
  Dev.foldl_report (fun e => e.nvm) (by simp) _ _
@[simp] theorem Dev.raiseStanding_lay (d : Dev) : d.raiseStanding.lay = d.lay :=
  Dev.foldl_report (fun e => e.lay) (by simp) _ _
@[simp] theorem Dev.raiseStanding_img (d : Dev) : d.raiseStanding.img = d.img :=
  Dev.foldl_report (fun e => e.img) (by simp) _ _
@[simp] theorem Dev.raiseStanding_whl (d : Dev) : d.raiseStanding.whl = d.whl :=
  Dev.foldl_report (fun e => e.whl) (by simp) _ _
@[simp] theorem Dev.raiseStanding_ports (d : Dev) : d.raiseStanding.ports = d.ports :=
  Dev.foldl_report (fun e => e.ports) (by simp) _ _
@[simp] theorem Dev.raiseStanding_card (d : Dev) : d.raiseStanding.card = d.card :=
  Dev.foldl_report (fun e => e.card) (by simp) _ _
@[simp] theorem Dev.raiseStanding_strands (d : Dev) : d.raiseStanding.strands = d.strands :=
  Dev.foldl_report (fun e => e.strands) (by simp) _ _
@[simp] theorem Dev.raiseStanding_spn (d : Dev) : d.raiseStanding.spn = d.spn :=
  Dev.foldl_report (fun e => e.spn) (by simp) _ _
@[simp] theorem Dev.raiseStanding_streams (d : Dev) : d.raiseStanding.streams = d.streams :=
  Dev.foldl_report (fun e => e.streams) (by simp) _ _
@[simp] theorem Dev.raiseStanding_bob (d : Dev) : d.raiseStanding.bob = d.bob :=
  Dev.foldl_report (fun e => e.bob) (by simp) _ _
@[simp] theorem Dev.raiseStanding_fst (d : Dev) : d.raiseStanding.fst = d.fst :=
  Dev.foldl_report (fun e => e.fst) (by simp) _ _
@[simp] theorem Dev.raiseStanding_ply (d : Dev) : d.raiseStanding.ply = d.ply :=
  Dev.foldl_report (fun e => e.ply) (by simp) _ _
@[simp] theorem Dev.raiseStanding_hnk (d : Dev) : d.raiseStanding.hnk = d.hnk :=
  Dev.foldl_report (fun e => e.hnk) (by simp) _ _
@[simp] theorem Dev.raiseStanding_skn (d : Dev) : d.raiseStanding.skn = d.skn :=
  Dev.foldl_report (fun e => e.skn) (by simp) _ _
@[simp] theorem Dev.raiseStanding_sns (d : Dev) : d.raiseStanding.sns = d.sns :=
  Dev.foldl_report (fun e => e.sns) (by simp) _ _
@[simp] theorem Dev.raiseStanding_dma (d : Dev) : d.raiseStanding.dma = d.dma :=
  Dev.foldl_report (fun e => e.dma) (by simp) _ _
@[simp] theorem Dev.raiseStanding_chk (d : Dev) : d.raiseStanding.chk = d.chk :=
  Dev.foldl_report (fun e => e.chk) (by simp) _ _
@[simp] theorem Dev.raiseStanding_age (d : Dev) : d.raiseStanding.age = d.age :=
  Dev.foldl_report (fun e => e.age) (by simp) _ _
@[simp] theorem Dev.raiseStanding_tst (d : Dev) : d.raiseStanding.tst = d.tst :=
  Dev.foldl_report (fun e => e.tst) (by simp) _ _
@[simp] theorem Dev.raiseStanding_jtag (d : Dev) : d.raiseStanding.jtag = d.jtag :=
  Dev.foldl_report (fun e => e.jtag) (by simp) _ _
@[simp] theorem Dev.raiseStanding_sys_mode (d : Dev) : d.raiseStanding.sys.mode = d.sys.mode :=
  Dev.foldl_report (fun e => e.sys.mode) (by simp) _ _
@[simp] theorem Dev.raiseStanding_sys_nolive (d : Dev) : d.raiseStanding.sys.nolive = d.sys.nolive :=
  Dev.foldl_report (fun e => e.sys.nolive) (by simp) _ _
@[simp] theorem Dev.raiseStanding_sys_transition (d : Dev) : d.raiseStanding.sys.transition = d.sys.transition :=
  Dev.foldl_report (fun e => e.sys.transition) (by simp) _ _
@[simp] theorem Dev.raiseStanding_sys_reqCount (d : Dev) : d.raiseStanding.sys.reqCount = d.sys.reqCount :=
  Dev.foldl_report (fun e => e.sys.reqCount) (by simp) _ _
@[simp] theorem Dev.raiseStanding_sys_result (d : Dev) : d.raiseStanding.sys.result = d.sys.result :=
  Dev.foldl_report (fun e => e.sys.result) (by simp) _ _
@[simp] theorem Dev.raiseStanding_sys_activeLayout (d : Dev) : d.raiseStanding.sys.activeLayout = d.sys.activeLayout :=
  Dev.foldl_report (fun e => e.sys.activeLayout) (by simp) _ _
@[simp] theorem Dev.raiseStanding_sys_layoutReqResult (d : Dev) : d.raiseStanding.sys.layoutReqResult = d.sys.layoutReqResult :=
  Dev.foldl_report (fun e => e.sys.layoutReqResult) (by simp) _ _
@[simp] theorem Dev.raiseStanding_sys_layoutReqId (d : Dev) : d.raiseStanding.sys.layoutReqId = d.sys.layoutReqId :=
  Dev.foldl_report (fun e => e.sys.layoutReqId) (by simp) _ _
@[simp] theorem Dev.raiseStanding_sys_safeOff (d : Dev) : d.raiseStanding.sys.safeOff = d.sys.safeOff :=
  Dev.foldl_report (fun e => e.sys.safeOff) (by simp) _ _
@[simp] theorem Dev.raiseStanding_sys_shutdownStep (d : Dev) : d.raiseStanding.sys.shutdownStep = d.sys.shutdownStep :=
  Dev.foldl_report (fun e => e.sys.shutdownStep) (by simp) _ _
@[simp] theorem Dev.raiseStanding_sys_cpairErr (d : Dev) : d.raiseStanding.sys.cpairErr = d.sys.cpairErr :=
  Dev.foldl_report (fun e => e.sys.cpairErr) (by simp) _ _
@[simp] theorem Dev.raiseStanding_sys_wdog (d : Dev) : d.raiseStanding.sys.wdog = d.sys.wdog :=
  Dev.foldl_report (fun e => e.sys.wdog) (by simp) _ _
@[simp] theorem Dev.raiseStanding_sys_serviced (d : Dev) : d.raiseStanding.sys.serviced = d.sys.serviced :=
  Dev.foldl_report (fun e => e.sys.serviced) (by simp) _ _
@[simp] theorem Dev.raiseStanding_sys_coreRun (d : Dev) : d.raiseStanding.sys.coreRun = d.sys.coreRun :=
  Dev.foldl_report (fun e => e.sys.coreRun) (by simp) _ _
@[simp] theorem Dev.raiseStanding_sys_coreRestarts (d : Dev) : d.raiseStanding.sys.coreRestarts = d.sys.coreRestarts :=
  Dev.foldl_report (fun e => e.sys.coreRestarts) (by simp) _ _
@[simp] theorem Dev.raiseStanding_sys_coreEvents (d : Dev) : d.raiseStanding.sys.coreEvents = d.sys.coreEvents :=
  Dev.foldl_report (fun e => e.sys.coreEvents) (by simp) _ _
@[simp] theorem Dev.raiseStanding_sys_decision (d : Dev) : d.raiseStanding.sys.decision = d.sys.decision :=
  Dev.foldl_report (fun e => e.sys.decision) (by simp) _ _
@[simp] theorem Dev.raiseStanding_sys_applied (d : Dev) : d.raiseStanding.sys.applied = d.sys.applied :=
  Dev.foldl_report (fun e => e.sys.applied) (by simp) _ _
@[simp] theorem Dev.raiseStanding_sys_corrected (d : Dev) : d.raiseStanding.sys.corrected = d.sys.corrected :=
  Dev.foldl_report (fun e => e.sys.corrected) (by simp) _ _
@[simp] theorem Dev.raiseStanding_sys_warmupStart (d : Dev) : d.raiseStanding.sys.warmupStart = d.sys.warmupStart :=
  Dev.foldl_report (fun e => e.sys.warmupStart) (by simp) _ _
@[simp] theorem Dev.raiseStanding_sys_laneStart (d : Dev) : d.raiseStanding.sys.laneStart = d.sys.laneStart :=
  Dev.foldl_report (fun e => e.sys.laneStart) (by simp) _ _
@[simp] theorem Dev.raiseStanding_jnl_pin (d : Dev) : d.raiseStanding.jnl.pin = d.jnl.pin :=
  Dev.foldl_report (fun e => e.jnl.pin) (by simp) _ _
@[simp] theorem Dev.raiseStanding_jnl_nodes (d : Dev) : d.raiseStanding.jnl.nodes = d.jnl.nodes :=
  Dev.foldl_report (fun e => e.jnl.nodes) (by simp) _ _
@[simp] theorem Dev.raiseStanding_jnl_expSeeds (d : Dev) : d.raiseStanding.jnl.expSeeds = d.jnl.expSeeds :=
  Dev.foldl_report (fun e => e.jnl.expSeeds) (by simp) _ _
@[simp] theorem Dev.raiseStanding_jnl_eqSeeds (d : Dev) : d.raiseStanding.jnl.eqSeeds = d.jnl.eqSeeds :=
  Dev.foldl_report (fun e => e.jnl.eqSeeds) (by simp) _ _
@[simp] theorem Dev.raiseStanding_jnl_plan (d : Dev) : d.raiseStanding.jnl.plan = d.jnl.plan :=
  Dev.foldl_report (fun e => e.jnl.plan) (by simp) _ _
@[simp] theorem Dev.raiseStanding_jnl_log (d : Dev) : d.raiseStanding.jnl.log = d.jnl.log :=
  Dev.foldl_report (fun e => e.jnl.log) (by simp) _ _
@[simp] theorem Dev.raiseStanding_jnl_logTotal (d : Dev) : d.raiseStanding.jnl.logTotal = d.jnl.logTotal :=
  Dev.foldl_report (fun e => e.jnl.logTotal) (by simp) _ _
@[simp] theorem Dev.raiseStanding_jnl_logDropped (d : Dev) : d.raiseStanding.jnl.logDropped = d.jnl.logDropped :=
  Dev.foldl_report (fun e => e.jnl.logDropped) (by simp) _ _
@[simp] theorem Dev.raiseStanding_jnl_unsaved (d : Dev) : d.raiseStanding.jnl.unsaved = d.jnl.unsaved :=
  Dev.foldl_report (fun e => e.jnl.unsaved) (by simp) _ _
@[simp] theorem Dev.raiseStanding_jnl_seq (d : Dev) : d.raiseStanding.jnl.seq = d.jnl.seq :=
  Dev.foldl_report (fun e => e.jnl.seq) (by simp) _ _
@[simp] theorem Dev.raiseStanding_jnl_slot (d : Dev) : d.raiseStanding.jnl.slot = d.jnl.slot :=
  Dev.foldl_report (fun e => e.jnl.slot) (by simp) _ _
@[simp] theorem Dev.raiseStanding_jnl_due (d : Dev) : d.raiseStanding.jnl.due = d.jnl.due :=
  Dev.foldl_report (fun e => e.jnl.due) (by simp) _ _
@[simp] theorem Dev.raiseStanding_jnl_lastSet (d : Dev) : d.raiseStanding.jnl.lastSet = d.jnl.lastSet :=
  Dev.foldl_report (fun e => e.jnl.lastSet) (by simp) _ _
@[simp] theorem Dev.raiseStanding_jnl_writing (d : Dev) : d.raiseStanding.jnl.writing = d.jnl.writing :=
  Dev.foldl_report (fun e => e.jnl.writing) (by simp) _ _
@[simp] theorem Dev.raiseStanding_jnl_erasing (d : Dev) : d.raiseStanding.jnl.erasing = d.jnl.erasing :=
  Dev.foldl_report (fun e => e.jnl.erasing) (by simp) _ _
@[simp] theorem Dev.raiseStanding_jnl_held (d : Dev) : d.raiseStanding.jnl.held = d.jnl.held :=
  Dev.foldl_report (fun e => e.jnl.held) (by simp) _ _
@[simp] theorem Dev.raiseStanding_jnl_closed (d : Dev) : d.raiseStanding.jnl.closed = d.jnl.closed :=
  Dev.foldl_report (fun e => e.jnl.closed) (by simp) _ _
@[simp] theorem Dev.raiseStanding_jnl_history_minutes (d : Dev) : d.raiseStanding.jnl.history.minutes = d.jnl.history.minutes :=
  Dev.foldl_report (fun e => e.jnl.history.minutes) (by simp) _ _
@[simp] theorem Dev.raiseStanding_jnl_history_sincePlan (d : Dev) : d.raiseStanding.jnl.history.sincePlan = d.jnl.history.sincePlan :=
  Dev.foldl_report (fun e => e.jnl.history.sincePlan) (by simp) _ _
@[simp] theorem Dev.raiseStanding_jnl_history_starts (d : Dev) : d.raiseStanding.jnl.history.starts = d.jnl.history.starts :=
  Dev.foldl_report (fun e => e.jnl.history.starts) (by simp) _ _
@[simp] theorem Dev.raiseStanding_jnl_history_brownOuts (d : Dev) : d.raiseStanding.jnl.history.brownOuts = d.jnl.history.brownOuts :=
  Dev.foldl_report (fun e => e.jnl.history.brownOuts) (by simp) _ _
@[simp] theorem Dev.raiseStanding_jnl_history_powerFails (d : Dev) : d.raiseStanding.jnl.history.powerFails = d.jnl.history.powerFails :=
  Dev.foldl_report (fun e => e.jnl.history.powerFails) (by simp) _ _
@[simp] theorem Dev.raiseStanding_jnl_history_plyEvents (d : Dev) : d.raiseStanding.jnl.history.plyEvents = d.jnl.history.plyEvents :=
  Dev.foldl_report (fun e => e.jnl.history.plyEvents) (by simp) _ _
@[simp] theorem Dev.raiseStanding_jnl_history_hist (d : Dev) : d.raiseStanding.jnl.history.hist = d.jnl.history.hist :=
  Dev.foldl_report (fun e => e.jnl.history.hist) (by simp) _ _
@[simp] theorem Dev.raiseStanding_jnl_history_stress (d : Dev) : d.raiseStanding.jnl.history.stress = d.jnl.history.stress :=
  Dev.foldl_report (fun e => e.jnl.history.stress) (by simp) _ _
@[simp] theorem Dev.raiseStanding_jnl_history_slack (d : Dev) : d.raiseStanding.jnl.history.slack = d.jnl.history.slack :=
  Dev.foldl_report (fun e => e.jnl.history.slack) (by simp) _ _
@[simp] theorem Dev.raiseStanding_jnl_history_eyes (d : Dev) : d.raiseStanding.jnl.history.eyes = d.jnl.history.eyes :=
  Dev.foldl_report (fun e => e.jnl.history.eyes) (by simp) _ _
@[simp] theorem Dev.raiseStanding_jnl_history_currents (d : Dev) : d.raiseStanding.jnl.history.currents = d.jnl.history.currents :=
  Dev.foldl_report (fun e => e.jnl.history.currents) (by simp) _ _
@[simp] theorem Dev.raiseStanding_jnl_history_vmin (d : Dev) : d.raiseStanding.jnl.history.vmin = d.jnl.history.vmin :=
  Dev.foldl_report (fun e => e.jnl.history.vmin) (by simp) _ _
@[simp] theorem Dev.raiseStanding_jnl_history_vminBase (d : Dev) : d.raiseStanding.jnl.history.vminBase = d.jnl.history.vminBase :=
  Dev.foldl_report (fun e => e.jnl.history.vminBase) (by simp) _ _
@[simp] theorem Dev.raiseStanding_jnl_history_vminWorst (d : Dev) : d.raiseStanding.jnl.history.vminWorst = d.jnl.history.vminWorst :=
  Dev.foldl_report (fun e => e.jnl.history.vminWorst) (by simp) _ _
@[simp] theorem Dev.settle_freeIdx (d : Dev) : d.settle.freeIdx = d.freeIdx := by simp [Dev.settle]
@[simp] theorem Dev.settle_idleCycles (d : Dev) : d.settle.idleCycles = d.idleCycles := by simp [Dev.settle]
@[simp] theorem Dev.settle_aon (d : Dev) : d.settle.aon = d.aon := by simp [Dev.settle]
@[simp] theorem Dev.settle_pairs (d : Dev) : d.settle.pairs = d.pairs := by simp [Dev.settle]
@[simp] theorem Dev.settle_bus (d : Dev) : d.settle.bus = d.bus := by simp [Dev.settle]
@[simp] theorem Dev.settle_nvm (d : Dev) : d.settle.nvm = d.nvm := by simp [Dev.settle]
@[simp] theorem Dev.settle_lay (d : Dev) : d.settle.lay = d.lay := by simp [Dev.settle]
@[simp] theorem Dev.settle_img (d : Dev) : d.settle.img = d.img := by simp [Dev.settle]
@[simp] theorem Dev.settle_whl (d : Dev) : d.settle.whl = d.whl := by simp [Dev.settle]
@[simp] theorem Dev.settle_ports (d : Dev) : d.settle.ports = d.ports := by simp [Dev.settle]
@[simp] theorem Dev.settle_card (d : Dev) : d.settle.card = d.card := by simp [Dev.settle]
@[simp] theorem Dev.settle_strands (d : Dev) : d.settle.strands = d.strands := by simp [Dev.settle]
@[simp] theorem Dev.settle_spn (d : Dev) : d.settle.spn = d.spn := by simp [Dev.settle]
@[simp] theorem Dev.settle_streams (d : Dev) : d.settle.streams = d.streams := by simp [Dev.settle]
@[simp] theorem Dev.settle_bob (d : Dev) : d.settle.bob = d.bob := by simp [Dev.settle]
@[simp] theorem Dev.settle_fst (d : Dev) : d.settle.fst = d.fst := by simp [Dev.settle]
@[simp] theorem Dev.settle_ply (d : Dev) : d.settle.ply = d.ply := by simp [Dev.settle]
@[simp] theorem Dev.settle_hnk (d : Dev) : d.settle.hnk = d.hnk := by simp [Dev.settle]
@[simp] theorem Dev.settle_skn (d : Dev) : d.settle.skn = d.skn := by simp [Dev.settle]
@[simp] theorem Dev.settle_sns (d : Dev) : d.settle.sns = d.sns := by simp [Dev.settle]
@[simp] theorem Dev.settle_dma (d : Dev) : d.settle.dma = d.dma := by simp [Dev.settle]
@[simp] theorem Dev.settle_chk (d : Dev) : d.settle.chk = d.chk := by simp [Dev.settle]
@[simp] theorem Dev.settle_age (d : Dev) : d.settle.age = d.age := by simp [Dev.settle]
@[simp] theorem Dev.settle_tst (d : Dev) : d.settle.tst = d.tst := by simp [Dev.settle]
@[simp] theorem Dev.settle_jtag (d : Dev) : d.settle.jtag = d.jtag := by simp [Dev.settle]
@[simp] theorem Dev.settle_sys_mode (d : Dev) : d.settle.sys.mode = d.sys.mode := by simp [Dev.settle]
@[simp] theorem Dev.settle_sys_nolive (d : Dev) : d.settle.sys.nolive = d.sys.nolive := by simp [Dev.settle]
@[simp] theorem Dev.settle_sys_transition (d : Dev) : d.settle.sys.transition = d.sys.transition := by simp [Dev.settle]
@[simp] theorem Dev.settle_sys_reqCount (d : Dev) : d.settle.sys.reqCount = d.sys.reqCount := by simp [Dev.settle]
@[simp] theorem Dev.settle_sys_result (d : Dev) : d.settle.sys.result = d.sys.result := by simp [Dev.settle]
@[simp] theorem Dev.settle_sys_activeLayout (d : Dev) : d.settle.sys.activeLayout = d.sys.activeLayout := by simp [Dev.settle]
@[simp] theorem Dev.settle_sys_layoutReqResult (d : Dev) : d.settle.sys.layoutReqResult = d.sys.layoutReqResult := by simp [Dev.settle]
@[simp] theorem Dev.settle_sys_layoutReqId (d : Dev) : d.settle.sys.layoutReqId = d.sys.layoutReqId := by simp [Dev.settle]
@[simp] theorem Dev.settle_sys_safeOff (d : Dev) : d.settle.sys.safeOff = d.sys.safeOff := by simp [Dev.settle]
@[simp] theorem Dev.settle_sys_shutdownStep (d : Dev) : d.settle.sys.shutdownStep = d.sys.shutdownStep := by simp [Dev.settle]
@[simp] theorem Dev.settle_sys_cpairErr (d : Dev) : d.settle.sys.cpairErr = d.sys.cpairErr := by simp [Dev.settle]
@[simp] theorem Dev.settle_sys_wdog (d : Dev) : d.settle.sys.wdog = d.sys.wdog := by simp [Dev.settle]
@[simp] theorem Dev.settle_sys_serviced (d : Dev) : d.settle.sys.serviced = d.sys.serviced := by simp [Dev.settle]
@[simp] theorem Dev.settle_sys_coreRun (d : Dev) : d.settle.sys.coreRun = d.sys.coreRun := by simp [Dev.settle]
@[simp] theorem Dev.settle_sys_coreRestarts (d : Dev) : d.settle.sys.coreRestarts = d.sys.coreRestarts := by simp [Dev.settle]
@[simp] theorem Dev.settle_sys_coreEvents (d : Dev) : d.settle.sys.coreEvents = d.sys.coreEvents := by simp [Dev.settle]
@[simp] theorem Dev.settle_sys_decision (d : Dev) : d.settle.sys.decision = d.sys.decision := by simp [Dev.settle]
@[simp] theorem Dev.settle_sys_applied (d : Dev) : d.settle.sys.applied = d.sys.applied := by simp [Dev.settle]
@[simp] theorem Dev.settle_sys_corrected (d : Dev) : d.settle.sys.corrected = d.sys.corrected := by simp [Dev.settle]
@[simp] theorem Dev.settle_sys_warmupStart (d : Dev) : d.settle.sys.warmupStart = d.sys.warmupStart := by simp [Dev.settle]
@[simp] theorem Dev.settle_sys_laneStart (d : Dev) : d.settle.sys.laneStart = d.sys.laneStart := by simp [Dev.settle]
@[simp] theorem Dev.settle_jnl_pin (d : Dev) : d.settle.jnl.pin = d.jnl.pin := by simp [Dev.settle]
@[simp] theorem Dev.settle_jnl_nodes (d : Dev) : d.settle.jnl.nodes = d.jnl.nodes := by simp [Dev.settle]
@[simp] theorem Dev.settle_jnl_expSeeds (d : Dev) : d.settle.jnl.expSeeds = d.jnl.expSeeds := by simp [Dev.settle]
@[simp] theorem Dev.settle_jnl_eqSeeds (d : Dev) : d.settle.jnl.eqSeeds = d.jnl.eqSeeds := by simp [Dev.settle]
@[simp] theorem Dev.settle_jnl_plan (d : Dev) : d.settle.jnl.plan = d.jnl.plan := by simp [Dev.settle]
@[simp] theorem Dev.settle_jnl_log (d : Dev) : d.settle.jnl.log = d.jnl.log := by simp [Dev.settle]
@[simp] theorem Dev.settle_jnl_logTotal (d : Dev) : d.settle.jnl.logTotal = d.jnl.logTotal := by simp [Dev.settle]
@[simp] theorem Dev.settle_jnl_logDropped (d : Dev) : d.settle.jnl.logDropped = d.jnl.logDropped := by simp [Dev.settle]
@[simp] theorem Dev.settle_jnl_unsaved (d : Dev) : d.settle.jnl.unsaved = d.jnl.unsaved := by simp [Dev.settle]
@[simp] theorem Dev.settle_jnl_seq (d : Dev) : d.settle.jnl.seq = d.jnl.seq := by simp [Dev.settle]
@[simp] theorem Dev.settle_jnl_slot (d : Dev) : d.settle.jnl.slot = d.jnl.slot := by simp [Dev.settle]
@[simp] theorem Dev.settle_jnl_due (d : Dev) : d.settle.jnl.due = d.jnl.due := by simp [Dev.settle]
@[simp] theorem Dev.settle_jnl_lastSet (d : Dev) : d.settle.jnl.lastSet = d.jnl.lastSet := by simp [Dev.settle]
@[simp] theorem Dev.settle_jnl_writing (d : Dev) : d.settle.jnl.writing = d.jnl.writing := by simp [Dev.settle]
@[simp] theorem Dev.settle_jnl_erasing (d : Dev) : d.settle.jnl.erasing = d.jnl.erasing := by simp [Dev.settle]
@[simp] theorem Dev.settle_jnl_held (d : Dev) : d.settle.jnl.held = d.jnl.held := by simp [Dev.settle]
@[simp] theorem Dev.settle_jnl_closed (d : Dev) : d.settle.jnl.closed = d.jnl.closed := by simp [Dev.settle]
@[simp] theorem Dev.settle_jnl_history_minutes (d : Dev) : d.settle.jnl.history.minutes = d.jnl.history.minutes := by simp [Dev.settle]
@[simp] theorem Dev.settle_jnl_history_sincePlan (d : Dev) : d.settle.jnl.history.sincePlan = d.jnl.history.sincePlan := by simp [Dev.settle]
@[simp] theorem Dev.settle_jnl_history_starts (d : Dev) : d.settle.jnl.history.starts = d.jnl.history.starts := by simp [Dev.settle]
@[simp] theorem Dev.settle_jnl_history_brownOuts (d : Dev) : d.settle.jnl.history.brownOuts = d.jnl.history.brownOuts := by simp [Dev.settle]
@[simp] theorem Dev.settle_jnl_history_powerFails (d : Dev) : d.settle.jnl.history.powerFails = d.jnl.history.powerFails := by simp [Dev.settle]
@[simp] theorem Dev.settle_jnl_history_plyEvents (d : Dev) : d.settle.jnl.history.plyEvents = d.jnl.history.plyEvents := by simp [Dev.settle]
@[simp] theorem Dev.settle_jnl_history_hist (d : Dev) : d.settle.jnl.history.hist = d.jnl.history.hist := by simp [Dev.settle]
@[simp] theorem Dev.settle_jnl_history_stress (d : Dev) : d.settle.jnl.history.stress = d.jnl.history.stress := by simp [Dev.settle]
@[simp] theorem Dev.settle_jnl_history_slack (d : Dev) : d.settle.jnl.history.slack = d.jnl.history.slack := by simp [Dev.settle]
@[simp] theorem Dev.settle_jnl_history_eyes (d : Dev) : d.settle.jnl.history.eyes = d.jnl.history.eyes := by simp [Dev.settle]
@[simp] theorem Dev.settle_jnl_history_currents (d : Dev) : d.settle.jnl.history.currents = d.jnl.history.currents := by simp [Dev.settle]
@[simp] theorem Dev.settle_jnl_history_vmin (d : Dev) : d.settle.jnl.history.vmin = d.jnl.history.vmin := by simp [Dev.settle]
@[simp] theorem Dev.settle_jnl_history_vminBase (d : Dev) : d.settle.jnl.history.vminBase = d.jnl.history.vminBase := by simp [Dev.settle]
@[simp] theorem Dev.settle_jnl_history_vminWorst (d : Dev) : d.settle.jnl.history.vminWorst = d.jnl.history.vminWorst := by simp [Dev.settle]

/-! ### `Dev.logAccess` -/

@[simp] theorem Dev.logAccess_freeIdx (d : Dev) (a : Access) (p : Word) (z : Nat) (v : Word) (l r : Nat) :
    (d.logAccess a p z v l r).freeIdx = d.freeIdx := by
  simp only [Dev.logAccess]; split_ifs <;> rfl
@[simp] theorem Dev.logAccess_idleCycles (d : Dev) (a : Access) (p : Word) (z : Nat) (v : Word) (l r : Nat) :
    (d.logAccess a p z v l r).idleCycles = d.idleCycles := by
  simp only [Dev.logAccess]; split_ifs <;> rfl
@[simp] theorem Dev.logAccess_aon (d : Dev) (a : Access) (p : Word) (z : Nat) (v : Word) (l r : Nat) :
    (d.logAccess a p z v l r).aon = d.aon := by
  simp only [Dev.logAccess]; split_ifs <;> rfl
@[simp] theorem Dev.logAccess_pins (d : Dev) (a : Access) (p : Word) (z : Nat) (v : Word) (l r : Nat) :
    (d.logAccess a p z v l r).pins = d.pins := by
  simp only [Dev.logAccess]; split_ifs <;> rfl
@[simp] theorem Dev.logAccess_sys (d : Dev) (a : Access) (p : Word) (z : Nat) (v : Word) (l r : Nat) :
    (d.logAccess a p z v l r).sys = d.sys := by
  simp only [Dev.logAccess]; split_ifs <;> rfl
@[simp] theorem Dev.logAccess_pairs (d : Dev) (a : Access) (p : Word) (z : Nat) (v : Word) (l r : Nat) :
    (d.logAccess a p z v l r).pairs = d.pairs := by
  simp only [Dev.logAccess]; split_ifs <;> rfl
@[simp] theorem Dev.logAccess_bus (d : Dev) (a : Access) (p : Word) (z : Nat) (v : Word) (l r : Nat) :
    (d.logAccess a p z v l r).bus = d.bus := by
  simp only [Dev.logAccess]; split_ifs <;> rfl
@[simp] theorem Dev.logAccess_nvm (d : Dev) (a : Access) (p : Word) (z : Nat) (v : Word) (l r : Nat) :
    (d.logAccess a p z v l r).nvm = d.nvm := by
  simp only [Dev.logAccess]; split_ifs <;> rfl
@[simp] theorem Dev.logAccess_lay (d : Dev) (a : Access) (p : Word) (z : Nat) (v : Word) (l r : Nat) :
    (d.logAccess a p z v l r).lay = d.lay := by
  simp only [Dev.logAccess]; split_ifs <;> rfl
@[simp] theorem Dev.logAccess_img (d : Dev) (a : Access) (p : Word) (z : Nat) (v : Word) (l r : Nat) :
    (d.logAccess a p z v l r).img = d.img := by
  simp only [Dev.logAccess]; split_ifs <;> rfl
@[simp] theorem Dev.logAccess_whl (d : Dev) (a : Access) (p : Word) (z : Nat) (v : Word) (l r : Nat) :
    (d.logAccess a p z v l r).whl = d.whl := by
  simp only [Dev.logAccess]; split_ifs <;> rfl
@[simp] theorem Dev.logAccess_ports (d : Dev) (a : Access) (p : Word) (z : Nat) (v : Word) (l r : Nat) :
    (d.logAccess a p z v l r).ports = d.ports := by
  simp only [Dev.logAccess]; split_ifs <;> rfl
@[simp] theorem Dev.logAccess_card (d : Dev) (a : Access) (p : Word) (z : Nat) (v : Word) (l r : Nat) :
    (d.logAccess a p z v l r).card = d.card := by
  simp only [Dev.logAccess]; split_ifs <;> rfl
@[simp] theorem Dev.logAccess_strands (d : Dev) (a : Access) (p : Word) (z : Nat) (v : Word) (l r : Nat) :
    (d.logAccess a p z v l r).strands = d.strands := by
  simp only [Dev.logAccess]; split_ifs <;> rfl
@[simp] theorem Dev.logAccess_spn (d : Dev) (a : Access) (p : Word) (z : Nat) (v : Word) (l r : Nat) :
    (d.logAccess a p z v l r).spn = d.spn := by
  simp only [Dev.logAccess]; split_ifs <;> rfl
@[simp] theorem Dev.logAccess_streams (d : Dev) (a : Access) (p : Word) (z : Nat) (v : Word) (l r : Nat) :
    (d.logAccess a p z v l r).streams = d.streams := by
  simp only [Dev.logAccess]; split_ifs <;> rfl
@[simp] theorem Dev.logAccess_bob (d : Dev) (a : Access) (p : Word) (z : Nat) (v : Word) (l r : Nat) :
    (d.logAccess a p z v l r).bob = d.bob := by
  simp only [Dev.logAccess]; split_ifs <;> rfl
@[simp] theorem Dev.logAccess_fst (d : Dev) (a : Access) (p : Word) (z : Nat) (v : Word) (l r : Nat) :
    (d.logAccess a p z v l r).fst = d.fst := by
  simp only [Dev.logAccess]; split_ifs <;> rfl
@[simp] theorem Dev.logAccess_ply (d : Dev) (a : Access) (p : Word) (z : Nat) (v : Word) (l r : Nat) :
    (d.logAccess a p z v l r).ply = d.ply := by
  simp only [Dev.logAccess]; split_ifs <;> rfl
@[simp] theorem Dev.logAccess_hnk (d : Dev) (a : Access) (p : Word) (z : Nat) (v : Word) (l r : Nat) :
    (d.logAccess a p z v l r).hnk = d.hnk := by
  simp only [Dev.logAccess]; split_ifs <;> rfl
@[simp] theorem Dev.logAccess_skn (d : Dev) (a : Access) (p : Word) (z : Nat) (v : Word) (l r : Nat) :
    (d.logAccess a p z v l r).skn = d.skn := by
  simp only [Dev.logAccess]; split_ifs <;> rfl
@[simp] theorem Dev.logAccess_sns (d : Dev) (a : Access) (p : Word) (z : Nat) (v : Word) (l r : Nat) :
    (d.logAccess a p z v l r).sns = d.sns := by
  simp only [Dev.logAccess]; split_ifs <;> rfl
@[simp] theorem Dev.logAccess_dma (d : Dev) (a : Access) (p : Word) (z : Nat) (v : Word) (l r : Nat) :
    (d.logAccess a p z v l r).dma = d.dma := by
  simp only [Dev.logAccess]; split_ifs <;> rfl
@[simp] theorem Dev.logAccess_chk (d : Dev) (a : Access) (p : Word) (z : Nat) (v : Word) (l r : Nat) :
    (d.logAccess a p z v l r).chk = d.chk := by
  simp only [Dev.logAccess]; split_ifs <;> rfl
@[simp] theorem Dev.logAccess_age (d : Dev) (a : Access) (p : Word) (z : Nat) (v : Word) (l r : Nat) :
    (d.logAccess a p z v l r).age = d.age := by
  simp only [Dev.logAccess]; split_ifs <;> rfl
@[simp] theorem Dev.logAccess_tst (d : Dev) (a : Access) (p : Word) (z : Nat) (v : Word) (l r : Nat) :
    (d.logAccess a p z v l r).tst = d.tst := by
  simp only [Dev.logAccess]; split_ifs <;> rfl
@[simp] theorem Dev.logAccess_jtag (d : Dev) (a : Access) (p : Word) (z : Nat) (v : Word) (l r : Nat) :
    (d.logAccess a p z v l r).jtag = d.jtag := by
  simp only [Dev.logAccess]; split_ifs <;> rfl
@[simp] theorem Dev.logAccess_jnl_pin (d : Dev) (a : Access) (p : Word) (z : Nat) (v : Word) (l r : Nat) :
    (d.logAccess a p z v l r).jnl.pin = d.jnl.pin := by
  simp only [Dev.logAccess]; split_ifs <;> rfl
@[simp] theorem Dev.logAccess_jnl_nodes (d : Dev) (a : Access) (p : Word) (z : Nat) (v : Word) (l r : Nat) :
    (d.logAccess a p z v l r).jnl.nodes = d.jnl.nodes := by
  simp only [Dev.logAccess]; split_ifs <;> rfl
@[simp] theorem Dev.logAccess_jnl_expSeeds (d : Dev) (a : Access) (p : Word) (z : Nat) (v : Word) (l r : Nat) :
    (d.logAccess a p z v l r).jnl.expSeeds = d.jnl.expSeeds := by
  simp only [Dev.logAccess]; split_ifs <;> rfl
@[simp] theorem Dev.logAccess_jnl_eqSeeds (d : Dev) (a : Access) (p : Word) (z : Nat) (v : Word) (l r : Nat) :
    (d.logAccess a p z v l r).jnl.eqSeeds = d.jnl.eqSeeds := by
  simp only [Dev.logAccess]; split_ifs <;> rfl
@[simp] theorem Dev.logAccess_jnl_plan (d : Dev) (a : Access) (p : Word) (z : Nat) (v : Word) (l r : Nat) :
    (d.logAccess a p z v l r).jnl.plan = d.jnl.plan := by
  simp only [Dev.logAccess]; split_ifs <;> rfl
@[simp] theorem Dev.logAccess_jnl_history (d : Dev) (a : Access) (p : Word) (z : Nat) (v : Word) (l r : Nat) :
    (d.logAccess a p z v l r).jnl.history = d.jnl.history := by
  simp only [Dev.logAccess]; split_ifs <;> rfl
@[simp] theorem Dev.logAccess_jnl_seq (d : Dev) (a : Access) (p : Word) (z : Nat) (v : Word) (l r : Nat) :
    (d.logAccess a p z v l r).jnl.seq = d.jnl.seq := by
  simp only [Dev.logAccess]; split_ifs <;> rfl
@[simp] theorem Dev.logAccess_jnl_slot (d : Dev) (a : Access) (p : Word) (z : Nat) (v : Word) (l r : Nat) :
    (d.logAccess a p z v l r).jnl.slot = d.jnl.slot := by
  simp only [Dev.logAccess]; split_ifs <;> rfl
@[simp] theorem Dev.logAccess_jnl_lastSet (d : Dev) (a : Access) (p : Word) (z : Nat) (v : Word) (l r : Nat) :
    (d.logAccess a p z v l r).jnl.lastSet = d.jnl.lastSet := by
  simp only [Dev.logAccess]; split_ifs <;> rfl
@[simp] theorem Dev.logAccess_jnl_writing (d : Dev) (a : Access) (p : Word) (z : Nat) (v : Word) (l r : Nat) :
    (d.logAccess a p z v l r).jnl.writing = d.jnl.writing := by
  simp only [Dev.logAccess]; split_ifs <;> rfl
@[simp] theorem Dev.logAccess_jnl_erasing (d : Dev) (a : Access) (p : Word) (z : Nat) (v : Word) (l r : Nat) :
    (d.logAccess a p z v l r).jnl.erasing = d.jnl.erasing := by
  simp only [Dev.logAccess]; split_ifs <;> rfl
@[simp] theorem Dev.logAccess_jnl_held (d : Dev) (a : Access) (p : Word) (z : Nat) (v : Word) (l r : Nat) :
    (d.logAccess a p z v l r).jnl.held = d.jnl.held := by
  simp only [Dev.logAccess]; split_ifs <;> rfl
@[simp] theorem Dev.logAccess_jnl_closed (d : Dev) (a : Access) (p : Word) (z : Nat) (v : Word) (l r : Nat) :
    (d.logAccess a p z v l r).jnl.closed = d.jnl.closed := by
  simp only [Dev.logAccess]; split_ifs <;> rfl

/-! ### Running an effect -/

@[simp] theorem State.run_pending (s : State) (f : Dev → Dev) : (s.run f).pending = s.pending := rfl
@[simp] theorem State.run_mem (s : State) (f : Dev → Dev) : (s.run f).mem = s.mem := rfl
@[simp] theorem State.run_dev (s : State) (f : Dev → Dev) : (s.run f).dev = (f s.dev).settle := rfl
@[simp] theorem State.runM_pending (s : State) (f : State → State) : (s.runM f).pending = s.pending := rfl
@[simp] theorem State.runM_mem (s : State) (f : State → State) : (s.runM f).mem = (f s).mem := rfl
@[simp] theorem State.runM_dev (s : State) (f : State → State) : (s.runM f).dev = (f s).dev.settle := rfl
@[simp] theorem State.runR_pending (s : State) (f : Mem → Dev → Dev) : (s.runR f).pending = s.pending := rfl
@[simp] theorem State.runR_mem (s : State) (f : Mem → Dev → Dev) : (s.runR f).mem = s.mem := rfl
@[simp] theorem State.runR_dev (s : State) (f : Mem → Dev → Dev) : (s.runR f).dev = (f s.mem s.dev).settle := rfl

end Sys2Proof.Machine
end

