-- ==== Sys2Proof/Laws/Flags.lean ====
section
/-! SUPPORT. What a report, the settling after a command and an access can change, said once. -/

namespace Sys2Proof.Machine

/-- A report of a bit that is set already changes nothing; MEM_CE (16) and DIAG_WRITE (30) are counted instead. -/
theorem Dev.raise_of_set (d : Dev) (b s x : Nat) (h16 : b ≠ 16) (h30 : b ≠ 30) (h : d.sys.fault.getLsbD b = true) :
    d.raise b s x = d := by
  simp [Dev.raise, h16, h30, h]

/-- A report sets its bit. -/
theorem Dev.raise_sets (d : Dev) (b s x : Nat) (hb : b < 32) : (d.raise b s x).sys.fault.getLsbD b = true := by
  unfold Dev.raise
  split_ifs with h1 h2 h3
  · subst h1; simp [bitOf]
  · subst h2; simp [bitOf]
  · exact h3
  all_goals simp [bitOf, hb]

/-- A report clears no bit. -/
theorem Dev.raise_keeps (d : Dev) (b s x i : Nat) (h : d.sys.fault.getLsbD i = true) :
    (d.raise b s x).sys.fault.getLsbD i = true := by
  unfold Dev.raise
  split_ifs <;> simp [h]

/-- A report sets no other bit. -/
theorem Dev.raise_other (d : Dev) (b s x i : Nat) (h : i ≠ b) :
    (d.raise b s x).sys.fault.getLsbD i = d.sys.fault.getLsbD i := by
  have hz : ∀ k, k ≠ i → (bitOf k).getLsbD i = false := fun k hk => by
    simp only [bitOf, BitVec.getLsbD_shiftLeft, BitVec.getLsbD_one]
    by_cases h' : i < k
    · simp [h']
    · have : i - k ≠ 0 := by omega
      simp [this]
  unfold Dev.raise
  split_ifs with h1 h2 h3
  · subst h1; simp [hz _ h.symm]
  · subst h2; simp [hz _ h.symm]
  · rfl
  all_goals simp [hz _ h.symm]

/-- The standing conditions depend on the start path, the monitors, the image and the spindles alone. -/
theorem Dev.standing_congr (d e : Dev) (h1 : e.aon = d.aon) (h2 : e.age = d.age) (h3 : e.img = d.img) (h4 : e.spn = d.spn) :
    e.standing = d.standing := by
  cases d; cases e
  dsimp only at h1 h2 h3 h4
  subst h1 h2 h3 h4
  rfl

@[simp] theorem Dev.raise_standing (d : Dev) (b s x : Nat) : (d.raise b s x).standing = d.standing :=
  Dev.standing_congr _ _ (by simp) (by simp) (by simp) (by simp)
@[simp] theorem Dev.settle_standing (d : Dev) : d.settle.standing = d.standing :=
  Dev.standing_congr _ _ (by simp) (by simp) (by simp) (by simp)

/-- No standing condition belongs to a counted bit, and every one to a bit of the register. -/
theorem Dev.standing_bits (d : Dev) : ∀ p ∈ d.standing, p.1 < 32 ∧ p.1 ≠ 16 ∧ p.1 ≠ 30 := by
  intro p hp
  simp only [Dev.standing, List.mem_cons, List.not_mem_nil, or_false] at hp
  rcases hp with rfl | rfl | rfl | rfl | rfl | rfl | rfl <;> simp

/-- Where every standing condition shows already, settling reports nothing. -/
theorem Dev.raiseStanding_of_shown (d : Dev) (h : d.standingShown) : d.raiseStanding = d := by
  have key : ∀ l : List (Nat × Bool), (∀ p ∈ l, p.1 < 32 ∧ p.1 ≠ 16 ∧ p.1 ≠ 30) →
      (∀ p ∈ l, p.2 = true → d.sys.fault.getLsbD p.1 = true) →
      l.foldl (fun e p => if p.2 then e.report p.1 else e) d = d := by
    intro l
    induction l with
    | nil => intros; rfl
    | cons p l ih =>
      intro hb hs
      have hp : (if p.2 = true then d.report p.1 else d) = d := by
        split_ifs with h2
        · exact Dev.raise_of_set d p.1 _ _ (hb p (by simp)).2.1 (hb p (by simp)).2.2 (hs p (by simp) h2)
        · rfl
      rw [List.foldl_cons, hp]
      exact ih (fun q hq => hb q (by simp [hq])) (fun q hq => hs q (by simp [hq]))
  exact key _ d.standing_bits h

/-- In a state whose pins and summary follow, settling changes nothing. -/
theorem Dev.settle_of_follow (d : Dev) (h : d.standingShown) (hp : d.pinsFollow) : d.settle = d := by
  rw [Dev.settle, d.raiseStanding_of_shown h, Dev.drivePins, ← hp.1, ← hp.2.1, ← hp.2.2]

/-- Settling shows every standing condition. -/
theorem Dev.settle_shown (d : Dev) : d.settle.standingShown := by
  have key : ∀ (l : List (Nat × Bool)) (e : Dev), (∀ p ∈ l, p.1 < 32) →
      ∀ p ∈ l, p.2 = true → (l.foldl (fun e p => if p.2 then e.report p.1 else e) e).sys.fault.getLsbD p.1 = true := by
    intro l
    have keep : ∀ (l : List (Nat × Bool)) (e : Dev) (i : Nat), e.sys.fault.getLsbD i = true →
        (l.foldl (fun e p => if p.2 then e.report p.1 else e) e).sys.fault.getLsbD i = true := by
      intro l
      induction l with
      | nil => intro e i h; exact h
      | cons q l ih =>
        intro e i h
        rw [List.foldl_cons]
        refine ih _ i ?_
        split_ifs
        · exact Dev.raise_keeps _ _ _ _ _ h
        · exact h
    induction l with
    | nil => simp
    | cons q l ih =>
      intro e hb p hp h2
      rw [List.foldl_cons]
      rcases List.mem_cons.1 hp with rfl | hp
      · refine keep l _ _ ?_
        rw [if_pos h2]
        exact Dev.raise_sets _ _ _ _ (hb p (by simp))
      · exact ih _ (fun q hq => hb q (by simp [hq])) p hp h2
  intro p hp h2
  rw [Dev.settle_standing] at hp
  exact key d.standing d (fun q hq => (d.standing_bits q hq).1) p hp h2

/-- Settling clears no bit. -/
theorem Dev.settle_keeps (d : Dev) (i : Nat) (h : d.sys.fault.getLsbD i = true) : d.settle.sys.fault.getLsbD i = true := by
  have key : ∀ (l : List (Nat × Bool)) (e : Dev), e.sys.fault.getLsbD i = true →
      (l.foldl (fun e p => if p.2 then e.report p.1 else e) e).sys.fault.getLsbD i = true := by
    intro l
    induction l with
    | nil => intro e h; exact h
    | cons q l ih =>
      intro e h
      rw [List.foldl_cons]
      refine ih _ ?_
      split_ifs
      · exact Dev.raise_keeps _ _ _ _ _ h
      · exact h
  exact key d.standing d h

/-- A report shows after the command. -/
theorem Dev.raise_shown (d : Dev) (b s x : Nat) (hb : b < 32) : (d.raise b s x).settle.sys.fault.getLsbD b = true :=
  Dev.settle_keeps _ _ (Dev.raise_sets _ _ _ _ hb)

/-- After settling the pins follow the state. -/
theorem Dev.settle_follow (d : Dev) : d.settle.pinsFollow := ⟨rfl, rfl, rfl⟩

/-- The pins after settling. -/
@[simp] theorem Dev.settle_bypHold (d : Dev) : d.settle.pins.bypHold = d.aon.tier.map fun t => decide (t ≠ .bypass) := by
  simp [Dev.settle, Dev.drivePins]
theorem Dev.settle_faultN (d : Dev) : d.settle.pins.faultN = d.settle.faultNLevel := rfl
theorem Dev.settle_alertN (d : Dev) : d.settle.pins.alertN = d.settle.alertNLevel := rfl
@[simp] theorem Dev.settle_trigOut (d : Dev) : d.settle.pins.trigOut = d.pins.trigOut := by simp [Dev.settle, Dev.drivePins]
@[simp] theorem Dev.settle_ppsOut (d : Dev) : d.settle.pins.ppsOut = d.pins.ppsOut := by simp [Dev.settle, Dev.drivePins]
@[simp] theorem Dev.settle_pocEn (d : Dev) : d.settle.pins.pocEn = d.pins.pocEn := by simp [Dev.settle, Dev.drivePins]

/-- FAULT_N falls with the reference clock. -/
theorem Dev.settle_faultN_of_clock (d : Dev) (h : d.aon.refclk = false) : d.settle.pins.faultN = false := by
  simp [Dev.settle_faultN, Dev.faultNLevel, h]

/-- FAULT_N is low while a FAULT-class bit is set. -/
theorem Dev.settle_faultN_of_bit (d : Dev) (b : Nat) (hf : faultMask.getLsbD b = true)
    (h : d.settle.sys.fault.getLsbD b = true) : d.settle.pins.faultN = false := by
  have : ¬ d.settle.sys.fault &&& faultMask = 0 := fun e => by
    have := congrArg (fun w : Word => w.getLsbD b) e
    simp [h, hf] at this
  simp only [Dev.settle_faultN, Dev.faultNLevel, this, decide_false, Bool.and_false]

/-- Every effect on the registers alone keeps the invariant's part about them. -/
theorem State.run_inv (s : State) (f : Dev → Dev) (h : s.mem.wf = true) : (s.run f).Inv :=
  ⟨h, Dev.settle_shown _, Dev.settle_follow _⟩

theorem State.runR_inv (s : State) (f : Mem → Dev → Dev) (h : s.mem.wf = true) : (s.runR f).Inv :=
  ⟨h, Dev.settle_shown _, Dev.settle_follow _⟩

theorem State.runM_inv (s : State) (f : State → State) (h : (f s).mem.wf = true) : (s.runM f).Inv :=
  ⟨h, Dev.settle_shown _, Dev.settle_follow _⟩

/-! ### Frames: what reports and accesses change is put back -/

@[simp] theorem Dev.unreport_raise (e d : Dev) (b s x : Nat) : (e.raise b s x).unreport d = e.unreport d := by
  unfold Dev.raise; split_ifs <;> rfl
@[simp] theorem Dev.unreport_report (e d : Dev) (b : Nat) : (e.report b).unreport d = e.unreport d :=
  Dev.unreport_raise ..
@[simp] theorem Dev.unreport_raiseStanding (e d : Dev) : e.raiseStanding.unreport d = e.unreport d :=
  Dev.foldl_report (fun x => x.unreport d) (by simp) _ _
@[simp] theorem Dev.unreport_drivePins (e d : Dev) : e.drivePins.unreport d = e.unreport d := rfl
@[simp] theorem Dev.unreport_settle (e d : Dev) : e.settle.unreport d = e.unreport d := by simp [Dev.settle]
@[simp] theorem Dev.unreport_self (d : Dev) : d.unreport d = d := rfl
@[simp] theorem Dev.unaccess_self (d : Dev) : d.unaccess d = d := rfl

/-- The access frame reads the report frame and the bus alone. -/
theorem Dev.unaccess_congr (e e' d : Dev) (h : e.unreport d = e'.unreport d) (hb : e.bus = e'.bus) :
    e.unaccess d = e'.unaccess d := by
  simp only [Dev.unaccess, h, hb]

@[simp] theorem Dev.unaccess_raise (e d : Dev) (b s x : Nat) : (e.raise b s x).unaccess d = e.unaccess d :=
  Dev.unaccess_congr _ _ _ (by simp) (by simp)
@[simp] theorem Dev.unaccess_report (e d : Dev) (b : Nat) : (e.report b).unaccess d = e.unaccess d :=
  Dev.unaccess_raise ..
@[simp] theorem Dev.unaccess_settle (e d : Dev) : e.settle.unaccess d = e.unaccess d :=
  Dev.unaccess_congr _ _ _ (by simp) (by simp)
@[simp] theorem Dev.unaccess_answer (e d : Dev) (a : Access) (c : BitVec 4) (x : Byte) (v : DWord) :
    (e.answer a c x v).unaccess d = e.unaccess d := rfl
@[simp] theorem Dev.unaccess_logAccess (e d : Dev) (a : Access) (p : Word) (z : Nat) (v : Word) (l r : Nat) :
    (e.logAccess a p z v l r).unaccess d = e.unaccess d := by
  simp only [Dev.logAccess]; split_ifs <;> rfl

end Sys2Proof.Machine
end

