-- ==== Sys2Proof/Laws/Access.lean ====
section
/-! SUPPORT. What a write access can do, said once: the effect of its register and the traces every access leaves
(16 R559, R560; 02 R65), or the refusal alone. -/

namespace Sys2Proof.Machine

/-- The answer of an access. -/
@[simp] theorem Dev.answer_answer (d : Dev) (a : Access) (c : BitVec 4) (x : Byte) (v : DWord) :
    (d.answer a c x v).bus.answer = some ⟨a.master, c, x, v⟩ := rfl

section
variable (d d0 : Dev) (a : Access) (addr : Word) (n : Nat) (v : Word) (lg : Bool) (f : Dev → Dev × Res)

/-- An accepted write takes the effect of its register; beyond it only the log, DIAG_WRITE and the answer. -/
theorem Dev.write_accepted (h : d.accepts a addr v = true) :
    (d.write a addr n v lg f).unaccess d0 = (f d).1.unaccess d0 := by
  simp only [Dev.write, h, if_true]
  split_ifs <;> simp

/-- A write that is not taken changes nothing but the log and the answer. -/
theorem Dev.write_refused (h : d.accepts a addr v = false) :
    (d.write a addr n v lg f).unaccess d0 = d.unaccess d0 := by
  simp only [Dev.write, h, Bool.false_eq_true, if_false]
  split_ifs <;> simp

/-- The answer of an accepted write is its register's. -/
theorem Dev.write_answer (h : d.accepts a addr v = true) :
    (d.write a addr n v lg f).bus.answer = some ⟨a.master, (f d).2.code, (f d).2.detail, 0⟩ := by
  simp only [Dev.write, h, if_true]
  rfl

/-- A write that is not taken is answered with ADDR_ERR. -/
theorem Dev.write_refused_answer (h : d.accepts a addr v = false) :
    (d.write a addr n v lg f).bus.answer = some ⟨a.master, 2, 0, 0⟩ := by
  simp only [Dev.write, h, Bool.false_eq_true, if_false]
  rfl

@[simp] theorem Dev.write_freeIdx :
    (d.write a addr n v lg f).freeIdx = if d.accepts a addr v = true then (f d).1.freeIdx else d.freeIdx := by
  simp only [Dev.write]; split_ifs <;> simp
@[simp] theorem Dev.write_idleCycles :
    (d.write a addr n v lg f).idleCycles = if d.accepts a addr v = true then (f d).1.idleCycles else d.idleCycles := by
  simp only [Dev.write]; split_ifs <;> simp
@[simp] theorem Dev.write_aon :
    (d.write a addr n v lg f).aon = if d.accepts a addr v = true then (f d).1.aon else d.aon := by
  simp only [Dev.write]; split_ifs <;> simp
@[simp] theorem Dev.write_pins :
    (d.write a addr n v lg f).pins = if d.accepts a addr v = true then (f d).1.pins else d.pins := by
  simp only [Dev.write]; split_ifs <;> simp
@[simp] theorem Dev.write_pairs :
    (d.write a addr n v lg f).pairs = if d.accepts a addr v = true then (f d).1.pairs else d.pairs := by
  simp only [Dev.write]; split_ifs <;> simp
@[simp] theorem Dev.write_nvm :
    (d.write a addr n v lg f).nvm = if d.accepts a addr v = true then (f d).1.nvm else d.nvm := by
  simp only [Dev.write]; split_ifs <;> simp
@[simp] theorem Dev.write_lay :
    (d.write a addr n v lg f).lay = if d.accepts a addr v = true then (f d).1.lay else d.lay := by
  simp only [Dev.write]; split_ifs <;> simp
@[simp] theorem Dev.write_img :
    (d.write a addr n v lg f).img = if d.accepts a addr v = true then (f d).1.img else d.img := by
  simp only [Dev.write]; split_ifs <;> simp
@[simp] theorem Dev.write_whl :
    (d.write a addr n v lg f).whl = if d.accepts a addr v = true then (f d).1.whl else d.whl := by
  simp only [Dev.write]; split_ifs <;> simp
@[simp] theorem Dev.write_ports :
    (d.write a addr n v lg f).ports = if d.accepts a addr v = true then (f d).1.ports else d.ports := by
  simp only [Dev.write]; split_ifs <;> simp
@[simp] theorem Dev.write_card :
    (d.write a addr n v lg f).card = if d.accepts a addr v = true then (f d).1.card else d.card := by
  simp only [Dev.write]; split_ifs <;> simp
@[simp] theorem Dev.write_strands :
    (d.write a addr n v lg f).strands = if d.accepts a addr v = true then (f d).1.strands else d.strands := by
  simp only [Dev.write]; split_ifs <;> simp
@[simp] theorem Dev.write_spn :
    (d.write a addr n v lg f).spn = if d.accepts a addr v = true then (f d).1.spn else d.spn := by
  simp only [Dev.write]; split_ifs <;> simp
@[simp] theorem Dev.write_streams :
    (d.write a addr n v lg f).streams = if d.accepts a addr v = true then (f d).1.streams else d.streams := by
  simp only [Dev.write]; split_ifs <;> simp
@[simp] theorem Dev.write_bob :
    (d.write a addr n v lg f).bob = if d.accepts a addr v = true then (f d).1.bob else d.bob := by
  simp only [Dev.write]; split_ifs <;> simp
@[simp] theorem Dev.write_fst :
    (d.write a addr n v lg f).fst = if d.accepts a addr v = true then (f d).1.fst else d.fst := by
  simp only [Dev.write]; split_ifs <;> simp
@[simp] theorem Dev.write_ply :
    (d.write a addr n v lg f).ply = if d.accepts a addr v = true then (f d).1.ply else d.ply := by
  simp only [Dev.write]; split_ifs <;> simp
@[simp] theorem Dev.write_hnk :
    (d.write a addr n v lg f).hnk = if d.accepts a addr v = true then (f d).1.hnk else d.hnk := by
  simp only [Dev.write]; split_ifs <;> simp
@[simp] theorem Dev.write_skn :
    (d.write a addr n v lg f).skn = if d.accepts a addr v = true then (f d).1.skn else d.skn := by
  simp only [Dev.write]; split_ifs <;> simp
@[simp] theorem Dev.write_sns :
    (d.write a addr n v lg f).sns = if d.accepts a addr v = true then (f d).1.sns else d.sns := by
  simp only [Dev.write]; split_ifs <;> simp
@[simp] theorem Dev.write_dma :
    (d.write a addr n v lg f).dma = if d.accepts a addr v = true then (f d).1.dma else d.dma := by
  simp only [Dev.write]; split_ifs <;> simp
@[simp] theorem Dev.write_chk :
    (d.write a addr n v lg f).chk = if d.accepts a addr v = true then (f d).1.chk else d.chk := by
  simp only [Dev.write]; split_ifs <;> simp
@[simp] theorem Dev.write_age :
    (d.write a addr n v lg f).age = if d.accepts a addr v = true then (f d).1.age else d.age := by
  simp only [Dev.write]; split_ifs <;> simp
@[simp] theorem Dev.write_tst :
    (d.write a addr n v lg f).tst = if d.accepts a addr v = true then (f d).1.tst else d.tst := by
  simp only [Dev.write]; split_ifs <;> simp
@[simp] theorem Dev.write_jtag :
    (d.write a addr n v lg f).jtag = if d.accepts a addr v = true then (f d).1.jtag else d.jtag := by
  simp only [Dev.write]; split_ifs <;> simp
@[simp] theorem Dev.write_sys_mode :
    (d.write a addr n v lg f).sys.mode = if d.accepts a addr v = true then (f d).1.sys.mode else d.sys.mode := by
  simp only [Dev.write]; split_ifs <;> simp
@[simp] theorem Dev.write_sys_nolive :
    (d.write a addr n v lg f).sys.nolive = if d.accepts a addr v = true then (f d).1.sys.nolive else d.sys.nolive := by
  simp only [Dev.write]; split_ifs <;> simp
@[simp] theorem Dev.write_sys_transition :
    (d.write a addr n v lg f).sys.transition = if d.accepts a addr v = true then (f d).1.sys.transition else d.sys.transition := by
  simp only [Dev.write]; split_ifs <;> simp
@[simp] theorem Dev.write_sys_reqCount :
    (d.write a addr n v lg f).sys.reqCount = if d.accepts a addr v = true then (f d).1.sys.reqCount else d.sys.reqCount := by
  simp only [Dev.write]; split_ifs <;> simp
@[simp] theorem Dev.write_sys_result :
    (d.write a addr n v lg f).sys.result = if d.accepts a addr v = true then (f d).1.sys.result else d.sys.result := by
  simp only [Dev.write]; split_ifs <;> simp
@[simp] theorem Dev.write_sys_activeLayout :
    (d.write a addr n v lg f).sys.activeLayout = if d.accepts a addr v = true then (f d).1.sys.activeLayout else d.sys.activeLayout := by
  simp only [Dev.write]; split_ifs <;> simp
@[simp] theorem Dev.write_sys_layoutReqResult :
    (d.write a addr n v lg f).sys.layoutReqResult = if d.accepts a addr v = true then (f d).1.sys.layoutReqResult else d.sys.layoutReqResult := by
  simp only [Dev.write]; split_ifs <;> simp
@[simp] theorem Dev.write_sys_layoutReqId :
    (d.write a addr n v lg f).sys.layoutReqId = if d.accepts a addr v = true then (f d).1.sys.layoutReqId else d.sys.layoutReqId := by
  simp only [Dev.write]; split_ifs <;> simp
@[simp] theorem Dev.write_sys_safeOff :
    (d.write a addr n v lg f).sys.safeOff = if d.accepts a addr v = true then (f d).1.sys.safeOff else d.sys.safeOff := by
  simp only [Dev.write]; split_ifs <;> simp
@[simp] theorem Dev.write_sys_shutdownStep :
    (d.write a addr n v lg f).sys.shutdownStep = if d.accepts a addr v = true then (f d).1.sys.shutdownStep else d.sys.shutdownStep := by
  simp only [Dev.write]; split_ifs <;> simp
@[simp] theorem Dev.write_sys_cpairErr :
    (d.write a addr n v lg f).sys.cpairErr = if d.accepts a addr v = true then (f d).1.sys.cpairErr else d.sys.cpairErr := by
  simp only [Dev.write]; split_ifs <;> simp
@[simp] theorem Dev.write_sys_wdog :
    (d.write a addr n v lg f).sys.wdog = if d.accepts a addr v = true then (f d).1.sys.wdog else d.sys.wdog := by
  simp only [Dev.write]; split_ifs <;> simp
@[simp] theorem Dev.write_sys_serviced :
    (d.write a addr n v lg f).sys.serviced = if d.accepts a addr v = true then (f d).1.sys.serviced else d.sys.serviced := by
  simp only [Dev.write]; split_ifs <;> simp
@[simp] theorem Dev.write_sys_coreRun :
    (d.write a addr n v lg f).sys.coreRun = if d.accepts a addr v = true then (f d).1.sys.coreRun else d.sys.coreRun := by
  simp only [Dev.write]; split_ifs <;> simp
@[simp] theorem Dev.write_sys_coreRestarts :
    (d.write a addr n v lg f).sys.coreRestarts = if d.accepts a addr v = true then (f d).1.sys.coreRestarts else d.sys.coreRestarts := by
  simp only [Dev.write]; split_ifs <;> simp
@[simp] theorem Dev.write_sys_coreEvents :
    (d.write a addr n v lg f).sys.coreEvents = if d.accepts a addr v = true then (f d).1.sys.coreEvents else d.sys.coreEvents := by
  simp only [Dev.write]; split_ifs <;> simp
@[simp] theorem Dev.write_sys_decision :
    (d.write a addr n v lg f).sys.decision = if d.accepts a addr v = true then (f d).1.sys.decision else d.sys.decision := by
  simp only [Dev.write]; split_ifs <;> simp
@[simp] theorem Dev.write_sys_warmupStart :
    (d.write a addr n v lg f).sys.warmupStart = if d.accepts a addr v = true then (f d).1.sys.warmupStart else d.sys.warmupStart := by
  simp only [Dev.write]; split_ifs <;> simp
@[simp] theorem Dev.write_jnl_pin :
    (d.write a addr n v lg f).jnl.pin = if d.accepts a addr v = true then (f d).1.jnl.pin else d.jnl.pin := by
  simp only [Dev.write]; split_ifs <;> simp
@[simp] theorem Dev.write_jnl_nodes :
    (d.write a addr n v lg f).jnl.nodes = if d.accepts a addr v = true then (f d).1.jnl.nodes else d.jnl.nodes := by
  simp only [Dev.write]; split_ifs <;> simp
@[simp] theorem Dev.write_jnl_expSeeds :
    (d.write a addr n v lg f).jnl.expSeeds = if d.accepts a addr v = true then (f d).1.jnl.expSeeds else d.jnl.expSeeds := by
  simp only [Dev.write]; split_ifs <;> simp
@[simp] theorem Dev.write_jnl_eqSeeds :
    (d.write a addr n v lg f).jnl.eqSeeds = if d.accepts a addr v = true then (f d).1.jnl.eqSeeds else d.jnl.eqSeeds := by
  simp only [Dev.write]; split_ifs <;> simp
@[simp] theorem Dev.write_jnl_plan :
    (d.write a addr n v lg f).jnl.plan = if d.accepts a addr v = true then (f d).1.jnl.plan else d.jnl.plan := by
  simp only [Dev.write]; split_ifs <;> simp
@[simp] theorem Dev.write_jnl_seq :
    (d.write a addr n v lg f).jnl.seq = if d.accepts a addr v = true then (f d).1.jnl.seq else d.jnl.seq := by
  simp only [Dev.write]; split_ifs <;> simp
@[simp] theorem Dev.write_jnl_slot :
    (d.write a addr n v lg f).jnl.slot = if d.accepts a addr v = true then (f d).1.jnl.slot else d.jnl.slot := by
  simp only [Dev.write]; split_ifs <;> simp
@[simp] theorem Dev.write_jnl_lastSet :
    (d.write a addr n v lg f).jnl.lastSet = if d.accepts a addr v = true then (f d).1.jnl.lastSet else d.jnl.lastSet := by
  simp only [Dev.write]; split_ifs <;> simp
@[simp] theorem Dev.write_jnl_writing :
    (d.write a addr n v lg f).jnl.writing = if d.accepts a addr v = true then (f d).1.jnl.writing else d.jnl.writing := by
  simp only [Dev.write]; split_ifs <;> simp
@[simp] theorem Dev.write_jnl_erasing :
    (d.write a addr n v lg f).jnl.erasing = if d.accepts a addr v = true then (f d).1.jnl.erasing else d.jnl.erasing := by
  simp only [Dev.write]; split_ifs <;> simp
@[simp] theorem Dev.write_jnl_held :
    (d.write a addr n v lg f).jnl.held = if d.accepts a addr v = true then (f d).1.jnl.held else d.jnl.held := by
  simp only [Dev.write]; split_ifs <;> simp
@[simp] theorem Dev.write_jnl_closed :
    (d.write a addr n v lg f).jnl.closed = if d.accepts a addr v = true then (f d).1.jnl.closed else d.jnl.closed := by
  simp only [Dev.write]; split_ifs <;> simp

end

/-- The region of a register address. -/
theorem regionOf_regAddr (off : Nat) (h : off < 0x20000000) : regionOf (regAddr off) = .reg off := by
  have h1 : (regAddr off).toNat = 0x40000000 + off := by
    rw [regAddr, BitVec.toNat_ofNat, Nat.mod_eq_of_lt (by omega)]
  simp only [regionOf, h1]
  rw [if_neg (by omega), if_neg (by omega), if_neg (by omega), if_pos (by omega), Nat.add_sub_cancel_left]

/-- R589 and R559 for a register, once the reset is released. -/
theorem Dev.accepts_reg (d : Dev) (a : Access) (off : Nat) (v : Word) (h : off < 0x20000000) (hr : d.released = true) :
    d.accepts a (regAddr off) v = (!a.master.diag || d.acceptsReg off v) := by
  simp [Dev.accepts, regionOf_regAddr off h, Dev.answersAt, hr, Dev.acceptsDiag]

/-- The blocks whose registers every path may write in every mode (R559). -/
theorem Dev.acceptsReg_open (d : Dev) (off : Nat) (v : Word)
    (h : off < 0x10000 ∨ 0x20000 ≤ off ∧ off < 0x300E0 ∨ 0x300F0 ≤ off ∧ off < 0x50000 ∨ 0x60000 ≤ off ∧ off < 0x90000) :
    d.acceptsReg off v = true := by
  unfold Dev.acceptsReg
  by_cases h1 : off < 0x10000
  · rw [if_pos h1]
  rw [if_neg h1, if_neg (by omega)]
  by_cases h3 : off < 0x30000
  · rw [if_pos h3]
  rw [if_neg h3]
  by_cases h4 : off < 0x40000
  · rw [if_pos h4]
    have : (decide (0x300E0 ≤ off) && decide (off < 0x300F0)) = false := by
      simp only [Bool.and_eq_false_imp, decide_eq_true_eq, decide_eq_false_iff_not]
      omega
    simp [this]
  rw [if_neg h4]
  by_cases h5 : off < 0x50000
  · rw [if_pos h5]
  rw [if_neg h5, if_neg (by omega), if_pos (by omega)]

/-- Such a write is taken. -/
theorem Dev.accepts_open (d : Dev) (a : Access) (off : Nat) (v : Word) (hr : d.released = true)
    (h : off < 0x10000 ∨ 0x20000 ≤ off ∧ off < 0x300E0 ∨ 0x300F0 ≤ off ∧ off < 0x50000 ∨ 0x60000 ≤ off ∧ off < 0x90000) :
    d.accepts a (regAddr off) v = true := by
  rw [Dev.accepts_reg d a off v (by omega) hr, Dev.acceptsReg_open d off v h, Bool.or_true]

/-- A commit that is not the complement of the pending value is rejected (R592). -/
theorem Dev.commitPair_rejected {w : Nat} (d : Dev) (a : Access) (off : Nat) (p : Pair w) (v : BitVec w)
    (put : Dev → Pair w → Dev) (act : Dev → BitVec w → Dev × Res) (h : v ≠ ~~~p.pending) :
    d.commitPair a off p v put act = ((put d ⟨p.committed, p.committed⟩).pairError a off, Res.pairRejected) := by
  simp [Dev.commitPair, Pair.commit, h]

/-- A commit of the complement stores the pending value and acts on it (R592). -/
theorem Dev.commitPair_accepted {w : Nat} (d : Dev) (a : Access) (off : Nat) (p : Pair w)
    (put : Dev → Pair w → Dev) (act : Dev → BitVec w → Dev × Res)
    (h : (act (put d ⟨p.pending, p.pending⟩) p.pending).2.code = 0) :
    d.commitPair a off p (~~~p.pending) put act = act (put d ⟨p.pending, p.pending⟩) p.pending := by
  simp [Dev.commitPair, Pair.commit, h]

/-- A rejected commit shows in SYS_CPAIR_ERR. -/
theorem Dev.pairError_set (d : Dev) (a : Access) (off : Nat) : (d.pairError a off).sys.cpairErr.getLsbD 31 = true := by
  simp only [Dev.pairError, Dev.onSys]
  split_ifs with h
  · simp [h]
  · have hp : a.master.errPath ≤ 5 := by cases a.master <;> simp [Master.errPath]
    rw [BitVec.getLsbD_ofNat]
    simp only [Nat.testBit, Nat.shiftRight_eq_div_pow]
    simp; omega
end Sys2Proof.Machine
end

