-- ==== Sys2Proof/Laws/Boot.lean ====
section
/-! SUPPORT. What the parts of the start path leave alone (spec/03_start_modes_bypass.md R82 to R92). -/

namespace Sys2Proof.Machine

/-! ### `Dev.assignStates` -/

@[simp] theorem Dev.assignStates_freeIdx (d : Dev) (r : BitVec 64) : (d.assignStates r).freeIdx = d.freeIdx := by simp only [Dev.assignStates, Dev.onSpn_freeIdx]
@[simp] theorem Dev.assignStates_idleCycles (d : Dev) (r : BitVec 64) : (d.assignStates r).idleCycles = d.idleCycles := by simp only [Dev.assignStates, Dev.onSpn_idleCycles]
@[simp] theorem Dev.assignStates_aon (d : Dev) (r : BitVec 64) : (d.assignStates r).aon = d.aon := by simp only [Dev.assignStates, Dev.onSpn_aon]
@[simp] theorem Dev.assignStates_pins (d : Dev) (r : BitVec 64) : (d.assignStates r).pins = d.pins := by simp only [Dev.assignStates, Dev.onSpn_pins]
@[simp] theorem Dev.assignStates_sys (d : Dev) (r : BitVec 64) : (d.assignStates r).sys = d.sys := by simp only [Dev.assignStates, Dev.onSpn_sys]
@[simp] theorem Dev.assignStates_pairs (d : Dev) (r : BitVec 64) : (d.assignStates r).pairs = d.pairs := by simp only [Dev.assignStates, Dev.onSpn_pairs]
@[simp] theorem Dev.assignStates_bus (d : Dev) (r : BitVec 64) : (d.assignStates r).bus = d.bus := by simp only [Dev.assignStates, Dev.onSpn_bus]
@[simp] theorem Dev.assignStates_jnl (d : Dev) (r : BitVec 64) : (d.assignStates r).jnl = d.jnl := by simp only [Dev.assignStates, Dev.onSpn_jnl]
@[simp] theorem Dev.assignStates_nvm (d : Dev) (r : BitVec 64) : (d.assignStates r).nvm = d.nvm := by simp only [Dev.assignStates, Dev.onSpn_nvm]
@[simp] theorem Dev.assignStates_lay (d : Dev) (r : BitVec 64) : (d.assignStates r).lay = d.lay := by simp only [Dev.assignStates, Dev.onSpn_lay]
@[simp] theorem Dev.assignStates_img (d : Dev) (r : BitVec 64) : (d.assignStates r).img = d.img := by simp only [Dev.assignStates, Dev.onSpn_img]
@[simp] theorem Dev.assignStates_whl (d : Dev) (r : BitVec 64) : (d.assignStates r).whl = d.whl := by simp only [Dev.assignStates, Dev.onSpn_whl]
@[simp] theorem Dev.assignStates_ports (d : Dev) (r : BitVec 64) : (d.assignStates r).ports = d.ports := by simp only [Dev.assignStates, Dev.onSpn_ports]
@[simp] theorem Dev.assignStates_card (d : Dev) (r : BitVec 64) : (d.assignStates r).card = d.card := by simp only [Dev.assignStates, Dev.onSpn_card]
@[simp] theorem Dev.assignStates_strands (d : Dev) (r : BitVec 64) : (d.assignStates r).strands = d.strands := by simp only [Dev.assignStates, Dev.onSpn_strands]
@[simp] theorem Dev.assignStates_streams (d : Dev) (r : BitVec 64) : (d.assignStates r).streams = d.streams := by simp only [Dev.assignStates, Dev.onSpn_streams]
@[simp] theorem Dev.assignStates_bob (d : Dev) (r : BitVec 64) : (d.assignStates r).bob = d.bob := by simp only [Dev.assignStates, Dev.onSpn_bob]
@[simp] theorem Dev.assignStates_fst (d : Dev) (r : BitVec 64) : (d.assignStates r).fst = d.fst := by simp only [Dev.assignStates, Dev.onSpn_fst]
@[simp] theorem Dev.assignStates_ply (d : Dev) (r : BitVec 64) : (d.assignStates r).ply = d.ply := by simp only [Dev.assignStates, Dev.onSpn_ply]
@[simp] theorem Dev.assignStates_hnk (d : Dev) (r : BitVec 64) : (d.assignStates r).hnk = d.hnk := by simp only [Dev.assignStates, Dev.onSpn_hnk]
@[simp] theorem Dev.assignStates_skn (d : Dev) (r : BitVec 64) : (d.assignStates r).skn = d.skn := by simp only [Dev.assignStates, Dev.onSpn_skn]
@[simp] theorem Dev.assignStates_sns (d : Dev) (r : BitVec 64) : (d.assignStates r).sns = d.sns := by simp only [Dev.assignStates, Dev.onSpn_sns]
@[simp] theorem Dev.assignStates_dma (d : Dev) (r : BitVec 64) : (d.assignStates r).dma = d.dma := by simp only [Dev.assignStates, Dev.onSpn_dma]
@[simp] theorem Dev.assignStates_chk (d : Dev) (r : BitVec 64) : (d.assignStates r).chk = d.chk := by simp only [Dev.assignStates, Dev.onSpn_chk]
@[simp] theorem Dev.assignStates_age (d : Dev) (r : BitVec 64) : (d.assignStates r).age = d.age := by simp only [Dev.assignStates, Dev.onSpn_age]
@[simp] theorem Dev.assignStates_tst (d : Dev) (r : BitVec 64) : (d.assignStates r).tst = d.tst := by simp only [Dev.assignStates, Dev.onSpn_tst]
@[simp] theorem Dev.assignStates_jtag (d : Dev) (r : BitVec 64) : (d.assignStates r).jtag = d.jtag := by simp only [Dev.assignStates, Dev.onSpn_jtag]

/-! ### `Dev.openRings` -/

/-- All that `Dev.openRings` can change is named here. -/
theorem Dev.openRings_frame (d : Dev) :
    { d.openRings with aon := { (d.openRings).aon with tier := d.aon.tier } } = d := by
  rfl
@[simp] theorem Dev.openRings_freeIdx (d : Dev) : (d.openRings).freeIdx = d.freeIdx :=
  congrArg (fun e => e.freeIdx) (Dev.openRings_frame d)
@[simp] theorem Dev.openRings_idleCycles (d : Dev) : (d.openRings).idleCycles = d.idleCycles :=
  congrArg (fun e => e.idleCycles) (Dev.openRings_frame d)
@[simp] theorem Dev.openRings_aon_phase (d : Dev) : (d.openRings).aon.phase = d.aon.phase :=
  congrArg (fun e => e.aon.phase) (Dev.openRings_frame d)
@[simp] theorem Dev.openRings_aon_cause (d : Dev) : (d.openRings).aon.cause = d.aon.cause :=
  congrArg (fun e => e.aon.cause) (Dev.openRings_frame d)
@[simp] theorem Dev.openRings_aon_bootSel (d : Dev) : (d.openRings).aon.bootSel = d.aon.bootSel :=
  congrArg (fun e => e.aon.bootSel) (Dev.openRings_frame d)
@[simp] theorem Dev.openRings_aon_i2ca (d : Dev) : (d.openRings).aon.i2ca = d.aon.i2ca :=
  congrArg (fun e => e.aon.i2ca) (Dev.openRings_frame d)
@[simp] theorem Dev.openRings_aon_refclk (d : Dev) : (d.openRings).aon.refclk = d.aon.refclk :=
  congrArg (fun e => e.aon.refclk) (Dev.openRings_frame d)
@[simp] theorem Dev.openRings_aon_fromBrownOut (d : Dev) : (d.openRings).aon.fromBrownOut = d.aon.fromBrownOut :=
  congrArg (fun e => e.aon.fromBrownOut) (Dev.openRings_frame d)
@[simp] theorem Dev.openRings_pins (d : Dev) : (d.openRings).pins = d.pins :=
  congrArg (fun e => e.pins) (Dev.openRings_frame d)
@[simp] theorem Dev.openRings_sys (d : Dev) : (d.openRings).sys = d.sys :=
  congrArg (fun e => e.sys) (Dev.openRings_frame d)
@[simp] theorem Dev.openRings_pairs (d : Dev) : (d.openRings).pairs = d.pairs :=
  congrArg (fun e => e.pairs) (Dev.openRings_frame d)
@[simp] theorem Dev.openRings_bus (d : Dev) : (d.openRings).bus = d.bus :=
  congrArg (fun e => e.bus) (Dev.openRings_frame d)
@[simp] theorem Dev.openRings_jnl (d : Dev) : (d.openRings).jnl = d.jnl :=
  congrArg (fun e => e.jnl) (Dev.openRings_frame d)
@[simp] theorem Dev.openRings_nvm (d : Dev) : (d.openRings).nvm = d.nvm :=
  congrArg (fun e => e.nvm) (Dev.openRings_frame d)
@[simp] theorem Dev.openRings_lay (d : Dev) : (d.openRings).lay = d.lay :=
  congrArg (fun e => e.lay) (Dev.openRings_frame d)
@[simp] theorem Dev.openRings_img (d : Dev) : (d.openRings).img = d.img :=
  congrArg (fun e => e.img) (Dev.openRings_frame d)
@[simp] theorem Dev.openRings_whl (d : Dev) : (d.openRings).whl = d.whl :=
  congrArg (fun e => e.whl) (Dev.openRings_frame d)
@[simp] theorem Dev.openRings_ports (d : Dev) : (d.openRings).ports = d.ports :=
  congrArg (fun e => e.ports) (Dev.openRings_frame d)
@[simp] theorem Dev.openRings_card (d : Dev) : (d.openRings).card = d.card :=
  congrArg (fun e => e.card) (Dev.openRings_frame d)
@[simp] theorem Dev.openRings_strands (d : Dev) : (d.openRings).strands = d.strands :=
  congrArg (fun e => e.strands) (Dev.openRings_frame d)
@[simp] theorem Dev.openRings_spn (d : Dev) : (d.openRings).spn = d.spn :=
  congrArg (fun e => e.spn) (Dev.openRings_frame d)
@[simp] theorem Dev.openRings_streams (d : Dev) : (d.openRings).streams = d.streams :=
  congrArg (fun e => e.streams) (Dev.openRings_frame d)
@[simp] theorem Dev.openRings_bob (d : Dev) : (d.openRings).bob = d.bob :=
  congrArg (fun e => e.bob) (Dev.openRings_frame d)
@[simp] theorem Dev.openRings_fst (d : Dev) : (d.openRings).fst = d.fst :=
  congrArg (fun e => e.fst) (Dev.openRings_frame d)
@[simp] theorem Dev.openRings_ply (d : Dev) : (d.openRings).ply = d.ply :=
  congrArg (fun e => e.ply) (Dev.openRings_frame d)
@[simp] theorem Dev.openRings_hnk (d : Dev) : (d.openRings).hnk = d.hnk :=
  congrArg (fun e => e.hnk) (Dev.openRings_frame d)
@[simp] theorem Dev.openRings_skn (d : Dev) : (d.openRings).skn = d.skn :=
  congrArg (fun e => e.skn) (Dev.openRings_frame d)
@[simp] theorem Dev.openRings_sns (d : Dev) : (d.openRings).sns = d.sns :=
  congrArg (fun e => e.sns) (Dev.openRings_frame d)
@[simp] theorem Dev.openRings_dma (d : Dev) : (d.openRings).dma = d.dma :=
  congrArg (fun e => e.dma) (Dev.openRings_frame d)
@[simp] theorem Dev.openRings_chk (d : Dev) : (d.openRings).chk = d.chk :=
  congrArg (fun e => e.chk) (Dev.openRings_frame d)
@[simp] theorem Dev.openRings_age (d : Dev) : (d.openRings).age = d.age :=
  congrArg (fun e => e.age) (Dev.openRings_frame d)
@[simp] theorem Dev.openRings_tst (d : Dev) : (d.openRings).tst = d.tst :=
  congrArg (fun e => e.tst) (Dev.openRings_frame d)
@[simp] theorem Dev.openRings_jtag (d : Dev) : (d.openRings).jtag = d.jtag :=
  congrArg (fun e => e.jtag) (Dev.openRings_frame d)

/-! ### `Dev.takePart` -/

/-- All that `Dev.takePart` can change is named here. -/
theorem Dev.takePart_frame (d : Dev) :
    { d.takePart with aon := { (d.takePart).aon with tier := d.aon.tier }, skn := { (d.takePart).skn with retimerSeen := d.skn.retimerSeen } } = d := by
  rfl
@[simp] theorem Dev.takePart_freeIdx (d : Dev) : (d.takePart).freeIdx = d.freeIdx :=
  congrArg (fun e => e.freeIdx) (Dev.takePart_frame d)
@[simp] theorem Dev.takePart_idleCycles (d : Dev) : (d.takePart).idleCycles = d.idleCycles :=
  congrArg (fun e => e.idleCycles) (Dev.takePart_frame d)
@[simp] theorem Dev.takePart_aon_phase (d : Dev) : (d.takePart).aon.phase = d.aon.phase :=
  congrArg (fun e => e.aon.phase) (Dev.takePart_frame d)
@[simp] theorem Dev.takePart_aon_cause (d : Dev) : (d.takePart).aon.cause = d.aon.cause :=
  congrArg (fun e => e.aon.cause) (Dev.takePart_frame d)
@[simp] theorem Dev.takePart_aon_bootSel (d : Dev) : (d.takePart).aon.bootSel = d.aon.bootSel :=
  congrArg (fun e => e.aon.bootSel) (Dev.takePart_frame d)
@[simp] theorem Dev.takePart_aon_i2ca (d : Dev) : (d.takePart).aon.i2ca = d.aon.i2ca :=
  congrArg (fun e => e.aon.i2ca) (Dev.takePart_frame d)
@[simp] theorem Dev.takePart_aon_refclk (d : Dev) : (d.takePart).aon.refclk = d.aon.refclk :=
  congrArg (fun e => e.aon.refclk) (Dev.takePart_frame d)
@[simp] theorem Dev.takePart_aon_fromBrownOut (d : Dev) : (d.takePart).aon.fromBrownOut = d.aon.fromBrownOut :=
  congrArg (fun e => e.aon.fromBrownOut) (Dev.takePart_frame d)
@[simp] theorem Dev.takePart_pins (d : Dev) : (d.takePart).pins = d.pins :=
  congrArg (fun e => e.pins) (Dev.takePart_frame d)
@[simp] theorem Dev.takePart_sys (d : Dev) : (d.takePart).sys = d.sys :=
  congrArg (fun e => e.sys) (Dev.takePart_frame d)
@[simp] theorem Dev.takePart_pairs (d : Dev) : (d.takePart).pairs = d.pairs :=
  congrArg (fun e => e.pairs) (Dev.takePart_frame d)
@[simp] theorem Dev.takePart_bus (d : Dev) : (d.takePart).bus = d.bus :=
  congrArg (fun e => e.bus) (Dev.takePart_frame d)
@[simp] theorem Dev.takePart_jnl (d : Dev) : (d.takePart).jnl = d.jnl :=
  congrArg (fun e => e.jnl) (Dev.takePart_frame d)
@[simp] theorem Dev.takePart_nvm (d : Dev) : (d.takePart).nvm = d.nvm :=
  congrArg (fun e => e.nvm) (Dev.takePart_frame d)
@[simp] theorem Dev.takePart_lay (d : Dev) : (d.takePart).lay = d.lay :=
  congrArg (fun e => e.lay) (Dev.takePart_frame d)
@[simp] theorem Dev.takePart_img (d : Dev) : (d.takePart).img = d.img :=
  congrArg (fun e => e.img) (Dev.takePart_frame d)
@[simp] theorem Dev.takePart_whl (d : Dev) : (d.takePart).whl = d.whl :=
  congrArg (fun e => e.whl) (Dev.takePart_frame d)
@[simp] theorem Dev.takePart_ports (d : Dev) : (d.takePart).ports = d.ports :=
  congrArg (fun e => e.ports) (Dev.takePart_frame d)
@[simp] theorem Dev.takePart_card (d : Dev) : (d.takePart).card = d.card :=
  congrArg (fun e => e.card) (Dev.takePart_frame d)
@[simp] theorem Dev.takePart_strands (d : Dev) : (d.takePart).strands = d.strands :=
  congrArg (fun e => e.strands) (Dev.takePart_frame d)
@[simp] theorem Dev.takePart_spn (d : Dev) : (d.takePart).spn = d.spn :=
  congrArg (fun e => e.spn) (Dev.takePart_frame d)
@[simp] theorem Dev.takePart_streams (d : Dev) : (d.takePart).streams = d.streams :=
  congrArg (fun e => e.streams) (Dev.takePart_frame d)
@[simp] theorem Dev.takePart_bob (d : Dev) : (d.takePart).bob = d.bob :=
  congrArg (fun e => e.bob) (Dev.takePart_frame d)
@[simp] theorem Dev.takePart_fst (d : Dev) : (d.takePart).fst = d.fst :=
  congrArg (fun e => e.fst) (Dev.takePart_frame d)
@[simp] theorem Dev.takePart_ply (d : Dev) : (d.takePart).ply = d.ply :=
  congrArg (fun e => e.ply) (Dev.takePart_frame d)
@[simp] theorem Dev.takePart_hnk (d : Dev) : (d.takePart).hnk = d.hnk :=
  congrArg (fun e => e.hnk) (Dev.takePart_frame d)
@[simp] theorem Dev.takePart_skn_win (d : Dev) : (d.takePart).skn.win = d.skn.win :=
  congrArg (fun e => e.skn.win) (Dev.takePart_frame d)
@[simp] theorem Dev.takePart_skn_pins (d : Dev) : (d.takePart).skn.pins = d.skn.pins :=
  congrArg (fun e => e.skn.pins) (Dev.takePart_frame d)
@[simp] theorem Dev.takePart_skn_ids (d : Dev) : (d.takePart).skn.ids = d.skn.ids :=
  congrArg (fun e => e.skn.ids) (Dev.takePart_frame d)
@[simp] theorem Dev.takePart_skn_enumd (d : Dev) : (d.takePart).skn.enumd = d.skn.enumd :=
  congrArg (fun e => e.skn.enumd) (Dev.takePart_frame d)
@[simp] theorem Dev.takePart_skn_count (d : Dev) : (d.takePart).skn.count = d.skn.count :=
  congrArg (fun e => e.skn.count) (Dev.takePart_frame d)
@[simp] theorem Dev.takePart_skn_junction (d : Dev) : (d.takePart).skn.junction = d.skn.junction :=
  congrArg (fun e => e.skn.junction) (Dev.takePart_frame d)
@[simp] theorem Dev.takePart_skn_ports (d : Dev) : (d.takePart).skn.ports = d.skn.ports :=
  congrArg (fun e => e.skn.ports) (Dev.takePart_frame d)
@[simp] theorem Dev.takePart_skn_txns (d : Dev) : (d.takePart).skn.txns = d.skn.txns :=
  congrArg (fun e => e.skn.txns) (Dev.takePart_frame d)
@[simp] theorem Dev.takePart_skn_nextBurst (d : Dev) : (d.takePart).skn.nextBurst = d.skn.nextBurst :=
  congrArg (fun e => e.skn.nextBurst) (Dev.takePart_frame d)
@[simp] theorem Dev.takePart_skn_stalled (d : Dev) : (d.takePart).skn.stalled = d.skn.stalled :=
  congrArg (fun e => e.skn.stalled) (Dev.takePart_frame d)
@[simp] theorem Dev.takePart_skn_leq (d : Dev) : (d.takePart).skn.leq = d.skn.leq :=
  congrArg (fun e => e.skn.leq) (Dev.takePart_frame d)
@[simp] theorem Dev.takePart_skn_leqUnder (d : Dev) : (d.takePart).skn.leqUnder = d.skn.leqUnder :=
  congrArg (fun e => e.skn.leqUnder) (Dev.takePart_frame d)
@[simp] theorem Dev.takePart_skn_leqOvf (d : Dev) : (d.takePart).skn.leqOvf = d.skn.leqOvf :=
  congrArg (fun e => e.skn.leqOvf) (Dev.takePart_frame d)
@[simp] theorem Dev.takePart_skn_leqDiscarded (d : Dev) : (d.takePart).skn.leqDiscarded = d.skn.leqDiscarded :=
  congrArg (fun e => e.skn.leqDiscarded) (Dev.takePart_frame d)
@[simp] theorem Dev.takePart_skn_leqLast (d : Dev) : (d.takePart).skn.leqLast = d.skn.leqLast :=
  congrArg (fun e => e.skn.leqLast) (Dev.takePart_frame d)
@[simp] theorem Dev.takePart_skn_postedFails (d : Dev) : (d.takePart).skn.postedFails = d.skn.postedFails :=
  congrArg (fun e => e.skn.postedFails) (Dev.takePart_frame d)
@[simp] theorem Dev.takePart_skn_fences (d : Dev) : (d.takePart).skn.fences = d.skn.fences :=
  congrArg (fun e => e.skn.fences) (Dev.takePart_frame d)
@[simp] theorem Dev.takePart_skn_strays (d : Dev) : (d.takePart).skn.strays = d.skn.strays :=
  congrArg (fun e => e.skn.strays) (Dev.takePart_frame d)
@[simp] theorem Dev.takePart_sns (d : Dev) : (d.takePart).sns = d.sns :=
  congrArg (fun e => e.sns) (Dev.takePart_frame d)
@[simp] theorem Dev.takePart_dma (d : Dev) : (d.takePart).dma = d.dma :=
  congrArg (fun e => e.dma) (Dev.takePart_frame d)
@[simp] theorem Dev.takePart_chk (d : Dev) : (d.takePart).chk = d.chk :=
  congrArg (fun e => e.chk) (Dev.takePart_frame d)
@[simp] theorem Dev.takePart_age (d : Dev) : (d.takePart).age = d.age :=
  congrArg (fun e => e.age) (Dev.takePart_frame d)
@[simp] theorem Dev.takePart_tst (d : Dev) : (d.takePart).tst = d.tst :=
  congrArg (fun e => e.tst) (Dev.takePart_frame d)
@[simp] theorem Dev.takePart_jtag (d : Dev) : (d.takePart).jtag = d.jtag :=
  congrArg (fun e => e.jtag) (Dev.takePart_frame d)

/-! ### `Dev.takeRole` -/

/-- All that `Dev.takeRole` can change is named here. -/
theorem Dev.takeRole_frame (d : Dev) :
    { d.takeRole with sys := { (d.takeRole).sys with fault := d.sys.fault }, skn := { (d.takeRole).skn with junction := d.skn.junction, ids := d.skn.ids }, jnl := d.jnl } = d := by
  simp only [Dev.takeRole]; split_ifs <;> simp [Dev.raise] <;> (try split_ifs) <;> rfl
@[simp] theorem Dev.takeRole_freeIdx (d : Dev) : (d.takeRole).freeIdx = d.freeIdx :=
  congrArg (fun e => e.freeIdx) (Dev.takeRole_frame d)
@[simp] theorem Dev.takeRole_idleCycles (d : Dev) : (d.takeRole).idleCycles = d.idleCycles :=
  congrArg (fun e => e.idleCycles) (Dev.takeRole_frame d)
@[simp] theorem Dev.takeRole_aon (d : Dev) : (d.takeRole).aon = d.aon :=
  congrArg (fun e => e.aon) (Dev.takeRole_frame d)
@[simp] theorem Dev.takeRole_pins (d : Dev) : (d.takeRole).pins = d.pins :=
  congrArg (fun e => e.pins) (Dev.takeRole_frame d)
@[simp] theorem Dev.takeRole_sys_mode (d : Dev) : (d.takeRole).sys.mode = d.sys.mode :=
  congrArg (fun e => e.sys.mode) (Dev.takeRole_frame d)
@[simp] theorem Dev.takeRole_sys_nolive (d : Dev) : (d.takeRole).sys.nolive = d.sys.nolive :=
  congrArg (fun e => e.sys.nolive) (Dev.takeRole_frame d)
@[simp] theorem Dev.takeRole_sys_transition (d : Dev) : (d.takeRole).sys.transition = d.sys.transition :=
  congrArg (fun e => e.sys.transition) (Dev.takeRole_frame d)
@[simp] theorem Dev.takeRole_sys_reqCount (d : Dev) : (d.takeRole).sys.reqCount = d.sys.reqCount :=
  congrArg (fun e => e.sys.reqCount) (Dev.takeRole_frame d)
@[simp] theorem Dev.takeRole_sys_result (d : Dev) : (d.takeRole).sys.result = d.sys.result :=
  congrArg (fun e => e.sys.result) (Dev.takeRole_frame d)
@[simp] theorem Dev.takeRole_sys_activeLayout (d : Dev) : (d.takeRole).sys.activeLayout = d.sys.activeLayout :=
  congrArg (fun e => e.sys.activeLayout) (Dev.takeRole_frame d)
@[simp] theorem Dev.takeRole_sys_layoutReqResult (d : Dev) : (d.takeRole).sys.layoutReqResult = d.sys.layoutReqResult :=
  congrArg (fun e => e.sys.layoutReqResult) (Dev.takeRole_frame d)
@[simp] theorem Dev.takeRole_sys_layoutReqId (d : Dev) : (d.takeRole).sys.layoutReqId = d.sys.layoutReqId :=
  congrArg (fun e => e.sys.layoutReqId) (Dev.takeRole_frame d)
@[simp] theorem Dev.takeRole_sys_safeOff (d : Dev) : (d.takeRole).sys.safeOff = d.sys.safeOff :=
  congrArg (fun e => e.sys.safeOff) (Dev.takeRole_frame d)
@[simp] theorem Dev.takeRole_sys_shutdownStep (d : Dev) : (d.takeRole).sys.shutdownStep = d.sys.shutdownStep :=
  congrArg (fun e => e.sys.shutdownStep) (Dev.takeRole_frame d)
@[simp] theorem Dev.takeRole_sys_cpairErr (d : Dev) : (d.takeRole).sys.cpairErr = d.sys.cpairErr :=
  congrArg (fun e => e.sys.cpairErr) (Dev.takeRole_frame d)
@[simp] theorem Dev.takeRole_sys_wdog (d : Dev) : (d.takeRole).sys.wdog = d.sys.wdog :=
  congrArg (fun e => e.sys.wdog) (Dev.takeRole_frame d)
@[simp] theorem Dev.takeRole_sys_serviced (d : Dev) : (d.takeRole).sys.serviced = d.sys.serviced :=
  congrArg (fun e => e.sys.serviced) (Dev.takeRole_frame d)
@[simp] theorem Dev.takeRole_sys_coreRun (d : Dev) : (d.takeRole).sys.coreRun = d.sys.coreRun :=
  congrArg (fun e => e.sys.coreRun) (Dev.takeRole_frame d)
@[simp] theorem Dev.takeRole_sys_coreRestarts (d : Dev) : (d.takeRole).sys.coreRestarts = d.sys.coreRestarts :=
  congrArg (fun e => e.sys.coreRestarts) (Dev.takeRole_frame d)
@[simp] theorem Dev.takeRole_sys_coreEvents (d : Dev) : (d.takeRole).sys.coreEvents = d.sys.coreEvents :=
  congrArg (fun e => e.sys.coreEvents) (Dev.takeRole_frame d)
@[simp] theorem Dev.takeRole_sys_decision (d : Dev) : (d.takeRole).sys.decision = d.sys.decision :=
  congrArg (fun e => e.sys.decision) (Dev.takeRole_frame d)
@[simp] theorem Dev.takeRole_sys_applied (d : Dev) : (d.takeRole).sys.applied = d.sys.applied :=
  congrArg (fun e => e.sys.applied) (Dev.takeRole_frame d)
@[simp] theorem Dev.takeRole_sys_corrected (d : Dev) : (d.takeRole).sys.corrected = d.sys.corrected :=
  congrArg (fun e => e.sys.corrected) (Dev.takeRole_frame d)
@[simp] theorem Dev.takeRole_sys_warmupStart (d : Dev) : (d.takeRole).sys.warmupStart = d.sys.warmupStart :=
  congrArg (fun e => e.sys.warmupStart) (Dev.takeRole_frame d)
@[simp] theorem Dev.takeRole_sys_laneStart (d : Dev) : (d.takeRole).sys.laneStart = d.sys.laneStart :=
  congrArg (fun e => e.sys.laneStart) (Dev.takeRole_frame d)
@[simp] theorem Dev.takeRole_pairs (d : Dev) : (d.takeRole).pairs = d.pairs :=
  congrArg (fun e => e.pairs) (Dev.takeRole_frame d)
@[simp] theorem Dev.takeRole_bus (d : Dev) : (d.takeRole).bus = d.bus :=
  congrArg (fun e => e.bus) (Dev.takeRole_frame d)
@[simp] theorem Dev.takeRole_nvm (d : Dev) : (d.takeRole).nvm = d.nvm :=
  congrArg (fun e => e.nvm) (Dev.takeRole_frame d)
@[simp] theorem Dev.takeRole_lay (d : Dev) : (d.takeRole).lay = d.lay :=
  congrArg (fun e => e.lay) (Dev.takeRole_frame d)
@[simp] theorem Dev.takeRole_img (d : Dev) : (d.takeRole).img = d.img :=
  congrArg (fun e => e.img) (Dev.takeRole_frame d)
@[simp] theorem Dev.takeRole_whl (d : Dev) : (d.takeRole).whl = d.whl :=
  congrArg (fun e => e.whl) (Dev.takeRole_frame d)
@[simp] theorem Dev.takeRole_ports (d : Dev) : (d.takeRole).ports = d.ports :=
  congrArg (fun e => e.ports) (Dev.takeRole_frame d)
@[simp] theorem Dev.takeRole_card (d : Dev) : (d.takeRole).card = d.card :=
  congrArg (fun e => e.card) (Dev.takeRole_frame d)
@[simp] theorem Dev.takeRole_strands (d : Dev) : (d.takeRole).strands = d.strands :=
  congrArg (fun e => e.strands) (Dev.takeRole_frame d)
@[simp] theorem Dev.takeRole_spn (d : Dev) : (d.takeRole).spn = d.spn :=
  congrArg (fun e => e.spn) (Dev.takeRole_frame d)
@[simp] theorem Dev.takeRole_streams (d : Dev) : (d.takeRole).streams = d.streams :=
  congrArg (fun e => e.streams) (Dev.takeRole_frame d)
@[simp] theorem Dev.takeRole_bob (d : Dev) : (d.takeRole).bob = d.bob :=
  congrArg (fun e => e.bob) (Dev.takeRole_frame d)
@[simp] theorem Dev.takeRole_fst (d : Dev) : (d.takeRole).fst = d.fst :=
  congrArg (fun e => e.fst) (Dev.takeRole_frame d)
@[simp] theorem Dev.takeRole_ply (d : Dev) : (d.takeRole).ply = d.ply :=
  congrArg (fun e => e.ply) (Dev.takeRole_frame d)
@[simp] theorem Dev.takeRole_hnk (d : Dev) : (d.takeRole).hnk = d.hnk :=
  congrArg (fun e => e.hnk) (Dev.takeRole_frame d)
@[simp] theorem Dev.takeRole_skn_win (d : Dev) : (d.takeRole).skn.win = d.skn.win :=
  congrArg (fun e => e.skn.win) (Dev.takeRole_frame d)
@[simp] theorem Dev.takeRole_skn_pins (d : Dev) : (d.takeRole).skn.pins = d.skn.pins :=
  congrArg (fun e => e.skn.pins) (Dev.takeRole_frame d)
@[simp] theorem Dev.takeRole_skn_enumd (d : Dev) : (d.takeRole).skn.enumd = d.skn.enumd :=
  congrArg (fun e => e.skn.enumd) (Dev.takeRole_frame d)
@[simp] theorem Dev.takeRole_skn_count (d : Dev) : (d.takeRole).skn.count = d.skn.count :=
  congrArg (fun e => e.skn.count) (Dev.takeRole_frame d)
@[simp] theorem Dev.takeRole_skn_ports (d : Dev) : (d.takeRole).skn.ports = d.skn.ports :=
  congrArg (fun e => e.skn.ports) (Dev.takeRole_frame d)
@[simp] theorem Dev.takeRole_skn_retimerSeen (d : Dev) : (d.takeRole).skn.retimerSeen = d.skn.retimerSeen :=
  congrArg (fun e => e.skn.retimerSeen) (Dev.takeRole_frame d)
@[simp] theorem Dev.takeRole_skn_txns (d : Dev) : (d.takeRole).skn.txns = d.skn.txns :=
  congrArg (fun e => e.skn.txns) (Dev.takeRole_frame d)
@[simp] theorem Dev.takeRole_skn_nextBurst (d : Dev) : (d.takeRole).skn.nextBurst = d.skn.nextBurst :=
  congrArg (fun e => e.skn.nextBurst) (Dev.takeRole_frame d)
@[simp] theorem Dev.takeRole_skn_stalled (d : Dev) : (d.takeRole).skn.stalled = d.skn.stalled :=
  congrArg (fun e => e.skn.stalled) (Dev.takeRole_frame d)
@[simp] theorem Dev.takeRole_skn_leq (d : Dev) : (d.takeRole).skn.leq = d.skn.leq :=
  congrArg (fun e => e.skn.leq) (Dev.takeRole_frame d)
@[simp] theorem Dev.takeRole_skn_leqUnder (d : Dev) : (d.takeRole).skn.leqUnder = d.skn.leqUnder :=
  congrArg (fun e => e.skn.leqUnder) (Dev.takeRole_frame d)
@[simp] theorem Dev.takeRole_skn_leqOvf (d : Dev) : (d.takeRole).skn.leqOvf = d.skn.leqOvf :=
  congrArg (fun e => e.skn.leqOvf) (Dev.takeRole_frame d)
@[simp] theorem Dev.takeRole_skn_leqDiscarded (d : Dev) : (d.takeRole).skn.leqDiscarded = d.skn.leqDiscarded :=
  congrArg (fun e => e.skn.leqDiscarded) (Dev.takeRole_frame d)
@[simp] theorem Dev.takeRole_skn_leqLast (d : Dev) : (d.takeRole).skn.leqLast = d.skn.leqLast :=
  congrArg (fun e => e.skn.leqLast) (Dev.takeRole_frame d)
@[simp] theorem Dev.takeRole_skn_postedFails (d : Dev) : (d.takeRole).skn.postedFails = d.skn.postedFails :=
  congrArg (fun e => e.skn.postedFails) (Dev.takeRole_frame d)
@[simp] theorem Dev.takeRole_skn_fences (d : Dev) : (d.takeRole).skn.fences = d.skn.fences :=
  congrArg (fun e => e.skn.fences) (Dev.takeRole_frame d)
@[simp] theorem Dev.takeRole_skn_strays (d : Dev) : (d.takeRole).skn.strays = d.skn.strays :=
  congrArg (fun e => e.skn.strays) (Dev.takeRole_frame d)
@[simp] theorem Dev.takeRole_sns (d : Dev) : (d.takeRole).sns = d.sns :=
  congrArg (fun e => e.sns) (Dev.takeRole_frame d)
@[simp] theorem Dev.takeRole_dma (d : Dev) : (d.takeRole).dma = d.dma :=
  congrArg (fun e => e.dma) (Dev.takeRole_frame d)
@[simp] theorem Dev.takeRole_chk (d : Dev) : (d.takeRole).chk = d.chk :=
  congrArg (fun e => e.chk) (Dev.takeRole_frame d)
@[simp] theorem Dev.takeRole_age (d : Dev) : (d.takeRole).age = d.age :=
  congrArg (fun e => e.age) (Dev.takeRole_frame d)
@[simp] theorem Dev.takeRole_tst (d : Dev) : (d.takeRole).tst = d.tst :=
  congrArg (fun e => e.tst) (Dev.takeRole_frame d)
@[simp] theorem Dev.takeRole_jtag (d : Dev) : (d.takeRole).jtag = d.jtag :=
  congrArg (fun e => e.jtag) (Dev.takeRole_frame d)

/-! ### `Dev.enterRomSafe` -/

/-- All that `Dev.enterRomSafe` can change is named here. -/
theorem Dev.enterRomSafe_frame (d : Dev) (m : Mem) :
    { d.enterRomSafe m with aon := { (d.enterRomSafe m).aon with phase := d.aon.phase, tier := d.aon.tier }, sys := { (d.enterRomSafe m).sys with fault := d.sys.fault }, skn := d.skn, jnl := d.jnl, nvm := d.nvm } = d := by
  apply Dev.ext <;> simp [Dev.enterRomSafe]
@[simp] theorem Dev.enterRomSafe_freeIdx (d : Dev) (m : Mem) : (d.enterRomSafe m).freeIdx = d.freeIdx :=
  congrArg (fun e => e.freeIdx) (Dev.enterRomSafe_frame d m)
@[simp] theorem Dev.enterRomSafe_idleCycles (d : Dev) (m : Mem) : (d.enterRomSafe m).idleCycles = d.idleCycles :=
  congrArg (fun e => e.idleCycles) (Dev.enterRomSafe_frame d m)
@[simp] theorem Dev.enterRomSafe_aon_cause (d : Dev) (m : Mem) : (d.enterRomSafe m).aon.cause = d.aon.cause :=
  congrArg (fun e => e.aon.cause) (Dev.enterRomSafe_frame d m)
@[simp] theorem Dev.enterRomSafe_aon_bootSel (d : Dev) (m : Mem) : (d.enterRomSafe m).aon.bootSel = d.aon.bootSel :=
  congrArg (fun e => e.aon.bootSel) (Dev.enterRomSafe_frame d m)
@[simp] theorem Dev.enterRomSafe_aon_i2ca (d : Dev) (m : Mem) : (d.enterRomSafe m).aon.i2ca = d.aon.i2ca :=
  congrArg (fun e => e.aon.i2ca) (Dev.enterRomSafe_frame d m)
@[simp] theorem Dev.enterRomSafe_aon_refclk (d : Dev) (m : Mem) : (d.enterRomSafe m).aon.refclk = d.aon.refclk :=
  congrArg (fun e => e.aon.refclk) (Dev.enterRomSafe_frame d m)
@[simp] theorem Dev.enterRomSafe_aon_fromBrownOut (d : Dev) (m : Mem) : (d.enterRomSafe m).aon.fromBrownOut = d.aon.fromBrownOut :=
  congrArg (fun e => e.aon.fromBrownOut) (Dev.enterRomSafe_frame d m)
@[simp] theorem Dev.enterRomSafe_pins (d : Dev) (m : Mem) : (d.enterRomSafe m).pins = d.pins :=
  congrArg (fun e => e.pins) (Dev.enterRomSafe_frame d m)
@[simp] theorem Dev.enterRomSafe_sys_mode (d : Dev) (m : Mem) : (d.enterRomSafe m).sys.mode = d.sys.mode :=
  congrArg (fun e => e.sys.mode) (Dev.enterRomSafe_frame d m)
@[simp] theorem Dev.enterRomSafe_sys_nolive (d : Dev) (m : Mem) : (d.enterRomSafe m).sys.nolive = d.sys.nolive :=
  congrArg (fun e => e.sys.nolive) (Dev.enterRomSafe_frame d m)
@[simp] theorem Dev.enterRomSafe_sys_transition (d : Dev) (m : Mem) : (d.enterRomSafe m).sys.transition = d.sys.transition :=
  congrArg (fun e => e.sys.transition) (Dev.enterRomSafe_frame d m)
@[simp] theorem Dev.enterRomSafe_sys_reqCount (d : Dev) (m : Mem) : (d.enterRomSafe m).sys.reqCount = d.sys.reqCount :=
  congrArg (fun e => e.sys.reqCount) (Dev.enterRomSafe_frame d m)
@[simp] theorem Dev.enterRomSafe_sys_result (d : Dev) (m : Mem) : (d.enterRomSafe m).sys.result = d.sys.result :=
  congrArg (fun e => e.sys.result) (Dev.enterRomSafe_frame d m)
@[simp] theorem Dev.enterRomSafe_sys_activeLayout (d : Dev) (m : Mem) : (d.enterRomSafe m).sys.activeLayout = d.sys.activeLayout :=
  congrArg (fun e => e.sys.activeLayout) (Dev.enterRomSafe_frame d m)
@[simp] theorem Dev.enterRomSafe_sys_layoutReqResult (d : Dev) (m : Mem) : (d.enterRomSafe m).sys.layoutReqResult = d.sys.layoutReqResult :=
  congrArg (fun e => e.sys.layoutReqResult) (Dev.enterRomSafe_frame d m)
@[simp] theorem Dev.enterRomSafe_sys_layoutReqId (d : Dev) (m : Mem) : (d.enterRomSafe m).sys.layoutReqId = d.sys.layoutReqId :=
  congrArg (fun e => e.sys.layoutReqId) (Dev.enterRomSafe_frame d m)
@[simp] theorem Dev.enterRomSafe_sys_safeOff (d : Dev) (m : Mem) : (d.enterRomSafe m).sys.safeOff = d.sys.safeOff :=
  congrArg (fun e => e.sys.safeOff) (Dev.enterRomSafe_frame d m)
@[simp] theorem Dev.enterRomSafe_sys_shutdownStep (d : Dev) (m : Mem) : (d.enterRomSafe m).sys.shutdownStep = d.sys.shutdownStep :=
  congrArg (fun e => e.sys.shutdownStep) (Dev.enterRomSafe_frame d m)
@[simp] theorem Dev.enterRomSafe_sys_cpairErr (d : Dev) (m : Mem) : (d.enterRomSafe m).sys.cpairErr = d.sys.cpairErr :=
  congrArg (fun e => e.sys.cpairErr) (Dev.enterRomSafe_frame d m)
@[simp] theorem Dev.enterRomSafe_sys_wdog (d : Dev) (m : Mem) : (d.enterRomSafe m).sys.wdog = d.sys.wdog :=
  congrArg (fun e => e.sys.wdog) (Dev.enterRomSafe_frame d m)
@[simp] theorem Dev.enterRomSafe_sys_serviced (d : Dev) (m : Mem) : (d.enterRomSafe m).sys.serviced = d.sys.serviced :=
  congrArg (fun e => e.sys.serviced) (Dev.enterRomSafe_frame d m)
@[simp] theorem Dev.enterRomSafe_sys_coreRun (d : Dev) (m : Mem) : (d.enterRomSafe m).sys.coreRun = d.sys.coreRun :=
  congrArg (fun e => e.sys.coreRun) (Dev.enterRomSafe_frame d m)
@[simp] theorem Dev.enterRomSafe_sys_coreRestarts (d : Dev) (m : Mem) : (d.enterRomSafe m).sys.coreRestarts = d.sys.coreRestarts :=
  congrArg (fun e => e.sys.coreRestarts) (Dev.enterRomSafe_frame d m)
@[simp] theorem Dev.enterRomSafe_sys_coreEvents (d : Dev) (m : Mem) : (d.enterRomSafe m).sys.coreEvents = d.sys.coreEvents :=
  congrArg (fun e => e.sys.coreEvents) (Dev.enterRomSafe_frame d m)
@[simp] theorem Dev.enterRomSafe_sys_decision (d : Dev) (m : Mem) : (d.enterRomSafe m).sys.decision = d.sys.decision :=
  congrArg (fun e => e.sys.decision) (Dev.enterRomSafe_frame d m)
@[simp] theorem Dev.enterRomSafe_sys_applied (d : Dev) (m : Mem) : (d.enterRomSafe m).sys.applied = d.sys.applied :=
  congrArg (fun e => e.sys.applied) (Dev.enterRomSafe_frame d m)
@[simp] theorem Dev.enterRomSafe_sys_corrected (d : Dev) (m : Mem) : (d.enterRomSafe m).sys.corrected = d.sys.corrected :=
  congrArg (fun e => e.sys.corrected) (Dev.enterRomSafe_frame d m)
@[simp] theorem Dev.enterRomSafe_sys_warmupStart (d : Dev) (m : Mem) : (d.enterRomSafe m).sys.warmupStart = d.sys.warmupStart :=
  congrArg (fun e => e.sys.warmupStart) (Dev.enterRomSafe_frame d m)
@[simp] theorem Dev.enterRomSafe_sys_laneStart (d : Dev) (m : Mem) : (d.enterRomSafe m).sys.laneStart = d.sys.laneStart :=
  congrArg (fun e => e.sys.laneStart) (Dev.enterRomSafe_frame d m)
@[simp] theorem Dev.enterRomSafe_pairs (d : Dev) (m : Mem) : (d.enterRomSafe m).pairs = d.pairs :=
  congrArg (fun e => e.pairs) (Dev.enterRomSafe_frame d m)
@[simp] theorem Dev.enterRomSafe_bus (d : Dev) (m : Mem) : (d.enterRomSafe m).bus = d.bus :=
  congrArg (fun e => e.bus) (Dev.enterRomSafe_frame d m)
@[simp] theorem Dev.enterRomSafe_lay (d : Dev) (m : Mem) : (d.enterRomSafe m).lay = d.lay :=
  congrArg (fun e => e.lay) (Dev.enterRomSafe_frame d m)
@[simp] theorem Dev.enterRomSafe_img (d : Dev) (m : Mem) : (d.enterRomSafe m).img = d.img :=
  congrArg (fun e => e.img) (Dev.enterRomSafe_frame d m)
@[simp] theorem Dev.enterRomSafe_whl (d : Dev) (m : Mem) : (d.enterRomSafe m).whl = d.whl :=
  congrArg (fun e => e.whl) (Dev.enterRomSafe_frame d m)
@[simp] theorem Dev.enterRomSafe_ports (d : Dev) (m : Mem) : (d.enterRomSafe m).ports = d.ports :=
  congrArg (fun e => e.ports) (Dev.enterRomSafe_frame d m)
@[simp] theorem Dev.enterRomSafe_card (d : Dev) (m : Mem) : (d.enterRomSafe m).card = d.card :=
  congrArg (fun e => e.card) (Dev.enterRomSafe_frame d m)
@[simp] theorem Dev.enterRomSafe_strands (d : Dev) (m : Mem) : (d.enterRomSafe m).strands = d.strands :=
  congrArg (fun e => e.strands) (Dev.enterRomSafe_frame d m)
@[simp] theorem Dev.enterRomSafe_spn (d : Dev) (m : Mem) : (d.enterRomSafe m).spn = d.spn :=
  congrArg (fun e => e.spn) (Dev.enterRomSafe_frame d m)
@[simp] theorem Dev.enterRomSafe_streams (d : Dev) (m : Mem) : (d.enterRomSafe m).streams = d.streams :=
  congrArg (fun e => e.streams) (Dev.enterRomSafe_frame d m)
@[simp] theorem Dev.enterRomSafe_bob (d : Dev) (m : Mem) : (d.enterRomSafe m).bob = d.bob :=
  congrArg (fun e => e.bob) (Dev.enterRomSafe_frame d m)
@[simp] theorem Dev.enterRomSafe_fst (d : Dev) (m : Mem) : (d.enterRomSafe m).fst = d.fst :=
  congrArg (fun e => e.fst) (Dev.enterRomSafe_frame d m)
@[simp] theorem Dev.enterRomSafe_ply (d : Dev) (m : Mem) : (d.enterRomSafe m).ply = d.ply :=
  congrArg (fun e => e.ply) (Dev.enterRomSafe_frame d m)
@[simp] theorem Dev.enterRomSafe_hnk (d : Dev) (m : Mem) : (d.enterRomSafe m).hnk = d.hnk :=
  congrArg (fun e => e.hnk) (Dev.enterRomSafe_frame d m)
@[simp] theorem Dev.enterRomSafe_sns (d : Dev) (m : Mem) : (d.enterRomSafe m).sns = d.sns :=
  congrArg (fun e => e.sns) (Dev.enterRomSafe_frame d m)
@[simp] theorem Dev.enterRomSafe_dma (d : Dev) (m : Mem) : (d.enterRomSafe m).dma = d.dma :=
  congrArg (fun e => e.dma) (Dev.enterRomSafe_frame d m)
@[simp] theorem Dev.enterRomSafe_chk (d : Dev) (m : Mem) : (d.enterRomSafe m).chk = d.chk :=
  congrArg (fun e => e.chk) (Dev.enterRomSafe_frame d m)
@[simp] theorem Dev.enterRomSafe_age (d : Dev) (m : Mem) : (d.enterRomSafe m).age = d.age :=
  congrArg (fun e => e.age) (Dev.enterRomSafe_frame d m)
@[simp] theorem Dev.enterRomSafe_tst (d : Dev) (m : Mem) : (d.enterRomSafe m).tst = d.tst :=
  congrArg (fun e => e.tst) (Dev.enterRomSafe_frame d m)
@[simp] theorem Dev.enterRomSafe_jtag (d : Dev) (m : Mem) : (d.enterRomSafe m).jtag = d.jtag :=
  congrArg (fun e => e.jtag) (Dev.enterRomSafe_frame d m)

/-! ### `Dev.chooseBank` -/

/-- All that `Dev.chooseBank` can change is named here. -/
theorem Dev.chooseBank_frame (d : Dev) (m : Mem) (c : Option Nat) :
    { d.chooseBank m c with aon := { (d.chooseBank m c).aon with phase := d.aon.phase, tier := d.aon.tier }, sys := { (d.chooseBank m c).sys with fault := d.sys.fault }, skn := d.skn, jnl := d.jnl, nvm := d.nvm } = d := by
  simp only [Dev.chooseBank]
  split <;> split_ifs <;> (apply Dev.ext <;> simp)
@[simp] theorem Dev.chooseBank_freeIdx (d : Dev) (m : Mem) (c : Option Nat) : (d.chooseBank m c).freeIdx = d.freeIdx :=
  congrArg (fun e => e.freeIdx) (Dev.chooseBank_frame d m c)
@[simp] theorem Dev.chooseBank_idleCycles (d : Dev) (m : Mem) (c : Option Nat) : (d.chooseBank m c).idleCycles = d.idleCycles :=
  congrArg (fun e => e.idleCycles) (Dev.chooseBank_frame d m c)
@[simp] theorem Dev.chooseBank_aon_cause (d : Dev) (m : Mem) (c : Option Nat) : (d.chooseBank m c).aon.cause = d.aon.cause :=
  congrArg (fun e => e.aon.cause) (Dev.chooseBank_frame d m c)
@[simp] theorem Dev.chooseBank_aon_bootSel (d : Dev) (m : Mem) (c : Option Nat) : (d.chooseBank m c).aon.bootSel = d.aon.bootSel :=
  congrArg (fun e => e.aon.bootSel) (Dev.chooseBank_frame d m c)
@[simp] theorem Dev.chooseBank_aon_i2ca (d : Dev) (m : Mem) (c : Option Nat) : (d.chooseBank m c).aon.i2ca = d.aon.i2ca :=
  congrArg (fun e => e.aon.i2ca) (Dev.chooseBank_frame d m c)
@[simp] theorem Dev.chooseBank_aon_refclk (d : Dev) (m : Mem) (c : Option Nat) : (d.chooseBank m c).aon.refclk = d.aon.refclk :=
  congrArg (fun e => e.aon.refclk) (Dev.chooseBank_frame d m c)
@[simp] theorem Dev.chooseBank_aon_fromBrownOut (d : Dev) (m : Mem) (c : Option Nat) : (d.chooseBank m c).aon.fromBrownOut = d.aon.fromBrownOut :=
  congrArg (fun e => e.aon.fromBrownOut) (Dev.chooseBank_frame d m c)
@[simp] theorem Dev.chooseBank_pins (d : Dev) (m : Mem) (c : Option Nat) : (d.chooseBank m c).pins = d.pins :=
  congrArg (fun e => e.pins) (Dev.chooseBank_frame d m c)
@[simp] theorem Dev.chooseBank_sys_mode (d : Dev) (m : Mem) (c : Option Nat) : (d.chooseBank m c).sys.mode = d.sys.mode :=
  congrArg (fun e => e.sys.mode) (Dev.chooseBank_frame d m c)
@[simp] theorem Dev.chooseBank_sys_nolive (d : Dev) (m : Mem) (c : Option Nat) : (d.chooseBank m c).sys.nolive = d.sys.nolive :=
  congrArg (fun e => e.sys.nolive) (Dev.chooseBank_frame d m c)
@[simp] theorem Dev.chooseBank_sys_transition (d : Dev) (m : Mem) (c : Option Nat) : (d.chooseBank m c).sys.transition = d.sys.transition :=
  congrArg (fun e => e.sys.transition) (Dev.chooseBank_frame d m c)
@[simp] theorem Dev.chooseBank_sys_reqCount (d : Dev) (m : Mem) (c : Option Nat) : (d.chooseBank m c).sys.reqCount = d.sys.reqCount :=
  congrArg (fun e => e.sys.reqCount) (Dev.chooseBank_frame d m c)
@[simp] theorem Dev.chooseBank_sys_result (d : Dev) (m : Mem) (c : Option Nat) : (d.chooseBank m c).sys.result = d.sys.result :=
  congrArg (fun e => e.sys.result) (Dev.chooseBank_frame d m c)
@[simp] theorem Dev.chooseBank_sys_activeLayout (d : Dev) (m : Mem) (c : Option Nat) : (d.chooseBank m c).sys.activeLayout = d.sys.activeLayout :=
  congrArg (fun e => e.sys.activeLayout) (Dev.chooseBank_frame d m c)
@[simp] theorem Dev.chooseBank_sys_layoutReqResult (d : Dev) (m : Mem) (c : Option Nat) : (d.chooseBank m c).sys.layoutReqResult = d.sys.layoutReqResult :=
  congrArg (fun e => e.sys.layoutReqResult) (Dev.chooseBank_frame d m c)
@[simp] theorem Dev.chooseBank_sys_layoutReqId (d : Dev) (m : Mem) (c : Option Nat) : (d.chooseBank m c).sys.layoutReqId = d.sys.layoutReqId :=
  congrArg (fun e => e.sys.layoutReqId) (Dev.chooseBank_frame d m c)
@[simp] theorem Dev.chooseBank_sys_safeOff (d : Dev) (m : Mem) (c : Option Nat) : (d.chooseBank m c).sys.safeOff = d.sys.safeOff :=
  congrArg (fun e => e.sys.safeOff) (Dev.chooseBank_frame d m c)
@[simp] theorem Dev.chooseBank_sys_shutdownStep (d : Dev) (m : Mem) (c : Option Nat) : (d.chooseBank m c).sys.shutdownStep = d.sys.shutdownStep :=
  congrArg (fun e => e.sys.shutdownStep) (Dev.chooseBank_frame d m c)
@[simp] theorem Dev.chooseBank_sys_cpairErr (d : Dev) (m : Mem) (c : Option Nat) : (d.chooseBank m c).sys.cpairErr = d.sys.cpairErr :=
  congrArg (fun e => e.sys.cpairErr) (Dev.chooseBank_frame d m c)
@[simp] theorem Dev.chooseBank_sys_wdog (d : Dev) (m : Mem) (c : Option Nat) : (d.chooseBank m c).sys.wdog = d.sys.wdog :=
  congrArg (fun e => e.sys.wdog) (Dev.chooseBank_frame d m c)
@[simp] theorem Dev.chooseBank_sys_serviced (d : Dev) (m : Mem) (c : Option Nat) : (d.chooseBank m c).sys.serviced = d.sys.serviced :=
  congrArg (fun e => e.sys.serviced) (Dev.chooseBank_frame d m c)
@[simp] theorem Dev.chooseBank_sys_coreRun (d : Dev) (m : Mem) (c : Option Nat) : (d.chooseBank m c).sys.coreRun = d.sys.coreRun :=
  congrArg (fun e => e.sys.coreRun) (Dev.chooseBank_frame d m c)
@[simp] theorem Dev.chooseBank_sys_coreRestarts (d : Dev) (m : Mem) (c : Option Nat) : (d.chooseBank m c).sys.coreRestarts = d.sys.coreRestarts :=
  congrArg (fun e => e.sys.coreRestarts) (Dev.chooseBank_frame d m c)
@[simp] theorem Dev.chooseBank_sys_coreEvents (d : Dev) (m : Mem) (c : Option Nat) : (d.chooseBank m c).sys.coreEvents = d.sys.coreEvents :=
  congrArg (fun e => e.sys.coreEvents) (Dev.chooseBank_frame d m c)
@[simp] theorem Dev.chooseBank_sys_decision (d : Dev) (m : Mem) (c : Option Nat) : (d.chooseBank m c).sys.decision = d.sys.decision :=
  congrArg (fun e => e.sys.decision) (Dev.chooseBank_frame d m c)
@[simp] theorem Dev.chooseBank_sys_applied (d : Dev) (m : Mem) (c : Option Nat) : (d.chooseBank m c).sys.applied = d.sys.applied :=
  congrArg (fun e => e.sys.applied) (Dev.chooseBank_frame d m c)
@[simp] theorem Dev.chooseBank_sys_corrected (d : Dev) (m : Mem) (c : Option Nat) : (d.chooseBank m c).sys.corrected = d.sys.corrected :=
  congrArg (fun e => e.sys.corrected) (Dev.chooseBank_frame d m c)
@[simp] theorem Dev.chooseBank_sys_warmupStart (d : Dev) (m : Mem) (c : Option Nat) : (d.chooseBank m c).sys.warmupStart = d.sys.warmupStart :=
  congrArg (fun e => e.sys.warmupStart) (Dev.chooseBank_frame d m c)
@[simp] theorem Dev.chooseBank_sys_laneStart (d : Dev) (m : Mem) (c : Option Nat) : (d.chooseBank m c).sys.laneStart = d.sys.laneStart :=
  congrArg (fun e => e.sys.laneStart) (Dev.chooseBank_frame d m c)
@[simp] theorem Dev.chooseBank_pairs (d : Dev) (m : Mem) (c : Option Nat) : (d.chooseBank m c).pairs = d.pairs :=
  congrArg (fun e => e.pairs) (Dev.chooseBank_frame d m c)
@[simp] theorem Dev.chooseBank_bus (d : Dev) (m : Mem) (c : Option Nat) : (d.chooseBank m c).bus = d.bus :=
  congrArg (fun e => e.bus) (Dev.chooseBank_frame d m c)
@[simp] theorem Dev.chooseBank_lay (d : Dev) (m : Mem) (c : Option Nat) : (d.chooseBank m c).lay = d.lay :=
  congrArg (fun e => e.lay) (Dev.chooseBank_frame d m c)
@[simp] theorem Dev.chooseBank_img (d : Dev) (m : Mem) (c : Option Nat) : (d.chooseBank m c).img = d.img :=
  congrArg (fun e => e.img) (Dev.chooseBank_frame d m c)
@[simp] theorem Dev.chooseBank_whl (d : Dev) (m : Mem) (c : Option Nat) : (d.chooseBank m c).whl = d.whl :=
  congrArg (fun e => e.whl) (Dev.chooseBank_frame d m c)
@[simp] theorem Dev.chooseBank_ports (d : Dev) (m : Mem) (c : Option Nat) : (d.chooseBank m c).ports = d.ports :=
  congrArg (fun e => e.ports) (Dev.chooseBank_frame d m c)
@[simp] theorem Dev.chooseBank_card (d : Dev) (m : Mem) (c : Option Nat) : (d.chooseBank m c).card = d.card :=
  congrArg (fun e => e.card) (Dev.chooseBank_frame d m c)
@[simp] theorem Dev.chooseBank_strands (d : Dev) (m : Mem) (c : Option Nat) : (d.chooseBank m c).strands = d.strands :=
  congrArg (fun e => e.strands) (Dev.chooseBank_frame d m c)
@[simp] theorem Dev.chooseBank_spn (d : Dev) (m : Mem) (c : Option Nat) : (d.chooseBank m c).spn = d.spn :=
  congrArg (fun e => e.spn) (Dev.chooseBank_frame d m c)
@[simp] theorem Dev.chooseBank_streams (d : Dev) (m : Mem) (c : Option Nat) : (d.chooseBank m c).streams = d.streams :=
  congrArg (fun e => e.streams) (Dev.chooseBank_frame d m c)
@[simp] theorem Dev.chooseBank_bob (d : Dev) (m : Mem) (c : Option Nat) : (d.chooseBank m c).bob = d.bob :=
  congrArg (fun e => e.bob) (Dev.chooseBank_frame d m c)
@[simp] theorem Dev.chooseBank_fst (d : Dev) (m : Mem) (c : Option Nat) : (d.chooseBank m c).fst = d.fst :=
  congrArg (fun e => e.fst) (Dev.chooseBank_frame d m c)
@[simp] theorem Dev.chooseBank_ply (d : Dev) (m : Mem) (c : Option Nat) : (d.chooseBank m c).ply = d.ply :=
  congrArg (fun e => e.ply) (Dev.chooseBank_frame d m c)
@[simp] theorem Dev.chooseBank_hnk (d : Dev) (m : Mem) (c : Option Nat) : (d.chooseBank m c).hnk = d.hnk :=
  congrArg (fun e => e.hnk) (Dev.chooseBank_frame d m c)
@[simp] theorem Dev.chooseBank_sns (d : Dev) (m : Mem) (c : Option Nat) : (d.chooseBank m c).sns = d.sns :=
  congrArg (fun e => e.sns) (Dev.chooseBank_frame d m c)
@[simp] theorem Dev.chooseBank_dma (d : Dev) (m : Mem) (c : Option Nat) : (d.chooseBank m c).dma = d.dma :=
  congrArg (fun e => e.dma) (Dev.chooseBank_frame d m c)
@[simp] theorem Dev.chooseBank_chk (d : Dev) (m : Mem) (c : Option Nat) : (d.chooseBank m c).chk = d.chk :=
  congrArg (fun e => e.chk) (Dev.chooseBank_frame d m c)
@[simp] theorem Dev.chooseBank_age (d : Dev) (m : Mem) (c : Option Nat) : (d.chooseBank m c).age = d.age :=
  congrArg (fun e => e.age) (Dev.chooseBank_frame d m c)
@[simp] theorem Dev.chooseBank_tst (d : Dev) (m : Mem) (c : Option Nat) : (d.chooseBank m c).tst = d.tst :=
  congrArg (fun e => e.tst) (Dev.chooseBank_frame d m c)
@[simp] theorem Dev.chooseBank_jtag (d : Dev) (m : Mem) (c : Option Nat) : (d.chooseBank m c).jtag = d.jtag :=
  congrArg (fun e => e.jtag) (Dev.chooseBank_frame d m c)

/-! ### `Dev.commandAvs` -/

/-- All that `Dev.commandAvs` can change is named here. -/
theorem Dev.commandAvs_frame (d : Dev) (v : Nat) :
    { d.commandAvs v with age := d.age } = d := by
  rfl
@[simp] theorem Dev.commandAvs_freeIdx (d : Dev) (v : Nat) : (d.commandAvs v).freeIdx = d.freeIdx :=
  congrArg (fun e => e.freeIdx) (Dev.commandAvs_frame d v)
@[simp] theorem Dev.commandAvs_idleCycles (d : Dev) (v : Nat) : (d.commandAvs v).idleCycles = d.idleCycles :=
  congrArg (fun e => e.idleCycles) (Dev.commandAvs_frame d v)
@[simp] theorem Dev.commandAvs_aon (d : Dev) (v : Nat) : (d.commandAvs v).aon = d.aon :=
  congrArg (fun e => e.aon) (Dev.commandAvs_frame d v)
@[simp] theorem Dev.commandAvs_pins (d : Dev) (v : Nat) : (d.commandAvs v).pins = d.pins :=
  congrArg (fun e => e.pins) (Dev.commandAvs_frame d v)
@[simp] theorem Dev.commandAvs_sys (d : Dev) (v : Nat) : (d.commandAvs v).sys = d.sys :=
  congrArg (fun e => e.sys) (Dev.commandAvs_frame d v)
@[simp] theorem Dev.commandAvs_pairs (d : Dev) (v : Nat) : (d.commandAvs v).pairs = d.pairs :=
  congrArg (fun e => e.pairs) (Dev.commandAvs_frame d v)
@[simp] theorem Dev.commandAvs_bus (d : Dev) (v : Nat) : (d.commandAvs v).bus = d.bus :=
  congrArg (fun e => e.bus) (Dev.commandAvs_frame d v)
@[simp] theorem Dev.commandAvs_jnl (d : Dev) (v : Nat) : (d.commandAvs v).jnl = d.jnl :=
  congrArg (fun e => e.jnl) (Dev.commandAvs_frame d v)
@[simp] theorem Dev.commandAvs_nvm (d : Dev) (v : Nat) : (d.commandAvs v).nvm = d.nvm :=
  congrArg (fun e => e.nvm) (Dev.commandAvs_frame d v)
@[simp] theorem Dev.commandAvs_lay (d : Dev) (v : Nat) : (d.commandAvs v).lay = d.lay :=
  congrArg (fun e => e.lay) (Dev.commandAvs_frame d v)
@[simp] theorem Dev.commandAvs_img (d : Dev) (v : Nat) : (d.commandAvs v).img = d.img :=
  congrArg (fun e => e.img) (Dev.commandAvs_frame d v)
@[simp] theorem Dev.commandAvs_whl (d : Dev) (v : Nat) : (d.commandAvs v).whl = d.whl :=
  congrArg (fun e => e.whl) (Dev.commandAvs_frame d v)
@[simp] theorem Dev.commandAvs_ports (d : Dev) (v : Nat) : (d.commandAvs v).ports = d.ports :=
  congrArg (fun e => e.ports) (Dev.commandAvs_frame d v)
@[simp] theorem Dev.commandAvs_card (d : Dev) (v : Nat) : (d.commandAvs v).card = d.card :=
  congrArg (fun e => e.card) (Dev.commandAvs_frame d v)
@[simp] theorem Dev.commandAvs_strands (d : Dev) (v : Nat) : (d.commandAvs v).strands = d.strands :=
  congrArg (fun e => e.strands) (Dev.commandAvs_frame d v)
@[simp] theorem Dev.commandAvs_spn (d : Dev) (v : Nat) : (d.commandAvs v).spn = d.spn :=
  congrArg (fun e => e.spn) (Dev.commandAvs_frame d v)
@[simp] theorem Dev.commandAvs_streams (d : Dev) (v : Nat) : (d.commandAvs v).streams = d.streams :=
  congrArg (fun e => e.streams) (Dev.commandAvs_frame d v)
@[simp] theorem Dev.commandAvs_bob (d : Dev) (v : Nat) : (d.commandAvs v).bob = d.bob :=
  congrArg (fun e => e.bob) (Dev.commandAvs_frame d v)
@[simp] theorem Dev.commandAvs_fst (d : Dev) (v : Nat) : (d.commandAvs v).fst = d.fst :=
  congrArg (fun e => e.fst) (Dev.commandAvs_frame d v)
@[simp] theorem Dev.commandAvs_ply (d : Dev) (v : Nat) : (d.commandAvs v).ply = d.ply :=
  congrArg (fun e => e.ply) (Dev.commandAvs_frame d v)
@[simp] theorem Dev.commandAvs_hnk (d : Dev) (v : Nat) : (d.commandAvs v).hnk = d.hnk :=
  congrArg (fun e => e.hnk) (Dev.commandAvs_frame d v)
@[simp] theorem Dev.commandAvs_skn (d : Dev) (v : Nat) : (d.commandAvs v).skn = d.skn :=
  congrArg (fun e => e.skn) (Dev.commandAvs_frame d v)
@[simp] theorem Dev.commandAvs_sns (d : Dev) (v : Nat) : (d.commandAvs v).sns = d.sns :=
  congrArg (fun e => e.sns) (Dev.commandAvs_frame d v)
@[simp] theorem Dev.commandAvs_dma (d : Dev) (v : Nat) : (d.commandAvs v).dma = d.dma :=
  congrArg (fun e => e.dma) (Dev.commandAvs_frame d v)
@[simp] theorem Dev.commandAvs_chk (d : Dev) (v : Nat) : (d.commandAvs v).chk = d.chk :=
  congrArg (fun e => e.chk) (Dev.commandAvs_frame d v)
@[simp] theorem Dev.commandAvs_tst (d : Dev) (v : Nat) : (d.commandAvs v).tst = d.tst :=
  congrArg (fun e => e.tst) (Dev.commandAvs_frame d v)
@[simp] theorem Dev.commandAvs_jtag (d : Dev) (v : Nat) : (d.commandAvs v).jtag = d.jtag :=
  congrArg (fun e => e.jtag) (Dev.commandAvs_frame d v)
/-! ### `Dev.readJournal` -/

/-- All that `Dev.readJournal` can change is named here. -/
theorem Dev.readJournal_frame (d : Dev) (m : Mem) :
    { d.readJournal m with aon := { (d.readJournal m).aon with fromBrownOut := d.aon.fromBrownOut }, sys := { (d.readJournal m).sys with fault := d.sys.fault, laneStart := d.sys.laneStart }, skn := { (d.readJournal m).skn with pins := d.skn.pins }, jnl := d.jnl, pairs := d.pairs, spn := d.spn, age := d.age } = d := by
  simp only [Dev.readJournal]
  split_ifs <;> (apply Dev.ext <;> simp)
@[simp] theorem Dev.readJournal_freeIdx (d : Dev) (m : Mem) : (d.readJournal m).freeIdx = d.freeIdx :=
  congrArg (fun e => e.freeIdx) (Dev.readJournal_frame d m)
@[simp] theorem Dev.readJournal_idleCycles (d : Dev) (m : Mem) : (d.readJournal m).idleCycles = d.idleCycles :=
  congrArg (fun e => e.idleCycles) (Dev.readJournal_frame d m)
@[simp] theorem Dev.readJournal_aon_phase (d : Dev) (m : Mem) : (d.readJournal m).aon.phase = d.aon.phase :=
  congrArg (fun e => e.aon.phase) (Dev.readJournal_frame d m)
@[simp] theorem Dev.readJournal_aon_cause (d : Dev) (m : Mem) : (d.readJournal m).aon.cause = d.aon.cause :=
  congrArg (fun e => e.aon.cause) (Dev.readJournal_frame d m)
@[simp] theorem Dev.readJournal_aon_bootSel (d : Dev) (m : Mem) : (d.readJournal m).aon.bootSel = d.aon.bootSel :=
  congrArg (fun e => e.aon.bootSel) (Dev.readJournal_frame d m)
@[simp] theorem Dev.readJournal_aon_i2ca (d : Dev) (m : Mem) : (d.readJournal m).aon.i2ca = d.aon.i2ca :=
  congrArg (fun e => e.aon.i2ca) (Dev.readJournal_frame d m)
@[simp] theorem Dev.readJournal_aon_refclk (d : Dev) (m : Mem) : (d.readJournal m).aon.refclk = d.aon.refclk :=
  congrArg (fun e => e.aon.refclk) (Dev.readJournal_frame d m)
@[simp] theorem Dev.readJournal_aon_tier (d : Dev) (m : Mem) : (d.readJournal m).aon.tier = d.aon.tier :=
  congrArg (fun e => e.aon.tier) (Dev.readJournal_frame d m)
@[simp] theorem Dev.readJournal_pins (d : Dev) (m : Mem) : (d.readJournal m).pins = d.pins :=
  congrArg (fun e => e.pins) (Dev.readJournal_frame d m)
@[simp] theorem Dev.readJournal_sys_mode (d : Dev) (m : Mem) : (d.readJournal m).sys.mode = d.sys.mode :=
  congrArg (fun e => e.sys.mode) (Dev.readJournal_frame d m)
@[simp] theorem Dev.readJournal_sys_nolive (d : Dev) (m : Mem) : (d.readJournal m).sys.nolive = d.sys.nolive :=
  congrArg (fun e => e.sys.nolive) (Dev.readJournal_frame d m)
@[simp] theorem Dev.readJournal_sys_transition (d : Dev) (m : Mem) : (d.readJournal m).sys.transition = d.sys.transition :=
  congrArg (fun e => e.sys.transition) (Dev.readJournal_frame d m)
@[simp] theorem Dev.readJournal_sys_reqCount (d : Dev) (m : Mem) : (d.readJournal m).sys.reqCount = d.sys.reqCount :=
  congrArg (fun e => e.sys.reqCount) (Dev.readJournal_frame d m)
@[simp] theorem Dev.readJournal_sys_result (d : Dev) (m : Mem) : (d.readJournal m).sys.result = d.sys.result :=
  congrArg (fun e => e.sys.result) (Dev.readJournal_frame d m)
@[simp] theorem Dev.readJournal_sys_activeLayout (d : Dev) (m : Mem) : (d.readJournal m).sys.activeLayout = d.sys.activeLayout :=
  congrArg (fun e => e.sys.activeLayout) (Dev.readJournal_frame d m)
@[simp] theorem Dev.readJournal_sys_layoutReqResult (d : Dev) (m : Mem) : (d.readJournal m).sys.layoutReqResult = d.sys.layoutReqResult :=
  congrArg (fun e => e.sys.layoutReqResult) (Dev.readJournal_frame d m)
@[simp] theorem Dev.readJournal_sys_layoutReqId (d : Dev) (m : Mem) : (d.readJournal m).sys.layoutReqId = d.sys.layoutReqId :=
  congrArg (fun e => e.sys.layoutReqId) (Dev.readJournal_frame d m)
@[simp] theorem Dev.readJournal_sys_safeOff (d : Dev) (m : Mem) : (d.readJournal m).sys.safeOff = d.sys.safeOff :=
  congrArg (fun e => e.sys.safeOff) (Dev.readJournal_frame d m)
@[simp] theorem Dev.readJournal_sys_shutdownStep (d : Dev) (m : Mem) : (d.readJournal m).sys.shutdownStep = d.sys.shutdownStep :=
  congrArg (fun e => e.sys.shutdownStep) (Dev.readJournal_frame d m)
@[simp] theorem Dev.readJournal_sys_cpairErr (d : Dev) (m : Mem) : (d.readJournal m).sys.cpairErr = d.sys.cpairErr :=
  congrArg (fun e => e.sys.cpairErr) (Dev.readJournal_frame d m)
@[simp] theorem Dev.readJournal_sys_wdog (d : Dev) (m : Mem) : (d.readJournal m).sys.wdog = d.sys.wdog :=
  congrArg (fun e => e.sys.wdog) (Dev.readJournal_frame d m)
@[simp] theorem Dev.readJournal_sys_serviced (d : Dev) (m : Mem) : (d.readJournal m).sys.serviced = d.sys.serviced :=
  congrArg (fun e => e.sys.serviced) (Dev.readJournal_frame d m)
@[simp] theorem Dev.readJournal_sys_coreRun (d : Dev) (m : Mem) : (d.readJournal m).sys.coreRun = d.sys.coreRun :=
  congrArg (fun e => e.sys.coreRun) (Dev.readJournal_frame d m)
@[simp] theorem Dev.readJournal_sys_coreRestarts (d : Dev) (m : Mem) : (d.readJournal m).sys.coreRestarts = d.sys.coreRestarts :=
  congrArg (fun e => e.sys.coreRestarts) (Dev.readJournal_frame d m)
@[simp] theorem Dev.readJournal_sys_coreEvents (d : Dev) (m : Mem) : (d.readJournal m).sys.coreEvents = d.sys.coreEvents :=
  congrArg (fun e => e.sys.coreEvents) (Dev.readJournal_frame d m)
@[simp] theorem Dev.readJournal_sys_decision (d : Dev) (m : Mem) : (d.readJournal m).sys.decision = d.sys.decision :=
  congrArg (fun e => e.sys.decision) (Dev.readJournal_frame d m)
@[simp] theorem Dev.readJournal_sys_applied (d : Dev) (m : Mem) : (d.readJournal m).sys.applied = d.sys.applied :=
  congrArg (fun e => e.sys.applied) (Dev.readJournal_frame d m)
@[simp] theorem Dev.readJournal_sys_corrected (d : Dev) (m : Mem) : (d.readJournal m).sys.corrected = d.sys.corrected :=
  congrArg (fun e => e.sys.corrected) (Dev.readJournal_frame d m)
@[simp] theorem Dev.readJournal_sys_warmupStart (d : Dev) (m : Mem) : (d.readJournal m).sys.warmupStart = d.sys.warmupStart :=
  congrArg (fun e => e.sys.warmupStart) (Dev.readJournal_frame d m)
@[simp] theorem Dev.readJournal_bus (d : Dev) (m : Mem) : (d.readJournal m).bus = d.bus :=
  congrArg (fun e => e.bus) (Dev.readJournal_frame d m)
@[simp] theorem Dev.readJournal_nvm (d : Dev) (m : Mem) : (d.readJournal m).nvm = d.nvm :=
  congrArg (fun e => e.nvm) (Dev.readJournal_frame d m)
@[simp] theorem Dev.readJournal_lay (d : Dev) (m : Mem) : (d.readJournal m).lay = d.lay :=
  congrArg (fun e => e.lay) (Dev.readJournal_frame d m)
@[simp] theorem Dev.readJournal_img (d : Dev) (m : Mem) : (d.readJournal m).img = d.img :=
  congrArg (fun e => e.img) (Dev.readJournal_frame d m)
@[simp] theorem Dev.readJournal_whl (d : Dev) (m : Mem) : (d.readJournal m).whl = d.whl :=
  congrArg (fun e => e.whl) (Dev.readJournal_frame d m)
@[simp] theorem Dev.readJournal_ports (d : Dev) (m : Mem) : (d.readJournal m).ports = d.ports :=
  congrArg (fun e => e.ports) (Dev.readJournal_frame d m)
@[simp] theorem Dev.readJournal_card (d : Dev) (m : Mem) : (d.readJournal m).card = d.card :=
  congrArg (fun e => e.card) (Dev.readJournal_frame d m)
@[simp] theorem Dev.readJournal_strands (d : Dev) (m : Mem) : (d.readJournal m).strands = d.strands :=
  congrArg (fun e => e.strands) (Dev.readJournal_frame d m)
@[simp] theorem Dev.readJournal_streams (d : Dev) (m : Mem) : (d.readJournal m).streams = d.streams :=
  congrArg (fun e => e.streams) (Dev.readJournal_frame d m)
@[simp] theorem Dev.readJournal_bob (d : Dev) (m : Mem) : (d.readJournal m).bob = d.bob :=
  congrArg (fun e => e.bob) (Dev.readJournal_frame d m)
@[simp] theorem Dev.readJournal_fst (d : Dev) (m : Mem) : (d.readJournal m).fst = d.fst :=
  congrArg (fun e => e.fst) (Dev.readJournal_frame d m)
@[simp] theorem Dev.readJournal_ply (d : Dev) (m : Mem) : (d.readJournal m).ply = d.ply :=
  congrArg (fun e => e.ply) (Dev.readJournal_frame d m)
@[simp] theorem Dev.readJournal_hnk (d : Dev) (m : Mem) : (d.readJournal m).hnk = d.hnk :=
  congrArg (fun e => e.hnk) (Dev.readJournal_frame d m)
@[simp] theorem Dev.readJournal_skn_win (d : Dev) (m : Mem) : (d.readJournal m).skn.win = d.skn.win :=
  congrArg (fun e => e.skn.win) (Dev.readJournal_frame d m)
@[simp] theorem Dev.readJournal_skn_ids (d : Dev) (m : Mem) : (d.readJournal m).skn.ids = d.skn.ids :=
  congrArg (fun e => e.skn.ids) (Dev.readJournal_frame d m)
@[simp] theorem Dev.readJournal_skn_enumd (d : Dev) (m : Mem) : (d.readJournal m).skn.enumd = d.skn.enumd :=
  congrArg (fun e => e.skn.enumd) (Dev.readJournal_frame d m)
@[simp] theorem Dev.readJournal_skn_count (d : Dev) (m : Mem) : (d.readJournal m).skn.count = d.skn.count :=
  congrArg (fun e => e.skn.count) (Dev.readJournal_frame d m)
@[simp] theorem Dev.readJournal_skn_junction (d : Dev) (m : Mem) : (d.readJournal m).skn.junction = d.skn.junction :=
  congrArg (fun e => e.skn.junction) (Dev.readJournal_frame d m)
@[simp] theorem Dev.readJournal_skn_ports (d : Dev) (m : Mem) : (d.readJournal m).skn.ports = d.skn.ports :=
  congrArg (fun e => e.skn.ports) (Dev.readJournal_frame d m)
@[simp] theorem Dev.readJournal_skn_retimerSeen (d : Dev) (m : Mem) : (d.readJournal m).skn.retimerSeen = d.skn.retimerSeen :=
  congrArg (fun e => e.skn.retimerSeen) (Dev.readJournal_frame d m)
@[simp] theorem Dev.readJournal_skn_txns (d : Dev) (m : Mem) : (d.readJournal m).skn.txns = d.skn.txns :=
  congrArg (fun e => e.skn.txns) (Dev.readJournal_frame d m)
@[simp] theorem Dev.readJournal_skn_nextBurst (d : Dev) (m : Mem) : (d.readJournal m).skn.nextBurst = d.skn.nextBurst :=
  congrArg (fun e => e.skn.nextBurst) (Dev.readJournal_frame d m)
@[simp] theorem Dev.readJournal_skn_stalled (d : Dev) (m : Mem) : (d.readJournal m).skn.stalled = d.skn.stalled :=
  congrArg (fun e => e.skn.stalled) (Dev.readJournal_frame d m)
@[simp] theorem Dev.readJournal_skn_leq (d : Dev) (m : Mem) : (d.readJournal m).skn.leq = d.skn.leq :=
  congrArg (fun e => e.skn.leq) (Dev.readJournal_frame d m)
@[simp] theorem Dev.readJournal_skn_leqUnder (d : Dev) (m : Mem) : (d.readJournal m).skn.leqUnder = d.skn.leqUnder :=
  congrArg (fun e => e.skn.leqUnder) (Dev.readJournal_frame d m)
@[simp] theorem Dev.readJournal_skn_leqOvf (d : Dev) (m : Mem) : (d.readJournal m).skn.leqOvf = d.skn.leqOvf :=
  congrArg (fun e => e.skn.leqOvf) (Dev.readJournal_frame d m)
@[simp] theorem Dev.readJournal_skn_leqDiscarded (d : Dev) (m : Mem) : (d.readJournal m).skn.leqDiscarded = d.skn.leqDiscarded :=
  congrArg (fun e => e.skn.leqDiscarded) (Dev.readJournal_frame d m)
@[simp] theorem Dev.readJournal_skn_leqLast (d : Dev) (m : Mem) : (d.readJournal m).skn.leqLast = d.skn.leqLast :=
  congrArg (fun e => e.skn.leqLast) (Dev.readJournal_frame d m)
@[simp] theorem Dev.readJournal_skn_postedFails (d : Dev) (m : Mem) : (d.readJournal m).skn.postedFails = d.skn.postedFails :=
  congrArg (fun e => e.skn.postedFails) (Dev.readJournal_frame d m)
@[simp] theorem Dev.readJournal_skn_fences (d : Dev) (m : Mem) : (d.readJournal m).skn.fences = d.skn.fences :=
  congrArg (fun e => e.skn.fences) (Dev.readJournal_frame d m)
@[simp] theorem Dev.readJournal_skn_strays (d : Dev) (m : Mem) : (d.readJournal m).skn.strays = d.skn.strays :=
  congrArg (fun e => e.skn.strays) (Dev.readJournal_frame d m)
@[simp] theorem Dev.readJournal_sns (d : Dev) (m : Mem) : (d.readJournal m).sns = d.sns :=
  congrArg (fun e => e.sns) (Dev.readJournal_frame d m)
@[simp] theorem Dev.readJournal_dma (d : Dev) (m : Mem) : (d.readJournal m).dma = d.dma :=
  congrArg (fun e => e.dma) (Dev.readJournal_frame d m)
@[simp] theorem Dev.readJournal_chk (d : Dev) (m : Mem) : (d.readJournal m).chk = d.chk :=
  congrArg (fun e => e.chk) (Dev.readJournal_frame d m)
@[simp] theorem Dev.readJournal_tst (d : Dev) (m : Mem) : (d.readJournal m).tst = d.tst :=
  congrArg (fun e => e.tst) (Dev.readJournal_frame d m)
@[simp] theorem Dev.readJournal_jtag (d : Dev) (m : Mem) : (d.readJournal m).jtag = d.jtag :=
  congrArg (fun e => e.jtag) (Dev.readJournal_frame d m)


end Sys2Proof.Machine
end

