-- ==== Sys2Proof/Laws/Memory.lean ====
section
/-! SUPPORT. The byte memories: every operation keeps the canonical form, a read after a write, and every other byte as it was. -/

namespace Sys2Proof.Machine

/-- The cells strictly rise, none equal to the unlisted byte, all at or above `lo`: as a proposition. -/
theorem Memory.wfFrom_cons (x : Byte) (lo k : Nat) (b : Byte) (m : List Host.Cell) :
    Memory.wfFrom x lo ((k, b) :: m) = true ↔ lo ≤ k ∧ b ≠ x ∧ Memory.wfFrom x (k + 1) m = true := by
  simp [Memory.wfFrom, and_assoc]

theorem Memory.wfFrom_mono (x : Byte) {lo lo' : Nat} (h : lo' ≤ lo) :
    ∀ m : List Host.Cell, Memory.wfFrom x lo m = true → Memory.wfFrom x lo' m = true
  | [], _ => rfl
  | (_, _) :: _, w => by
    rw [Memory.wfFrom_cons] at w ⊢
    exact ⟨by omega, w.2⟩

/-- Every cell of a memory canonical from `lo` on lies at or above `lo`. -/
theorem Memory.le_of_wfFrom (x : Byte) :
    ∀ (lo : Nat) (m : List Host.Cell), Memory.wfFrom x lo m = true → ∀ c ∈ m, lo ≤ c.1
  | _, [], _, _, h => by simp at h
  | lo, (k, b) :: m, w, c, h => by
    rw [Memory.wfFrom_cons] at w
    rcases List.mem_cons.1 h with rfl | h
    · exact w.1
    · have := Memory.le_of_wfFrom x (k + 1) m w.2.2 c h
      omega

/-- A part of a canonical memory that a filter keeps is canonical. -/
theorem Memory.wfFrom_filter (x : Byte) (p : Host.Cell → Bool) :
    ∀ (lo : Nat) (m : List Host.Cell), Memory.wfFrom x lo m = true → Memory.wfFrom x lo (m.filter p) = true
  | _, [], _ => rfl
  | lo, (k, b) :: m, w => by
    rw [Memory.wfFrom_cons] at w
    have ih := Memory.wfFrom_filter x p (k + 1) m w.2.2
    rw [List.filter_cons]
    split
    · exact (Memory.wfFrom_cons ..).2 ⟨w.1, w.2.1, ih⟩
    · exact Memory.wfFrom_mono x (by omega) _ ih

/-- Canonical parts in rising order join to a canonical memory. -/
theorem Memory.wfFrom_append (x : Byte) (hi : Nat) :
    ∀ (lo : Nat) (m n : List Host.Cell), Memory.wfFrom x lo m = true → (∀ c ∈ m, c.1 < hi) → lo ≤ hi →
      Memory.wfFrom x hi n = true → Memory.wfFrom x lo (m ++ n) = true
  | _, [], n, _, _, h, w => Memory.wfFrom_mono x h n w
  | lo, (k, b) :: m, n, w, hm, _, wn => by
    rw [Memory.wfFrom_cons] at w
    have hk : k < hi := hm (k, b) (by simp)
    exact (Memory.wfFrom_cons ..).2
      ⟨w.1, w.2.1, Memory.wfFrom_append x hi (k + 1) m n w.2.2 (fun c hc => hm c (by simp [hc])) (by omega) wn⟩

/-- A canonical memory whose cells all lie at or above `lo` is canonical from `lo` on. -/
theorem Memory.wfFrom_of_ge (x : Byte) (lo : Nat) :
    ∀ (lo' : Nat) (m : List Host.Cell), Memory.wfFrom x lo' m = true → (∀ c ∈ m, lo ≤ c.1) →
      Memory.wfFrom x lo m = true
  | _, [], _, _ => rfl
  | _, (k, b) :: m, w, h => by
    rw [Memory.wfFrom_cons] at w
    exact (Memory.wfFrom_cons ..).2 ⟨h (k, b) (by simp), w.2⟩

theorem Memory.cells_wf (x : Byte) : ∀ (a : Nat) (bs : List Byte), Memory.wfFrom x a (Memory.cells x a bs) = true
  | _, [] => rfl
  | a, b :: bs => by
    have ih := Memory.cells_wf x (a + 1) bs
    rw [Memory.cells]
    split
    · exact Memory.wfFrom_mono x (by omega) _ ih
    · exact (Memory.wfFrom_cons ..).2 ⟨by omega, ‹_›, ih⟩

theorem Memory.cells_lt (x : Byte) : ∀ (a : Nat) (bs : List Byte), ∀ c ∈ Memory.cells x a bs, c.1 < a + bs.length
  | _, [], c, h => by simp [Memory.cells] at h
  | a, b :: bs, c, h => by
    have ih := Memory.cells_lt x (a + 1) bs c
    rw [Memory.cells] at h
    simp only [List.length_cons]
    split at h
    · have := ih h; omega
    · rcases List.mem_cons.1 h with rfl | h
      · simp only; omega
      · have := ih h; omega

/-- Writing keeps the canonical form. -/
theorem Memory.write_wf (x : Byte) (m : List Host.Cell) (a : Nat) (bs : List Byte) (h : Memory.wf x m = true) :
    Memory.wf x (Memory.write x m a bs) = true := by
  have h1 := Memory.wfFrom_filter x (fun c => decide (c.1 < a)) 0 m h
  have h3 : Memory.wfFrom x (a + bs.length) (m.filter fun c => decide (a + bs.length ≤ c.1)) = true :=
    Memory.wfFrom_of_ge x _ 0 _ (Memory.wfFrom_filter x _ 0 m h) (fun c hc => by simpa using (List.mem_filter.1 hc).2)
  have h12 := Memory.wfFrom_append x a 0 _ _ h1 (fun c hc => by simpa using (List.mem_filter.1 hc).2) (by omega)
    (Memory.cells_wf x a bs)
  refine Memory.wfFrom_append x (a + bs.length) 0 _ _ h12 (fun c hc => ?_) (by omega) h3
  rcases List.mem_append.1 hc with h | h
  · have := (List.mem_filter.1 h).2
    simp only [decide_eq_true_eq] at this
    omega
  · exact Memory.cells_lt x a bs c h

/-- Filling keeps the canonical form. -/
theorem Memory.fill_wf (x : Byte) (m : List Host.Cell) (a n : Nat) (v : Byte) (h : Memory.wf x m = true) :
    Memory.wf x (Memory.fill x m a n v) = true := by
  rw [Memory.fill]
  split
  · have h3 : Memory.wfFrom x (a + n) (m.filter fun c => decide (a + n ≤ c.1)) = true :=
      Memory.wfFrom_of_ge x _ 0 _ (Memory.wfFrom_filter x _ 0 m h) (fun c hc => by simpa using (List.mem_filter.1 hc).2)
    exact Memory.wfFrom_append x a 0 _ _ (Memory.wfFrom_filter x _ 0 m h)
      (fun c hc => by simpa using (List.mem_filter.1 hc).2) (by omega) (Memory.wfFrom_mono x (by omega) _ h3)
  · exact Memory.write_wf x m a _ h

/-- A byte below every cell reads as the unlisted byte. -/
theorem Memory.read_of_wfFrom (x : Byte) (a : Nat) :
    ∀ (lo : Nat) (m : List Host.Cell), Memory.wfFrom x lo m = true → a < lo → Memory.read x m a = x
  | _, [], _, _ => rfl
  | lo, (k, b) :: m, w, h => by
    rw [Memory.wfFrom_cons] at w
    rw [Memory.read, if_neg (by omega)]
    exact Memory.read_of_wfFrom x a (k + 1) m w.2.2 (by omega)

theorem Memory.read_append_left (x : Byte) (a : Nat) (n : List Host.Cell) :
    ∀ m : List Host.Cell, (∀ c ∈ m, c.1 ≠ a) → Memory.read x (m ++ n) a = Memory.read x n a
  | [], _ => rfl
  | (k, b) :: m, h => by
    rw [List.cons_append, Memory.read, if_neg (h (k, b) (by simp))]
    exact Memory.read_append_left x a n m fun c hc => h c (by simp [hc])

theorem Memory.read_append_right (x : Byte) (a : Nat) (n : List Host.Cell) (hn : ∀ c ∈ n, c.1 ≠ a) :
    ∀ m : List Host.Cell, Memory.read x (m ++ n) a = Memory.read x m a
  | [] => by simpa using Memory.read_append_left x a [] n hn
  | (k, b) :: m => by
    rw [List.cons_append, Memory.read, Memory.read, Memory.read_append_right x a n hn m]

theorem Memory.read_filter (x : Byte) (a : Nat) (p : Host.Cell → Bool) (hp : ∀ b, p (a, b) = true) :
    ∀ m : List Host.Cell, Memory.read x (m.filter p) a = Memory.read x m a
  | [] => rfl
  | (k, b) :: m => by
    rw [List.filter_cons, Memory.read]
    split
    · rw [Memory.read, Memory.read_filter x a p hp m]
    · rename_i h
      have hk : k ≠ a := fun e => h (e ▸ hp b)
      rw [if_neg hk, Memory.read_filter x a p hp m]

/-- A write leaves every byte outside the written ones as it was. -/
theorem Memory.read_write_other (x : Byte) (m : List Host.Cell) (a : Nat) (bs : List Byte) (i : Nat)
    (h : i < a ∨ a + bs.length ≤ i) : Memory.read x (Memory.write x m a bs) i = Memory.read x m i := by
  have hc : ∀ c ∈ Memory.cells x a bs, c.1 ≠ i := fun c hc => by
    have := Memory.cells_lt x a bs c hc
    have hlo : a ≤ c.1 := Memory.le_of_wfFrom x a _ (Memory.cells_wf x a bs) c hc
    omega
  rcases h with h | h
  · rw [Memory.write, List.append_assoc, Memory.read_append_right, Memory.read_filter _ _ _ (by simp [h])]
    intro c hc'
    rcases List.mem_append.1 hc' with h' | h'
    · exact hc c h'
    · have := (List.mem_filter.1 h').2
      simp only [decide_eq_true_eq] at this
      omega
  · rw [Memory.write, List.append_assoc, Memory.read_append_left, Memory.read_append_left _ _ _ _ hc,
      Memory.read_filter _ _ _ (by simp [h])]
    intro c hc'
    have := (List.mem_filter.1 hc').2
    simp only [decide_eq_true_eq] at this
    omega

theorem Memory.read_cells (x : Byte) : ∀ (a : Nat) (bs : List Byte) (i : Nat) (n : List Host.Cell), i < bs.length →
    (∀ c ∈ n, a + bs.length ≤ c.1) → Memory.read x (Memory.cells x a bs ++ n) (a + i) = bs.getD i x
  | _, [], _, _, h, _ => by simp at h
  | a, b :: bs, 0, n, _, hn => by
    rw [Memory.cells]
    split
    · rename_i hb
      rw [Nat.add_zero, hb, Memory.read_append_left]
      · rw [show n = [] ++ n from rfl, Memory.read_append_right _ _ n, Memory.read]
        · rfl
        · intro c hc; have := hn c hc; simp only [List.length_cons] at this; omega
      · intro c hc
        have := Memory.le_of_wfFrom x (a + 1) _ (Memory.cells_wf x (a + 1) bs) c hc
        omega
    · simp [Memory.read]
  | a, b :: bs, i + 1, n, h, hn => by
    have ih := Memory.read_cells x (a + 1) bs i n (by simpa using h)
      (fun c hc => by have := hn c hc; simp only [List.length_cons] at this; omega)
    have e : a + (i + 1) = a + 1 + i := by omega
    rw [e, Memory.cells]
    split
    · simpa using ih
    · rw [List.cons_append, Memory.read, if_neg (by omega), ih]; simp

/-- A read of a written byte gives the byte written. -/
theorem Memory.read_write_same (x : Byte) (m : List Host.Cell) (a : Nat) (bs : List Byte) (i : Nat) (h : i < bs.length) :
    Memory.read x (Memory.write x m a bs) (a + i) = bs.getD i x := by
  rw [Memory.write, List.append_assoc, Memory.read_append_left]
  · exact Memory.read_cells x a bs i _ h (fun c hc => by simpa using (List.mem_filter.1 hc).2)
  · intro c hc
    have := (List.mem_filter.1 hc).2
    simp only [decide_eq_true_eq] at this
    omega

end Sys2Proof.Machine
end

