-- ==== Sys2Proof/Laws/Ops.lean ====
section
/-! SUPPORT. What the shared operations of the commands can do, said once each. -/

namespace Sys2Proof.Machine

/-- An entry of a changed table. -/
@[simp] theorem upd_get {α : Type} {n : Nat} (v : Vector α n) (i : Fin n) (f : α → α) (k : Nat) (h : k < n) :
    (upd v i f)[k] = if k = i.val then f v[k] else v[k] := by
  simp only [upd]
  by_cases hk : k = i.val
  · subst hk; simp
  · simp [hk, Ne.symm hk]

/-- The changed entry of a table. -/
theorem upd_same {α : Type} {n : Nat} (v : Vector α n) (i : Fin n) (f : α → α) : (upd v i f)[i] = f v[i] := by simp

/-- The other entries of a changed table. -/
theorem upd_other {α : Type} {n : Nat} (v : Vector α n) (i j : Fin n) (f : α → α) (h : j ≠ i) : (upd v i f)[j] = v[j] := by
  simp [Fin.val_ne_of_ne h]

/-- Two changes of one entry. -/
@[simp] theorem upd_upd {α : Type} {n : Nat} (v : Vector α n) (i : Fin n) (f g : α → α) :
    upd (upd v i f) i g = upd v i (fun x => g (f x)) := by
  simp [upd]

/-- A change that leaves the entry as it is. -/
@[simp] theorem upd_id {α : Type} {n : Nat} (v : Vector α n) (i : Fin n) : (upd v i fun x => x) = v := by
  simp [upd]

/-- Putting an entry back. -/
@[simp] theorem upd_back {α : Type} {n : Nat} (v : Vector α n) (i : Fin n) (x : α) (h : x = v[i]) : (upd v i fun _ => x) = v := by
  subst h; simp [upd]

end Sys2Proof.Machine
end

