-- ==== Sys2Proof/Laws/Power.lean ====
section
/-! SUPPORT. What the commands that can lower POC_EN do to the ports (spec/04_creel_links.md R156). -/

namespace Sys2Proof.Machine

/-- No POC_EN has fallen where none changed. -/
@[simp] theorem State.dropFallen_same (s : State) : s.dropFallen s.dev.pins.pocEn = s := by
  have h : ∀ (l : List PortNo) (t : State), l.foldl (fun t p =>
      if (s.dev.pins.pocEn &&& ~~~s.dev.pins.pocEn).getLsbD p.val ∧ (t.dev.ports[p]).locksHeld then t.loseLock p false else t) t = t := by
    intro l
    induction l with
    | nil => intro t; rfl
    | cons p l ih => intro t; rw [List.foldl_cons, if_neg (by simp), ih]
  exact h _ _

/-- An operation that leaves POC_EN as it is takes the lock of no port. -/
theorem State.runPower_of_pins (s : State) (f : Dev → Dev) (h : (f s.dev).pins.pocEn = s.dev.pins.pocEn) :
    s.runPower f = { s with dev := f s.dev } := by
  have e := State.dropFallen_same { s with dev := f s.dev }
  simp only [h] at e
  exact e

end Sys2Proof.Machine
end

