-- ==== Sys2Proof/Tests/Slice0.lean ====
section
/-! SUPPORT. The model's own tests: for every statement a state and operands that meet its hypotheses, ill-formed commands that
are refused, and single steps with results taken from the manual. -/

namespace Sys2Proof.Tests
open Sys2Proof Sys2Proof.Machine
set_option Elab.async false
set_option linter.unusedSimpArgs false

/-- A small image: port 0 with strand 0 (8 x 4, RAW, one exposure) and layout 0 with stream 0. -/
def img0 : Image :=
  { bankB := false, generation := 1, digest := 7, sequence := 1, spareCount := 4, spareMin := 1, sinkOwner := false,
    defaultLayout := 0, pfInput := 0xFF, pfThreshold := 0,
    ports := [⟨2, 0, 0, true, [0, 255, 255, 255], [0, 0xFFFF, 0xFFFF, 0xFFFF]⟩],
    captures := [⟨0, 1, 255, 255, 0, 0, 0, 0⟩], cardings := [⟨0, 0, 0, 0, 0, 8, 4, 1, 0⟩],
    profiles := [⟨0, 2, 0xFFFF, 4, 1, 8, 4, 0x2C, 1, 0, 100000, 0, 0xFFFF, 0xFFFF, ⟨1, 1000, 256, 4096⟩, 0, 0, [⟨10, 256, 4096⟩]⟩],
    layouts := [⟨0, 7, false, 5, 1, 0, 30, 8, 4, 0, 0, none, [⟨0, 0, 0, [0], 0, 8, 4, 0, 0, 0, 8, 4, 1000⟩]⟩],
    chains := [⟨0, 1, 0, 0, [.cropscale]⟩], mosaics := [⟨2, 2, []⟩], pwls := [], blocks := [], tones := [], transfers := [],
    defects := [], meshes := [], time := TimeCfg.rom, ring := RingCfg.rom, convs := [], inputs := [],
    record := ⟨1, false, 0x04C11DB7, 0, 0, false, false⟩, ply := ⟨2, 4, 100, 0x04C11DB7, 0, 0, false, false⟩, binds := [] }

/-- Power-on, then the registers as `f` sets them. -/
def st (f : Dev → Dev) : State := State.reset.run f

/-- The running state with the small image. -/
def live (d : Dev) : Dev := { d with aon := { d.aon with phase := .running, refclk := true }, img := some img0 }

/-- Every such state meets the invariant. -/
theorem st_inv (f : Dev → Dev) : (st f).Inv := State.run_inv _ _ (by decide)

/-- Accesses of core 0 and of the JTAG port. -/
def byCore : Access := ⟨.core 0, 0, 0⟩
def byJtag : Access := ⟨.jtag, 0, 0⟩

/-- The running state with port 0 as `f` sets it. -/
def port0 (f : Port → Port) (d : Dev) : Dev := (live d).onPort 0 f
theorem port0_at (f : Port → Port) : (st (port0 f)).dev.ports[0] = f Port.reset := by
  simp only [st, port0, State.run_dev, Dev.settle_ports, Dev.onPort, upd_get]
  simp [live, State.reset, Dev.reset]

/-- The small image's strand 0 on its trained port, in Drive under layout 0, with the frames given. -/
def carding (fs : List Frame) (d : Dev) : Dev :=
  let e := port0 (fun x => { x with step := .trained }) d
  { e with
    sys := { d.sys with mode := .drive, activeLayout := 0 }
    lay := { d.lay with strand := Vector.replicate 64 (some 0), stream := Vector.replicate 64 (some 0) }
    strands := upd d.strands 0 fun g => { g with frames := fs } }
/-- A frame of strand 0. -/
def frame0 (isOpen : Bool) (packets : Nat) : Frame :=
  { num := 7, sensorNo := 3, start := 0, isOpen := isOpen, close := 0, abandoned := false, byEnd := false, layout := 0, valid := false,
    firstValid := false, capture := ⟨0, 0, 0, 0⟩, whorl := 0, quality := 0, w6 := 0, flags := 0, opening := [], closing := [],
    readback := none, issued := false, nonConforming := false, packets := packets, lines := [], rowsDone := packets, merged := [], static := 0,
    dynamic := 0, flicker := 0, allSat := 0, padded := 0, cut := 0, missing := 0, deferral := 0, markGap := 0, slot := 0 }
theorem carding_trained (fs : List Frame) : (st (carding fs)).dev.trained 0 = true := by
  simp [st, carding, Dev.trained, port0, live, Dev.onPort]
theorem carding_frames (fs : List Frame) : ((st (carding fs)).dev.strands[(0 : StrandNo)]).frames = fs := by
  simp [st, carding]
theorem carding_img (fs : List Frame) : (st (carding fs)).dev.img = some img0 := by
  simp [st, carding, port0, live, Dev.onPort]
theorem carding_at (fs : List Frame) : (st (carding fs)).dev.strandAt 0 0 = some 0 := by
  simp only [Dev.strandAt, carding_img]; decide
theorem carding_active (fs : List Frame) : (st (carding fs)).dev.active 0 = true := by
  simp [Dev.active, Dev.pathOn, Dev.strandLayout, Dev.layoutCfg, carding_img, st, carding]; decide
/-- The running state with strand 0 as `f` sets it, on the image `i`. -/
def strand0 (i : Image) (f : Strand → Strand) (d : Dev) : Dev :=
  let e := carding [] d
  { e with img := some i, strands := upd e.strands 0 f, ports := upd e.ports 0 fun x => { x with locked := true, reqCtl := 0x10 } }
/-- The small image with the sink as owner of the exposure. -/
def imgSink : Image := { img0 with sinkOwner := true }
/-- The small image with strand 0 in mode 2 on input 1, and in mode 3 with a mark each um. -/
def imgTrig : Image := { img0 with captures := [⟨2, 1, 255, 1, 0, 0, 0, 0⟩] }
def imgMark : Image := { img0 with captures := [⟨3, 1, 255, 0, 1, 0, 0, 0⟩] }
theorem strand0_at (i : Image) (f : Strand → Strand) :
    (st (strand0 i f)).dev.strands[0] = f { Strand.reset with frames := [] } := by
  simp [st, strand0, carding, port0, live, Dev.onPort, State.reset, Dev.reset]
theorem strand0_img (i : Image) (f : Strand → Strand) : (st (strand0 i f)).dev.img = some i := by
  simp [st, strand0]
theorem strand0_active (i : Image) (f : Strand → Strand)
    (h : (match i.layout 0 with | some l => bitAt l.strandMask 0 && (i.portCfg 0).enabled | none => false) = true) :
    (st (strand0 i f)).dev.active 0 = true := by
  have hm : (st (strand0 i f)).dev.sys.mode = .drive := by simp [st, strand0, carding]
  have hl : (st (strand0 i f)).dev.lay.strand[(0 : StrandNo)] = some 0 := by simp [st, strand0, carding]
  simp only [Dev.active, Dev.pathOn, hm, Dev.strandLayout, hl, Option.bind_some, Dev.layoutCfg, strand0_img, Bool.true_and]
  revert h; cases i.layout 0 <;> simp [portOf]
/-- A state with the odometer on, its edges of 1 um and the moves given. -/
def withOdo (moves : List (Nat × Int)) (d : Dev) : Dev :=
  { d with whl := { d.whl with cfg := { d.whl.cfg with odoEnabled := true, edgeSize := 65536, invert := false },
                               w6 := { W6.reset with moves := moves } } }
/-- An output frame of stream 0 under layout 0 with one tile. -/
def out0 (x : TileSt) (released : List Nat) (handed : Nat) : OutFrame :=
  { key := 5, layout := 0, num := 7, sources := [(0, 7)], tiles := [⟨x, false, false, none, none, false⟩], released := released,
    deadlines := [100], handed := handed, repeated := false, substituted := false, spareLow := false, switched := false,
    degraded := false, ringSlot := 0, sentLines := [], ltmAcc := [], gains := [], firstValid := false, opened := none, lost := false }
/-- The running block with output frames of stream 0, spindle 0 as `f` sets it, 64 cells of tile credit and an open link. -/
def outs (fs : List OutFrame) (f : Spindle → Spindle) (d : Dev) : Dev :=
  let e := carding [] d
  { e with
    streams := upd e.streams 0 fun g => { g with frames := fs }
    spn := { e.spn with spindles := upd e.spn.spindles 0 f }
    bob := e.bob.onQueue 128 fun q => { q with credit := 64 }
    ply := { e.ply with st := .up, map := 3, count := 2 } }
/-- The running block with its time bases as `f` sets them. -/
def whorls (f : Whl → Whl) (d : Dev) : Dev := { (live d) with whl := f d.whl }
/-- W1 and W2 in a servo state, with the sources given and a step threshold of 1 us. -/
def servos (x : ServoState) (src1 src2 : Nat) (w : Whl) : Whl :=
  { w with
    servo := Vector.replicate 5 { Servo.reset with st := x }
    cfg := { w.cfg with
      whorls := [⟨src1, 0, 1000, 1, 1, 0, 100, 1, 0⟩, ⟨src2, 0, 1000000000, 1, 1, 0, 100, 1, 0⟩], ppsOut := 1, w7Source := 3 }
    w7 := { w.w7 with period := 1000, locked := true } }
/-- The running block on both rings, segment 1 a child of segment 0, in the full tier with its ports up and the ring as `f` sets it. -/
def ring (f : Skn → Skn) (d : Dev) : Dev :=
  let e := live d
  { e with aon := { e.aon with tier := Vector.replicate 2 .full },
           img := some { img0 with ring := { RingCfg.rom with segments := [(0xFF, 0), (0, 3)] } },
           skn := f { d.skn with ports := Vector.replicate 4 { RPort.reset with up := true }, ids := #v[some 0x0103, none],
                                 enumd := Vector.replicate 2 true, count := Vector.replicate 2 8 } }
/-- A ring message of a type to a node. -/
def msg (mtype : Byte) (dest : Half) (wrapped : Bool) (payload : List Byte) : RingMsg :=
  { mtype := mtype, west := false, wrapped := wrapped, ringB := false, hops := 3, tag := 7, dest := dest, src := 0x0105, addr := 0,
    len := payload.length, code := 0, detail := 0, payload := payload }
/-- A junction between segments 0 and 1. -/
def junction (enumd : Bool) (k : Skn) : Skn :=
  { k with junction := true, ids := #v[some 0x0003, some 0x0100], enumd := #v[true, enumd] }
theorem wit_StepRunsFrontCommand : ∃ (s : State), s.pending = .bypass :: [.idcode] :=
  ⟨{ st live with pending := [.bypass, .idcode] }, rfl⟩
theorem wit_EmptyQueueLetsTimePass :
    (∃ s : State, s.pending = [] ∧ s.Inv ∧ s.dev.released = false) ∧ (∃ s : State, s.pending = [] ∧ s.Inv ∧ s.dev.released = true) :=
  ⟨⟨st id, rfl, st_inv _, by decide⟩, ⟨st live, rfl, st_inv _, by decide⟩⟩
theorem wit_InvariantKept : ∃ s t : State, s.Inv ∧ step s = .next t := ⟨st live, _, st_inv _, rfl⟩
theorem wit_RefusedWriteChangesNothing :
    (∃ s : State, ∀ off ∈ [0x24, 0xC, 0x50014, 0x60000, 0x80024, 0x3010C], s.dev.accepts byCore (regAddr off) 0 = false) ∧
    (∃ s : State, s.dev.released = true ∧ s.dev.accepts byJtag (regAddr 0x50014) 0 = false) :=
  ⟨⟨st id, by decide⟩, ⟨st fun d => { (live d) with sys := { d.sys with mode := .shutdown } }, by decide⟩⟩
theorem wit_ResetSources : (st live).dev.aon.phase ≠ .powerReset := by decide
theorem wit_RetimerBringUp :
    (∃ s : State, s.Inv ∧ s.dev.aon.phase = .powerReset ∧ s.dev.aon.refclk = true) ∧
    (∃ s : State, s.Inv ∧ s.dev.aon.phase ≠ .powerReset ∧ s.dev.skn.stopped = false ∧ s.dev.released = true) ∧
    (∃ s : State, s.Inv ∧ s.dev.aon.tier[ringIx false] = .opening) :=
  ⟨⟨st fun d => { d with aon := { d.aon with refclk := true } }, st_inv _, by decide⟩, ⟨st live, st_inv _, by decide⟩,
    ⟨st fun d => { d with aon := { d.aon with tier := Vector.replicate 2 .opening } }, st_inv _, by decide⟩⟩
theorem wit_StartPath : ∃ s : State, s.Inv ∧ s.dev.aon.phase = .reset :=
  ⟨st fun d => { d with aon := { d.aon with phase := .reset } }, st_inv _, by decide⟩
theorem wit_ImageLoad :
    (∃ s : State, s.Inv ∧ s.dev.released = true ∧ s.dev.fst.trained = false ∧ s.dev.aon.phase ≠ .loading) ∧
    (∃ s : State, s.Inv ∧ s.dev.aon.phase = .loading ∧ s.dev.sys.mode ≠ .shutdown ∧ s.dev.fst.trained = true ∧ s.dev.nvm.booted ≠ 0) :=
  ⟨⟨st live, st_inv _, by decide⟩,
    ⟨st fun d => { d with aon := { d.aon with phase := .loading }, fst := { d.fst with trained := true },
                           nvm := { d.nvm with booted := 1 } }, st_inv _, by decide⟩⟩
theorem wit_SoftwareAndJtagReset :
    ∃ s : State, s.Inv ∧ s.dev.released = true ∧ byJtag.master.diag = true ∧ s.dev.pairs.swrst.pending.getLsbD 0 = true ∧
      (0xFFFFFFFE : Word) = ~~~s.dev.pairs.swrst.pending ∧ byCore.master.diag = false :=
  ⟨st fun d => { live d with pairs := { d.pairs with swrst := ⟨0, 1⟩ } }, st_inv _, by decide⟩
/-- R81, R590: the cause of a power-on reset. -/
theorem test_power_on_cause : (match exec .powerOnReset (st live) with | .next t => t.dev.aon.cause | _ => 0) = 1 := by decide
/-- R82, R111: BOOT_SEL 0b11 starts the ROM safe personality, with FAULT_N high and ALERT_N low (R553). -/
theorem test_strap_safe :
    (match exec (.porstRelease 3 1) (st fun d => { d with aon := { d.aon with phase := .reset }, nvm := { d.nvm with sfdp := ⟨false, false, false⟩ } }) with
     | .next t => decide (t.dev.aon.phase = .romSafe) && decide (t.dev.pins.faultN = true) && decide (t.dev.pins.alertN = false)
     | _ => false) = true := by decide
theorem wit_LoReadLatchesHi :
    (st live).dev.released = true ∧ 0x20300 ∈ loOffsets ∧ (st live).dev.view byCore.master 0x20300 = .lo 0 := by decide
theorem wit_WideWriteCommitsBothHalves : ∃ s : State, s.dev.released = true ∧ s.dev.sys.mode = .production :=
  ⟨st fun d => { (live d) with sys := { d.sys with mode := .production } }, by decide⟩
theorem wit_SingleRegisterAccesses :
    (st live).dev.released = true ∧ (st live).dev.accepts byCore (regAddr 0x600060) 1 = true ∧ sizeOk 4 = true ∧
      (st live).dev.accepts byCore (regAddr (0x800000 + 0xFFFFC)) 5 = true ∧ (st live).dev.listed byCore.master 0xFFFC = false := by
  decide
theorem wit_BroadcastBusyWrites : ∃ s : State, s.dev.released = true ∧ s.dev.skn.bcBusy = true ∧ (1 : Word).getLsbD 0 = true :=
  ⟨st fun d => { (live d) with skn := { d.skn with bcBusy := true } }, by decide⟩
theorem wit_PairPendingAndRejections_pending :
    (st live).dev.released = true ∧ (st live).dev.accepts byJtag (regAddr (pairOff .modeReq)) 2 = true ∧
      (st live).dev.accepts byJtag (regAddr (pairOff .sknPinB)) 2 = true := by decide
theorem wit_PairCommits :
    (st live).dev.released = true ∧ (st live).dev.accepts byJtag (regAddr 0x50014) (~~~(st live).dev.pairs.nvmPin.pending) = true ∧
      (st live).dev.accepts byJtag (regAddr 0x300E4) (~~~(st live).dev.pairs.sknPinA.pending) = true ∧ byJtag.master.diag = true := by
  decide
theorem wit_PairPendingAndRejections_rejected :
    (st live).dev.released = true ∧ (1 : Word) ≠ ~~~((st live).dev.pairs.win[0]).pending ∧
      (1 : Word) ≠ ~~~(st live).dev.pairs.nvmPin.pending ∧ (st live).dev.accepts byJtag (regAddr 0x50014) 1 = true ∧
      (1 : Word) ≠ ~~~(st live).dev.pairs.modeReq.pending := by decide
/-- R79, R592: NVM_PIN written 2, its complement to NVM_PIN_C. -/
theorem test_pin_bank_b :
    (match exec (.nvmPin byJtag 0xFFFFFFFD) (st fun d => { (live d) with pairs := { d.pairs with nvmPin := ⟨0, 2⟩ } }) with
     | .next t => t.dev.jnl.pin | _ => 9) = 2 := by decide
/-- R96: Drive from Standby with an absent layout 5 answers LAYOUT. -/
theorem test_mode_request_layout :
    (match exec (.modeRequest byJtag (~~~0x502)) (st fun d => { (live d) with pairs := { d.pairs with modeReq := ⟨0, 0x502⟩ } }) with
     | .next t => t.dev.sys.result | _ => 7) = 2 := by decide
theorem wit_ModeEvents :
    (∃ s : State, s.dev.sys.mode = .shutdown ∧ s.dev.sys.shutdownStep = 1 ∧ s.dev.nvm.fitted = true) ∧
    (∃ (s : State) (x : Transition), s.dev.sys.mode = .warmup ∧ s.dev.sys.transition = some x ∧ x.target ≠ .depot ∧
      (∃ l, s.dev.layoutCfg x.layout = some l ∧ ∃ n ∈ l.strands, s.dev.strandLive n = false)) ∧
    (∃ s : State, s.dev.tst.rlCheck = none ∧ s.dev.aon.phase ≠ .romSafe ∧ s.dev.sys.transition = none ∧
      s.dev.sys.mode ≠ .warmup ∧ s.dev.layoutCfg 9 = none) ∧
    (∃ s : State, s.dev.tst.rlCheck = none ∧ s.dev.aon.phase = .romSafe) :=
  ⟨⟨st fun d => { d with sys := { d.sys with mode := .shutdown, shutdownStep := 1 } }, by decide⟩,
   ⟨st fun d => { (live d) with sys := { d.sys with mode := .warmup, transition := some ⟨.drive, 0⟩ } }, ⟨.drive, 0⟩, by decide,
     by decide, by decide, _, rfl, 0, by decide, by decide⟩,
   ⟨st live, by decide⟩, ⟨st fun d => { d with aon := { d.aon with phase := .romSafe } }, by decide⟩⟩
theorem wit_JournalSets_written :
    (∃ s : State, s.dev.released = true ∧ s.dev.jnl.changed = true ∧ s.dev.jnl.held = false ∧ s.dev.jnl.closed = false) ∧
    (∃ s : State, s.dev.jnl.due = some 2 ∧ s.dev.mayWriteSet 2 = true ∧
      (s.dev.jnl.erasing.any fun e => decide (e = (1, s.dev.jnl.slot[(1 : Fin 2)] / 4))) = false) :=
  ⟨⟨st fun d => { (live d) with jnl := { d.jnl with changed := true } }, by decide⟩,
   ⟨st fun d => { (live d) with jnl := { d.jnl with due := some 2 } }, by decide⟩⟩
theorem wit_JournalSets_completed :
    (∃ s : State, s.dev.jnl.writing = some ((1 : Fin 2).val, 4, 1, [0]) ∧ s.dev.sys.shutdownStep = 0) ∧
    (∃ s : State, s.dev.jnl.writing = some ((1 : Fin 2).val, 4, 1, [0]) ∧ s.dev.sys.shutdownStep = 4 ∧ s.dev.jnl.closed = true) ∧
    (∃ s : State, s.dev.jnl.erasing = ((0 : Fin 2).val, 3) :: []) :=
  ⟨⟨st fun d => { (live d) with jnl := { d.jnl with writing := some (1, 4, 1, [0]) } }, by decide⟩,
   ⟨st fun d => { (live d) with jnl := { d.jnl with writing := some (1, 4, 1, [0]), closed := true }
                                sys := { d.sys with shutdownStep := 4 } }, by decide⟩,
   ⟨st fun d => { (live d) with jnl := { d.jnl with erasing := [(0, 3)] } }, by decide⟩⟩
/-- An open session of core 0 with `pages` written and a status. -/
def staged (pages : List Nat) (status : StageStatus) (offset : Word) (d : Dev) : Dev :=
  { (live d) with nvm := { d.nvm with
      status := status, offset := offset, session := some ⟨byCore, 512, true, pages, List.replicate 256 0, none, 0⟩ } }
theorem wit_StagingPages :
    (∃ s : State, s.dev.released = true ∧ s.dev.nvm.session = none ∧ s.dev.stagingMode = true) ∧
    (∃ s : State, s.dev.released = true ∧ s.dev.nvm.session = none ∧ s.dev.stagingMode = false) ∧
    (∃ s : State, s.dev.released = true ∧ s.dev.nvm.session.isSome = true ∧ s.dev.nvm.status = .erasing ∧ s.dev.nvm.fitted = true) ∧
    (∃ (s : State) (x : Session), s.dev.released = true ∧ s.dev.nvm.session = some x ∧ x.owner = byCore ∧ s.dev.nvm.fitted = true ∧
      s.dev.nvm.status = .ready ∧ s.dev.accepts byCore (regAddr 0x5002C) 0 = true ∧
      x.outOfRange s.dev.nvm.offset.toNat 512 = true ∧ x.outOfRange s.dev.nvm.offset.toNat 256 = false ∧
      0 < s.dev.nvm.offset.toNat) ∧
    (∃ (s : State) (x : Session), s.dev.nvm.session = some x ∧ s.dev.nvm.offset = 0 ∧
      x.outOfRange s.dev.nvm.offset.toNat 256 = false) ∧
    (∃ s : State, s.dev.released = true ∧ s.dev.nvm.status = .programming) :=
  ⟨⟨st live, by decide⟩, ⟨st fun d => { (live d) with sys := { d.sys with mode := .drive } }, by decide⟩,
   ⟨st (staged [] .erasing 0), by decide⟩, ⟨st (staged [] .ready 256), _, by decide, rfl, by decide⟩,
   ⟨st (staged [] .ready 0), _, rfl, by decide⟩, ⟨st (staged [] .programming 0), by decide⟩⟩
theorem wit_StagingEnds :
    (∃ (s : State) (x : Session), s.dev.released = true ∧ s.dev.nvm.session = some x ∧ x.owner = byCore ∧
      s.dev.nvm.status = .ready ∧ ∀ v, s.dev.accepts byCore (regAddr 0x50020) v = true) ∧
    (∃ (s : State) (x : Session), s.dev.released = true ∧ s.dev.nvm.session = some x ∧ s.dev.nvm.status = .verifying ∧ s.dev.nvm.fitted = true) ∧
    (∃ (s : State) (x : Session), s.dev.released = true ∧ s.dev.nvm.session = some x ∧ s.dev.nvm.status = .erasing ∧
      s.dev.nvm.fitted = true) ∧
    (∃ (s : State) (x : Session), s.dev.released = true ∧ s.dev.nvm.session = some x ∧ s.dev.nvm.status = .programming) :=
  ⟨⟨st (staged [] .ready 0), _, by decide, rfl, by decide, by decide, fun _ => rfl⟩, ⟨st (staged [] .verifying 0), _, by decide, rfl, by decide⟩, ⟨st (staged [] .erasing 0), _, by decide, rfl, by decide⟩,
   ⟨st (staged [] .programming 0), _, by decide, rfl, by decide⟩⟩
/-- R77: COMMIT with a page missing closes the session as INCOMPLETE. -/
theorem test_commit_incomplete :
    (match exec (.stageCommit byCore) (st (staged [0] .ready 0)) with
     | .next t => decide (t.dev.nvm.status = .incomplete) && t.dev.nvm.session.isNone | _ => false) = true := by decide
theorem wit_LaneTraining (c : EqCoeffs) :
    (∃ s : State, (s.dev.ports[(0 : PortNo)]).step = .ts1 ∧ (0 : Byte).toNat = (s.dev.ports[(0 : PortNo)]).rate) ∧
    (∃ s : State, (s.dev.ports[(0 : PortNo)]).step = .ts2 ∧ s.dev.img = some img0 ∧ (img0.portCfg 0).minEye ≤ 20) ∧
    (∃ s : State, (s.dev.ports[(0 : PortNo)]).step = .linkUp ∧ (s.dev.ports[(0 : PortNo)]).upAcked = true ∧
      (s.dev.ports[(0 : PortNo)]).startCoeffs = some c) ∧
    (∃ s : State, (s.dev.ports[(0 : PortNo)]).step = .waiting) :=
  ⟨⟨st (port0 fun x => { x with step := .ts1 }), by simp [port0_at]; decide⟩,
   ⟨st (port0 fun x => { x with step := .ts2 }), by simp [port0_at], by simp [st, port0, live], by decide⟩,
   ⟨st (port0 fun x => { x with step := .linkUp, upAcked := true, startCoeffs := some c }), by simp [port0_at]⟩,
   ⟨st (port0 fun x => { x with step := .waiting }), by simp [port0_at]⟩⟩
/-- The small image with a minimum eye margin of 9 on port 0. -/
def imgEye : Image := { img0 with ports := [⟨2, 9, 0, true, [], []⟩] }
theorem wit_LaneTrainingFails :
    (∃ s : State, (s.dev.ports[(0 : PortNo)]).step = .ts1 ∧ (s.dev.ports[(0 : PortNo)]).attempts = 2 ∧
      ¬ ((5 : Byte).toNat = 0 ∧ (0 : Byte).toNat = (s.dev.ports[(0 : PortNo)]).rate)) ∧
    (∃ s : State, (s.dev.ports[(0 : PortNo)]).step = .ts2 ∧ ∃ i, s.dev.img = some i ∧ 1 < (i.portCfg 0).minEye) :=
  ⟨⟨st (port0 fun x => { x with step := .ts1, attempts := 2 }), by simp [port0_at]⟩,
   ⟨st fun d => { (port0 (fun x => { x with step := .ts2 }) d) with img := some imgEye },
     by simp [st, port0, Dev.onPort], imgEye, by simp [st], by decide⟩⟩
theorem wit_PortLosesLock :
    (∃ s : State, (s.dev.ports[(0 : PortNo)]).locksHeld = true ∧ s.dev.trained 0 = true ∧ s.dev.pins.pocEn.getLsbD 0 = true) ∧
    (∃ s : State, (s.dev.ports[(0 : PortNo)]).locksHeld = true ∧ s.dev.pins.pocEn.getLsbD 0 = false) :=
  ⟨⟨st fun d => { (port0 (fun x => { x with step := .trained }) d) with pins := { d.pins with pocEn := 1 } },
    by simp [st, port0, Dev.onPort, Dev.trained, Port.locksHeld]⟩,
   ⟨st (port0 fun x => { x with step := .linkUp }), by simp [port0_at, Port.locksHeld], by simp [st, port0, live, Dev.onPort]; decide⟩⟩
theorem wit_BackChannelRequests (m : BcMsg) (k : Nat) :
    (∃ s : State, s.dev.hears 0 = true ∧ (s.dev.ports[(0 : PortNo)]).request 7 = some ⟨7, m, k, 0⟩ ∧
      (s.dev.ports[(0 : PortNo)]).queued = []) ∧
    (∃ s : State, s.dev.hears 0 = true ∧ (s.dev.ports[(0 : PortNo)]).request 7 = none) :=
  ⟨⟨st (port0 fun x => { x with step := .trained, outstanding := [⟨7, m, k, 0⟩], queued := [] }),
     by simp [Dev.hears, port0_at, Port.request]⟩,
   ⟨st (port0 fun x => { x with step := .trained, outstanding := [] }), by simp [Dev.hears, port0_at, Port.request]⟩⟩
theorem wit_HeadStateAndTimer :
    ∃ s : State, s.dev.trained 0 = true ∧ s.dev.hears 0 = true ∧ (s.dev.ports[(0 : PortNo)]).outstanding.length < 8 ∧
      (s.dev.ports[(0 : PortNo)]).request 7 = some ⟨7, .syncReq, 0, 0⟩ ∧ (s.dev.ports[(0 : PortNo)]).syncT1 = some 0 :=
  ⟨st (port0 fun x => { x with step := .trained, outstanding := [⟨7, .syncReq, 0, 0⟩], syncT1 := some 0 }),
    by simp [Dev.hears, Dev.trained, port0_at, Port.request]⟩
/-- R149: the third failed attempt leaves the port waiting and reports a lost camera. -/
theorem test_third_attempt :
    (match exec (.trainingAttemptTimeout 0) (st (port0 fun x => { x with step := .ts1, attempts := 2 })) with
     | .next t => decide ((t.dev.ports[(0 : PortNo)]).step = .waiting) && t.dev.sys.fault.getLsbD 12 | _ => false) = true := by decide
theorem wit_PacketFraming :
    (∃ s : State, s.dev.trained 0 = true) ∧ (∃ s : State, s.dev.trained 0 = false) :=
  ⟨⟨st (port0 fun x => { x with step := .trained }), by simp [Dev.trained, port0_at]⟩, ⟨st id, by decide⟩⟩
theorem wit_DiscardedPackets :
    (∃ s : State, s.dev.trained 0 = true ∧ (s.dev.takeHead 0 ⟨5, false⟩).strandAt 0 0 = some 0 ∧
      (s.dev.takeHead 0 ⟨5, false⟩).active 0 = true) ∧
    (∃ s : State, s.dev.trained 0 = true ∧ (s.dev.takeHead 0 ⟨5, false⟩).strandAt 0 9 = none) ∧
    (∃ s : State, s.dev.trained 0 = true ∧ (s.dev.takeHead 0 ⟨5, false⟩).strandAt 0 0 = some 0 ∧
      (s.dev.takeHead 0 ⟨5, false⟩).active 0 = false) ∧
    (∃ s : State, s.dev.trained 0 = false ∧ s.dev.hears 0 = true) :=
  ⟨⟨st (carding []), by decide⟩, ⟨st (carding []), by decide⟩,
   ⟨st (port0 fun x => { x with step := .trained }), by decide⟩, ⟨st (port0 fun x => { x with step := .linkUp }), by decide⟩⟩
theorem wit_FrameOpens :
    ∃ s : State, s.dev.trained 0 = true ∧ s.dev.strandAt 0 0 = some 0 ∧ s.dev.active 0 = true ∧ s.dev.lay.pending = none ∧
      (∀ f ∈ (s.dev.strands[(0 : StrandNo)]).frames, f.isOpen = false) :=
  ⟨st (carding [frame0 false 4]), carding_trained _, carding_at _, carding_active _, by simp [st, carding, State.reset, Dev.reset, LayoutCtx.reset],
    by simp only [carding_frames]; decide⟩
theorem wit_FrameCloses :
    ∃ (s : State) (f : Frame) (l : List Frame), s.dev.img = some img0 ∧ (s.dev.strands[(0 : StrandNo)]).frames = f :: l ∧
      f.isOpen = true ∧ (∀ x ∈ l, x.num ≠ f.num ∧ x.isOpen = false) ∧ s.dev.trained 0 = true ∧ s.dev.strandAt 0 0 = some 0 ∧
      s.dev.active 0 = true :=
  ⟨st (carding [frame0 true 2]), frame0 true 2, [], carding_img _, carding_frames _, rfl, by simp, carding_trained _, carding_at _,
    carding_active _⟩
theorem wit_ImageLines :
    (∃ (s : State) (f : Frame) (l : List Frame), s.dev.trained 0 = true ∧ s.dev.strandAt 0 0 = some 0 ∧ s.dev.active 0 = true ∧
      s.dev.img = some img0 ∧ ((s.dev.ports[(0 : PortNo)]).lastSeq.any fun x => decide ((5 : Byte) ≠ x + 1)) = false ∧
      (s.dev.strands[(0 : StrandNo)]).frames = f :: l ∧ (∀ x ∈ l, x.num ≠ f.num) ∧ f.isOpen = true ∧
      (0x2C : Byte).toNat = (img0.prof 0).dataType ∧ (0x2A : Byte).toNat ≠ (img0.prof 0).dataType ∧
      f.packets < (img0.prof 0).height * (img0.prof 0).exposures ∧ f.lines.length + 1 = (img0.prof 0).exposures) ∧
    (∃ f : Frame, (img0.prof 0).height * (img0.prof 0).exposures ≤ f.packets) ∧
    (∃ f : Frame, f.packets < (img0.prof 0).height * (img0.prof 0).exposures ∧ f.lines.length + 1 ≠ (img0.prof 0).exposures) :=
  ⟨⟨st (carding [frame0 true 2]), frame0 true 2, [], carding_trained _, carding_at _, carding_active _, carding_img _,
     by simp [st, carding, port0, live, Dev.onPort, State.reset, Dev.reset, Port.reset], carding_frames _, by simp, rfl, by decide,
     by decide, by decide, by decide⟩,
   ⟨frame0 true 4, by decide⟩, ⟨{ frame0 true 2 with lines := [[1]] }, by decide, by decide⟩⟩
theorem wit_EmbeddedReadback : ∃ s : State, s.dev.trained 0 = true ∧ s.dev.strandAt 0 0 = some 0 ∧ s.dev.active 0 = true :=
  ⟨st (carding []), carding_trained _, carding_at _, carding_active _⟩
theorem wit_SinkExposureRequests :
    (∃ s : State, s.dev.tst.rlCheck = none ∧ s.dev.img = some img0 ∧ img0.sinkOwner = false) ∧
    (∃ s : State, s.dev.tst.rlCheck = none ∧ s.dev.img = some imgSink ∧ imgSink.sinkOwner = true ∧ s.dev.active 1 = false) ∧
    (∃ s : State, s.dev.tst.rlCheck = none ∧ s.dev.img = some imgSink ∧ s.dev.active 0 = true ∧
      (later 100 (s.dev.strands[(0 : StrandNo)]).frameNo = true ∧ 64 < ((100 : Word) - (s.dev.strands[(0 : StrandNo)]).frameNo).toNat) ∧
      ¬ (later 5 (s.dev.strands[(0 : StrandNo)]).frameNo = true ∧ 64 < ((5 : Word) - (s.dev.strands[(0 : StrandNo)]).frameNo).toNat) ∧
      (s.dev.strands[(0 : StrandNo)]).targets < 8 ∧ (s.dev.strands[(0 : StrandNo)]).windowless = true) ∧
    (∃ s : State, (s.dev.strands[(0 : StrandNo)]).windowless = false ∧ (s.dev.strands[(0 : StrandNo)]).targets < 8) ∧
    (∃ s : State, 8 ≤ (s.dev.strands[(0 : StrandNo)]).targets) :=
  ⟨⟨st (strand0 img0 id), by simp [st, strand0, carding, port0, live, Dev.onPort, State.reset, Dev.reset, Tst.reset, img0]⟩,
   ⟨st (strand0 imgSink id), by simp [st, strand0, carding, port0, live, Dev.onPort, State.reset, Dev.reset, Tst.reset], strand0_img _ _,
     rfl, by simp [Dev.active, Dev.pathOn, Dev.strandLayout, Dev.layoutCfg, strand0_img, st, strand0, carding]; decide⟩,
   ⟨st (strand0 imgSink id), by simp [st, strand0, carding, port0, live, Dev.onPort, State.reset, Dev.reset, Tst.reset], strand0_img _ _,
     by simp [Dev.active, Dev.pathOn, Dev.strandLayout, Dev.layoutCfg, strand0_img, st, strand0, carding]; decide,
     by simp only [Fin.getElem_fin, Fin.val_zero, strand0_at]; decide, by simp only [Fin.getElem_fin, Fin.val_zero, strand0_at]; decide,
     by simp only [Fin.getElem_fin, Fin.val_zero, strand0_at]; decide, by simp only [Fin.getElem_fin, Fin.val_zero, strand0_at]; decide⟩,
   ⟨st (strand0 img0 fun g => { g with windowless := false }), by simp only [Fin.getElem_fin, Fin.val_zero, strand0_at],
     by simp only [Fin.getElem_fin, Fin.val_zero, strand0_at]; decide⟩,
   ⟨st (strand0 img0 fun g => { g with pending := (List.range 8).map fun k => ⟨false, 0, BitVec.ofNat 32 k, BitVec.ofNat 32 k, [], false, false, false, false⟩ }),
     by simp only [Fin.getElem_fin, Fin.val_zero, strand0_at]; decide⟩⟩
theorem wit_CoreRequestsAndWrites :
    (∃ s : State, s.dev.released = true ∧ s.dev.accepts byJtag (regAddr (0x100068 + 0x10000 * 0)) 1 = true) ∧
    (∃ s : State, s.dev.released = true ∧ s.dev.accepts byCore (regAddr (0x100068 + 0x10000 * 0)) 1 = true ∧
      s.dev.img = some imgSink ∧ imgSink.sinkOwner = true ∧ (s.dev.ports[(0 : PortNo)]).results.length < 32) ∧
    (∃ s : State, s.dev.released = true ∧ s.dev.img = some img0 ∧ img0.sinkOwner = false ∧ s.dev.active 0 = true ∧
      (s.dev.strands[(0 : StrandNo)]).windowless = true ∧ (s.dev.strands[(0 : StrandNo)]).targets < 8) :=
  ⟨⟨st fun d => { (live d) with sys := { d.sys with mode := .production } }, by decide⟩,
   ⟨st fun d => { (live d) with img := some imgSink }, by decide⟩,
   ⟨st (strand0 img0 id), by simp [Dev.released, st, strand0, carding, port0, live, Dev.onPort],
     strand0_img _ _, rfl, strand0_active _ _ (by decide), by simp only [Fin.getElem_fin, Fin.val_zero, strand0_at]; decide,
     by simp only [Fin.getElem_fin, Fin.val_zero, strand0_at]; decide⟩⟩
theorem strand0_regs (f : Strand → Strand) : (strandOf (4 * (0 : PortNo).val +
      ((st (strand0 img0 f)).dev.ports[(0 : PortNo)]).reqCtl.toNat % 4) = 0) ∧
    ((st (strand0 img0 f)).dev.ports[(0 : PortNo)]).regEntries ≠ [] := by
  have h : ((st (strand0 img0 f)).dev.ports[(0 : PortNo)]).reqCtl = 0x10 := by simp [st, strand0]
  have hb : bitsOf 4 ((0x10 : Word).toNat / 16) = [0] := by decide
  exact ⟨by rw [h]; decide, by simp only [Port.regEntries, h, hb]; simp⟩
theorem wit_CoreRequestsAndWrites_queues (r : ExpResult) (q : ExpReq) (h : q.sent = false) :
    (∃ s : State, s.dev.released = true ∧ (s.dev.ports[(0 : PortNo)]).results = [r]) ∧
    (∃ s : State, s.dev.released = true ∧
      ((s.dev.strands[(0 : StrandNo)]).pending.find? fun y => decide (y.target = q.target) && !y.sent) = some q) ∧
    (∃ s : State, s.dev.released = true ∧ ((s.dev.strands[(0 : StrandNo)]).assembly.any fun y => decide (y.1 = 3)) = true) :=
  ⟨⟨st (port0 fun x => { x with results := [r] }), by simp [Dev.released, st, port0, live, Dev.onPort], by simp [port0_at]⟩,
   ⟨st (strand0 img0 fun g => { g with pending := [q] }), by simp [Dev.released, st, strand0, carding, port0, live, Dev.onPort],
     by simp [strand0_at, h]⟩,
   ⟨st (strand0 img0 fun g => { g with assembly := [(3, [])] }), by simp [Dev.released, st, strand0, carding, port0, live, Dev.onPort],
     by simp [strand0_at]⟩⟩
theorem wit_ExposureStarts (t : Trig) (b : Bool) :
    (∃ s : State, (s.dev.strands[(0 : StrandNo)]).armed = [t] ∧ (s.dev.strands[(0 : StrandNo)]).busy.isSome = b) ∧
    (∃ s : State, (s.dev.strands[(0 : StrandNo)]).busy = some (t, false) ∧ (s.dev.strands[(0 : StrandNo)]).deferred = some t ∧
      s.dev.sys.mode ≠ .shutdown ∧ s.dev.timerLocked 0 = true) :=
  ⟨⟨st (strand0 img0 fun g => { g with armed := [t], busy := if b then some (t, true) else none }), by cases b <;> simp [strand0_at]⟩,
   ⟨st (strand0 img0 fun g => { g with busy := some (t, false), deferred := some t }), by simp [strand0_at], by simp [strand0_at],
     by simp [st, strand0, carding], by simp [st, strand0, Dev.timerLocked, portOf]⟩⟩
theorem wit_TriggersAndMarks :
    (∃ s : State, s.dev.sys.mode ≠ .shutdown ∧ (s.dev.capture 0).mode = 2 ∧ s.dev.active 0 = true ∧ (s.dev.capture 0).trigIn = 1 ∧
      s.dev.timerLocked 0 = true ∧ (s.dev.strands[(0 : StrandNo)]).occupied = false) ∧
    (∃ s : State, s.dev.whl.cfg.odoEnabled = true ∧ s.dev.whl.w6.a = false ∧ s.dev.whl.w6.b = false) ∧
    (∃ s : State, s.dev.whl.cfg.odoEnabled = true ∧
      (let w1 := s.dev.whl.w6.edge s.dev.whl.tim s.dev.whl.cfg.edgeSize s.dev.whl.cfg.invert true false
       let c := s.dev.capture 0
       s.dev.whl.w6.a = false ∧ s.dev.whl.w6.b = false ∧ c.mode = 3 ∧ c.markRepeat = 0 ∧
       c.qualifies (decide (s.dev.whl.w6.pos ≤ w1.pos)) = true ∧ c.crossed s.dev.whl.w6.pos w1.pos = [1])) ∧
    (∃ s : State, (s.dev.capture 0).mode = 3 ∧ s.dev.active 0 = true ∧ s.dev.sys.mode ≠ .shutdown ∧ s.dev.timerLocked 0 = true ∧
      (s.dev.strands[(0 : StrandNo)]).occupied = false ∧ s.dev.nextMark 0 = some (1, 65536) ∧
      ((65536 : Int) * 1000000000 / (s.dev.whl.w6.velocity s.dev.whl.tim).natAbs).toNat < 1000000) :=
  ⟨⟨st (strand0 imgTrig id), by simp [st, strand0, carding], by simp only [Dev.capture, strand0_img]; decide,
     strand0_active _ _ (by decide), by simp only [Dev.capture, strand0_img]; decide,
     by simp [st, strand0, Dev.timerLocked, portOf], by simp only [Fin.getElem_fin, Fin.val_zero, strand0_at]; decide⟩,
   ⟨st (withOdo []), by decide⟩,
   ⟨st fun d => { (withOdo [] d) with img := some imgMark }, by decide⟩,
   ⟨{ st (strand0 imgMark id) with dev := withOdo [(0, 65536000)] (st (strand0 imgMark id)).dev },
     by simp only [withOdo, Dev.capture, strand0_img]; decide,
     strand0_active imgMark id (by decide), by simp [withOdo, st, strand0, carding], by simp [withOdo, st, strand0, Dev.timerLocked, portOf],
     by simp only [withOdo, Fin.getElem_fin, Fin.val_zero, strand0_at]; decide,
     by simp only [Dev.nextMark, withOdo, Dev.capture, strand0_img, Fin.getElem_fin, Fin.val_zero, strand0_at]
        simp [st, strand0, carding, port0, live, Dev.onPort, State.reset, Dev.reset, Whl.reset, Strand.reset]
        decide,
     by simp [withOdo, st, strand0, carding, port0, live, Dev.onPort, State.reset, Dev.reset, Whl.reset, W6.velocity, W6.moved]⟩⟩
theorem wit_SpindleScheduling_dispatch :
    ∃ (s : State) (r : Ready), (s.dev.longestIdle (allSpindles.filter fun n => s.dev.idleIn .working n)).isSome = true ∧
      firstReady s.dev.readyTiles = some r ∧
      (((s.dev.streams[r.st]).out r.key).bind fun f => f.tiles[r.tile]?).isSome = true :=
  ⟨⟨[], outs [out0 .ready [] 0] id Dev.reset, Mem.reset⟩, ⟨100, 0, 0, 0, 5⟩, by decide +kernel⟩
theorem wit_SpindleScheduling_job :
    ∃ (s : State) (j : Job) (f : OutFrame) (l : LayoutCfg) (e : StreamCfg) (x : Tile),
      (s.dev.spn.spindles[(0 : SpindleNo)]).job = some j ∧ s.dev.img = some img0 ∧ (s.dev.streams[j.stream]).out j.key = some f ∧
      s.dev.cfgOf j.stream f = some (l, e) ∧ f.tiles[j.tile]? = some x ∧ x.st = .running ∧ (x.shadowed = true → x.otherTrapped = false ∧ x.first = none) ∧
      s.dev.whl.tim ≤ f.h (l.cols e) j.tile :=
  ⟨⟨[], outs [out0 .running [] 0] (fun x => { x with job := some ⟨0, 5, 0, false, 0⟩ }) Dev.reset, Mem.reset⟩, ⟨0, 5, 0, false, 0⟩,
    out0 .running [] 0, img0.layouts[0], (img0.layouts[0]).streams[0], ⟨.running, false, false, none, none, false⟩, by decide, rfl,
    by decide +kernel, by decide +kernel, rfl, rfl, by decide, by decide +kernel⟩
theorem wit_SpindleScheduling_selfTest :
    ∃ s : State, (s.dev.spn.spindles[(0 : SpindleNo)]).st = .quarantined ∧ (s.dev.spn.spindles[(0 : SpindleNo)]).job = none :=
  ⟨⟨[], outs [] (fun x => { x with st := .quarantined }) Dev.reset, Mem.reset⟩, by decide⟩
theorem wit_BandsAndPool_band :
    ∃ (s : State) (f : OutFrame) (l : LayoutCfg) (e : StreamCfg),
      ((s.dev.streams[(0 : StreamNo)]).frames.find? fun f => decide (f.handed < f.released.length)) = some f ∧
      (s.dev.streams[(0 : StreamNo)]).out f.key = some f ∧ s.dev.cfgOf 0 f = some (l, e) ∧ f.handed = 0 ∧ s.dev.ply.map ≠ 0 ∧
      0 < l.cols e :=
  ⟨⟨[], outs [out0 .complete [9] 0] id Dev.reset, Mem.reset⟩, out0 .complete [9] 0, img0.layouts[0], (img0.layouts[0]).streams[0], by decide +kernel,
    by decide +kernel, by decide +kernel, by decide, by decide +kernel, by decide⟩
/-- The running block with general queue 256 selected, and its packets as given. -/
def pool (ps : List Pkt) : State :=
  st fun d => { (live d) with bob := ({ d.bob with qsel := 256 }).onQueue 256 fun q => { q with pkts := ps } }
theorem wit_BandsAndPool_pool :
    (∃ s : State, s.dev.released = true ∧ (s.dev.bob.queue s.dev.bob.sel).front 0 = none ∧
      s.dev.accepts byCore (regAddr 0x400010) 1 = true) ∧
    (∃ s : State, s.dev.released = true ∧ (s.dev.bob.queue s.dev.bob.sel).popWord.isSome = true ∧
      0 < (s.dev.bob.queue 256).pkts.length) ∧
    (∃ s : State, s.dev.fst.trained = true) :=
  ⟨⟨pool [], by decide +kernel⟩, ⟨pool [⟨4, [1, 2, 3, 4], false, [0], 0, 0, 0, 0⟩], by decide +kernel⟩,
   ⟨st fun d => { (live d) with fst := { d.fst with trained := true } }, by decide +kernel⟩⟩
/-- The lanes with the frame of the hank given, and frames of strand 0 that wait for lane 0. -/
def hanks (cur : Option HankFrame) (waiting : List (Nat × Word)) (d : Dev) : Dev :=
  let e := carding [frame0 false 4] d
  { e with
    hnk := { e.hnk with
      lanes := upd e.hnk.lanes 0 fun l => { l with strands := [0], cur := cur }
      strands := upd e.hnk.strands 0 fun x => { x with waiting := waiting, laneFor := [(0, 0)] } }
    bob := e.bob.onQueue 192 fun q => { q with credit := 1024 } }
/-- Three bytes of strand 0 under way. -/
def hank0 : HankFrame := ⟨0, 7, [1, 2, 3], 0, 3, 0, true, false, false, 0, 0⟩
theorem wit_HankLanes_start :
    ∃ (s : State) (f : Frame), (s.dev.hnk.lanes[(0 : Fin 4)]).quarantined = false ∧ (s.dev.hnk.lanes[(0 : Fin 4)]).cur = none ∧
      s.dev.laneWaiting 0 = [(0, 0, 7)] ∧ s.dev.img = some img0 ∧ (s.dev.strands[(0 : StrandNo)]).frame 7 = some f ∧
      s.dev.shedRecord 0 = false :=
  ⟨⟨[], hanks none [(0, 7)] Dev.reset, Mem.reset⟩, frame0 false 4, by decide, by decide, by decide +kernel, rfl, by decide, by decide⟩
theorem wit_HankLanes_shed :
    ∃ s : State, (s.dev.hnk.lanes[(0 : Fin 4)]).cur = none ∧ s.dev.laneWaiting 0 = [(0, 0, 7)] ∧ s.dev.shedRecord 0 = true :=
  ⟨⟨[], { hanks none [(0, 7)] Dev.reset with ply := { Dev.reset.ply with shedRec := 1 } }, Mem.reset⟩, by decide, by decide +kernel, by decide⟩
theorem wit_HankLanes_verify :
    ∃ (s : State) (c : HankFrame), (s.dev.hnk.lanes[(0 : Fin 4)]).cur = some c ∧ s.dev.img = some img0 ∧
      c.admits 3 = true ∧ 256 ≤ (s.dev.bob.queue 192).room ∧
      verifyHank (s.dev.hnk.strands[c.strand]).window [0, 3, 0, 252, 255, 1, 2, 3] ((c.bytes.drop c.offset).take 3) true = true ∧
      verifyHank (s.dev.hnk.strands[c.strand]).window [] ((c.bytes.drop c.offset).take 3) true = false :=
  ⟨⟨[], hanks (some hank0) [] Dev.reset, Mem.reset⟩, hank0, by decide, rfl, by decide, by decide, by decide, by decide⟩
theorem wit_PlyTraining :
    (∃ s : State, s.dev.ply.inTraining = true ∧ (1 : Byte) &&& s.dev.ply.lanes ≠ 0 ∧ s.dev.ply.gotLock = true ∧ s.dev.returnOpen = true) ∧
    (∃ s : State, s.dev.ply.inTraining = true ∧ s.dev.ply.gotLock = false ∧ s.dev.ply.st = .reneg) :=
  ⟨⟨st fun d => { (live d) with ply := { d.ply with st := .training, count := 2, gotLock := true } }, by decide +kernel⟩,
   ⟨st fun d => { (live d) with ply := { d.ply with st := .reneg, count := 2 } }, by decide +kernel⟩⟩
/-- The open link over two lanes with what `f` sets. -/
def link (f : Ply → Ply) (d : Dev) : Dev := { (live d) with ply := f { d.ply with st := .up, map := 3, count := 2 } }
theorem link_ply (f : Ply → Ply) : (st (link f)).dev.ply = f { Ply.reset with st := .up, map := 3, count := 2 } := by
  simp [st, link, live, State.reset, Dev.reset]
theorem wit_PlyBlocks (b : BitVec 24 × List Byte) :
    (∃ s : State, s.dev.ply.running = true ∧ s.dev.ply.shedNext = none ∧ s.dev.ply.resend = [b]) ∧
    (∃ s : State, s.dev.ply.running = true ∧ s.dev.ply.shedNext = none ∧ s.dev.ply.resend = [] ∧ 2048 ≤ s.dev.ply.buffer.length) ∧
    (∃ s : State, s.dev.ply.running = true ∧ s.dev.ply.shedNext = none ∧ s.dev.ply.resend = [] ∧ s.dev.ply.buffer.length < 2048 ∧
      s.dev.ply.rest ≠ []) ∧
    (∃ s : State, s.dev.ply.running = true ∧ s.dev.returnOpen = true ∧ later24 5 s.dev.ply.acked = true ∧
      later24 0xFFFFFF s.dev.ply.acked = false) ∧
    (∃ s : State, s.dev.ply.running = true ∧ s.dev.returnOpen = true ∧ s.dev.ply.nakCounts b.1 = true ∧ s.dev.ply.buffer = [b] ∧
      s.dev.ply.replayRun < 4) ∧
    (∃ s : State, s.dev.ply.running = true ∧ s.dev.ply.buffer = [b] ∧ 4 ≤ s.dev.ply.replayRun) ∧
    (∃ s : State, s.dev.ply.running = true ∧ s.dev.ply.results.length ≤ 32 ∧ s.dev.transmits 16 = true ∧ s.dev.tst.rlCheck = none) :=
  ⟨⟨st (link fun p => { p with resend := [b], shedNext := none }), by simp [st, link, Ply.running]⟩,
   ⟨st (link fun p => { p with buffer := List.replicate 2048 b, resend := [], shedNext := none }), 
     by rw [link_ply]; rfl, by rw [link_ply], by rw [link_ply], by
      rw [link_ply]; show 2048 ≤ (List.replicate 2048 b).length; rw [List.length_replicate]⟩,
   ⟨st (link fun p => { p with rest := [1] }), by decide +kernel⟩, ⟨st (link id), by decide +kernel⟩,
   ⟨st (link fun p => { p with buffer := [b], resend := [] }), by
      simp [st, link, Ply.running, Ply.nakCounts, Dev.returnOpen, live, State.reset, Dev.reset, Tst.reset, Ply.reset]⟩,
   ⟨st (link fun p => { p with buffer := [b], replayRun := 4 }), by simp [st, link, Ply.running]⟩,
   ⟨st (link id), by decide +kernel⟩⟩
theorem wit_PlyBlocks_shed (x : DWord × DWord × Word) : ∃ s : State, s.dev.ply.running = true ∧ s.dev.ply.shedNext = some x :=
  ⟨st (link fun p => { p with shedNext := some x }), by simp [st, link, Ply.running], by rw [link_ply]⟩
theorem wit_PlyBlocks_filler :
    ∃ s : State, s.dev.ply.running = true ∧ s.dev.ply.rest = [] ∧ s.dev.ply.queue = [] ∧ ∀ q, (s.dev.bob.queue q).front 1 = none :=
  ⟨st (link id), by decide +kernel, by decide +kernel, by decide +kernel, fun q => by
    have h : (st (link id)).dev.bob.queues = [] := by decide +kernel
    simp [Bob.queue, h, assocGet, PoolQ.front, PoolQ.empty]⟩
theorem wit_PlyLanes :
    (∃ s : State, s.dev.ply.running = true ∧ s.dev.ply.map &&& 1#8 <<< (0 : Fin 8).val ≠ 0 ∧
      (s.dev.ply.map &&& ~~~(1#8 <<< (0 : Fin 8).val)) ||| 0 ≠ 0 ∧ s.dev.ply.buffer = [] ∧ s.dev.returnOpen = true ∧
      (2 : Byte) &&& s.dev.ply.lanes ≠ 0 ∧ s.dev.ply.map &&& ~~~((2 : Byte) &&& s.dev.ply.lanes) ≠ 0 ∧ s.dev.tst.rlCheck = none) ∧
    (∃ s : State, s.dev.ply.running = true ∧ s.dev.ply.map &&& 1#8 <<< (0 : Fin 8).val ≠ 0 ∧
      (s.dev.ply.map &&& ~~~(1#8 <<< (0 : Fin 8).val)) ||| 0 = 0) ∧
    (∃ s : State, s.dev.ply.running = true ∧ s.dev.returnOpen = true ∧ s.dev.ply.map &&& ~~~((3 : Byte) &&& s.dev.ply.lanes) = 0 ∧
      ((3 : Byte) &&& s.dev.ply.lanes) &&& s.dev.ply.retraining ≠ 0 ∧ s.dev.ply.retraining.getLsbD 1 = true) :=
  ⟨⟨st (link id), by decide +kernel⟩, ⟨st (link fun p => { p with map := 1 }), by decide +kernel⟩,
   ⟨st (link fun p => { p with map := 1, retraining := 2 }), by decide +kernel⟩⟩
theorem wit_DofferSlots :
    (∃ (s : State) (f : OutFrame) (l : LayoutCfg) (e : StreamCfg), s.dev.ply.map ≠ 0 ∧ (s.dev.streams[(0 : StreamNo)]).frames = [f] ∧
      s.dev.cfgOf 0 f = some (l, e) ∧ f.handed = l.rows e ∧ (s.dev.sourcesOf f).all (fun p => !p.2.isOpen) = true ∧
      s.dev.ply.linesSent 0 f.key = true ∧ f.lost = false ∧ s.dev.repeatsSlot e = true) ∧
    (∃ (s : State) (l : LayoutCfg) (e : StreamCfg), s.dev.ply.map ≠ 0 ∧ s.dev.slotCfg 0 = some (l, e) ∧ s.dev.pathOn = true ∧
      (s.dev.streams[(0 : StreamNo)]).prev = none ∧ (s.dev.streams[(0 : StreamNo)]).live = false) :=
  ⟨⟨⟨[], outs [out0 .complete [9] 1] id Dev.reset, Mem.reset⟩, out0 .complete [9] 1, img0.layouts[0], (img0.layouts[0]).streams[0],
     by decide +kernel⟩,
   ⟨⟨[], outs [] id Dev.reset, Mem.reset⟩, img0.layouts[0], (img0.layouts[0]).streams[0], by decide +kernel⟩⟩
theorem wit_DofferSlots_prev (p : PrevFrame) : ∃ s : State, s.dev.ply.map ≠ 0 ∧ (s.dev.streams[(0 : StreamNo)]).prev = some p :=
  ⟨⟨[], { (outs [] id Dev.reset) with streams := upd Dev.reset.streams 0 fun g => { g with prev := some p } }, Mem.reset⟩,
    by simp [outs], by simp⟩
theorem wit_WhorlsAndPulses :
    (∃ s : State, s.dev.released = true ∧ (s.dev.whl.servo[(0 : Fin 5)]).st = .tracking ∧ (s.dev.whl.servo[(0 : Fin 5)]).first = none ∧
      ((0 : Word) ++ (heldAt s.dev.bus.lo (.core 1) 0x20168).getD 0 : BitVec 64).toInt.natAbs < (s.dev.whl.cfgOf 1).stepThr * 1000 ∧
      s.dev.whl.cfg.ppsOut ≤ 5 ∧ s.dev.whl.w7.period ≠ 0 ∧ s.dev.whl.cfg.w7Source = 3 ∧ s.dev.whl.w7.locked = true) ∧
    (∃ s : State, s.dev.released = true ∧ (s.dev.whl.servo[(0 : Fin 5)]).st = .acquiring ∧ (s.dev.whl.cfgOf 1).source ≠ 3 ∧
      s.dev.whl.copies 1 = []) ∧
    (∃ s : State, s.dev.released = true ∧ (s.dev.whl.cfgOf ((1 : Fin 5).val + 1)).source = 3 ∧
      (∀ k : Fin 5, k ≠ 1 → (s.dev.whl.cfgOf (k.val + 1)).source ≠ 3) ∧ (s.dev.whl.servo[(1 : Fin 5)]).st = .tracking ∧
      (s.dev.whl.servo[(1 : Fin 5)]).first = none ∧
      (let now : Int := s.dev.whl.nsOf 2
       (now - ((now + 500000000) / 1000000000 * 1000000000 + s.dev.whl.cfg.ppsDelay)).natAbs < (s.dev.whl.cfgOf 2).stepThr * 1000)) :=
  ⟨⟨st (whorls (servos .tracking 1 0)), by decide +kernel⟩, ⟨st (whorls (servos .acquiring 1 0)), by decide +kernel⟩,
   ⟨st (whorls (servos .tracking 1 3)), by decide +kernel⟩⟩
theorem wit_WhorlsAndPulses_saq : ∀ i : Fin 256, ∀ e, (st (whorls (servos .acquiring 1 0))).dev.whl.saq[i] = some e → e.whorl ≠ 1 := by
  intro i e h; simp [st, whorls, servos, State.reset, Dev.reset, Whl.reset] at h
/-- The SAQ registers of core 0 with an entry of action 4 on W1, and an entry at index 40. -/
def saqs (action : Nat) (w : Whl) : Whl :=
  { w with
    saqRegs := upd w.saqRegs (Master.core 0).ix fun r => { r with sel := 40, ctrl := BitVec.ofNat 32 (action * 256 + 1), dueLo := 5 }
    saq := upd w.saq 40 fun _ => some ⟨1, 100, 0, false, 0, 4, 2, 0, 0, 0, 0⟩ }
theorem wit_ScheduledActions (e : SaqEntry) :
    (∃ s : State, s.dev.whl.saq[(40 : Fin 256)] = some e) ∧
    (∃ s : State, s.dev.released = true ∧ (s.dev.whl.saqRegs[(Master.core 0).ix]).entry.invalid = true) ∧
    (∃ s : State, s.dev.released = true ∧ (s.dev.whl.saqRegs[(Master.core 0).ix]).entry.invalid = false ∧
      s.dev.whl.saq[(32 : Fin 256)] = none ∧ s.dev.whl.passed (s.dev.whl.saqRegs[(Master.core 0).ix]).entry = false) ∧
    (∃ s : State, s.dev.released = true ∧ ∀ i : Fin 256, 32 ≤ i.val → s.dev.whl.saq[i] ≠ none) :=
  ⟨⟨st (whorls fun w => { w with saq := upd w.saq 40 fun _ => some e }), by simp [st, whorls]⟩,
   ⟨st (whorls (saqs 0)), by decide +kernel⟩, ⟨st (whorls (saqs 4)), by decide +kernel⟩,
   ⟨st (whorls fun w => { w with saq := Vector.replicate 256 (some e) }), by simp [st, whorls, live, Dev.released], by intro i _; simp [st, whorls]⟩⟩
/-- PTP under a profile, with a master of port 9 and what `f` sets. -/
def ptp (profile : Nat) (f : Ptp → Ptp) (w : Whl) : Whl :=
  let x := servos .tracking 1 0 w
  { x with cfg := { x.cfg with ptpEnabled := true, ptpProfile := profile, ptpDomain := 0 }
           ptp := f { w.ptp with master := some ⟨0, 1, 1, 1, 1, 1, 1, 0, 9⟩ } }
theorem wit_PtpPort :
    (∃ s : State, s.dev.ptpRuns = true ∧ s.dev.fromMaster ⟨0, 9, 4, 0, 100⟩ = true ∧ s.dev.whl.ptp.sync = some (4, 100, 0) ∧
      s.dev.whl.ptp.delay = some 0 ∧ (s.dev.whl.cfgOf 1).source = 1 ∧ s.dev.whl.ptp.delayAge ≤ 16 ∧
      (s.dev.whl.servo[(0 : Fin 5)]).st = .tracking ∧ (s.dev.whl.servo[(0 : Fin 5)]).first = none ∧
      ((100 : Int) - 100 - 0).natAbs < (s.dev.whl.cfgOf 1).stepThr * 1000 ∧ s.dev.whl.ptp.tsq.length < 16) ∧
    (∃ s : State, s.dev.ptpRuns = true ∧ s.dev.fromMaster ⟨0, 9, 4, 0, 100⟩ = true ∧ s.dev.whl.ptp.sync = some (4, 100, 0) ∧
      s.dev.whl.ptp.delay = none) ∧
    (∃ s : State, s.dev.ptpRuns = true ∧ s.dev.fromMaster ⟨0, 9, 4, 0, 100⟩ = true ∧ s.dev.whl.cfg.ptpProfile ≠ 1 ∧
      s.dev.whl.ptp.delayReq = some (4, some 50) ∧ s.dev.whl.ptp.lastSync = some (10, 20)) ∧
    (∃ s : State, s.dev.ptpRuns = true ∧ s.dev.whl.cfg.ptpProfile = 1 ∧ s.dev.whl.ptp.delayReq = some (4, some 50) ∧
      s.dev.whl.ptp.pdResp = some (4, 60, 55, 0)) :=
  ⟨⟨st (whorls (ptp 0 fun p => { p with sync := some (4, 100, 0), delay := some 0 })), by decide +kernel⟩,
   ⟨st (whorls (ptp 0 fun p => { p with sync := some (4, 100, 0) })), by decide +kernel⟩,
   ⟨st (whorls (ptp 0 fun p => { p with delayReq := some (4, some 50), lastSync := some (10, 20) })), by decide +kernel⟩,
   ⟨st (whorls (ptp 1 fun p => { p with delayReq := some (4, some 50), pdResp := some (4, 60, 55, 0) })), by decide +kernel⟩⟩
theorem wit_PtpPort_tsq (x : TsEntry) : ∃ s : State, s.dev.whl.ptp.tsq = [x] :=
  ⟨st (whorls (ptp 0 fun p => { p with tsq := [x] })), by simp [st, whorls, ptp]⟩
theorem wit_RingPorts :
    (∃ s : State, s.dev.aon.tier[ringOf 0] = .full ∧ s.dev.skn.stopped = false ∧ s.dev.laneServes (ringLane 0) = true ∧
      (s.dev.skn.ports[(0 : Fin 4)]).up = false ∧ s.dev.nodeId (ringOf 0) ≠ 0xFFFF ∧ posOf (s.dev.nodeId (ringOf 0)) ≠ 0) ∧
    (∃ s : State, s.dev.aon.tier[ringOf 0] = .full ∧ s.dev.skn.stopped = false ∧ s.dev.laneServes (ringLane 0) = true ∧
      (s.dev.skn.ports[(0 : Fin 4)]).up = false ∧ s.dev.nodeId (ringOf 0) ≠ 0xFFFF ∧ posOf (s.dev.nodeId (ringOf 0)) = 0) ∧
    (∃ s : State, s.dev.aon.tier[ringOf 0] = .retimer ∧ s.dev.skn.stopped = false ∧ s.dev.laneServes (ringLane 0) = true ∧
      (s.dev.skn.ports[(0 : Fin 4)]).up = false) ∧
    (∃ s : State, s.dev.ringIn 0 = true ∧ (s.dev.skn.ports[(0 : Fin 4)]).up = true ∧
      (s.dev.skn.ports[(0 : Fin 4)]).ldlyT1 = some 5 ∧ s.dev.skn.junction = false) ∧
    (∃ s : State, s.dev.ringIn 2 = true ∧ s.dev.skn.junction = false ∧ (s.dev.skn.ports[portFor (ringOf 2) false]).up = true ∧
      (s.dev.skn.ports[portFor (ringOf 2) true]).up = true) ∧
    (∃ s : State, s.dev.ringIn 3 = true ∧ s.dev.skn.junction = false ∧ (s.dev.skn.ports[portFor (ringOf 3) false]).up = false ∧
      (s.dev.skn.ports[portFor (ringOf 3) true]).up = true) :=
  ⟨⟨st (ring fun k => { k with ports := Vector.replicate 4 RPort.reset }), by decide +kernel⟩,
   ⟨st (ring fun k => { k with ids := #v[some 0x0100, none], ports := Vector.replicate 4 RPort.reset }), by decide +kernel⟩,
   ⟨st fun d => let e := live d; { e with aon := { e.aon with tier := Vector.replicate 2 .retimer } }, by decide +kernel⟩,
   ⟨st (ring fun k => { k with ports := Vector.replicate 4 { RPort.reset with up := true, ldlyT1 := some 5 } }), by decide +kernel⟩,
   ⟨st (ring id), by decide +kernel⟩,
   ⟨st (ring fun k => { k with ports := upd k.ports 2 fun x => { x with up := false } }), by decide +kernel⟩⟩
theorem wit_RingPorts_cross (b : Bool) :
    ∃ s : State, s.dev.ringIn 0 = true ∧ s.dev.skn.junction = true ∧ segOf (msg 1 0x0105 false []).dest ≠ segOf (s.dev.nodeId (ringOf 0)) ∧
      s.dev.inSubtree (segOf (s.dev.nodeId 1)) (segOf (msg 1 0x0105 false []).dest) = true ∧ s.dev.skn.enumd[(1 : Fin 2)] = b ∧
      (s.dev.skn.ports[portFor 1 false]).up = true ∧
      (s.dev.skn.ports[portFor 0 (s.dev.goesWest 0 (s.dev.targetPos 0 (msg 1 0x0105 false []).src))]).up = true :=
  ⟨st (ring (junction b)), by cases b <;> decide +kernel⟩
/-- A TIME message of node 0x0101. -/
def time0 : TimeMsg := ⟨⟨0, 0, 0, 0⟩, 0, 0x0101, 1, 0, 1⟩
theorem wit_RingTimeAndEnumeration :
    (∃ s : State, s.dev.timeOrigin 0 = true ∧ (s.dev.skn.ports[portFor 0 false]).up = true ∧ s.dev.ringIn 0 = true ∧
      s.dev.isMe time0.node = false ∧ s.dev.isMe 0x0103 = true ∧ s.dev.whl.cfg.ringQueueMode = false ∧ (s.dev.whl.cfgOf 2).source ≠ 2 ∧
      time0.hops < 254 ∧ (s.dev.skn.ports[portFor (ringOf 0) true]).up = true) ∧
    (∃ s : State, s.dev.ringIn 0 = true ∧ s.dev.isMe time0.node = false ∧ s.dev.whl.cfg.ringQueueMode = false ∧
      (s.dev.whl.cfgOf 2).source = 2 ∧ s.dev.skn.junction = false ∧ segOf time0.node = segOf (s.dev.nodeId 0) ∧ s.dev.skn.follow = none ∧
      (s.dev.whl.servo[(1 : Fin 5)]).st = .tracking ∧ (s.dev.whl.servo[(1 : Fin 5)]).first = none ∧
      (s.dev.whl.nsOf 2 - (time0.origin.toNs + (time0.origin.frac + (time0.corr + (s.dev.skn.ports[(0 : Fin 4)]).delay)) / 65536) : Int).natAbs <
        (s.dev.whl.cfgOf 2).stepThr * 1000) ∧
    (∃ s : State, s.dev.headOn (ringIx false) = true ∧ s.dev.ringOn (ringIx false) = true ∧ s.dev.ringIn 0 = true ∧
      (s.dev.skn.ports[portFor (ringIx false) false]).up = true ∧ 1 = segOf (s.dev.nodeId (ringOf 0))) ∧
    (∃ s : State, s.dev.headOn (ringOf 2) = false ∧ s.dev.ringIn 2 = true ∧ s.dev.skn.pins[ringOf 2] = 0xFFFF ∧
      s.dev.skn.ids[(0 : Fin 2)] = none ∧ (s.dev.skn.ports[portFor (ringOf 2) false]).up = true ∧
      s.dev.skn.ids[ringOf 2] = some 0x0104 ∧ s.dev.skn.junction = false ∧ (s.dev.skn.ports[acrossPort 2]).up = true) ∧
    (∃ s : State, s.dev.headOn (ringOf 0) = false ∧ s.dev.ringIn 0 = true ∧ s.dev.skn.pins[ringOf 0] = 0xFFFF) :=
  ⟨⟨st fun d => let e := ring id d; { e with whl := servos .tracking 1 3 e.whl }, by decide +kernel⟩,
   ⟨st fun d => let e := ring id d; { e with whl := servos .tracking 1 2 e.whl }, by decide +kernel⟩,
   ⟨st (ring fun k => { k with ids := #v[some 0x0100, none], pins := #v[0x0100, 0xFFFF] }), by decide +kernel⟩,
   ⟨st (ring fun k => { k with ids := #v[none, some 0x0104] }), by decide +kernel⟩, ⟨st (ring id), by decide +kernel⟩⟩
/-- An outstanding transaction of core 0 under tag 7 with node 0x0105. -/
def txn0 (write posted dead : Bool) : Txn :=
  { tag := 7, master := .core 0, node := 0x0105, addr := 0x40030000, len := 4, write := write, posted := posted, single := true, dead := dead,
    data := [], ringB := false, burst := 0 }
/-- The ring with window 0 on a node. -/
def window (node : Word) (n : Nat) (k : Skn) : Skn :=
  { k with win := upd k.win 0 fun _ => 0xC0400000 ||| node, txns := List.replicate n (txn0 false false false) }
theorem wit_BridgeSource_window :
    regionOf 0x60030000 = .ring 0 0x30000 ∧
    (∃ s : State, s.dev.released = true ∧ (s.dev.skn.win[(0 : Fin 16)]).getLsbD 31 = false ∧ s.dev.skn.leq = [] ∧
      s.dev.skn.postedOpen (.core 0) = false) ∧
    (∃ s : State, s.dev.released = true ∧ (s.dev.skn.win[(0 : Fin 16)]).getLsbD 31 = true ∧ s.dev.skn.stalled = [] ∧
      32 ≤ s.dev.skn.outstanding (.core 0)) ∧
    (∃ s : State, s.dev.released = true ∧ (s.dev.skn.win[(0 : Fin 16)]).getLsbD 31 = true ∧ s.dev.skn.stalled = [] ∧
      (s.dev.skn.win[(0 : Fin 16)]).getLsbD 28 = false ∧ s.dev.skn.outstanding (.core 0) < 32 ∧
      s.dev.absent (s.dev.ringTo 0x0105 ((s.dev.skn.win[(0 : Fin 16)]).getLsbD 29)) 0x0105 = false ∧
      (s.dev.skn.win[(0 : Fin 16)]).truncate 16 = (0x0105 : Half) ∧
      (s.dev.skn.ports[portFor 0 (s.dev.goesWest 0 (s.dev.targetPos 0 0x0105))]).up = true) ∧
    (∃ s : State, s.dev.released = true ∧ (s.dev.skn.win[(0 : Fin 16)]).getLsbD 31 = true ∧ s.dev.skn.stalled = [] ∧
      (s.dev.skn.win[(0 : Fin 16)]).getLsbD 28 = false ∧ s.dev.skn.outstanding (.core 0) < 32 ∧
      s.dev.absent (s.dev.ringTo 0x0109 ((s.dev.skn.win[(0 : Fin 16)]).getLsbD 29)) 0x0109 = true ∧ s.dev.skn.leq.length < 16 ∧
      (s.dev.skn.win[(0 : Fin 16)]).truncate 16 = (0x0109 : Half)) :=
  ⟨by decide, ⟨st (ring id), by decide +kernel⟩, ⟨st (ring (window 0x0105 32)), by decide +kernel⟩,
   ⟨st (ring (window 0x0105 0)), by decide +kernel⟩, ⟨st (ring (window 0x0109 0)), by decide +kernel⟩⟩
theorem wit_BridgeSource (write dead : Bool) (e : LateErr) :
    (∃ s : State, (s.dev.ringIn 0 && s.dev.isMe (msg 4 0x0103 false []).dest) = true ∧ s.dev.skn.stalled = [] ∧
      s.dev.skn.txnOf (msg 4 0x0103 false []) false = some (txn0 write false dead) ∧ s.dev.skn.rescueValid = false) ∧
    (∃ s : State, (s.dev.ringIn 0 && s.dev.isMe (msg 5 0x0103 false []).dest) = true ∧ s.dev.skn.stalled = [] ∧
      s.dev.skn.txnOf (msg 5 0x0103 false []) true = some (txn0 true true false) ∧ s.dev.skn.leq.length < 16 ∧
      (s.dev.skn.txns.find? fun y => decide (y.tag = 7) && !y.dead) = some (txn0 true true false) ∧
      s.dev.released = true ∧ s.dev.skn.postedOpen (.core 0) = true) ∧
    (∃ s : State, (s.dev.ringIn 0 && s.dev.isMe (msg 5 0x0103 false []).dest) = true ∧ s.dev.skn.stalled = [] ∧
      s.dev.skn.txnOf (msg 5 0x0103 false []) true = none) ∧
    (∃ s : State, (s.dev.skn.txns.find? fun y => decide (y.tag = 7) && !y.dead) = some (txn0 write false false) ∧ s.dev.skn.stalled = []) ∧
    (∃ s : State, Master.core 0 ∈ s.dev.skn.fences ∧ s.dev.skn.postedOpen (.core 0) = false) ∧
    (∃ s : State, s.dev.released = true ∧ s.dev.skn.leq = [e]) ∧ (State.reset.dev.ringIn 0 && State.reset.dev.isMe 0x0103) = false :=
  ⟨⟨st (ring fun k => { k with txns := [txn0 write false dead] }), by cases write <;> cases dead <;> decide +kernel⟩,
   ⟨st (ring fun k => { k with txns := [txn0 true true false] }), by decide +kernel⟩, ⟨st (ring id), by decide +kernel⟩,
   ⟨st (ring fun k => { k with txns := [txn0 write false false] }), by cases write <;> decide +kernel⟩,
   ⟨st (ring fun k => { k with fences := [.core 0] }), by decide +kernel⟩,
   ⟨st (ring fun k => { k with leq := [e] }), by simp [st, ring, live, Dev.released], by simp [st, ring]⟩, by decide⟩
theorem wit_BridgeTarget :
    (∃ s : State, s.dev.ringIn 0 = false) ∧
    (∃ s : State, s.dev.ringIn 0 = true ∧ s.dev.takes 0 (msg 1 0x0102 false []) = false ∧
      (s.dev.isMe (msg 1 0x0102 false []).src && !(msg 1 0x0102 false []).wrapped) = false) ∧
    (∃ s : State, s.dev.ringIn 0 = true ∧ s.dev.takes 0 (msg 1 0x0103 false []) = true ∧ s.dev.released = true ∧
      (s.dev.skn.ports[portFor (ringOf 0) (s.dev.goesWest (ringOf 0) (s.dev.targetPos (ringOf 0) (msg 1 0x0103 false []).src))]).up = true) ∧
    (∃ s : State, s.dev.ringIn 0 = true ∧ s.dev.takes 0 (msg 1 0x0102 false []) = false ∧
      (s.dev.isMe (msg 1 0x0102 false []).src && !(msg 1 0x0102 false []).wrapped) = true ∧ s.dev.skn.stalled = [] ∧
      (s.dev.skn.txns.find? fun t => decide (t.tag = (msg 1 0x0102 false []).tag) && decide (t.node = (msg 1 0x0102 false []).dest)) =
        some { txn0 false false false with node := 0x0102 }) :=
  ⟨⟨State.reset, by decide⟩, ⟨st (ring id), by decide +kernel⟩, ⟨st (ring id), by decide +kernel⟩,
   ⟨st (ring fun k => { k with ids := #v[some 0x0105, none], txns := [{ txn0 false false false with node := 0x0102 }] }), by decide +kernel⟩⟩
/-- The ring of the head of segment 1, with what `f` sets. -/
def headed (f : Skn → Skn) (k : Skn) : Skn := f { k with ids := #v[some 0x0100, none], pins := #v[0x0100, 0xFFFF] }
/-- A broadcast to segment `n`. -/
def bcast (n : Word) (k : Skn) : Skn := { k with bcDest := n, bcLen := 4, bcAddr := 0x40030000 }
/-- A BCAST_REQ, or a SWEEP with an empty tally, that writes window 0. -/
def bmsg (sweep : Bool) : RingMsg :=
  { (msg (if sweep then 9 else 8) 0x0100 false (if sweep then List.replicate 20 0 else List.replicate 8 0)) with
    addr := regAddr (0x30000 + 4 * (0 : Fin 16).val), detail := 1 }
/-- A sweep of this head. -/
def sweep0 (phase : Nat) (src : Half) (forParent : Bool) : HeadSweep := ⟨7, src, false, 0, 0, [], phase, Tally.empty, forParent⟩
theorem wit_Broadcasts_source :
    (∃ s : State, s.dev.accepts byCore (regAddr 0x3010C) 1 = true ∧ s.dev.skn.bcBusy = false ∧ s.dev.skn.bcFits = false) ∧
    (∃ s : State, s.dev.accepts byCore (regAddr 0x3010C) 1 = true ∧ s.dev.skn.bcBusy = false ∧ s.dev.skn.bcFits = true ∧
      s.dev.skn.bcDest = 9 ∧ s.dev.absent (s.dev.ringTo 0x0900 false) 0x0900 = true) ∧
    (∃ s : State, s.dev.accepts byCore (regAddr 0x3010C) 1 = true ∧ s.dev.skn.bcBusy = false ∧ s.dev.skn.bcFits = true ∧
      s.dev.skn.bcDest = 1 ∧ s.dev.absent (s.dev.ringTo 0x0100 false) 0x0100 = false ∧ s.dev.headFor 0x0100 = false ∧
      (s.dev.skn.ports[portFor (s.dev.ringTo 0x0100 false) (s.dev.goesWest (s.dev.ringTo 0x0100 false)
        (s.dev.targetPos (s.dev.ringTo 0x0100 false) 0x0100))]).up = true) ∧
    (∃ s : State, s.dev.skn.bcBusy = true ∧ s.dev.skn.bcTag = 7 ∧ s.dev.ringIn 0 = true ∧ s.dev.isMe 0x0103 = true) :=
  ⟨⟨st (ring id), by decide +kernel⟩, ⟨st (ring (bcast 9)), by decide +kernel⟩, ⟨st (ring (bcast 1)), by decide +kernel⟩,
   ⟨st (ring fun k => { k with bcBusy := true, bcTag := 7 }), by decide +kernel⟩⟩
theorem wit_Broadcasts_request :
    (∃ s : State, s.dev.ringIn 0 = true ∧ s.dev.takes 0 { (bmsg false) with dest := 0x0103 } = true ∧ s.dev.headFor 0x0103 = false ∧
      (s.dev.skn.ports[portFor (ringOf 0) (s.dev.goesWest (ringOf 0) (s.dev.targetPos (ringOf 0) 0x0105))]).up = true) ∧
    (∃ s : State, s.dev.ringIn 0 = true ∧ s.dev.takes 0 (bmsg false) = true ∧ s.dev.headFor (bmsg false).dest = true ∧
      64 ≤ s.dev.skn.bcWaiting.length ∧
      (s.dev.skn.ports[portFor (ringOf 0) (s.dev.goesWest (ringOf 0) (s.dev.targetPos (ringOf 0) (bmsg false).src))]).up = true) ∧
    (∃ s : State, s.dev.ringIn 0 = true ∧ s.dev.takes 0 (bmsg false) = true ∧ s.dev.headFor (bmsg false).dest = true ∧
      s.dev.skn.bcWaiting.length < 64 ∧ s.dev.skn.sweep.isSome = true) ∧
    (∃ s : State, s.dev.ringIn 0 = true ∧ s.dev.takes 0 (bmsg false) = true ∧ s.dev.headFor (bmsg false).dest = true ∧
      s.dev.skn.bcWaiting = [] ∧ s.dev.skn.sweep = none ∧ s.dev.skn.parentHeld = none ∧ s.dev.skn.junction = false ∧
      s.dev.released = true ∧ (s.dev.skn.ports[(0 : Fin 4)]).up = true ∧ s.dev.skn.hasExecuted (bmsg false).src (bmsg false).tag = false ∧
      (bmsg false).payload.length = 8) :=
  ⟨⟨st (ring id), by decide +kernel⟩, ⟨st (ring (headed fun k => { k with bcWaiting := List.replicate 64 (bmsg false) })), by decide +kernel⟩,
   ⟨st (ring (headed fun k => { k with sweep := some (sweep0 0 0x0105 false) })), by decide +kernel⟩,
   ⟨st (ring (headed id)), by decide +kernel⟩⟩
theorem wit_Broadcasts_sweep :
    (∃ s : State, s.dev.ringIn 0 = true ∧ s.dev.ownSweep 0 (bmsg true) = none ∧ (bmsg true).hops < 254 ∧
      (s.dev.skn.ports[portFor (ringOf 0) (bmsg true).west]).up = true ∧ s.dev.skn.hasExecuted (bmsg true).src (bmsg true).tag = true) ∧
    (∃ s : State, s.dev.ringIn 0 = true ∧ s.dev.ownSweep 0 (bmsg true) = none ∧
      ((bmsg true).wrapped || s.dev.skn.hasExecuted (bmsg true).src (bmsg true).tag) = false ∧ s.dev.released = true ∧
      (bmsg true).payload.length = 20 ∧ s.dev.skn.junction = false ∧ (s.dev.skn.ports[portFor (ringOf 0) (bmsg true).west]).up = true) ∧
    (∃ s : State, s.dev.ringIn 0 = true ∧ s.dev.ownSweep 0 (bmsg true) = none ∧
      ((bmsg true).wrapped || s.dev.skn.hasExecuted (bmsg true).src (bmsg true).tag) = false ∧ s.dev.released = true ∧
      s.dev.skn.junction = true ∧ ringOf 0 = 0 ∧ (bmsg true).detail = 1 ∧ s.dev.skn.parentHeld = none ∧ s.dev.skn.sweep = none ∧
      (s.dev.skn.ports[(2 : Fin 4)]).up = true ∧ (s.dev.skn.ports[portFor (ringOf 0) (bmsg true).west]).up = true) ∧
    (∃ s : State, s.dev.ringIn 0 = true ∧ s.dev.ownSweep 0 (bmsg true) = some (sweep0 0 0x0105 false) ∧
      s.dev.nextPhase s.dev.sweepRing (Tally.ofBytes (bmsg true).payload).reached (afterPhase 0 true) = some 1) ∧
    (∃ s : State, s.dev.ringIn 0 = true ∧ s.dev.ownSweep 0 (bmsg true) = some (sweep0 0 0x0105 false) ∧
      s.dev.nextPhase s.dev.sweepRing (Tally.ofBytes (bmsg true).payload).reached (afterPhase 0 false) = none ∧
      s.dev.skn.parentHeld = none ∧ s.dev.skn.bcWaiting = [] ∧ s.dev.isMe 0x0105 = false ∧
      (s.dev.skn.ports[portFor (ringIx false) (s.dev.goesWest (ringIx false) (s.dev.targetPos (ringIx false) 0x0105))]).up = true) ∧
    (∃ s : State, s.dev.ringIn 0 = true ∧ s.dev.ownSweep 0 { (bmsg true) with src := 0x0100 } = some (sweep0 0 0x0100 false) ∧
      s.dev.nextPhase s.dev.sweepRing (Tally.ofBytes (bmsg true).payload).reached (afterPhase 0 false) = none ∧
      s.dev.skn.parentHeld = none ∧ s.dev.skn.bcWaiting = [] ∧ s.dev.isMe 0x0100 = true ∧ s.dev.skn.bcBusy = true ∧ s.dev.skn.bcTag = 7) ∧
    (∃ s : State, s.dev.skn.parentHeld = some (bmsg true) ∧ s.dev.skn.bcWaiting = [] ∧ s.dev.skn.sweep = some (sweep0 0 0x0105 true) ∧
      (s.dev.skn.ports[portFor 0 (bmsg true).west]).up = true) :=
  ⟨⟨st (ring fun k => { k with executed := [(0x0105, 7)] }), by decide +kernel⟩, ⟨st (ring id), by decide +kernel⟩,
   ⟨st (ring (junction true)), by decide +kernel⟩,
   ⟨st (ring (headed fun k => { k with sweep := some (sweep0 0 0x0105 false) })), by decide +kernel⟩,
   ⟨st (ring (headed fun k => { k with count := Vector.replicate 2 0, sweep := some (sweep0 0 0x0105 false) })), by decide +kernel⟩,
   ⟨st (ring (headed fun k => { k with count := Vector.replicate 2 0, sweep := some (sweep0 0 0x0100 false), bcBusy := true, bcTag := 7 })), by decide +kernel⟩,
   ⟨st (ring fun k => { k with parentHeld := some (bmsg true), sweep := some (sweep0 0 0x0105 true) }), by decide +kernel⟩⟩
/-- SKN_LSTAGE and SKN_LACT hold layout 0 with its digest 5, on whorl 1. -/
def blocks (staged : Option (Nat × DWord)) (d : Dev) : Dev :=
  let e := ring (fun k => { k with lstage := [(0, 0), (2, 5)], lact := [(0, 1), (6, 5)] }) d
  { e with lay := { e.lay with staged := staged }, sys := { e.sys with mode := .drive, transition := none } }
/-- A token of the lap before lap 4 of segment 1. -/
def token0 (segment mismatch : Nat) : AuditToken := ⟨3, segment, 0, 0, 1, 0, 7, 2, mismatch, 0xFFFFFFFF, 1, 1, 0xFFFFFFFF⟩
theorem wit_LayoutActivationAndAudit :
    (∃ s : State, s.dev.accepts byCore (regAddr 0x3030C) 0 = true ∧ (s.dev.layoutCfg
      ((heldWord (assocSet s.dev.skn.lstage 3 0) 0).toNat % 256)).isSome = true ∧
      (∀ l, s.dev.layoutCfg 0 = some l → BitVec.ofNat 64 l.digest = heldWord (assocSet s.dev.skn.lstage 3 0) 3 ++
        heldWord (assocSet s.dev.skn.lstage 3 0) 2 ∧ l.allows s.dev.sys.mode = true) ∧ s.dev.sys.transition = none ∧
      s.dev.accepts byCore (regAddr 0x3033C) 0 = true ∧ s.dev.lay.staged = none) ∧
    (∃ s : State, s.dev.accepts byCore (regAddr 0x3030C) 0 = true ∧ s.dev.layoutCfg ((heldWord (assocSet s.dev.skn.lstage 3 0) 0).toNat % 256) = none) ∧
    (∃ s : State, s.dev.accepts byCore (regAddr 0x3033C) 0 = true ∧ s.dev.lay.staged = some (0, 5) ∧
      (heldWord (assocSet s.dev.skn.lact 7 0) 0).toNat = 1 ∧
      heldWord (assocSet s.dev.skn.lact 7 0) 7 ++ heldWord (assocSet s.dev.skn.lact 7 0) 6 = (5 : DWord)) :=
  ⟨⟨st (blocks none), by decide +kernel⟩, ⟨st (ring fun k => { k with lstage := [(0, 9)] }), by decide +kernel⟩,
   ⟨st (blocks (some (0, 5))), by decide +kernel⟩⟩
theorem wit_LayoutActivationAndAudit_audit :
    (∃ s : State, s.dev.headOn (ringIx false) = true ∧ s.dev.ringOn (ringIx false) = true ∧ s.dev.nodeId (ringIx false) ≠ 0xFFFF ∧
      segOf (s.dev.nodeId (ringIx false)) = 0 ∧ s.dev.skn.junction = false ∧ s.dev.nextPhase (ringIx false) 1 0 = some 0) ∧
    (∃ s : State, s.dev.ringIn 0 = true ∧ s.dev.skn.junction = false ∧ s.dev.headOn 0 = false ∧
      (s.dev.skn.ports[portFor (ringOf 0) false]).up = true ∧ s.dev.skn.lapSeen = [(1, 3)]) ∧
    (∃ s : State, s.dev.ringIn 0 = true ∧ s.dev.skn.junction = false ∧ s.dev.headOn 0 = true ∧ 0 = segOf (s.dev.nodeId 0) ∧
      s.dev.skn.lapPhase = some 3 ∧ (token0 0 1).lap = (s.dev.skn.lap + 2 ^ 32 - 1) % 2 ^ 32 ∧
      s.dev.nextPhase 0 (token0 0 1).nodes (afterPhase 3 false) = none) :=
  ⟨⟨st (ring fun k => { k with ids := #v[some 0, none], pins := #v[0, 0xFFFF] }), by decide +kernel⟩,
   ⟨st (ring fun k => { k with lapSeen := [(1, 3)] }), by decide +kernel⟩,
   ⟨st (ring fun k => { k with ids := #v[some 0, none], pins := #v[0, 0xFFFF], lap := 4, lapPhase := some 3 }), by decide +kernel⟩⟩
/-- The running block whose camera supply input 0 trips (action 1), whose input 1 starts converter 0 (actions 2 and 4), whose power-fail
input is 16; `f` sets the units. -/
def sense (f : Sns → Sns) (d : Dev) : Dev :=
  let e := port0 (fun x => { x with step := .trained }) d
  let g (k act : Nat) (i : SenseIn) : SenseIn := { i with cfg := ⟨k, 2, 1, act, 10, 20, 0, 5⟩ }
  { e with
    img := some { img0 with pfInput := 0 }
    sys := { e.sys with mode := .drive, activeLayout := 0 }
    lay := { e.lay with strand := Vector.replicate 64 (some 0) }
    sns := f { e.sns with
      conv := upd e.sns.conv 0 fun c => { c with cfg := ⟨2, false, 0, 100, [1, 2]⟩, last := some (1, 2, 1) }
      inp := upd (upd (upd e.sns.inp 0 (g 1 1)) 1 (g 2 6)) 16 (g 2 0) } }
theorem wit_SenseUnits :
    (∃ s : State, s.dev.accepts byCore (regAddr 0x60000) 1 = true ∧ bitAt ((1 : Word).toNat % 16) (0 : Fin 4).val = true ∧
      (s.dev.sns.conv[(0 : Fin 4)]).busy = false ∧ (s.dev.sns.conv[(0 : Fin 4)]).cfg.mode = 2 ∧ (s.dev.sns.conv[(0 : Fin 4)]).next = none ∧
      s.dev.released = true ∧ s.dev.isBlanked 0 = false ∧ (s.dev.sns.inp[(0 : Fin 24)]).cfg.kind = 1 ∧
      bitAt (s.dev.sns.inp[(0 : Fin 24)]).cfg.actions 0 = true ∧ bitAt (s.dev.sns.inp[(0 : Fin 24)]).cfg.actions 1 = false ∧
      (s.dev.sns.inp[(1 : Fin 24)]).cfg.kind ≠ 1 ∧ bitAt (s.dev.sns.inp[(1 : Fin 24)]).cfg.actions 1 = true ∧
      bitAt (s.dev.sns.inp[(1 : Fin 24)]).cfg.actions 2 = true ∧ (s.dev.sns.inp[(1 : Fin 24)]).cfg.startConv = 0 ∧
      s.dev.pfInput = some (16 : Fin 24).val ∧ s.dev.sns.trip &&& s.dev.pins.pocEn = 0 ∧
      s.dev.pins.pocEn.getLsbD (0 : PortNo).val = false) ∧
    (∃ s : State, s.dev.released = true ∧ s.dev.sns.trip &&& s.dev.pins.pocEn = 0 ∧ s.dev.isBlanked 0 = false ∧
      (s.dev.sns.inp[(0 : Fin 24)]).cfg.kind = 1 ∧ bitAt (s.dev.sns.inp[(0 : Fin 24)]).cfg.actions 0 = true ∧
      s.dev.pins.pocEn.getLsbD (0 : PortNo).val = true ∧ (s.dev.ports[(0 : PortNo)]).locksHeld = true) ∧
    (∃ s : State, (s.dev.sns.conv[(0 : Fin 4)]).last = some (1, 2, 1) ∧ (s.dev.sns.conv[(0 : Fin 4)]).ending = true ∧
      (s.dev.sns.conv[(0 : Fin 4)]).settle = 0 ∧ (s.dev.sns.conv[(0 : Fin 4)]).idx + 1 < (s.dev.sns.conv[(0 : Fin 4)]).cfg.scan.length ∧
      (s.dev.sns.conv[(0 : Fin 4)]).next = none ∧ (s.dev.sns.conv[(0 : Fin 4)]).cfg.mode = 2) ∧
    (∃ s : State, (s.dev.sns.conv[(0 : Fin 4)]).ending = true ∧ (s.dev.sns.conv[(0 : Fin 4)]).settle = 0 ∧
      (s.dev.sns.conv[(0 : Fin 4)]).cfg.scan.length ≤ (s.dev.sns.conv[(0 : Fin 4)]).idx + 1 ∧ (s.dev.sns.conv[(0 : Fin 4)]).busy = true) ∧
    (∃ s : State, s.dev.sns.blanked.getLsbD (0 : PortNo).val = true ∧ (s.dev.sns.inp[(0 : Fin 24)]).cfg.kind = 1 ∧
      bitAt (s.dev.sns.inp[(0 : Fin 24)]).cfg.actions 0 = true ∧ s.dev.sns.trip.getLsbD (0 : PortNo).val = true ∧
      s.dev.sns.trips[(0 : PortNo)] < 3 ∧ s.dev.livePorts.getLsbD (0 : PortNo).val = true) :=
  ⟨⟨st (sense id), by decide +kernel⟩,
   ⟨st fun d => let e := sense id d; { e with pins := { e.pins with pocEn := 1 } }, by decide +kernel⟩,
   ⟨st (sense fun x => { x with conv := upd x.conv 0 fun c => { c with busy := true, integ := some 0 } }), by decide +kernel⟩,
   ⟨st (sense fun x => { x with conv := upd x.conv 0 fun c => { c with busy := true, integ := some 0, idx := 1 } }), by decide +kernel⟩,
   ⟨st (sense fun x => { x with blanked := 1, trip := 1 }), by decide +kernel⟩⟩
/-- The running block with channel 0 as `f` sets it, in service if so said. -/
def dma (serving : Option (Fin 8)) (f : Chan → Chan) (d : Dev) : Dev :=
  let e := live d
  { e with dma := { e.dma with serving := serving, ch := upd e.dma.ch 0 f } }
/-- Channel 0 moves 8 bytes from one local store address to another. -/
def move8 (c : Chan) : Chan := { c with src := 0x20000000, dst := 0x20000008, len := 8, ctrl := 0x10000, st := .active }
theorem wit_DmaChannels (e : Word × List Byte) :
    (∃ s : State, s.dev.accepts byCore (regAddr (0x70010 + 0x100 * (0 : Fin 8).val)) 1 = true ∧ (s.dev.dma.ch[(0 : Fin 8)]).st ≠ .idle) ∧
    (∃ s : State, s.dev.accepts byCore (regAddr (0x70010 + 0x100 * (0 : Fin 8).val)) 1 = true ∧ (s.dev.dma.ch[(0 : Fin 8)]).st = .idle ∧
      s.dev.startFails 0 = true) ∧
    (∃ s : State, s.dev.accepts byCore (regAddr (0x70010 + 0x100 * (0 : Fin 8).val)) 1 = true ∧ (s.dev.dma.ch[(0 : Fin 8)]).st = .idle ∧
      s.dev.startFails 0 = false) ∧
    (∃ s : State, s.dev.accepts byCore (regAddr (0x70010 + 0x100 * (0 : Fin 8).val)) 2 = true ∧ (s.dev.dma.ch[(0 : Fin 8)]).st = .halted) ∧
    (∃ s : State, (s.dev.dma.ch[(0 : Fin 8)]).st ≠ .idle ∧ (s.dev.dma.ch[(0 : Fin 8)]).element = some e ∧ s.dev.dma.rescueValid = false) ∧
    (∃ s : State, s.dev.dma.serving = none ∧ ((List.finRange 8).find? fun j => s.dev.chanReady j) = some 0 ∧
      s.dev.sideEffect (s.dev.dma.ch[(0 : Fin 8)]).src = false) ∧
    (∃ s : State, s.dev.dma.serving = none ∧ ((List.finRange 8).find? fun j => s.dev.chanReady j) = some 0 ∧ s.dev.released = true ∧
      (s.dev.dma.ch[(0 : Fin 8)]).src = regAddr (0x30000 + 4 * (0 : Fin 16).val) ∧ (s.dev.dma.ch[(0 : Fin 8)]).size = 4 ∧
      (s.dev.dma.ch[(0 : Fin 8)]).moved = 0 ∧ (s.dev.dma.ch[(0 : Fin 8)]).backward = false ∧ (s.dev.dma.ch[(0 : Fin 8)]).element = none) ∧
    (∃ s : State, let c := s.dev.dma.ch[(0 : Fin 8)]
      s.dev.released = true ∧ s.dev.dma.serving = some 0 ∧ c.st = .active ∧ c.pace = 0 ∧ c.ctrl.getLsbD 0 = false ∧ c.ctrl.getLsbD 1 = false ∧
      c.swap = 0 ∧ c.chkEn = false ∧ c.len.toNat % 2 ^ 24 = 8 ∧ c.moved = 0 ∧ c.backward = false ∧ c.element = none ∧
      c.src = BitVec.ofNat 32 (0x20000000 + 0) ∧ c.dst = BitVec.ofNat 32 (0x20000000 + 8)) :=
  ⟨⟨st (dma none fun c => { c with st := .active }), by decide +kernel⟩, ⟨st (dma none id), by decide +kernel⟩,
   ⟨st (dma none fun c => { move8 c with st := .idle }), by decide +kernel⟩, ⟨st (dma none fun c => { c with st := .halted }), by decide +kernel⟩,
   ⟨st (dma none fun c => { c with st := .active, element := some e }), by simp [st, dma], by simp [st, dma], by
     simp [st, dma, live, State.reset, Dev.reset, Dma.reset]⟩,
   ⟨st (dma none move8), by decide +kernel⟩, ⟨st (dma none fun c => { move8 c with src := 0x40030000, ctrl := 8 }), by decide +kernel⟩,
   ⟨st (dma (some 0) move8), by decide +kernel⟩⟩
/-- Unit 0 as the boot binding leaves it for core 3, with the settings and the mode given. -/
def unit0 (cfg : Word) (alive : Bool) (d : Dev) : Dev :=
  let e := live d
  { e with chk := upd e.chk 0 fun u => { u with user := 3, cfg := cfg, act := ⟨16, 0x1021, 0xFFFF, 0, true, true, alive, 3⟩ } }
theorem wit_CheckUnits :
    (∃ s : State, s.dev.accepts ⟨.core 3, 0, 0⟩ (regAddr (0x80000 + 0x40 * (0 : Fin 24).val + 0x20)) (BitVec.ofNat 32 (fromLe [1, 2])) = true ∧
      s.dev.chkMay (.core 3) 0 true = true ∧ (s.dev.chk[(0 : Fin 24)]).act.alive = false ∧ 1 ≤ (s.dev.chk[(0 : Fin 24)]).act.w ∧
      (s.dev.chk[(0 : Fin 24)]).act.w ≤ 64 ∧ s.dev.chkMay (.core 0) 0 true = false ∧ s.dev.chkMay (.core 0) 0 false = false ∧
      s.dev.accepts byCore (regAddr (0x80000 + 0x40 * (0 : Fin 24).val + 0x24)) 1 = true) ∧
    (∃ s : State, s.dev.accepts ⟨.core 3, 0, 0⟩ (regAddr (0x80000 + 0x40 * (0 : Fin 24).val + 0x20)) (BitVec.ofNat 32 (fromLe [1, 2])) = true ∧
      s.dev.chkMay (.core 3) 0 true = true ∧ (s.dev.chk[(0 : Fin 24)]).act.alive = true ∧ (s.dev.chk[(0 : Fin 24)]).act.w = 16) ∧
    (∃ s : State, s.dev.accepts ⟨.core 3, 0, 0⟩ (regAddr (0x80000 + 0x40 * (0 : Fin 24).val + 0x24)) 1 = true ∧
      s.dev.chkMay (.core 3) 0 false = true ∧ (s.dev.chk[(0 : Fin 24)]).cfg.toNat / 2 ^ 12 % 16 = 4) ∧
    (∃ s : State, s.dev.accepts ⟨.core 3, 0, 0⟩ (regAddr (0x80000 + 0x40 * (0 : Fin 24).val + 0x24)) 1 = true ∧
      s.dev.chkMay (.core 3) 0 false = true ∧ (s.dev.chk[(0 : Fin 24)]).cfg.toNat / 2 ^ 12 % 16 = 0) :=
  ⟨⟨st (unit0 0 false), by decide +kernel⟩, ⟨st (unit0 0 true), by decide +kernel⟩, ⟨st (unit0 0x4000 false), by decide +kernel⟩,
   ⟨st (unit0 0x10 false), by decide +kernel⟩⟩
theorem wit_HealthAndSupply :
    (∃ s : State, s.dev.released = true ∧ s.dev.sys.coreRun[(0 : Fin 4)] = true ∧ s.dev.sys.wdog[(0 : Fin 4)] ≠ 0 ∧
      s.dev.age.avsOk = false ∧ s.dev.age.avsRetried = false ∧ s.dev.aon.phase = .running) ∧
    (∃ s : State, s.dev.released = true ∧ s.dev.age.avsOk = false ∧ s.dev.age.avsRetried = true) ∧
    (∃ s : State, s.dev.released = true ∧ (4, true) ∈ s.dev.standing) ∧
    (∃ s : State, s.dev.released = true ∧ (s.dev.spn.spindles[(0 : SpindleNo)]).job.isSome = true) ∧
    (∃ s : State, s.dev.released = true ∧ (s.dev.spn.spindles[(0 : SpindleNo)]).st = .quarantined ∧ s.dev.jnl.changed = true ∧
      s.dev.jnl.held = false ∧ s.dev.jnl.closed = false) :=
  ⟨⟨st fun d => let e := live d
      { e with sys := { e.sys with coreRun := Vector.replicate 4 true, wdog := Vector.replicate 4 1 } }, by decide +kernel⟩,
   ⟨st fun d => let e := live d; { e with age := { e.age with avsRetried := true } }, by decide +kernel⟩,
   ⟨st fun d => let e := live d; { e with aon := { e.aon with refclk := false } }, by decide +kernel⟩,
   ⟨st fun d => outs [] (fun x => { x with job := some ⟨0, 5, 0, false, 0⟩ }) d, by decide +kernel⟩,
   ⟨st fun d => let e := outs [] (fun x => { x with st := .quarantined }) d; { e with jnl := { e.jnl with changed := true } }, by decide +kernel⟩⟩
theorem wit_AgeingAndReplan :
    (∃ s : State, s.dev.released = true ∧ s.dev.sys.mode = .depot ∧ s.dev.sys.nolive = true ∧ s.dev.age.vminBusy = true ∧
      s.dev.age.eyeBusy = true ∧ s.dev.age.replan = some 1 ∧ s.dev.inNolive = true ∧ s.dev.accepts byCore (regAddr 0x10004) 1 = true) ∧
    (∃ s : State, s.dev.released = true ∧ s.dev.sys.mode ≠ .depot ∧ s.dev.age.replan = some 2 ∧ s.dev.inNolive = false ∧
      s.dev.accepts byCore (regAddr 0x10004) 4 = true) ∧
    (130 * 16 ≤ (2080 : Int) ∧ (2080 : Int) < 4096 * 16) :=
  ⟨⟨st fun d => let e := live d
      { e with sys := { e.sys with mode := .depot, nolive := true }, age := { e.age with vminBusy := true, eyeBusy := true, replan := some 1 } },
     by decide +kernel⟩,
   ⟨st fun d => let e := live d; { e with sys := { e.sys with mode := .drive }, age := { e.age with replan := some 2 } }, by decide +kernel⟩,
   by decide⟩
/-- Production Test on the small image with the test functions and the ply link as given. -/
def testing (mode : Mode) (f : Tst → Tst) (g : Ply → Ply) (d : Dev) : Dev :=
  let e := carding [] d
  { e with aon := { e.aon with phase := .production }, sys := { e.sys with mode := mode }, tst := f e.tst,
           ply := g { e.ply with st := .up, map := 3, count := 2 } }
theorem wit_TestLanes :
    (∃ s : State, s.dev.released = true ∧ s.dev.sys.mode = .production ∧ s.dev.returnOpen = true ∧ s.dev.ply.running = true ∧
      (1 : Byte) &&& s.dev.ply.map ≠ 0 ∧ s.dev.ply.map &&& ~~~((1 : Byte) &&& s.dev.ply.map) ≠ 0 ∧ s.dev.ply.buffer = [] ∧
      s.dev.ply.map &&& ~~~((3 : Byte) &&& s.dev.ply.map) = 0 ∧ (4 : Byte) &&& s.dev.ply.map = 0) ∧
    (∃ s : State, s.dev.released = true ∧ s.dev.sys.mode ≠ .production ∧ s.dev.returnOpen = true) ∧
    (∃ s : State, (s.dev.tst.lanes[(16 : Fin 30)]).chkEn = true ∧ (s.dev.tst.lanes[(16 : Fin 30)]).loop ≠ 3 ∧
      (s.dev.tst.lanes[(16 : Fin 30)]).loop ≠ 0 ∧ (s.dev.tst.lanes[(16 : Fin 30)]).locked = true ∧ s.dev.tst.rlCheck.isSome = true) ∧
    (∃ s : State, s.dev.returnOpen = true ∧ s.dev.sys.mode = .production ∧ (1 : Byte) &&& s.dev.tst.genLanes &&& s.dev.ply.lanes ≠ 0 ∧
      s.dev.ply.st = .test) ∧
    (∃ s : State, s.dev.returnOpen = true ∧ s.dev.sys.mode = .production ∧ (1 : Byte) &&& s.dev.tst.genLanes &&& s.dev.ply.lanes ≠ 0 ∧
      s.dev.ply.st ≠ .test ∧ s.dev.ply.running = true) :=
  ⟨⟨st (testing .production id id), by decide +kernel⟩, ⟨st (testing .depot id id), by decide +kernel⟩,
   ⟨st (testing .production (fun x => { x with rlCheck := some (0, 5), lanes := upd x.lanes 16 fun l => { l with chkEn := true, loop := 1, locked := true } }) id),
     by decide +kernel⟩,
   ⟨st (testing .production (fun x => { x with genLanes := 3 }) fun p => { p with st := .test, map := 0 }), by decide +kernel⟩,
   ⟨st (testing .production (fun x => { x with genLanes := 1 }) fun p => { p with map := 2 }), by decide +kernel⟩⟩
theorem wit_PatternsAndSelfTest (mask : Bool) :
    (∃ s : State, s.dev.released = true ∧ s.dev.sys.mode = .production ∧ (s.dev.layoutCfg (0 : BitVec 4).toNat).isSome = true ∧
      s.dev.layoutCfg (9 : BitVec 4).toNat = none ∧ s.dev.tst.bistRan = false ∧ (s.dev.strands[(0 : StrandNo)]).inFrame = false) ∧
    (∃ s : State, s.dev.released = true ∧ s.dev.sys.mode ≠ .production) ∧
    (∃ s : State, s.dev.tst.bistRan = true ∧ s.dev.tst.bist[(2 : Fin 4)] = 3) ∧
    (∃ s : State, s.dev.img = some img0 ∧ s.dev.tst.run = some (0, 2) ∧ s.dev.lay.pending = none ∧ s.dev.tst.bistRan = false ∧
      s.dev.active 0 = true ∧ s.dev.sys.mode = .production ∧ s.dev.tst.patMask.getLsbD (0 : StrandNo).val = mask ∧
      (s.dev.strands[(0 : StrandNo)]).numbered = false ∧ (s.dev.strands[(0 : StrandNo)]).lostAt = none ∧
      (s.dev.strands[(0 : StrandNo)]).frames = [] ∧ (s.dev.strands[(0 : StrandNo)]).written = false ∧
      (s.dev.strands[(0 : StrandNo)]).busy = none) :=
  ⟨⟨st (testing .production id id), by decide +kernel⟩, ⟨st (testing .depot id id), by decide +kernel⟩,
   ⟨st (testing .production (fun x => { x with bistRan := true, bist := Vector.replicate 4 3 }) id), by decide +kernel⟩,
   ⟨st (testing .production (fun x => { x with run := some (0, 2), patMask := if mask then 1 else 0 }) id), by cases mask <;> decide +kernel⟩⟩
theorem wit_RemotePorts :
    (∃ s : State, ({ s.dev with jtag := { s.dev.jtag with ir := .ptest, dr := 0, pinsFromCells := false, highz := false } } : Dev).judgeMode
      (some .production) 0 false true = 0) ∧
    (∃ s : State, ({ s.dev with jtag := { s.dev.jtag with ir := .ptest, dr := 0, pinsFromCells := false, highz := false } } : Dev).judgeMode
      (some .production) 0 false true ≠ 0) ∧
    (∃ s : State, s.dev.released = true ∧ s.dev.ethRuns = true ∧ s.dev.sys.mode ≠ .production ∧ (0x5C : BitVec 7).toNat = 0x5C + s.dev.aon.i2ca.toNat ∧
      (0x5D : BitVec 7).toNat ≠ 0x5C + s.dev.aon.i2ca.toNat) ∧
    (∃ s : State, s.dev.ethRuns = false) :=
  ⟨⟨st live, by decide +kernel⟩, ⟨st fun d => let e := live d; { e with sys := { e.sys with mode := .drive } }, by decide +kernel⟩,
   ⟨st live, by decide +kernel⟩, ⟨State.reset, by decide +kernel⟩⟩
/-! ### Ill-formed commands, one for each check of `Instr.wf` -/
theorem test_wf_memory_training : (Instr.frameStoreTrained 3 true).wf = false ∧ (Instr.frameStoreTrained 8 true).wf = true := by decide
theorem test_wf_staging : (Instr.stageOpen byCore (2 ^ 32) false).wf = false ∧ (Instr.stageGo byCore false 100).wf = false ∧
    (Instr.stageGo byCore false 16640).wf = false ∧ (Instr.stageGo byCore true 16384).wf = true := by decide
theorem test_wf_back_channel : (Instr.i2cData 0 0 0 (List.replicate 37 0)).wf = false ∧ (Instr.syncResp 0 0 0 (2 ^ 64) 0).wf = false ∧
    (Instr.syncResp 0 0 0 0 (2 ^ 64)).wf = false ∧ (Instr.skipSet 0 0 0).wf = false ∧ (Instr.skipSet 0 6 0).wf = false := by decide
theorem test_wf_entries : (Instr.embeddedData 0 ⟨0, false⟩ 0 (List.replicate 5 ⟨0, 0, 0⟩) .intact).wf = false ∧
    (Instr.embeddedData 0 ⟨0, false⟩ 0 [⟨2 ^ 32, 0, 0⟩] .intact).wf = false ∧ (Instr.exposureReq 0 0 true 1 ⟨0, 65536, 0⟩).wf = false ∧
    (Instr.exposureReq 0 0 true 1 ⟨0, 0, 65536⟩).wf = false := by decide
theorem test_wf_image_line (l : List Byte) (h : l.length = 65536) : (Instr.imageLine 0 ⟨0, false⟩ 0 0x2C l .ok).wf = false := by
  simp [Instr.wf, h]
theorem test_wf_hank (l : List Byte) (h : l.length = 65497) : (Instr.hankVerify 0 (some []) (2 ^ 32)).wf = false ∧
    (Instr.hankVerify 0 (some l) 0).wf = false ∧ (Instr.hankVerify 0 none 0).wf = true := by
  simp [Instr.wf, h]
theorem test_wf_block : (Instr.blockSend false [128] 0).wf = false ∧ (Instr.blockSend true [64, 195] 1).wf = true := by decide
theorem test_wf_time : (Instr.announce ⟨256, 0, 0, 0, 0, 0, 0, 0, 0⟩).wf = false ∧ (Instr.ldlyResp ⟨0, 0, 0⟩ (2 ^ 64) 0).wf = false ∧
    (Instr.ldlyResp ⟨0, 0, 0⟩ 0 (2 ^ 64)).wf = false ∧ (Instr.timeMsg ⟨0, 0, 0⟩ ⟨⟨0, 1000000000, 0, 0⟩, 0, 0, 0, 0, 0⟩ 0).wf = false ∧
    (Instr.timeMsg ⟨0, 0, 0⟩ ⟨⟨0, 0, 0, 0⟩, 0, 0, 256, 0, 0⟩ 0).wf = false := by decide
theorem test_wf_heads : (Instr.ldlyResp ⟨0, 0, 256⟩ 0 0).wf = false ∧ (Instr.timeMsg ⟨0, 0, 256⟩ ⟨⟨0, 0, 0, 0⟩, 0, 0, 0, 0, 0⟩ 0).wf = false ∧
    (Instr.linkEvent ⟨0, 0, 256⟩ 0 0).wf = false ∧ (Instr.enumMsg ⟨0, 0, 256⟩ false false 0 0 0).wf = false ∧
    (Instr.audit ⟨0, 0, 256⟩ false false ⟨0, 0, 0, 0, 0, 0, 0, 0, 0, 0, 0, 0, 0⟩).wf = false := by decide
theorem test_wf_ring_messages : let m : RingMsg := { msg 1 0 false [] with len := 257 }
    ∀ c ∈ [Instr.ringTransit 0 m 0, .ldlyReq 0 m, .readReq 0 m, .writeReq 0 m, .postedWrite 0 m, .resp 0 m, .postedAck 0 m,
      .lateError 0 m, .bcastReq 0 m, .bcastResp 0 m, .readReq 0 (msg 1 0 false (List.replicate 257 0)), .sweep 0 { m with hops := 256 },
      .sweep 0 (msg 8 0 false (List.replicate 273 0)), .readReq 0 { msg 1 0 false [] with hops := 256 }], c.wf = false := by decide +kernel
theorem test_wf_enumeration : (Instr.enumMsg ⟨0, 0, 0⟩ false false 256 0 0).wf = false ∧ (Instr.enumMsg ⟨0, 0, 0⟩ false false 0 257 0).wf = false ∧
    (Instr.enumMsg ⟨0, 0, 0⟩ false false 0 0 257).wf = false ∧ (Instr.audit ⟨0, 0, 0⟩ false false ⟨2 ^ 32, 0, 0, 0, 0, 0, 0, 0, 0, 0, 0, 0, 0⟩).wf = false ∧
    (Instr.audit ⟨0, 0, 0⟩ false false ⟨0, 256, 0, 0, 0, 0, 0, 0, 0, 0, 0, 0, 0⟩).wf = false := by decide
theorem test_wf_accesses : (Instr.windowAccess byCore false 0 1 3 [] false).wf = false ∧ (Instr.windowAccess byCore false 0 0 4 [] false).wf = false ∧
    (Instr.windowAccess byCore true 0 1 4 [0] false).wf = false ∧ (Instr.memap true 0 5 0).wf = false ∧
    (Instr.managementDatagram 0 0 true 0 16 0).wf = false ∧ (Instr.registerWrite byCore 0 0 0).wf = false ∧
    (Instr.chkData byCore 0 []).wf = false ∧ (Instr.chkData byCore 0 (List.replicate 5 0)).wf = false ∧
    (Instr.dmaAccessFailure 0 0 false 0 []).wf = false := by decide
theorem test_wf_measurements : (Instr.conversionDone 0 1 0).wf = false ∧ (Instr.thermalSample []).wf = false ∧
    (Instr.delayMonitorSample (List.replicate 79 0)).wf = false ∧ (Instr.replanDone [⟨800, []⟩]).wf = false ∧
    (Instr.eyeScanDone []).wf = false ∧ (Instr.returnLaneChecker 0 0).wf = false ∧ (Instr.returnLaneChecker 0 (2 ^ 32)).wf = false := by decide

/-! ### Numbers that the manual gives -/
/-- "123456789" in ASCII. -/
def digits : List Byte := [0x31, 0x32, 0x33, 0x34, 0x35, 0x36, 0x37, 0x38, 0x39]
/-- The check values of R536. -/
theorem test_crc_check_values : crc32c digits = 0xE3069283 ∧ crc 32 0x04C11DB7 0xFFFFFFFF 0xFFFFFFFF true true digits = 0xCBF43926 ∧
    crc64 digits = 0x995DC9BBDF1939FA ∧ crc 16 0x1021 0xFFFF 0 true true digits = 0x6F91 := by decide +kernel
/-- The worked example of 06_carding.md: PWL table, compander and expansion. -/
theorem test_pwl_sample : (PwlTable.mk 0 12 [(0, 0, 4096), (2048, 2048, 65536), (3072, 18432, 1048576), (3584, 149504, 16777216)]).apply 3210 = 53760 := by
  decide
/-- The carding block of the examples: flicker selection on, ramp 3500 to 4000, C[i] = 3840 i. -/
def block0 : CardBlock := ⟨0, false, true, 0, 0, 64, 64, List.replicate 3 (3500, 4000), (List.range 18).map fun i => 3840 * i, []⟩
theorem test_compander : block0.compand 52736 false = 33060 ∧ expandCode block0.compander 23513 = 9201 := by decide +kernel
/-- R213 to R216, the three-exposure example: the weighted sum, and the flicker selection. -/
theorem test_three_exposures :
    let sq := mergeScales [⟨16000000, 256, 4096⟩, ⟨1000000, 256, 4096⟩, ⟨62500, 256, 4096⟩]
    let ins (vs : List Nat) := vs.mapIdx fun e v => block0.mergeIn e v 256 (nth sq e (0, 0))
    sq = [(65536, 256), (1048576, 16), (16777216, 1)] ∧ block0.merge (ins [3544, 230, 14]) = (3563, false, false) ∧
      block0.merge (ins [2744, 6, 1]) = (2744, false, true) ∧
      ({ block0 with flickerOn := false }).merge (ins [2744, 6, 1]) = (2580, false, false) := by decide +kernel
/-- The worked examples of 08_pixel_kernels.md: weights, tone, transfer, temporal filter and overlay. -/
theorem test_pixel_numbers : cubicWeights 32 = [-1024, 9216, 9216, -1024] ∧ cubicWeights 0 = [0, 16384, 0, 0] ∧
    toneMap (some (List.replicate 102 0 ++ [30200, 30520])) 11711 = 30479 ∧
    transferMap (some (List.replicate 476 0 ++ [45900, 45980])) 30479 = 45919 ∧ tnfBlend 665 661 192 = 662 := by decide +kernel
theorem test_guide_line : coversSegment 3 (1600, 14400) (11200, 8000) (16 * 400 + 8) (16 * 700 + 8) = true ∧
    coversSegment 3 (1600, 14400) (11200, 8000) (16 * 400 + 8) (16 * 702 + 8) = false := by decide
/-- The residuals of the flat field of 10_hank_compressor.md, four columns wide, and the first symbols of its payload. -/
theorem test_flat_field : residual 2 2 4 3 (fun _ _ => 0x400) = [8, 8, 0, 0, 0, 0, 0, 0, 8, 8, 0, 0, 0, 0, 0, 0] ++ List.replicate 8 0 := by
  decide
theorem test_stored_block : inflate [] [0, 2, 0, 0xFD, 0xFF, 7, 9, 0, 0, 0, 0xFF, 0xFF] = some ([7, 9], true) := by decide +kernel
/-- The settled result of the crushed-cable example of 14_sense.md. -/
theorem test_sense_code : resultCode 256000 800000 = 335544 := by decide
/-- R145 with the timestamps of the 25 m door camera: offset 7211 ns, delay 130 ns. -/
theorem test_first_synchronisation :
    (match exec (.syncResp 0 0 7 1052000257341 1052000263741)
        (st fun d => { (port0 (fun x => { x with step := .trained, outstanding := [⟨7, .syncReq, 0, 0⟩], syncT1 := some 1052000250000 }) d) with
          whl := { d.whl with tim := 526000128330 } }) with
     | .next t => ((t.dev.ports[(0 : PortNo)]).offset, (t.dev.ports[(0 : PortNo)]).delay) | _ => (0, 0)) = (7211, 130) := by decide +kernel
/-- The identity of R583. -/
theorem test_idcode : (match exec .idcode State.reset with | .next t => t.dev.jtag.dr | _ => 0) = 0xB16645C7 := by decide
/-- R540 with a gap of 2: steps of 1, 3, 0 and 4 are in order, two lost, a repeat and an error. -/
theorem test_alive_steps :
    let u : ChkUnit := [9, 10, 13, 13, 17].foldl (fun u v => u.judge v) { ChkUnit.reset with act := ⟨16, 0, 0, 0, false, false, true, 2⟩ }
    (u.lost, u.repeats, u.errors) = (2, 1, 1) := by decide
/-- R551: bit 0 of SYS_FAULT_SUM drives FAULT_N low. -/
theorem test_fault_pin : (match exec (.faultSet ⟨.core 2, 0, 0⟩ 1) (st live) with | .next t => t.dev.pins.faultN | _ => true) = false := by decide

end Sys2Proof.Tests
end

section
/-! SUPPORT. A read of register space: which branch of `State.readAt` it takes, and what a LO read latches (00 R5;
18 R585, R588). -/

namespace Sys2Proof.Machine

/-! ### Reset and the regions -/

/-- Once the reset is released every region answers (R589). -/
theorem Dev.answersAt_of_released (d : Dev) (r : Region) (h : d.released = true) : d.answersAt r = true := by
  simp [Dev.answersAt, h]

/-- The release of the reset depends on the start path alone. -/
theorem Dev.released_congr (d e : Dev) (h : e.aon = d.aon) : e.released = d.released := by
  simp only [Dev.released, h]

@[simp] theorem Dev.settle_released (d : Dev) : d.settle.released = d.released := Dev.released_congr _ _ (by simp)

/-- Offsets of words that neither the stage buffer nor the control SRAM backs. -/
def regBacked (off : Nat) : Bool := (sramOff off).isNone && (stageOff off).isNone

/-- A read or write of one aligned word that no memory backs is a beat that R585 allows. -/
theorem beatOk_word (m : Master) (w : Bool) (off : Nat) (hb : sramOff off = none) (h4 : off % 4 = 0) :
    beatOk m w off 4 = true := by
  simp [beatOk, hb, h4]

/-! ### Reads -/

/-- A read of one aligned word that no memory backs is a register read (R585). -/
theorem State.readAt_reg (s : State) (a : Access) (off : Nat) (hr : s.dev.released = true) (h : off < 0x20000000)
    (hb : regBacked off = true) (h4 : off % 4 = 0) :
    s.readAt a (regAddr off) 4 = { s with dev := s.dev.readReg a off } := by
  obtain ⟨hsram, hstage⟩ : sramOff off = none ∧ stageOff off = none := by simpa [regBacked] using hb
  simp only [State.readAt, regionOf_regAddr off h, s.dev.answersAt_of_released _ hr, beatOk_word _ _ _ hsram h4, hsram,
    hstage]
  rfl

/-- Offsets that `Dev.readReg` serves with an effect of their own. -/
def effectRead (off : Nat) : Bool :=
  [0x30050, 0x30054, 0x30058, 0x70810, 0x40000C].contains off || (decide (0x40000 ≤ off) && decide (off ≤ 0x40010)) ||
    (match inTable off 0x60040 0x20 4 with | some (_, o) => decide (o = 0 ∨ o = 8) | none => false) ||
    (match inTable off 0x20100 0x40 6 with | some (_, o) => decide (o = 0) | none => false) ||
    (match inTable off 0x100000 0x10000 16 with | some (_, o) => decide (o = 0x70 ∨ o = 0x74) | none => false)

/-- Any other register reads as `Dev.view` shows it: a table row that `Dev.readReg` serves by itself is in `effectRead`. -/
theorem Dev.readReg_view (d : Dev) (a : Access) (off : Nat) (hr : d.released = true) (h : effectRead off = false) :
    d.readReg a off = d.readView a off := by
  simp only [effectRead, Bool.or_eq_false_iff] at h
  obtain ⟨⟨⟨⟨hwords, htsq⟩, hconv⟩, hsec⟩, hexp⟩ := h
  simp only [List.contains_eq_mem, List.mem_cons, List.not_mem_nil, or_false, not_or, decide_eq_false_iff_not,
    ← Bool.decide_and] at hwords htsq
  simp only [Dev.readReg, d.answersAt_of_released _ hr, hwords, if_false, Bool.not_true, Bool.false_eq_true]
  rw [if_neg (by omega), if_neg (by omega)]
  split <;> simp_all

/-! ### LO/HI latches -/

@[simp] theorem heldAt_holdAt_same (l : List HiLatch) (m : Master) (off : Nat) (v : Word) :
    heldAt (holdAt l m off v) m off = some v := by
  simp [heldAt, holdAt]

/-- Holding a word leaves what other masters hold, and what is held at other offsets. -/
theorem heldAt_holdAt_other (l : List HiLatch) (m n : Master) (off k : Nat) (v : Word) (h : ¬(n = m ∧ k = off)) :
    heldAt (holdAt l m off v) n k = heldAt l n k := by
  have hkept : ∀ x : HiLatch, decide ((!(decide (x.master = m) && decide (x.off = off))) = true ∧
      (decide (x.master = n) && decide (x.off = k)) = true) = (decide (x.master = n) && decide (x.off = k)) := by
    intro x
    rw [Bool.eq_iff_iff, decide_eq_true_eq, and_iff_right_iff_imp]
    intro hx
    obtain ⟨rfl, rfl⟩ : x.master = n ∧ x.off = k := by simpa using hx
    simpa [-not_and, not_and_or] using h
  have hhead : ¬(m = n ∧ off = k) := fun ⟨hm, hk⟩ => h ⟨hm.symm, hk.symm⟩
  rw [heldAt, heldAt, holdAt, List.find?_cons_of_neg (by simpa using hhead), List.find?_filter]
  simp only [hkept]

/-- Changes of the bus disappear from the access frame where the bus is put back. -/
theorem Dev.onBus_frame (d : Dev) (f : Bus → Bus) : { (d.onBus f).unaccess d with bus := d.bus } = d := by
  dsimp only [Dev.unaccess, Dev.unreport, Dev.onBus]

/-! ### The LO words -/

/-- An aligned word of register space that no memory backs and whose read has no effect of its own. -/
def plainWord (off : Nat) : Bool :=
  decide (off < 0x20000000) && decide (off % 4 = 0) && regBacked off && !effectRead off

/-- LO_READ_LATCH of such a word answers what `Dev.view` shows. -/
theorem exec_loReadLatch_view (s : State) (a : Access) (off : Nat) (hr : s.dev.released = true) (h : plainWord off = true) :
    exec (.loReadLatch a (regAddr off)) s = .next { s with dev := (s.dev.readView a off).settle } := by
  simp only [plainWord, Bool.and_eq_true, decide_eq_true_eq, Bool.not_eq_true'] at h
  obtain ⟨⟨⟨hlt, h4⟩, hb⟩, he⟩ := h
  show Host.Outcome.next (s.runM (readWord a (regAddr off))) = _
  rw [State.runM, readWord, s.readAt_reg a off hr hlt hb h4, s.dev.readReg_view a off hr he]

/-- The LO words and the HI words behind them are of this kind. -/
theorem loOffsets_plain : ∀ off ∈ loOffsets, plainWord off = true ∧ plainWord (off + 4) = true := by
  decide +kernel

/-- The word behind a LO word shows as a HI word. -/
theorem view_hi_of_loOffsets (d : Dev) (m : Master) : ∀ off ∈ loOffsets, d.view m (off + 4) = .hi := by
  have hmap : loOffsets.map (fun off => d.view m (off + 4)) = loOffsets.map fun _ => .hi := rfl
  exact List.map_inj_left.1 hmap

/-- A LO read latches HI for its master and answers the low half. -/
theorem Dev.readView_lo (d : Dev) (a : Access) (off : Nat) (x : DWord) (h : d.view a.master off = .lo x) :
    d.readView a off = (d.latchHi a.master (off + 4) (hiWord x)).answerWord a (loWord x) := by
  simp only [Dev.readView, h]

/-- A HI read answers what its master has latched. -/
theorem Dev.readView_hi (d : Dev) (a : Access) (off : Nat) (w : Word) (h : d.view a.master off = .hi)
    (hw : heldAt d.bus.hi a.master off = some w) : d.readView a off = d.answerWord a w := by
  simp only [Dev.readView, h, hw, Option.getD_some]

/-- Settles O13: the LO read is `readView` of a LO word, and the state after it holds the latch that the HI read answers. -/
theorem loReadLatchesHi : Obligations.LoReadLatchesHi := by
  intro s a b off x hr hoff hx
  obtain ⟨hlo, hhi⟩ := loOffsets_plain off hoff
  have hread := exec_loReadLatch_view s a off hr hlo
  rw [s.dev.readView_lo a off x hx] at hread
  generalize ht : ((s.dev.latchHi a.master (off + 4) (hiWord x)).answerWord a (loWord x)).settle = e at hread
  have hbus : e.bus.hi = holdAt s.dev.bus.hi a.master (off + 4) (hiWord x) := by rw [← ht, Dev.settle_bus]; rfl
  have hheld : heldAt e.bus.hi a.master (off + 4) = some (hiWord x) := by rw [hbus, heldAt_holdAt_same]
  have hre : e.released = true := by rw [← ht, Dev.settle_released]; exact hr
  refine ⟨_, hread, rfl, ?_, hheld, fun m k hmk => ?_, ?_, _, exec_loReadLatch_view _ _ (off + 4) hre hhi, ?_⟩
  · rw [← ht, Dev.settle_bus]; rfl
  · dsimp only
    rw [hbus, heldAt_holdAt_other _ _ _ _ _ _ hmk]
  · rw [← ht, Dev.unaccess_settle, Dev.answerWord, Dev.unaccess_answer]
    exact Dev.onBus_frame s.dev _
  · rw [Dev.readView_hi _ { b with master := a.master } _ _ (view_hi_of_loOffsets e _ off hoff) hheld, Dev.settle_bus]
    rfl

end Sys2Proof.Machine
end

section
/-! SUPPORT. A single-beat write into register space: which branch of `State.writeReg` it takes (18 R584 to R586). -/

namespace Sys2Proof.Machine

/-! ### Bytes of a value -/

@[simp] theorem le_length (n x : Nat) : (le n x).length = n := by simp [le]

/-- The bytes of a number, one at a time. -/
theorem le_succ (n x : Nat) : le (n + 1) x = BitVec.ofNat 8 x :: le n (x / 256) := by
  simp only [le, List.range_succ_eq_map, List.map_cons, List.map_map, Nat.mul_zero, Nat.shiftRight_zero, List.cons.injEq, true_and]
  refine List.map_congr_left fun i _ => ?_
  simp only [Function.comp_apply, Nat.shiftRight_eq_div_pow, Nat.div_div_eq_div_mul]
  rw [Nat.mul_succ, Nat.pow_add, Nat.mul_comm]

/-- The low bytes of a number spell its residue. -/
theorem fromLe_le (n x : Nat) : fromLe (le n x) = x % 256 ^ n := by
  induction n generalizing x with
  | zero => simp [le, fromLe, Nat.mod_one]
  | succ n ih => rw [le_succ, fromLe, ih, BitVec.toNat_ofNat, Nat.pow_succ' (n := n), Nat.mod_mul (a := 256)]

/-- A word is spelt by its four bytes. -/
theorem word_of_le (v : Word) : BitVec.ofNat 32 (fromLe ((le 4 v.toNat).take 4)) = v := by
  rw [List.take_of_length_le (by simp), fromLe_le, Nat.mod_eq_of_lt (show v.toNat < 256 ^ 4 from v.isLt), BitVec.ofNat_toNat,
    BitVec.setWidth_eq]

/-- Byte `k` of a value. -/
theorem le_getD (n x k : Nat) (b : Byte) (h : k < n) : (le n x).getD k b = BitVec.ofNat 8 (x >>> (8 * k)) := by
  simp [le, List.getD_eq_getElem?_getD, h]

/-! ### Accesses that change nothing -/

/-- What an access that is refused with ADDR_ERR leaves: its traces and the answer alone. -/
def Dev.refusedBy (a : Access) (d e : Dev) : Prop :=
  e.bus.answer = some ⟨a.master, 2, 0, 0⟩ ∧ e.unaccess d = d

/-- A write whose register refuses it changes nothing, whether it is taken to its block or not (R559, R586). -/
theorem Dev.write_addrErr (d : Dev) (a : Access) (addr : Word) (n : Nat) (v : Word) (lg : Bool) :
    Dev.refusedBy a d (d.write a addr n v lg fun e => (e, Res.addrErr)) := by
  cases hacc : d.accepts a addr v with
  | true => exact ⟨Dev.write_answer _ _ _ _ _ _ _ hacc, by simp [Dev.write_accepted _ _ _ _ _ _ _ _ hacc]⟩
  | false => exact ⟨Dev.write_refused_answer _ _ _ _ _ _ _ hacc, by simp [Dev.write_refused _ _ _ _ _ _ _ _ hacc]⟩

theorem Dev.refusedBy_settle (a : Access) (d e : Dev) (h : Dev.refusedBy a d e) : Dev.refusedBy a d e.settle := by
  simpa only [Dev.refusedBy, Dev.settle_bus, Dev.unaccess_settle] using h

/-! ### The branches of a register write -/

section
variable (go : Access → Word → State → State) (s : State) (a : Access) (off : Nat) (bs : List Byte) (v : Word)

/-- A write of bytes to a register address is a single beat into register space. -/
theorem State.writeAt_reg (h : off < 0x20000000) (hn : bs ≠ []) :
    s.writeAt go a (regAddr off) bs = s.writeReg go a off bs (BitVec.ofNat 32 (fromLe (bs.take 4))) := by
  simp only [State.writeAt, regionOf_regAddr off h]
  rw [if_neg (by simpa using hn)]

/-- A beat that R585 does not allow is refused. -/
theorem State.writeReg_badBeat (hb : beatOk a.master true off bs.length = false) :
    s.writeReg go a off bs v =
      { s with dev := s.dev.write a (regAddr off) bs.length v true fun e => (e, Res.addrErr) } := by
  simp [State.writeReg, hb]

/-- A word that is not listed refuses (R586). -/
theorem State.writeReg_unlisted (hb : beatOk a.master true off bs.length = true) (hm : sramOff off = none)
    (hs : ¬(0x50020 ≤ off ∧ off < 0x50030 ∨ 0x58000 ≤ off ∧ off < 0x60000))
    (hl : s.dev.listed a.master (off / 4 * 4) = false) :
    s.writeReg go a off bs v =
      { s with dev := s.dev.write a (regAddr off) bs.length v true fun e => (e, Res.addrErr) } := by
  simp [State.writeReg, hb, hm, hs, hl]

/-- Registers whose writes `State.writeReg` hands on to `Dev.writeReg`: no memory, staging, mode request, reset, self-test or
broadcast start stands behind them. -/
def plainWrite (off : Nat) : Bool :=
  (sramOff off).isNone && !decide (0x50020 ≤ off ∧ off < 0x50030 ∨ 0x58000 ≤ off ∧ off < 0x60000) &&
    !([0xC, 0x1C, 0x700020, 0x3010C].contains off)

/-- A word write to a listed register of its own block. -/
theorem State.writeReg_plain (hp : plainWrite off = true) (h4 : off % 4 = 0) (hn : bs.length = 4)
    (hl : s.dev.listed a.master off = true) : s.writeReg go a off bs v = { s with dev := s.dev.writeReg a off bs v } := by
  simp only [plainWrite, Bool.and_eq_true, Option.isNone_iff_eq_none, Bool.not_eq_true', decide_eq_false_iff_not,
    List.contains_eq_mem, List.mem_cons, List.not_mem_nil, or_false, not_or] at hp
  obtain ⟨⟨hsram, hstage⟩, hmode, hreset, hbist, hbc⟩ := hp
  have hdiv : off / 4 * 4 = off := by omega
  simp only [State.writeReg, hn, beatOk_word _ _ _ hsram h4, hsram, hdiv, hl]
  simp [hstage, hmode, hreset, hbist, hbc]

/-- A beat into the control SRAM writes its bytes. -/
theorem State.writeReg_sram (o : Nat) (hb : beatOk a.master true off bs.length = true) (hm : sramOff off = some o) :
    s.writeReg go a off bs v =
      s.write a (regAddr off) bs.length v true fun t =>
        ({ t with mem := { t.mem with sram := Memory.write 0 t.mem.sram o bs } }, Res.ok) := by
  simp [State.writeReg, hb, hm]

end

/-- An accepted write that reaches memories takes its effect; beyond it only the traces of an access. -/
theorem State.write_accepted (s : State) (d0 : Dev) (a : Access) (addr : Word) (n : Nat) (v : Word) (lg : Bool)
    (f : State → State × Res) (h : s.dev.accepts a addr v = true) :
    (s.write a addr n v lg f).dev.unaccess d0 = (f s).1.dev.unaccess d0 ∧ (s.write a addr n v lg f).mem = (f s).1.mem := by
  simp only [State.write, State.writeN, h, if_true, and_true]
  split_ifs <;> simp

/-- A word write command to a listed register of its own block runs that register's write alone. -/
theorem exec_registerWrite_word (s : State) (a : Access) (off : Nat) (v : Word) (h : off < 0x20000000)
    (hp : plainWrite off = true) (h4 : off % 4 = 0) (hl : s.dev.listed a.master off = true) :
    exec (.registerWrite a (regAddr off) 4 (v.zeroExtend 64)) s =
      .next { s with dev := (s.dev.writeReg a off (le 4 v.toNat) v).settle } := by
  have hv : (v.zeroExtend 64).toNat = v.toNat := by
    rw [BitVec.toNat_setWidth, Nat.mod_eq_of_lt (by have := v.isLt; omega)]
  show Host.Outcome.next (s.runM _) = _
  rw [State.runM, hv, s.writeAt_reg _ a off _ h (by simp [le]), word_of_le,
    s.writeReg_plain _ a off _ v hp h4 (le_length 4 _) hl]

/-- PLY_COUNTER_CLEAR is a word write of PLY_CNT_CLR. -/
theorem exec_plyCounterClear (s : State) (a : Access) (v : Word) (hl : s.dev.listed a.master 0x600060 = true) :
    exec (.plyCounterClear a v) s = .next { s with dev := (s.dev.writeReg a 0x600060 (le 4 v.toNat) v).settle } := by
  show Host.Outcome.next (s.runM _) = _
  rw [State.runM, writeWord, s.writeAt_reg _ a _ _ (by omega) (by simp [le]), word_of_le,
    s.writeReg_plain _ a _ _ v (by decide) (by decide) (le_length 4 _) hl]

/-- A write command that is refused in register space leaves its traces alone. -/
theorem exec_registerWrite_refused (s : State) (a : Access) (off n : Nat) (x : DWord) (h : off < 0x20000000) (hn : 0 < n)
    (hw : ∀ v, s.writeReg broadcastGo a off (le n x.toNat) v =
      { s with dev := s.dev.write a (regAddr off) n v true fun e => (e, Res.addrErr) }) :
    ∃ t, exec (.registerWrite a (regAddr off) n x) s = .next t ∧ t.mem = s.mem ∧ Dev.refusedBy a s.dev t.dev := by
  have hat := s.writeAt_reg broadcastGo a off (le n x.toNat) h (List.ne_nil_of_length_pos (by simpa using hn))
  rw [hw] at hat
  refine ⟨_, rfl, ?_, ?_⟩
  · rw [State.runM_mem, hat]
  · rw [State.runM_dev, hat]
    exact Dev.refusedBy_settle _ _ _ (Dev.write_addrErr ..)

/-- What an effect on the ply link alone leaves once the traces of an access are put back. -/
theorem Dev.onPly_unaccess (d : Dev) (f : Ply → Ply) : (d.onPly f).unaccess d = { d with ply := f d.ply } := rfl

/-- What an effect on the ring bridge alone leaves. -/
theorem Dev.onSkn_unaccess (d : Dev) (f : Skn → Skn) : (d.onSkn f).unaccess d = { d with skn := f d.skn } := rfl

/-! ### The clauses of O15 -/

/-- ROC_READ of DMA_ERRSUM runs the read of that register alone. -/
theorem exec_rocRead_errSum (s : State) (a : Access) (hr : s.dev.released = true) :
    exec (.rocRead a (regAddr 0x70810)) s = .next { s with dev := (s.dev.readErrSum a).settle } := by
  have hread : s.dev.readReg a 0x70810 = s.dev.readErrSum a := by
    simp [Dev.readReg, s.dev.answersAt_of_released _ hr]
  show Host.Outcome.next (s.runM (readWord a (regAddr 0x70810))) = _
  rw [State.runM, readWord, s.readAt_reg a _ hr (by decide) (by decide) (by decide), hread]

/-- The counts after the read, by the path it comes from. -/
theorem Dev.readErrSum_dma (d : Dev) (a : Access) :
    (d.readErrSum a).dma = if a.master.diag = true then d.dma else { d.dma with ovfCount := 0, startIgn := 0 } := by
  cases hd : a.master.diag <;> simp [Dev.readErrSum, Dev.answerWord, hd]

/-- The read changes the counts of DMA_ERRSUM alone. -/
theorem Dev.readErrSum_frame (d : Dev) (a : Access) : (d.readErrSum a).unaccess d = { d with dma := (d.readErrSum a).dma } := by
  rw [Dev.readErrSum_dma]
  cases hd : a.master.diag <;> simp only [Dev.readErrSum, Dev.answerWord, hd, Dev.unaccess_answer] <;> rfl

/-- PLY_CNT_CLR is listed. -/
theorem listed_plyCntClr (d : Dev) (m : Master) : d.listed m 0x600060 = true := rfl

/-- The start of entry `n` of a table. -/
theorem inTable_entry (base stride cnt n : Nat) (hs : 0 < stride) (h : n < cnt) :
    inTable (base + stride * n) base stride cnt = some (n, 0) := by
  have hlt : stride * n < stride * cnt := Nat.mul_lt_mul_of_pos_left h hs
  rw [inTable, if_pos ⟨by omega, by omega⟩, Nat.add_sub_cancel_left, Nat.mul_div_cancel_left _ hs, Nat.mul_mod_right]

/-- Every SKN_WINn shows its word, so it is listed. -/
theorem listed_sknWin (d : Dev) (m : Master) (n : Fin 16) : d.listed m (0x30000 + 4 * n.val) = true := by
  have hn := n.isLt
  have hblock : (0x30000 + 4 * n.val) / 0x10000 = 3 := by omega
  have hoff : (0x30000 + 4 * n.val) % 0x10000 = 0 + 4 * n.val := by omega
  have hview : d.view m (0x30000 + 4 * n.val) = .word (d.skn.win[Fin.ofNat 16 n.val]) := by
    simp only [Dev.view, hblock, hoff, Dev.viewSkn, inTable_entry 0 4 16 n.val (by decide) hn]
  simp [Dev.listed, hview]

/-- Bit 0 of PLY_CNT_CLR zeroes the five ply counters. -/
theorem Dev.writeReg_plyCntClr (d : Dev) (a : Access) (bs : List Byte) (v : Word) :
    d.writeReg a 0x600060 bs v = d.put a 0x600060 v fun e =>
      if v.getLsbD 0 then e.onPly fun p => { p with counts := Vector.replicate 5 0 } else e := by
  simp [Dev.writeReg]

/-- A write of SKN_WINn keeps its fields (R470). -/
theorem Dev.writeReg_sknWin (d : Dev) (a : Access) (n : Fin 16) (bs : List Byte) (v : Word) :
    d.writeReg a (0x30000 + 4 * n.val) bs v =
      d.put a (0x30000 + 4 * n.val) v fun e => e.onSkn fun k => { k with win := upd k.win n fun _ => v &&& winMask } := by
  have hn := n.isLt
  have hblock : (0x30000 + 4 * n.val) / 0x10000 = 3 := by omega
  simp only [Dev.writeReg, hblock, Dev.writeSkn, inTable_entry 0x30000 4 16 n.val (by decide) hn,
    Fin.ofNat_eq_cast, Fin.cast_val_eq_self]

/-- Nothing but its own block stands behind SKN_WINn. -/
theorem plainWrite_sknWin (n : Fin 16) : plainWrite (0x30000 + 4 * n.val) = true := by
  revert n; decide

/-- Writes to one register are taken or refused whatever the value, but for BOB_QSEL (R559). -/
theorem Dev.accepts_value_irrelevant (d : Dev) (a : Access) (off : Nat) (v w : Word) (h : off < 0x20000000)
    (hq : off ≠ 0x400000) : d.accepts a (regAddr off) v = d.accepts a (regAddr off) w := by
  simp [Dev.accepts, regionOf_regAddr off h, Dev.acceptsDiag, Dev.acceptsReg, hq]

/-- A write of 1, 2, 4 or 8 aligned bytes of the control SRAM is a beat that R585 allows. -/
theorem beatOk_sram (m : Master) (w : Bool) (off size : Nat) (hsize : sizeOk size = true) (ha : off % size = 0)
    (h : off < 0x100000) : beatOk m w (0x800000 + off) size = true ∧ sramOff (0x800000 + off) = some off := by
  have hoff : sramOff (0x800000 + off) = some off := by
    rw [sramOff, if_pos ⟨by omega, by omega⟩, Nat.add_sub_cancel_left]
  have hs : size = 1 ∨ size = 2 ∨ size = 4 ∨ size = 8 := by simpa [sizeOk, or_assoc] using hsize
  exact ⟨by simp [beatOk, hoff, ha, hs], hoff⟩

/-- A write to the control SRAM changes exactly its bytes. -/
theorem exec_registerWrite_sram (s : State) (a : Access) (off size : Nat) (x : DWord) (hsize : sizeOk size = true)
    (ha : off % size = 0) (h : off < 0x100000)
    (hacc : s.dev.accepts a (regAddr (0x800000 + off)) (x.truncate 32) = true) :
    ∃ t, exec (.registerWrite a (regAddr (0x800000 + off)) size x) s = .next t ∧ t.dev.unaccess s.dev = s.dev ∧
      t.mem = { s.mem with sram := Memory.write 0 s.mem.sram off (le size x.toNat) } := by
  obtain ⟨hbeat, hsram⟩ := beatOk_sram a.master true off size hsize ha h
  have hpos : 0 < size := Nat.pos_of_ne_zero fun h0 => by simp [h0, sizeOk] at hsize
  have hat := s.writeAt_reg broadcastGo a (0x800000 + off) (le size x.toNat) (by omega)
    (List.ne_nil_of_length_pos (by simpa using hpos))
  rw [s.writeReg_sram _ _ _ _ _ off (by simpa using hbeat) hsram, le_length] at hat
  rw [s.dev.accepts_value_irrelevant a _ _ (BitVec.ofNat 32 (fromLe ((le size x.toNat).take 4))) (by omega) (by omega)] at hacc
  obtain ⟨hdev, hmem⟩ := State.write_accepted s s.dev a _ size _ true (fun t =>
    ({ t with mem := { t.mem with sram := Memory.write 0 t.mem.sram off (le size x.toNat) } }, Res.ok)) hacc
  refine ⟨_, rfl, ?_, ?_⟩
  · rw [State.runM_dev, hat, Dev.unaccess_settle, hdev, Dev.unaccess_self]
  · rw [State.runM_mem, hat, hmem]

/-- The clause of O15 on PLY_CNT_CLR. -/
theorem exec_plyCounterClear_counts (s : State) (a : Access) (v : Word) (hacc : s.dev.accepts a (regAddr 0x600060) v = true) :
    ∃ t, exec (.plyCounterClear a v) s = .next t ∧ t.mem = s.mem ∧
      t.dev.ply.counts = (if v.getLsbD 0 then Vector.replicate 5 0 else s.dev.ply.counts) ∧
      { t.dev.unaccess s.dev with ply := { t.dev.ply with counts := s.dev.ply.counts } } = s.dev := by
  refine ⟨_, exec_plyCounterClear s a v (listed_plyCntClr _ _), rfl, ?_⟩
  dsimp only
  rw [Dev.settle_ply, Dev.unaccess_settle, Dev.writeReg_plyCntClr, Dev.put, Dev.write_accepted _ _ _ _ _ _ _ _ hacc, Dev.write_ply,
    if_pos hacc]
  dsimp only
  split_ifs
  · rw [Dev.onPly_unaccess, Dev.onPly_ply]
    refine ⟨rfl, ?_⟩
    dsimp only
  · rw [Dev.unaccess_self]
    refine ⟨rfl, ?_⟩
    dsimp only

/-- The clause of O15 on SKN_WINn. -/
theorem exec_registerWrite_sknWin (s : State) (a : Access) (n : Fin 16) (v : Word) (hr : s.dev.released = true) :
    ∃ t, exec (.registerWrite a (regAddr (0x30000 + 4 * n.val)) 4 (v.zeroExtend 64)) s = .next t ∧ t.mem = s.mem ∧
      t.dev.skn.win = upd s.dev.skn.win n (fun _ => v &&& 0xF0FFFFFF) ∧
      { t.dev.unaccess s.dev with skn := { t.dev.skn with win := s.dev.skn.win } } = s.dev := by
  have hacc := s.dev.accepts_open a (0x30000 + 4 * n.val) v hr (by omega)
  refine ⟨_, exec_registerWrite_word s a _ v (by omega) (plainWrite_sknWin n) (by omega) (listed_sknWin _ _ n), rfl, ?_⟩
  dsimp only
  rw [Dev.settle_skn, Dev.unaccess_settle, Dev.writeReg_sknWin, Dev.put, Dev.write_accepted _ _ _ _ _ _ _ _ hacc, Dev.write_skn,
    if_pos hacc]
  dsimp only
  rw [Dev.onSkn_unaccess, Dev.onSkn_skn]
  refine ⟨rfl, ?_⟩
  dsimp only

/-- The clause of O15 on DMA_ERRSUM: the read of a core or the DMA clears the counts (R8), that of a diagnostic path does
not (R558). -/
theorem exec_rocRead_errSum_counts (s : State) (a : Access) (hr : s.dev.released = true) :
    ∃ t, exec (.rocRead a (regAddr 0x70810)) s = .next t ∧ t.mem = s.mem ∧
      (if a.master.diag then t.dev.dma.ovfCount = s.dev.dma.ovfCount ∧ t.dev.dma.startIgn = s.dev.dma.startIgn
        else t.dev.dma.ovfCount = 0 ∧ t.dev.dma.startIgn = 0) ∧
      t.dev.bus.answer = some ⟨a.master, 0, 0,
        (BitVec.ofNat 32 (s.dev.dma.ovfCount * 2 ^ 16 + s.dev.dma.startIgn)).zeroExtend 64⟩ ∧
      { t.dev.unaccess s.dev with
          dma := { t.dev.dma with ovfCount := s.dev.dma.ovfCount, startIgn := s.dev.dma.startIgn } } = s.dev := by
  refine ⟨_, exec_rocRead_errSum s a hr, rfl, ?_⟩
  dsimp only
  rw [Dev.settle_dma, Dev.unaccess_settle, Dev.settle_bus, Dev.readErrSum_frame, Dev.readErrSum_dma]
  split_ifs
  · exact ⟨⟨rfl, rfl⟩, rfl, rfl⟩
  · exact ⟨⟨rfl, rfl⟩, rfl, rfl⟩

/-- Settles O15, a clause for each kind of access: the ROC read, the plain register writes, the control SRAM and the two
refusals. -/
theorem singleRegisterAccesses : Obligations.SingleRegisterAccesses := by
  intro s a hr
  refine ⟨exec_rocRead_errSum_counts s a hr, exec_plyCounterClear_counts s a, fun n v => exec_registerWrite_sknWin s a n v hr,
    fun off size x hsize ha h hacc => ?_, fun off v h4 h hl => ?_, fun off x h => ?_⟩
  · obtain ⟨t, hexec, hdev, hmem⟩ := exec_registerWrite_sram s a off size x hsize ha h hacc
    refine ⟨t, hexec, hdev, fun k hk => ?_, fun k hk => ?_, by rw [hmem]⟩
    · simp only [hmem]
      rw [Memory.read_write_same _ _ _ _ _ (by simpa using hk), le_getD _ _ _ _ hk]
    · simp only [hmem]
      exact Memory.read_write_other _ _ _ _ _ (by simpa using hk)
  · have hm : sramOff off = none := if_neg (by omega)
    have hlisted : s.dev.listed a.master (off / 4 * 4) = false := by rwa [show off / 4 * 4 = off by omega]
    exact exec_registerWrite_refused s a off 4 _ (by omega) (by omega) fun w => by
      simpa using s.writeReg_unlisted broadcastGo a off (le 4 (v.zeroExtend 64).toNat) w
        (by simpa using beatOk_word _ true _ hm h4) hm (by omega) hlisted
  · have hbeat : beatOk a.master true off 8 = false := by
      have hm : sramOff off = none := if_neg (by omega)
      simp [beatOk, hm]; omega
    exact exec_registerWrite_refused s a off 8 x (by omega) (by omega) fun w => by
      simpa using s.writeReg_badBeat broadcastGo a off (le 8 x.toNat) w (by simpa using hbeat)

end Sys2Proof.Machine
end

section
/-! SUPPORT. Complement pairs: what a write of X and a rejected write of X_C leave (00 R9; 18 R588, R592). -/

namespace Sys2Proof.Machine

/-! ### Held LO words -/

/-- The LO words held after a write are those of its register's effect. -/
@[simp] theorem Dev.write_bus_lo (d : Dev) (a : Access) (addr : Word) (n : Nat) (v : Word) (lg : Bool) (f : Dev → Dev × Res) :
    (d.write a addr n v lg f).bus.lo = if d.accepts a addr v = true then (f d).1.bus.lo else d.bus.lo := by
  simp only [Dev.write, Dev.answer, Dev.onBus]
  split_ifs <;> simp

/-! ### Frames of the pairs -/

/-- Changes of the pairs disappear from the access frame where the pairs are put back. -/
theorem Dev.pairs_frame (d : Dev) (q : Pairs) : { ({ d with pairs := q } : Dev).unaccess d with pairs := d.pairs } = d := by
  dsimp only [Dev.unaccess, Dev.unreport]

/-- The same with the bus beside them. -/
theorem Dev.onBus_pairs_frame (d : Dev) (f : Bus → Bus) (q : Pairs) :
    { ({ d.onBus f with pairs := q } : Dev).unaccess d with pairs := d.pairs, bus := d.bus } = d := by
  dsimp only [Dev.unaccess, Dev.unreport, Dev.onBus]

/-- The same with SYS_CPAIR_ERR beside them. -/
theorem Dev.pairError_frame (d : Dev) (a : Access) (off : Nat) (q : Pairs) :
    { (({ d with pairs := q } : Dev).pairError a off).unaccess d with
      pairs := d.pairs
      sys := { ((({ d with pairs := q } : Dev).pairError a off).unaccess d).sys with cpairErr := d.sys.cpairErr } } = d := by
  dsimp only [Dev.unaccess, Dev.unreport, Dev.pairError, Dev.onSys]

/-! ### Writes of X -/

/-- An accepted write of X leaves the pairs and the held LO words of its effect, and in its frame nothing but that effect. -/
theorem Dev.putPair_accepted (d : Dev) (a : Access) (r : PairReg) (v : Word) (h : d.accepts a (regAddr (pairOff r)) v = true) :
    (d.putPair a r v).settle.pairs = (d.pendPair a.master r v).pairs ∧
      (d.putPair a r v).settle.bus.lo = (d.pendPair a.master r v).bus.lo ∧
      (d.putPair a r v).settle.unaccess d = (d.pendPair a.master r v).unaccess d := by
  rw [Dev.settle_pairs, Dev.settle_bus, Dev.unaccess_settle, Dev.putPair, Dev.put, Dev.write_pairs, Dev.write_bus_lo,
    Dev.write_accepted _ _ _ _ _ _ _ _ h, if_pos h, if_pos h]
  exact ⟨rfl, rfl, rfl⟩

/-- A write of an X that keeps no half (every pair but W6) changes its pending value alone. -/
theorem exec_pairPendingWrite_pairs (s : State) (a : Access) (r : PairReg) (v : Word) (q : Pairs)
    (h : s.dev.accepts a (regAddr (pairOff r)) v = true)
    (hq : s.dev.pendPair a.master r v = { s.dev with pairs := q }) :
    ∃ t, exec (.pairPendingWrite a r v) s = .next t ∧ t.mem = s.mem ∧ t.dev.pairs = q ∧
      { t.dev.unaccess s.dev with pairs := s.dev.pairs } = s.dev := by
  obtain ⟨hpairs, -, hframe⟩ := s.dev.putPair_accepted a r v h
  refine ⟨_, rfl, rfl, ?_, ?_⟩
  · rw [State.run_dev, hpairs, hq]
  · rw [State.run_dev, hframe, hq]
    exact Dev.pairs_frame ..

/-- WHL_W6_PRESET LO: the half is held for its master. -/
theorem exec_pairPendingWrite_w6Lo (s : State) (a : Access) (v : Word) (hr : s.dev.released = true) :
    ∃ t, exec (.pairPendingWrite a .w6Lo v) s = .next t ∧ t.mem = s.mem ∧ t.dev.pairs = s.dev.pairs ∧
      heldAt t.dev.bus.lo a.master 0x20320 = some v ∧ { t.dev.unaccess s.dev with bus := s.dev.bus } = s.dev := by
  obtain ⟨hpairs, hlo, hframe⟩ := s.dev.putPair_accepted a .w6Lo v (s.dev.accepts_open a 0x20320 v hr (by omega))
  refine ⟨_, rfl, rfl, ?_, ?_, ?_⟩
  · rw [State.run_dev, hpairs]; rfl
  · rw [State.run_dev, hlo]
    exact heldAt_holdAt_same _ _ _ _
  · rw [State.run_dev, hframe]
    exact Dev.onBus_frame s.dev _

/-- WHL_W6_PRESET HI: the pending value takes this half and the LO half that its master holds. -/
theorem exec_pairPendingWrite_w6Hi (s : State) (a : Access) (v : Word) (hr : s.dev.released = true) :
    ∃ t, exec (.pairPendingWrite a .w6Hi v) s = .next t ∧ t.mem = s.mem ∧
      t.dev.pairs = { s.dev.pairs with w6 := ⟨s.dev.pairs.w6.committed,
        v ++ (heldAt s.dev.bus.lo a.master 0x20320).getD (loWord s.dev.pairs.w6.committed)⟩ } ∧
      { t.dev.unaccess s.dev with pairs := s.dev.pairs, bus := s.dev.bus } = s.dev := by
  obtain ⟨hpairs, -, hframe⟩ := s.dev.putPair_accepted a .w6Hi v (s.dev.accepts_open a 0x20324 v hr (by omega))
  refine ⟨_, rfl, rfl, ?_, ?_⟩
  · rw [State.run_dev, hpairs]
    simp only [Dev.pendPair, Dev.joinLo, Pair.pend, BitVec.and_allOnes]
  · rw [State.run_dev, hframe]
    exact Dev.onBus_pairs_frame ..

/-! ### Rejected writes of X_C -/

/-- `t` is `s` after a rejected commit by `a` that leaves the pairs `q`: SYS_CPAIR_ERR is set, the answer is OK, and nothing else
has changed but the traces of the access. -/
def RejectedCommit (s : State) (a : Access) (q : Pairs) (t : State) : Prop :=
  t.mem = s.mem ∧ t.dev.sys.cpairErr.getLsbD 31 = true ∧ t.dev.pairs = q ∧ t.dev.bus.answer = some ⟨a.master, 0, 0, 0⟩ ∧
    { t.dev.unaccess s.dev with
      pairs := s.dev.pairs, sys := { (t.dev.unaccess s.dev).sys with cpairErr := s.dev.sys.cpairErr } } = s.dev

/-- A command whose write ends in the rejected commit of a pair, the pairs `q` stored. -/
theorem rejectedCommit_of_write (s t : State) (a : Access) (addr : Word) (off : Nat) (v : Word) (f : Dev → Dev × Res) (q : Pairs)
    (hacc : s.dev.accepts a addr v = true) (hf : f s.dev = ({ s.dev with pairs := q }.pairError a off, Res.pairRejected))
    (hmem : t.mem = s.mem) (ht : t.dev = (s.dev.write a addr 4 v true f).settle) : RejectedCommit s a q t := by
  refine ⟨hmem, ?_, ?_, ?_, ?_⟩
  · rw [ht, Dev.settle_sys_cpairErr, Dev.write_sys_cpairErr, if_pos hacc, hf]
    exact Dev.pairError_set _ a off
  · rw [ht, Dev.settle_pairs, Dev.write_pairs, if_pos hacc, hf]
    rfl
  · rw [ht, Dev.settle_bus, Dev.write_answer _ _ _ _ _ _ _ hacc, hf]
    rfl
  · rw [ht, Dev.unaccess_settle, Dev.write_accepted _ _ _ _ _ _ _ _ hacc, hf]
    exact Dev.pairError_frame ..

/-- A rejected commit of SYS_MODE_REQ is no request: no POC_EN falls, so no port loses its lock (R95, R156). -/
theorem exec_modeRequest_rejected (s : State) (a : Access) (v : Word) (hr : s.dev.released = true)
    (hv : v ≠ ~~~s.dev.pairs.modeReq.pending) :
    ∃ t, exec (.modeRequest a v) s = .next t ∧ RejectedCommit s a
      { s.dev.pairs with modeReq := ⟨s.dev.pairs.modeReq.committed, s.dev.pairs.modeReq.committed⟩ } t := by
  have hacc := s.dev.accepts_open a 0xC v hr (by omega)
  have hpins : (modeRequest a v s.dev).pins.pocEn = s.dev.pins.pocEn := by
    rw [modeRequest, Dev.write_pins, if_pos hacc, Dev.commitPair_rejected _ _ _ _ _ _ _ hv]
    rfl
  have hpower := State.runPower_of_pins s (modeRequest a v) hpins
  have hmem : (s.runM fun t => t.runPower (modeRequest a v)).mem = s.mem := by rw [State.runM_mem, hpower]
  have hdev : (s.runM fun t => t.runPower (modeRequest a v)).dev = (modeRequest a v s.dev).settle := by
    rw [State.runM_dev, hpower]
  refine ⟨_, rfl, rejectedCommit_of_write s _ a _ 0xC v _ _ hacc ?_ hmem hdev⟩
  rw [Dev.commitPair_rejected _ _ _ _ _ _ _ hv]

/-- Settles O17: the writes of X go through `Dev.pendPair`, the rejected writes of X_C through `Dev.commitPair_rejected`. -/
theorem pairPendingAndRejections : Obligations.PairPendingAndRejections := by
  intro s a v hr
  refine ⟨fun r q hacc hrq => exec_pairPendingWrite_pairs s a r v q hacc ?_, fun n => ?_, exec_pairPendingWrite_w6Lo s a v hr,
    exec_pairPendingWrite_w6Hi s a v hr, fun n hv => ?_, fun hv hacc => ?_, fun hv => ?_⟩
  · simp only [List.mem_cons, Prod.mk.injEq, List.not_mem_nil, or_false] at hrq
    rcases hrq with ⟨rfl, rfl⟩ | ⟨rfl, rfl⟩ | ⟨rfl, rfl⟩ | ⟨rfl, rfl⟩ | ⟨rfl, rfl⟩
    all_goals rfl
  · refine exec_pairPendingWrite_pairs s a (.snsWin n) v _ (s.dev.accepts_open a (0x60300 + 8 * n.val) v hr (by omega)) ?_
    simp only [Dev.pendPair, Pair.pend, BitVec.and_allOnes]
  · refine ⟨_, rfl, rejectedCommit_of_write s _ a _ (0x60304 + 8 * n.val) v _ _
      (s.dev.accepts_open a (0x60304 + 8 * n.val) v hr (by omega)) ?_ rfl rfl⟩
    rw [Dev.commitPair_rejected _ _ _ _ _ _ _ hv]; rfl
  · refine ⟨_, rfl, rejectedCommit_of_write s _ a _ 0x50014 v _ _ hacc ?_ rfl rfl⟩
    rw [Dev.commitPair_rejected _ _ _ _ _ _ _ hv]
  · exact exec_modeRequest_rejected s a v hr hv

end Sys2Proof.Machine
end

section
/-! SUPPORT. An image line: the framing of its packet (04 R124, R132), the row it completes in the line queue and in the frame
store (06 R198, R219; 09 R313, R314, R324), and the output frames that follow (07 R231, R232). -/

namespace Sys2Proof.Machine

/-! ### Association lists -/

/-- The changed entry of an association list. -/
theorem assocGet_assocSet_same {κ α : Type} [DecidableEq κ] (l : List (κ × α)) (k : κ) (v x : α) :
    assocGet (assocSet l k v) k x = v := by
  induction l with
  | nil => simp [assocGet, assocSet]
  | cons a l ih =>
    by_cases ha : a.1 = k
    · simp [assocGet, assocSet, ha]
    · have hcons : assocSet (a :: l) k v = a :: assocSet l k v := by
        simp only [assocSet, List.any_cons, ha, decide_false, Bool.false_or, List.map_cons, if_false, List.cons_append]
        split_ifs <;> rfl
      simpa [hcons, assocGet, ha] using ih

/-- A queue after a change to it. -/
@[simp] theorem Bob.onQueue_queue_same (b : Bob) (n : Nat) (f : PoolQ → PoolQ) : (b.onQueue n f).queue n = f (b.queue n) :=
  assocGet_assocSet_same ..

/-! ### Line queues -/

/-- Moving the spindles' cursor changes the pool alone. -/
theorem Dev.sweepLines_frame (d : Dev) (n : StrandNo) : { d.sweepLines n with bob := d.bob } = d := by
  rw [Dev.sweepLines]; split_ifs <;> rfl

@[simp] theorem Dev.sweepLines_strands (d : Dev) (n : StrandNo) : (d.sweepLines n).strands = d.strands :=
  congrArg (fun e => e.strands) (d.sweepLines_frame n)
@[simp] theorem Dev.sweepLines_fst (d : Dev) (n : StrandNo) : (d.sweepLines n).fst = d.fst :=
  congrArg (fun e => e.fst) (d.sweepLines_frame n)
@[simp] theorem Dev.sweepLines_img (d : Dev) (n : StrandNo) : (d.sweepLines n).img = d.img :=
  congrArg (fun e => e.img) (d.sweepLines_frame n)

/-- Moving the cursor commits nothing. -/
@[simp] theorem Dev.sweepLines_commits (d : Dev) (n : StrandNo) :
    ((d.sweepLines n).bob.queue n.val).commits = (d.bob.queue n.val).commits := by
  rw [Dev.sweepLines]
  split_ifs
  · rfl
  · simp [Dev.onQueue, PoolQ.pass]

section
variable (d : Dev) (n : Nat) (data : List Byte) (m : Bool) (rs : List Nat) (fr u : Nat)

@[simp] theorem Dev.putPkt_strands : (d.putPkt n data m rs fr u).strands = d.strands := rfl
@[simp] theorem Dev.putPkt_fst : (d.putPkt n data m rs fr u).fst = d.fst := rfl
@[simp] theorem Dev.putPkt_img : (d.putPkt n data m rs fr u).img = d.img := rfl

/-- A packet put into a queue is one more commit of it. -/
theorem Dev.putPkt_commits : ((d.putPkt n data m rs fr u).bob.queue n).commits = (d.bob.queue n).commits + 1 := by
  have h : ∀ (b : Bob) (k : Nat), ({ b with serial := k } : Bob).queue n = b.queue n := fun _ _ => rfl
  simp [Dev.putPkt, Dev.onQueue, h]

end

@[simp] theorem Dev.exhausted_strands (d : Dev) (n : Nat) : (d.exhausted n).strands = d.strands := by
  simp [Dev.exhausted, Dev.onQueue]

/-- Exhaustion is reported. -/
theorem Dev.exhausted_reported (d : Dev) (n : Nat) : (d.exhausted n).sys.fault.getLsbD 24 = true :=
  Dev.raise_sets _ _ _ _ (by omega)

/-- A row is committed where the strand's credit has room for its cells. -/
theorem Dev.commitLine_of_room (d : Dev) (n : StrandNo) (f : Frame) (row : Nat) (bs : List Byte)
    (h : cellsOf bs.length ≤ ((d.sweepLines n).bob.queue n.val).room) :
    d.commitLine n f row bs =
      ((d.sweepLines n).putPkt n.val bs false ((d.sweepLines n).lineReaders n f) f.num.toNat row, true) :=
  if_pos h

/-- A row is rewound where it has not, and the exhaustion counted and reported. -/
theorem Dev.commitLine_of_noRoom (d : Dev) (n : StrandNo) (f : Frame) (row : Nat) (bs : List Byte)
    (h : ¬ cellsOf bs.length ≤ ((d.sweepLines n).bob.queue n.val).room) :
    d.commitLine n f row bs = ((d.sweepLines n).exhausted n.val, false) :=
  if_neg h

/-! ### Output frames -/

/-- Forming an output frame changes the streams and their layouts alone. -/
theorem Dev.tryForm_frame (d : Dev) (l : LayoutCfg) (e : StreamCfg) :
    { d.tryForm l e with lay := d.lay, streams := d.streams } = d := by
  rw [Dev.tryForm]
  cases d.sourceFrames l e with
  | none => rfl
  | some fs => dsimp only; split_ifs <;> rfl

/-- An operation that changes the streams and their layouts alone, done any number of times. -/
theorem Dev.foldl_streams_frame {α : Type} (g : Dev → α → Dev)
    (h : ∀ d a, { g d a with lay := d.lay, streams := d.streams } = d) (d : Dev) (l : List α) :
    { l.foldl g d with lay := d.lay, streams := d.streams } = d := by
  induction l generalizing d with
  | nil => rfl
  | cons a l ih => exact (congrArg (fun e : Dev => { e with lay := d.lay, streams := d.streams }) (ih (g d a))).trans (h d a)

/-- Rows committed to the frame store form and release output frames; nothing else follows from them. -/
theorem Dev.advanceStreams_frame (d : Dev) (n : StrandNo) :
    { d.advanceStreams n with lay := d.lay, streams := d.streams } = d := by
  have hstep : ∀ (x : Dev) (st : StreamNo),
      { (if (x.streams[st]).frames.isEmpty then x else x.releaseStream st : Dev) with lay := x.lay, streams := x.streams } = x :=
    fun x st => by split_ifs <;> rfl
  have hrelease := Dev.foldl_streams_frame _ hstep d allStreams
  rw [Dev.advanceStreams]
  cases (d.strands[n]).frames with
  | nil => rfl
  | cons f fs =>
    dsimp only
    revert hrelease
    generalize allStreams.foldl _ d = d1
    intro hrelease
    cases d1.layoutCfg f.layout with
    | none => exact hrelease
    | some l =>
      have hform := Dev.foldl_streams_frame (fun x e => x.tryForm l e) (fun x e => x.tryForm_frame l e) d1
        (l.streams.filter fun e => e.sources.contains n.val)
      exact (congrArg (fun e : Dev => { e with lay := d.lay, streams := d.streams }) hform).trans hrelease

@[simp] theorem Dev.advanceStreams_strands (d : Dev) (n : StrandNo) : (d.advanceStreams n).strands = d.strands :=
  congrArg (fun e => e.strands) (d.advanceStreams_frame n)
@[simp] theorem Dev.advanceStreams_bob (d : Dev) (n : StrandNo) : (d.advanceStreams n).bob = d.bob :=
  congrArg (fun e => e.bob) (d.advanceStreams_frame n)
@[simp] theorem Dev.advanceStreams_sys (d : Dev) (n : StrandNo) : (d.advanceStreams n).sys = d.sys :=
  congrArg (fun e => e.sys) (d.advanceStreams_frame n)

/-! ### Framing -/

/-- The framing of a packet in sequence changes the ports alone. -/
theorem Dev.takeHead_frame (d : Dev) (p : PortNo) (h : PacketHead)
    (hseq : ((d.ports[p]).lastSeq.any fun x => decide (h.seq ≠ x + 1)) = false) :
    { d.takeHead p h with ports := d.ports } = d := by
  simp only [Dev.takeHead, Dev.takeSeq, hseq, Bool.false_eq_true, if_false]
  split_ifs <;> rfl

/-- The framing of a packet in sequence counts no foreign packet. -/
theorem Dev.takeHead_foreign (d : Dev) (p : PortNo) (h : PacketHead)
    (hseq : ((d.ports[p]).lastSeq.any fun x => decide (h.seq ≠ x + 1)) = false) :
    ((d.takeHead p h).ports[p]).errs.foreign = (d.ports[p]).errs.foreign := by
  simp only [Dev.takeHead, Dev.takeSeq, hseq, Bool.false_eq_true, if_false]
  split_ifs <;> simp [Dev.onErrs]

/-- A packet in sequence of an active strand is accepted. -/
theorem Dev.accept_of_active (d : Dev) (p : PortNo) (h : PacketHead) (vc : Nat) (n : StrandNo) (ht : d.trained p = true)
    (hn : d.strandAt p vc = some n) (ha : d.active n = true)
    (hseq : ((d.ports[p]).lastSeq.any fun x => decide (h.seq ≠ x + 1)) = false) :
    d.accept p h vc = (d.takeHead p h, some n) := by
  have hframe := d.takeHead_frame p h hseq
  have hn' : (d.takeHead p h).strandAt p vc = some n := hn ▸ congrArg (fun e => e.strandAt p vc) hframe
  have ha' : (d.takeHead p h).active n = true := ha ▸ congrArg (fun e => e.active n) hframe
  simp [Dev.accept, ht, hn', ha']

/-! ### Frames of a strand -/

@[simp] theorem Frame.fault_lines (f : Frame) : f.fault.lines = f.lines := by rw [Frame.fault]; split_ifs <;> rfl
@[simp] theorem Frame.fault_packets (f : Frame) : f.fault.packets = f.packets := by rw [Frame.fault]; split_ifs <;> rfl
@[simp] theorem Frame.fault_rowsDone (f : Frame) : f.fault.rowsDone = f.rowsDone := by rw [Frame.fault]; split_ifs <;> rfl
@[simp] theorem Frame.fault_nonConforming (f : Frame) : f.fault.nonConforming = f.nonConforming := by
  rw [Frame.fault]; split_ifs <;> rfl

/-- The newest frame of a strand changes alone where no other has its number. -/
theorem Strand.onFrame_newest (g : Strand) (f : Frame) (l : List Frame) (u : Frame → Frame) (hg : g.frames = f :: l)
    (hnum : ∀ x ∈ l, x.num ≠ f.num) : (g.onFrame f.num u).frames = u f :: l := by
  have hl : (l.map fun x => if x.num = f.num then u x else x) = l :=
    (List.map_congr_left fun x hx => if_neg (hnum x hx)).trans (List.map_id' l)
  simp [Strand.onFrame, hg, hl]

/-! ### The completed row -/

/-- The input slots lie where the image and the frame store place them. -/
theorem Dev.inBase_congr (d e : Dev) (hf : d.fst = e.fst) (hi : d.img = e.img) : d.inBase = e.inBase := by
  funext; simp only [Dev.inBase, hf, hi]

/-- The codes of the row that a frame's exposure lines complete (06 R213 to R218). -/
def Image.rowCodes (i : Image) (n : StrandNo) (f : Frame) : List Byte :=
  codeBytes ((i.mergeRow n.val (f.packets / (i.prof n.val).exposures - 1) f.opening f.lines).map fun x =>
    (i.blockOf n.val).compand x.1 x.2.1)

/-- What the line queue takes of that row: a rewound row is padded. -/
def Image.queuedRow (i : Image) (n : StrandNo) (f : Frame) (ev : LineEvent) : List Byte :=
  if ev = .rewound then i.padRow n.val else i.rowCodes n f

/-- What the frame store takes of it: a row damaged on its way is padded too (09 R324). -/
def Image.storedRow (i : Image) (n : StrandNo) (f : Frame) (ev : LineEvent) : List Byte :=
  if ev = .storeDamaged then i.padRow n.val else i.queuedRow n f ev

/-- A row that an error spoiled is stored with all codes C[0] (R39; 09 R324). -/
theorem Image.storedRow_of_error (i : Image) (n : StrandNo) (f : Frame) {ev : LineEvent}
    (h : ev = .rewound ∨ ev = .storeDamaged) : i.storedRow n f ev = i.padRow n.val := by
  rcases h with rfl | rfl <;> rfl

/-- The memories with `bs` in the frame store from address `a` on. -/
def Mem.storeRow (m : Mem) (a : Nat) (bs : List Byte) : Mem := { m with fs := Memory.write 0 m.fs a bs }

/-- A stored row reads back, and every other byte of the memories is as it was. -/
theorem Mem.storeRow_reads (m : Mem) (a : Nat) (bs : List Byte) :
    (∀ k, k < bs.length → Memory.read 0 (m.storeRow a bs).fs (a + k) = bs.getD k 0) ∧
      (∀ k, k < a ∨ a + bs.length ≤ k → Memory.read 0 (m.storeRow a bs).fs k = Memory.read 0 m.fs k) ∧
      { m.storeRow a bs with fs := m.fs } = m :=
  ⟨Memory.read_write_same 0 m.fs a bs, Memory.read_write_other 0 m.fs a bs, rfl⟩

/-- `r` is `s` and its frame `f` after the row of `f` was committed: counted in the line queue, stored at its place in the frame's
input slot, and reported where it stands padded there. -/
structure RowCommitted (s : State) (i : Image) (n : StrandNo) (f : Frame) (ev : LineEvent) (r : State × Frame) : Prop where
  mem : r.1.mem = s.mem.storeRow (s.dev.inBase n.val f.slot + f.rowsDone * (i.storedRow n f ev).length) (i.storedRow n f ev)
  strands : r.1.dev.strands = s.dev.strands
  commits : (r.1.dev.bob.queue n.val).commits = (s.dev.bob.queue n.val).commits + 1
  reported : ev = .rewound ∨ ev = .storeDamaged → r.1.dev.sys.fault.getLsbD 17 = true
  lines : r.2.lines = []
  packets : r.2.packets = f.packets
  rowsDone : r.2.rowsDone = f.rowsDone + 1
  rewound : ev = .rewound → r.2.nonConforming = true

/-- `r` is `s` and its frame `f` after the row of `f` was lost for want of credit: reported, and the frame non-conforming. -/
structure RowLost (s : State) (f : Frame) (r : State × Frame) : Prop where
  mem : r.1.mem = s.mem
  strands : r.1.dev.strands = s.dev.strands
  reported : r.1.dev.sys.fault.getLsbD 24 = true
  lines : r.2.lines = []
  packets : r.2.packets = f.packets
  rowsDone : r.2.rowsDone = f.rowsDone
  nonConforming : r.2.nonConforming = true

/-- A row that its line queue takes goes on to the frame store, and the frame has one row more. -/
theorem State.commitRow_queued (s : State) (i : Image) (n : StrandNo) (f : Frame) (ev : LineEvent) (d : Dev)
    (hline : s.dev.commitLine n f f.rowsDone (i.queuedRow n f ev) = (d, true)) :
    (s.commitRow i n f ev).1 = ({ s with dev := if ev = .rewound ∨ ev = .storeDamaged then d.report 17 else d } : State).writeRow
        n f f.rowsDone (i.storedRow n f ev) ∧
      (s.commitRow i n f ev).2.lines = [] ∧ (s.commitRow i n f ev).2.packets = f.packets ∧
      (s.commitRow i n f ev).2.rowsDone = f.rowsDone + 1 ∧
      (ev = .rewound → (s.commitRow i n f ev).2.nonConforming = true) := by
  rcases eq_or_ne ev .rewound with rfl | hev
  · simp only [Image.queuedRow, if_true] at hline
    simp [State.commitRow, hline, Image.storedRow, Image.queuedRow]
  · simp only [Image.queuedRow, if_neg hev, Image.rowCodes] at hline
    rcases eq_or_ne ev .storeDamaged with rfl | hd
    · simp [State.commitRow, hline, Image.storedRow]
    · simp [State.commitRow, hline, hev, hd, Image.storedRow, Image.queuedRow, Image.rowCodes]

/-- A row for which the line queue has room is committed. -/
theorem State.commitRow_of_room (s : State) (i : Image) (n : StrandNo) (f : Frame) (ev : LineEvent)
    (h : cellsOf (i.queuedRow n f ev).length ≤ ((s.dev.sweepLines n).bob.queue n.val).room) :
    RowCommitted s i n f ev (s.commitRow i n f ev) := by
  obtain ⟨hs, hlines, hpackets, hrows, hrewound⟩ :=
    s.commitRow_queued i n f ev _ (s.dev.commitLine_of_room n f f.rowsDone _ h)
  refine ⟨?_, ?_, ?_, fun hev => ?_, hlines, hpackets, hrows, hrewound⟩
  · rw [hs, State.writeRow, Mem.storeRow]
    rw [Dev.inBase_congr _ s.dev] <;> dsimp only <;> split_ifs <;> simp
  · rw [hs, State.writeRow]
    dsimp only
    split_ifs <;> simp
  · rw [hs, State.writeRow, ← s.dev.sweepLines_commits n, ← Dev.putPkt_commits]
    dsimp only
    split_ifs
    · rw [Dev.report_bob]
    · rfl
  · rw [hs, State.writeRow, if_pos hev]
    exact Dev.raise_sets _ _ _ _ (by omega)

/-- A row for which it has none is lost. -/
theorem State.commitRow_of_noRoom (s : State) (i : Image) (n : StrandNo) (f : Frame) (ev : LineEvent)
    (h : ¬ cellsOf (i.queuedRow n f ev).length ≤ ((s.dev.sweepLines n).bob.queue n.val).room) :
    RowLost s f (s.commitRow i n f ev) := by
  have hline := s.dev.commitLine_of_noRoom n f f.rowsDone _ h
  have heq : s.commitRow i n f ev =
      ({ s with dev := (s.dev.sweepLines n).exhausted n.val }, { f with lines := [], nonConforming := true }) := by
    simp only [Image.queuedRow, Image.rowCodes] at hline
    simp [State.commitRow, hline]
  rw [heq]
  exact ⟨rfl, by simp, Dev.exhausted_reported _ _, rfl, rfl, rfl, rfl⟩

/-! ### The line -/

/-- A frame whose row in progress has taken the exposure line `c`, counted against the profile `q` (06 R197, R219). -/
def Frame.joinLine (f : Frame) (q : Profile) (c : CardLine) : Frame :=
  { f with
    packets := f.packets + 1, lines := f.lines ++ [c.vs], cut := f.cut + c.beyond,
    padded := f.padded + (q.width - c.vs.length), static := f.static + c.static, dynamic := f.dynamic + c.dynamic }

/-- The next exposure line of a frame, carded from its payload (06 R198). -/
def Image.nextLine (i : Image) (n : StrandNo) (f : Frame) (payload : List Byte) : CardLine :=
  i.cardLine n.val (f.packets % (i.prof n.val).exposures) (f.packets / (i.prof n.val).exposures) payload

/-- A line beyond the profile's is cut. -/
theorem State.takeLine_beyond (s : State) (i : Image) (n : StrandNo) (f : Frame) (payload : List Byte) (ev : LineEvent)
    (h : (i.prof n.val).height * (i.prof n.val).exposures ≤ f.packets) :
    s.takeLine i n f payload ev = (s, { f with cut := f.cut + (unpack (rawBits (i.prof n.val).dataType) payload).length }) :=
  if_pos h

/-- A line that does not complete its row waits for the others. -/
theorem State.takeLine_waits (s : State) (i : Image) (n : StrandNo) (f : Frame) (payload : List Byte) (ev : LineEvent)
    (h : f.packets < (i.prof n.val).height * (i.prof n.val).exposures) (hl : f.lines.length + 1 ≠ (i.prof n.val).exposures) :
    s.takeLine i n f payload ev = (s, f.joinLine (i.prof n.val) (i.nextLine n f payload)) := by
  rw [State.takeLine, if_neg (Nat.not_le.2 h)]
  exact if_neg (by simpa using hl)

/-- The line that completes its row commits it. -/
theorem State.takeLine_completes (s : State) (i : Image) (n : StrandNo) (f : Frame) (payload : List Byte) (ev : LineEvent)
    (h : f.packets < (i.prof n.val).height * (i.prof n.val).exposures) (hl : f.lines.length + 1 = (i.prof n.val).exposures) :
    s.takeLine i n f payload ev = s.commitRow i n (f.joinLine (i.prof n.val) (i.nextLine n f payload)) ev := by
  rw [State.takeLine, if_neg (Nat.not_le.2 h)]
  exact if_pos (by simpa using hl)

/-- The end of an image line: the frame takes its new values, and output frames follow where it has a row more. -/
def State.endLine (n : StrandNo) (f : Frame) (r : State × Frame) : State :=
  let d := r.1.dev.onStrand n fun g => g.onFrame f.num fun _ => r.2.fault
  { r.1 with dev := if r.2.rowsDone = f.rowsDone then d else d.advanceStreams n }

@[simp] theorem State.endLine_mem (n : StrandNo) (f : Frame) (r : State × Frame) : (State.endLine n f r).mem = r.1.mem := rfl
@[simp] theorem State.endLine_bob (n : StrandNo) (f : Frame) (r : State × Frame) :
    (State.endLine n f r).dev.bob = r.1.dev.bob := by
  simp only [State.endLine]; split_ifs <;> simp
@[simp] theorem State.endLine_sys (n : StrandNo) (f : Frame) (r : State × Frame) :
    (State.endLine n f r).dev.sys = r.1.dev.sys := by
  simp only [State.endLine]; split_ifs <;> simp
@[simp] theorem State.endLine_strand (n : StrandNo) (f : Frame) (r : State × Frame) :
    (State.endLine n f r).dev.strands[n] = (r.1.dev.strands[n]).onFrame f.num fun _ => r.2.fault := by
  simp only [State.endLine]; split_ifs <;> simp

section
variable {s : State} {p : PortNo} {h : PacketHead} {vc : Fin 16} {d : Dev} {n : StrandNo} {i : Image} {f : Frame} {l : List Frame}
  (dt : Byte) (payload : List Byte) (ev : LineEvent)

/-- A line of another image type is counted and discarded (04 R132). -/
theorem imageLine_foreign (hacc : s.dev.accept p h vc.val = (d, some n)) (hi : d.img = some i)
    (hdt : dt.toNat ≠ (i.prof n.val).dataType) :
    imageLine p h vc dt payload ev s =
      { s with dev := d.onErrs p fun e => { e with foreign := satAdd e.foreign 1 } } := by
  simp only [imageLine, hacc, hi, if_pos hdt]

/-- A line that meets the full input FIFO is discarded and counted (06 R200). -/
theorem imageLine_fifoFull (hacc : s.dev.accept p h vc.val = (d, some n)) (hi : d.img = some i)
    (hdt : dt.toNat = (i.prof n.val).dataType) (hf : (d.strands[n]).frames = f :: l) (ho : f.isOpen = true) :
    imageLine p h vc dt payload .fifoFull s = { s with dev := d.fifoFull p n } := by
  simp only [imageLine, hacc, hi, hdt, hf, ho, ne_eq, not_true_eq_false, Bool.not_true, Bool.false_eq_true, if_false, if_true]

/-- Any other line of an open frame is taken. -/
theorem imageLine_taken (hacc : s.dev.accept p h vc.val = (d, some n)) (hi : d.img = some i)
    (hdt : dt.toNat = (i.prof n.val).dataType) (hf : (d.strands[n]).frames = f :: l) (ho : f.isOpen = true)
    (hev : ev ≠ .fifoFull) :
    imageLine p h vc dt payload ev s =
      State.endLine n f (({ s with dev := d } : State).takeLine i n f payload ev) := by
  simp only [imageLine, hacc, hi, hdt, hf, ho, hev, ne_eq, not_true_eq_false, Bool.not_true, Bool.false_eq_true, if_false]
  rfl

end

/-! ### The command -/

/-- A packet in sequence arrives on the channel of the active strand `n` while its newest frame `f` is open. -/
structure LineArrives (s : State) (p : PortNo) (h : PacketHead) (vc : Fin 16) (n : StrandNo) (i : Image) (f : Frame)
    (l : List Frame) : Prop where
  trained : s.dev.trained p = true
  mapped : s.dev.strandAt p vc.val = some n
  active : s.dev.active n = true
  image : s.dev.img = some i
  inSeq : ((s.dev.ports[p]).lastSeq.any fun x => decide (h.seq ≠ x + 1)) = false
  frames : (s.dev.strands[n]).frames = f :: l
  fresh : ∀ x ∈ l, x.num ≠ f.num
  isOpen : f.isOpen = true

namespace LineArrives

variable {s : State} {p : PortNo} {h : PacketHead} {vc : Fin 16} {n : StrandNo} {i : Image} {f : Frame} {l : List Frame}
  (A : LineArrives s p h vc n i f l) (dt : Byte) (payload : List Byte) (ev : LineEvent)

include A

/-- Its framing touches the ports alone. -/
theorem frame : { s.dev.takeHead p h with ports := s.dev.ports } = s.dev := s.dev.takeHead_frame p h A.inSeq

theorem accept : s.dev.accept p h vc.val = (s.dev.takeHead p h, some n) :=
  s.dev.accept_of_active p h vc.val n A.trained A.mapped A.active A.inSeq

theorem head_img : (s.dev.takeHead p h).img = some i := (congrArg (fun e => e.img) A.frame).trans A.image

theorem head_strands : (s.dev.takeHead p h).strands = s.dev.strands := congrArg (fun e => e.strands) A.frame

theorem head_frames : ((s.dev.takeHead p h).strands[n]).frames = f :: l := A.head_strands ▸ A.frames

/-- A line of another image type changes no strand. -/
theorem exec_foreign (hdt : dt.toNat ≠ (i.prof n.val).dataType) :
    ∃ t, exec (.imageLine p h vc dt payload ev) s = .next t ∧ t.mem = s.mem ∧ t.dev.strands = s.dev.strands ∧
      (t.dev.ports[p]).errs.foreign = satAdd (s.dev.ports[p]).errs.foreign 1 := by
  have heq := imageLine_foreign dt payload ev A.accept A.head_img hdt
  refine ⟨_, rfl, ?_, ?_, ?_⟩
  · rw [State.runM_mem, heq]
  · rw [State.runM_dev, heq, Dev.settle_strands, Dev.onErrs, Dev.onPort_strands, A.head_strands]
  · rw [State.runM_dev, heq, Dev.settle_ports, Dev.onErrs, Dev.onPort_ports, upd_same, Dev.takeHead_foreign _ _ _ A.inSeq]

/-- A line that meets the full input FIFO leaves the overflow count and the mark on the open frame. -/
theorem exec_fifoFull (hdt : dt.toNat = (i.prof n.val).dataType) :
    ∃ t, exec (.imageLine p h vc dt payload .fifoFull) s = .next t ∧ t.mem = s.mem ∧
      t.dev.card = upd s.dev.card p (fun c => { c with overflows := satAdd c.overflows 1 }) ∧
      (t.dev.strands[n]).frames.head? = some { f with nonConforming := true } ∧
      { t.dev.unreport s.dev with ports := s.dev.ports, strands := s.dev.strands, card := s.dev.card } = s.dev := by
  have heq := imageLine_fifoFull dt payload A.accept A.head_img hdt A.head_frames A.isOpen
  refine ⟨_, rfl, ?_, ?_, ?_, ?_⟩
  · rw [State.runM_mem, heq]
  · rw [State.runM_dev, heq, Dev.settle_card, ← congrArg (fun e => e.card) A.frame]
    rfl
  · rw [State.runM_dev, heq, Dev.settle_strands]
    simp only [Dev.fifoFull, Dev.nonConform, Dev.onStrand_strands, upd_same, A.head_frames, List.map_cons, A.isOpen, if_true,
      List.head?_cons]
  · rw [State.runM_dev, heq, Dev.unreport_settle]
    exact congrArg (fun e : Dev => { e.unreport s.dev with strands := s.dev.strands, card := s.dev.card }) A.frame

/-- A line that is taken leaves what `State.takeLine` makes of the framed state, the frame's new values in its strand, and no
report cleared. -/
theorem exec_taken (hdt : dt.toNat = (i.prof n.val).dataType) (hev : ev ≠ .fifoFull) {r : State × Frame}
    (hr : ({ s with dev := s.dev.takeHead p h } : State).takeLine i n f payload ev = r)
    (hstrands : r.1.dev.strands = (s.dev.takeHead p h).strands) :
    ∃ t, exec (.imageLine p h vc dt payload ev) s = .next t ∧ t.mem = r.1.mem ∧ (t.dev.strands[n]).frames = r.2.fault :: l ∧
      t.dev.bob = r.1.dev.bob ∧ ∀ b, r.1.dev.sys.fault.getLsbD b = true → t.dev.sys.fault.getLsbD b = true := by
  have heq := imageLine_taken dt payload ev A.accept A.head_img hdt A.head_frames A.isOpen hev
  rw [hr] at heq
  refine ⟨_, rfl, ?_, ?_, ?_, fun b hb => ?_⟩
  · rw [State.runM_mem, heq, State.endLine_mem]
  · rw [State.runM_dev, heq, Dev.settle_strands, State.endLine_strand, hstrands]
    exact Strand.onFrame_newest _ f l _ A.head_frames A.fresh
  · rw [State.runM_dev, heq, Dev.settle_bob, State.endLine_bob]
  · rw [State.runM_dev, heq]
    exact Dev.settle_keeps _ b (by rwa [State.endLine_sys])

section
variable (hdt : dt.toNat = (i.prof n.val).dataType) (hev : ev ≠ .fifoFull)
  (hp : f.packets < (i.prof n.val).height * (i.prof n.val).exposures) (hl : f.lines.length + 1 = (i.prof n.val).exposures)
include hdt hev hp hl

/-- The line that completes its row where the line queue has room: the row is committed and stored. -/
theorem exec_row {g : Frame} (hg : g = f.joinLine (i.prof n.val) (i.nextLine n f payload))
    (hroom : cellsOf (i.queuedRow n g ev).length ≤ (((s.dev.takeHead p h).sweepLines n).bob.queue n.val).room) :
    ∃ (t : State) (x : Frame), exec (.imageLine p h vc dt payload ev) s = .next t ∧ (t.dev.strands[n]).frames = x :: l ∧
      x.lines = [] ∧ x.packets = f.packets + 1 ∧ x.rowsDone = f.rowsDone + 1 ∧ (ev = .rewound → x.nonConforming = true) ∧
      (ev = .rewound ∨ ev = .storeDamaged → t.dev.sys.fault.getLsbD 17 = true) ∧
      (t.dev.bob.queue n.val).commits = (s.dev.bob.queue n.val).commits + 1 ∧
      t.mem = s.mem.storeRow (s.dev.inBase n.val f.slot + f.rowsDone * (i.storedRow n g ev).length) (i.storedRow n g ev) := by
  subst hg
  have hline := ({ s with dev := s.dev.takeHead p h } : State).takeLine_completes i n f payload ev hp hl
  have hrow := State.commitRow_of_room { s with dev := s.dev.takeHead p h } i n _ ev hroom
  obtain ⟨t, hexec, hmem, hframes, hbob, hkeeps⟩ := A.exec_taken dt payload ev hdt hev hline hrow.strands
  refine ⟨t, _, hexec, hframes, ?_, ?_, ?_, fun h1 => ?_, fun h1 => hkeeps 17 (hrow.reported h1), ?_, ?_⟩
  · rw [Frame.fault_lines, hrow.lines]
  · rw [Frame.fault_packets, hrow.packets]; rfl
  · rw [Frame.fault_rowsDone, hrow.rowsDone]; rfl
  · rw [Frame.fault_nonConforming, hrow.rewound h1]
  · rw [hbob, hrow.commits, ← congrArg (fun e => e.bob) A.frame]
  · rw [hmem, hrow.mem, ← congrArg (fun e => e.inBase) A.frame]
    rfl

/-- Where it has none the row is lost. -/
theorem exec_rowLost
    (hroom : ¬ cellsOf (i.queuedRow n (f.joinLine (i.prof n.val) (i.nextLine n f payload)) ev).length ≤
      (((s.dev.takeHead p h).sweepLines n).bob.queue n.val).room) :
    ∃ (t : State) (x : Frame), exec (.imageLine p h vc dt payload ev) s = .next t ∧ (t.dev.strands[n]).frames = x :: l ∧
      x.lines = [] ∧ x.packets = f.packets + 1 ∧ x.rowsDone = f.rowsDone ∧ x.nonConforming = true ∧ t.mem = s.mem ∧
      t.dev.sys.fault.getLsbD 24 = true := by
  have hline := ({ s with dev := s.dev.takeHead p h } : State).takeLine_completes i n f payload ev hp hl
  have hrow := State.commitRow_of_noRoom { s with dev := s.dev.takeHead p h } i n _ ev hroom
  obtain ⟨t, hexec, hmem, hframes, -, hkeeps⟩ := A.exec_taken dt payload ev hdt hev hline hrow.strands
  refine ⟨t, _, hexec, hframes, ?_, ?_, ?_, ?_, hmem.trans hrow.mem, hkeeps 24 hrow.reported⟩
  · rw [Frame.fault_lines, hrow.lines]
  · rw [Frame.fault_packets, hrow.packets]; rfl
  · rw [Frame.fault_rowsDone, hrow.rowsDone]; rfl
  · rw [Frame.fault_nonConforming, hrow.nonConforming]

end

end LineArrives

/-- Settles O31: each clause is a branch of `State.takeLine` carried to the command by `LineArrives.exec_taken`, but the foreign
line and the full FIFO, which leave before it. -/
theorem imageLines : Obligations.ImageLines := by
  intro s p h vc dt payload n f l i ht hn ha hi hseq hf hfresh ho q
  have A : LineArrives s p h vc n i f l := ⟨ht, hn, ha, hi, hseq, hf, hfresh, ho⟩
  refine ⟨fun ev => A.exec_foreign dt payload ev, fun hdt => ⟨A.exec_fifoFull dt payload hdt, fun hp => ?_, fun hp => ?_⟩⟩
  · obtain ⟨t, hexec, hmem, hframes, -, -⟩ :=
      A.exec_taken dt payload .ok hdt (by decide) (State.takeLine_beyond _ i n f payload .ok hp) rfl
    exact ⟨t, hexec, hmem, hframes⟩
  refine ⟨fun hl => ?_, fun hl => ⟨fun ev hev hbs hpad => ?_, ?_⟩⟩
  · obtain ⟨t, hexec, hmem, hframes, -, -⟩ :=
      A.exec_taken dt payload .ok hdt (by decide) (State.takeLine_waits _ i n f payload .ok hp hl) rfl
    exact ⟨t, hexec, hmem, hframes⟩
  · have herror : ev = .rewound ∨ ev = .storeDamaged := by simpa using hev
    have hroom : cellsOf (i.queuedRow n (f.joinLine q (i.nextLine n f payload)) ev).length ≤
        (((s.dev.takeHead p h).sweepLines n).bob.queue n.val).room := by
      rcases herror with rfl | rfl
      · exact hpad
      · exact hbs
    obtain ⟨t, x, hexec, hframes, hlines, -, hrows, hrewound, hreported, -, hmem⟩ :=
      A.exec_row dt payload ev hdt (by rcases herror with rfl | rfl <;> decide) hp hl rfl hroom
    rw [i.storedRow_of_error n _ herror] at hmem
    obtain ⟨hin, hout, hrest⟩ := s.mem.storeRow_reads (s.dev.inBase n.val f.slot + f.rowsDone * (i.padRow n.val).length)
      (i.padRow n.val)
    exact ⟨t, x, hexec, hframes, hlines, hrows, hrewound, hreported herror, hmem ▸ hin, hmem ▸ hout, hmem ▸ hrest⟩
  · by_cases hroom : cellsOf (i.rowCodes n (f.joinLine q (i.nextLine n f payload))).length ≤
      (((s.dev.takeHead p h).sweepLines n).bob.queue n.val).room
    · obtain ⟨t, x, hexec, hframes, hlines, hpackets, hrows, -, -, hcommits, hmem⟩ :=
        A.exec_row dt payload .ok hdt (by decide) hp hl rfl hroom
      obtain ⟨hin, hout, hrest⟩ := s.mem.storeRow_reads
        (s.dev.inBase n.val f.slot + f.rowsDone * (i.rowCodes n (f.joinLine q (i.nextLine n f payload))).length)
        (i.rowCodes n (f.joinLine q (i.nextLine n f payload)))
      refine ⟨t, x, hexec, hframes, hlines, hpackets, ?_⟩
      exact (if_pos hroom).mpr ⟨hrows, hcommits, hmem ▸ hin, hmem ▸ hout, hmem ▸ hrest⟩
    · obtain ⟨t, x, hexec, hframes, hlines, hpackets, hrest⟩ := A.exec_rowLost dt payload .ok hdt (by decide) hp hl hroom
      exact ⟨t, x, hexec, hframes, hlines, hpackets, (if_neg hroom).mpr hrest⟩

end Sys2Proof.Machine
end

section
/-! SUPPORT. Journal sets: when they fall due, their pages and trailer in the NVM, and the erase of a sector (02 R68 to R73). -/

namespace Sys2Proof.Machine

/-! ### The NVM -/

/-- A read of an erased range gives the unlisted byte, every other byte is as it was. -/
theorem Memory.read_fill_unlisted (x : Byte) (m : List Host.Cell) (a n i : Nat) :
    Memory.read x (Memory.fill x m a n x) i = if a ≤ i ∧ i < a + n then x else Memory.read x m i := by
  rw [Memory.fill, if_pos rfl]
  have hlow : ∀ c ∈ m.filter (fun c => decide (c.1 < a)), a ≤ i → c.1 ≠ i := fun c hc hi => by
    have : c.1 < a := by simpa using (List.mem_filter.1 hc).2
    omega
  have hhigh : ∀ c ∈ m.filter (fun c => decide (a + n ≤ c.1)), i < a + n → c.1 ≠ i := fun c hc hi => by
    have : a + n ≤ c.1 := by simpa using (List.mem_filter.1 hc).2
    omega
  by_cases hge : a ≤ i
  · rw [Memory.read_append_left x i _ _ fun c hc => hlow c hc hge]
    by_cases hlt : i < a + n
    · rw [if_pos ⟨hge, hlt⟩]
      simpa [Memory.read] using Memory.read_append_left x i [] _ fun c hc => hhigh c hc hlt
    · rw [if_neg (by omega), Memory.read_filter x i _ (by simp; omega)]
  · rw [if_neg (by omega), Memory.read_append_right x i _ (fun c hc => hhigh c hc (by omega)),
      Memory.read_filter x i _ (by simp; omega)]

/-- Bytes programmed into the NVM read back, and every other byte of the memories is as it was. -/
theorem Mem.nvm_written (m : Mem) (a : Nat) (bs : List Byte) :
    (∀ k, k < bs.length → ({ m with nvm := Memory.write 0xFF m.nvm a bs } : Mem).nvmByte (a + k) = bs.getD k 0xFF) ∧
      ∀ k, k < a ∨ a + bs.length ≤ k → ({ m with nvm := Memory.write 0xFF m.nvm a bs } : Mem).nvmByte k = m.nvmByte k :=
  ⟨Memory.read_write_same 0xFF m.nvm a bs, Memory.read_write_other 0xFF m.nvm a bs⟩

/-- Bytes of the NVM after an erase. -/
theorem Mem.nvm_erased (m : Mem) (a n k : Nat) :
    ({ m with nvm := Memory.fill 0xFF m.nvm a n 0xFF } : Mem).nvmByte k =
      if a ≤ k ∧ k < a + n then 0xFF else m.nvmByte k :=
  Memory.read_fill_unlisted 0xFF m.nvm a n k

/-! ### A set falls due -/

/-- A periodic mark with changed content (R68): a set of cause 0 is due, a power-fail set that waits stays. -/
theorem exec_journalPeriodicDue_changed (s : State) (hr : s.dev.released = true) (hc : s.dev.jnl.changed = true)
    (hheld : s.dev.jnl.held = false) (hclosed : s.dev.jnl.closed = false) :
    ∃ t, exec .journalPeriodicDue s = .next t ∧ t.mem = s.mem ∧
      t.dev.jnl.due = (if s.dev.jnl.due = some 1 then some 1 else some 0) ∧
      { t.dev.unreport s.dev with jnl := { (t.dev.unreport s.dev).jnl with due := s.dev.jnl.due } } = s.dev := by
  have heq : journalPeriodicDue s.dev =
      { s.dev with jnl := { s.dev.jnl with due := if s.dev.jnl.due = some 1 then some 1 else some 0 } } := by
    simp [journalPeriodicDue, hr, hc, hheld, hclosed]
  refine ⟨_, rfl, rfl, ?_, ?_⟩
  · rw [State.run_dev, Dev.settle_jnl_due, heq]
  · rw [State.run_dev, Dev.unreport_settle, heq]
    rfl

/-- The power-fail input has recovered (R73 step 4): the hold is lifted. -/
theorem exec_powerFailRecovered (s : State) :
    ∃ t, exec .powerFailRecovered s = .next t ∧ t.mem = s.mem ∧ t.dev.jnl.held = false ∧
      { t.dev.unreport s.dev with jnl := { (t.dev.unreport s.dev).jnl with held := s.dev.jnl.held } } = s.dev := by
  refine ⟨_, rfl, rfl, ?_, ?_⟩
  · rw [State.run_dev, Dev.settle_jnl_held]
    rfl
  · rw [State.run_dev, Dev.unreport_settle]
    rfl

/-! ### A set is programmed -/

/-- A due set that R69 and R73 permit goes, its pages before the trailer page, to the target slot of the bank of its sequence. -/
theorem exec_journalSetWrite_due (s : State) (cause : Nat) :
    let seq := (s.dev.jnl.seq + 1) % 2 ^ 32
    let bank := Fin.ofNat 2 seq
    let base := slotAddr bank s.dev.jnl.slot[bank]
    let pages := (s.dev.setBytes cause seq).take 0x3F00
    s.dev.jnl.due = some cause → s.dev.mayWriteSet cause = true →
    (s.dev.jnl.erasing.any fun e => decide (e = (bank.val, s.dev.jnl.slot[bank] / 4))) = false →
    ∃ t, exec .journalSetWrite s = .next t ∧
      (t.dev.jnl.writing.map fun w => (w.1, w.2.1, w.2.2.1)) = some (bank.val, s.dev.jnl.slot[bank], seq) ∧
      t.dev.jnl.due = none ∧ t.dev.jnl.unsaved = 0 ∧
      (∀ k, k < pages.length → t.mem.nvmByte (base + k) = pages.getD k 0xFF) ∧
      (∀ k, k < base ∨ base + 0x3F00 ≤ k → t.mem.nvmByte k = s.mem.nvmByte k) ∧
      { t.mem with nvm := s.mem.nvm } = s.mem ∧ { t.dev.unreport s.dev with jnl := s.dev.jnl } = s.dev := by
  intro seq bank base pages hdue hmay hfree
  have hlen : pages.length ≤ 0x3F00 := by simp [pages]
  obtain ⟨hin, hout⟩ := s.mem.nvm_written base pages
  have hexec : exec .journalSetWrite s = .next (s.runM journalSetWrite) := rfl
  simp only [State.runM, journalSetWrite, hdue, hmay, seq, bank] at hexec hfree
  simp only [hfree, Bool.not_false, Bool.and_self, if_true] at hexec
  refine ⟨_, hexec, ?_, ?_, ?_, hin, fun k hk => hout k (by omega), rfl, ?_⟩
  · rw [Dev.settle_jnl_writing]; rfl
  · rw [Dev.settle_jnl_due]
  · rw [Dev.settle_jnl_unsaved]
  · rw [Dev.unreport_settle]; rfl

/-- The trailer page completes the set (R71), and the target slot moves on (R72). -/
theorem exec_journalSetProgrammed_ok (s : State) (bank : Fin 2) (slot seq : Nat) (trailer : List Byte)
    (hw : s.dev.jnl.writing = some (bank.val, slot, seq, trailer)) (hstep : s.dev.sys.shutdownStep = 0) :
    ∃ t, exec (.journalSetProgrammed true) s = .next t ∧ t.dev.jnl.writing = none ∧ t.dev.jnl.seq = seq ∧
      t.dev.jnl.slot = upd s.dev.jnl.slot bank (fun _ => (slot + 1) % 256) ∧
      t.dev.jnl.erasing =
        (if slot % 4 = 0 then s.dev.jnl.erasing ++ [(bank.val, (slot / 4 + 1) % 64)] else s.dev.jnl.erasing) ∧
      (∀ k, k < trailer.length → t.mem.nvmByte (slotAddr bank slot + 0x3F00 + k) = trailer.getD k 0xFF) ∧
      (∀ k, k < slotAddr bank slot + 0x3F00 ∨ slotAddr bank slot + 0x3F00 + trailer.length ≤ k →
        t.mem.nvmByte k = s.mem.nvmByte k) ∧
      { t.mem with nvm := s.mem.nvm } = s.mem ∧ { t.dev.unreport s.dev with jnl := s.dev.jnl } = s.dev := by
  obtain ⟨hin, hout⟩ := s.mem.nvm_written (slotAddr bank slot + 0x3F00) trailer
  have hexec : exec (.journalSetProgrammed true) s = .next (s.runM (journalSetProgrammed true)) := rfl
  have hbank : Fin.ofNat 2 bank.val = bank := Fin.ofNat_val_eq_self bank
  simp only [State.runM, journalSetProgrammed, hw, Journal.leaveSlot, hbank, hstep, if_true, false_and, if_false,
    OfNat.zero_ne_ofNat] at hexec
  refine ⟨_, hexec, ?_, ?_, ?_, ?_, hin, hout, rfl, ?_⟩
  · rw [Dev.settle_jnl_writing]
  · rw [Dev.settle_jnl_seq]
  · rw [Dev.settle_jnl_slot]
  · rw [Dev.settle_jnl_erasing]
  · rw [Dev.unreport_settle]; rfl

/-- A report leaves the mark that content changed. -/
theorem Dev.raise_changed (d : Dev) (b x y : Nat) (h : d.jnl.changed = true) : (d.raise b x y).jnl.changed = true := by
  unfold Dev.raise
  split_ifs <;> simp [h, Dev.onHist]

/-- So does settling. -/
theorem Dev.settle_changed (d : Dev) (h : d.jnl.changed = true) : d.settle.jnl.changed = true := by
  refine List.foldlRecOn (motive := fun e : Dev => e.jnl.changed = true) d.standing _ h fun e he p _ => ?_
  split_ifs
  · exact Dev.raise_changed _ _ _ _ he
  · exact he

/-- An error of the NVM under the trailer page is reported, and the content stays unsaved. -/
theorem exec_journalSetProgrammed_failed (s : State) (bank : Fin 2) (slot seq : Nat) (trailer : List Byte)
    (hw : s.dev.jnl.writing = some (bank.val, slot, seq, trailer)) (hstep : s.dev.sys.shutdownStep = 0) :
    ∃ t, exec (.journalSetProgrammed false) s = .next t ∧ t.mem = s.mem ∧ t.dev.jnl.writing = none ∧
      t.dev.jnl.seq = s.dev.jnl.seq ∧ t.dev.jnl.changed = true ∧ t.dev.sys.fault.getLsbD 2 = true := by
  have hexec : exec (.journalSetProgrammed false) s = .next (s.runM (journalSetProgrammed false)) := rfl
  simp only [State.runM, journalSetProgrammed, hw, Journal.leaveSlot, Bool.false_eq_true, if_false, Dev.report_sys_shutdownStep,
    hstep, OfNat.zero_ne_ofNat, false_and] at hexec
  refine ⟨_, hexec, rfl, ?_, ?_, ?_, ?_⟩
  · rw [Dev.settle_jnl_writing, Dev.report_jnl_writing]
  · rw [Dev.settle_jnl_seq, Dev.report_jnl_seq]
  · exact Dev.settle_changed _ (Dev.raise_changed _ _ _ _ (by simp))
  · exact Dev.raise_shown _ _ _ _ (by decide)

/-- The last set of a shutdown is followed by steps 5 to 7 (03 R113). -/
theorem exec_journalSetProgrammed_last (s : State) (ok : Bool) (bank : Fin 2) (slot seq : Nat) (trailer : List Byte)
    (hw : s.dev.jnl.writing = some (bank.val, slot, seq, trailer)) (hstep : s.dev.sys.shutdownStep = 4)
    (hclosed : s.dev.jnl.closed = true) :
    ∃ t, exec (.journalSetProgrammed ok) s = .next t ∧ t.dev.jnl.writing = none ∧ t.dev.sys.safeOff = true ∧
      t.dev.sys.shutdownStep = 7 ∧ t.dev.ply.st = .down ∧ t.dev.skn.stopped = true ∧
      ∀ r : Fin 2, t.dev.aon.tier[r] = .bypass := by
  let j := { s.dev.jnl.leaveSlot bank slot with
    seq := if ok then seq else s.dev.jnl.seq, changed := s.dev.jnl.changed || !ok }
  have hd : (journalSetProgrammed ok s).dev =
      (if ok then { s.dev with jnl := j } else ({ s.dev with jnl := j } : Dev).report 2).finishShutdown := by
    cases ok <;> simp [journalSetProgrammed, hw, hstep, hclosed, Journal.leaveSlot, j]
  refine ⟨_, rfl, ?_, ?_, ?_, ?_, ?_, fun r => ?_⟩
  · rw [State.runM_dev, hd, Dev.settle_jnl_writing]; cases ok <;> simp [Dev.finishShutdown, Journal.leaveSlot, j]
  · rw [State.runM_dev, hd, Dev.settle_sys_safeOff]; rfl
  · rw [State.runM_dev, hd, Dev.settle_sys_shutdownStep]; rfl
  · rw [State.runM_dev, hd, Dev.settle_ply]; rfl
  · rw [State.runM_dev, hd, Dev.settle_skn]; rfl
  · rw [State.runM_dev, hd, Dev.settle_aon]; simp [Dev.finishShutdown]

/-! ### A sector is erased -/

/-- The sector under erase reads erased when the erase ends (R72). -/
theorem exec_sectorEraseDone_ok (s : State) (bank : Fin 2) (sector : Nat) (l : List (Nat × Nat))
    (he : s.dev.jnl.erasing = (bank.val, sector) :: l) :
    ∃ t, exec (.sectorEraseDone true) s = .next t ∧ t.dev.jnl.erasing = l ∧
      (∀ k, k < 0x10000 → t.mem.nvmByte (slotAddr bank (4 * sector) + k) = 0xFF) ∧
      (∀ k, k < slotAddr bank (4 * sector) ∨ slotAddr bank (4 * sector) + 0x10000 ≤ k →
        t.mem.nvmByte k = s.mem.nvmByte k) ∧
      { t.mem with nvm := s.mem.nvm } = s.mem ∧
      { t.dev.unreport s.dev with jnl := { (t.dev.unreport s.dev).jnl with erasing := s.dev.jnl.erasing } } = s.dev := by
  have hexec : exec (.sectorEraseDone true) s = .next (s.runM (sectorEraseDone true)) := rfl
  have hbyte := s.mem.nvm_erased (slotAddr bank (4 * sector)) 0x10000
  simp only [State.runM, sectorEraseDone, he, if_true] at hexec
  refine ⟨_, hexec, ?_, fun k hk => ?_, fun k hk => ?_, rfl, ?_⟩
  · rw [Dev.settle_jnl_erasing]
  · exact (hbyte _).trans (if_pos (by omega))
  · exact (hbyte _).trans (if_neg (by omega))
  · rw [Dev.unreport_settle]; rfl

/-- An erase that fails is reported. -/
theorem exec_sectorEraseDone_failed (s : State) (bank : Fin 2) (sector : Nat) (l : List (Nat × Nat))
    (he : s.dev.jnl.erasing = (bank.val, sector) :: l) :
    ∃ t, exec (.sectorEraseDone false) s = .next t ∧ t.mem = s.mem ∧ t.dev.jnl.erasing = l ∧
      t.dev.sys.fault.getLsbD 2 = true := by
  have hexec : exec (.sectorEraseDone false) s = .next (s.runM (sectorEraseDone false)) := rfl
  simp only [State.runM, sectorEraseDone, he, Bool.false_eq_true, if_false] at hexec
  refine ⟨_, hexec, rfl, ?_, Dev.raise_shown _ _ _ _ (by decide)⟩
  rw [Dev.settle_jnl_erasing, Dev.report_jnl_erasing]

/-- Settles O20: a clause for each command of the journal writer. -/
theorem journalSets : Obligations.JournalSets := by
  intro s
  refine ⟨exec_journalPeriodicDue_changed s, exec_journalSetWrite_due s, exec_powerFailRecovered s,
    fun bank slot seq trailer => ⟨fun hw hstep => ?_, fun ok hw hstep hclosed => ?_, fun sector l he => ?_⟩⟩
  · exact ⟨exec_journalSetProgrammed_ok s bank slot seq trailer hw hstep,
      exec_journalSetProgrammed_failed s bank slot seq trailer hw hstep⟩
  · exact exec_journalSetProgrammed_last s ok bank slot seq trailer hw hstep hclosed
  · exact ⟨exec_sectorEraseDone_ok s bank sector l he, exec_sectorEraseDone_failed s bank sector l he⟩

end Sys2Proof.Machine
end

section
/-! SUPPORT. The drain of an orderly shutdown while the sink's exposure request waits for its reply (03 R113; 04 R155, R156;
05 R189): the port's loss of lock discards the write, and the sink is told so through the health packet. -/

namespace Sys2Proof.Machine

/-- A request of the sink for frame 1 of a strand, judged, with its write sent. -/
def sinkWrite : ExpReq :=
  { internal := false, tag := 0, named := 1, target := 1, entries := [], clamped := false, retargeted := false, sent := true,
    judged := true }

/-- A running block in step 1 of its shutdown: port 0 is trained and powered, and the write of a request for strand 0 has not
been answered yet. -/
def drainedMidWrite : State :=
  State.reset.run fun d => { d with
    aon := { d.aon with phase := .running, refclk := true }
    sys := { d.sys with mode := .shutdown, shutdownStep := 1 }
    pins := { d.pins with pocEn := 1 }
    ports := upd d.ports 0 fun x => { x with step := .trained, nextTag := 1, outstanding := [⟨0, .expWrite 0 1 [], 0, 0⟩] }
    strands := upd d.strands 0 fun g => { g with pending := [sinkWrite] } }

/-- Its drain takes the lock of port 0 and leaves the result NOT_APPLIED among those of the ply link. -/
theorem drainedMidWrite_results :
    (drainedMidWrite.runM fun t => t.runPower shutdownDrained).dev.ply.results = [(0, 3, 1, 1)] := by
  decide +kernel

/-- Refutes O19: SHUTDOWN_DRAINED leaves the ply link as it was only where no port loses its lock with a write of the sink
unanswered; in `drainedMidWrite` its list of results for the health packet grows. -/
theorem not_modeEvents : ¬ Obligations.ModeEvents := by
  intro h
  obtain ⟨hdrained, -⟩ := h drainedMidWrite
  obtain ⟨t, hexec, -, -, -, -, -, -, -, -, hply, -⟩ := hdrained rfl rfl rfl
  have ht : t = drainedMidWrite.runM fun t => t.runPower shutdownDrained := (Host.Outcome.next.inj hexec).symm
  have hbefore : drainedMidWrite.dev.ply.results = [] := by decide +kernel
  have hresults := congrArg (fun p : Ply => p.results) hply
  rw [ht, drainedMidWrite_results, hbefore] at hresults
  cases hresults

end Sys2Proof.Machine
end

section
/-! SUPPORT. A staging session: OPEN, the erase, the GOs that program its pages, COMMIT, and the ways it closes (02 R74 to R79). -/

namespace Sys2Proof.Machine

/-! ### Write accesses that reach memories -/

/-- The answer of an accepted write that reaches memories is its effect's. -/
theorem State.write_answer (s : State) (a : Access) (addr : Word) (n : Nat) (v : Word) (lg : Bool) (f : State → State × Res)
    (h : s.dev.accepts a addr v = true) :
    (s.write a addr n v lg f).dev.bus.answer = some ⟨a.master, (f s).2.code, (f s).2.detail, 0⟩ := by
  simp only [State.write, State.writeN, h, if_true]
  rfl

/-- A write that is not taken changes nothing but the traces of an access and is answered with ADDR_ERR. -/
theorem State.write_refused (s : State) (d0 : Dev) (a : Access) (addr : Word) (n : Nat) (v : Word) (lg : Bool)
    (f : State → State × Res) (h : s.dev.accepts a addr v = false) :
    (s.write a addr n v lg f).dev.unaccess d0 = s.dev.unaccess d0 ∧ (s.write a addr n v lg f).mem = s.mem ∧
      (s.write a addr n v lg f).dev.bus.answer = some ⟨a.master, 2, 0, 0⟩ := by
  simp only [State.write, State.writeN, h, Bool.false_eq_true, if_false]
  refine ⟨?_, trivial, rfl⟩
  split_ifs <;> simp

/-- The NVM block is no part of the access frame. -/
theorem Dev.nvm_of_unaccess {e e' d : Dev} (h : e.unaccess d = e'.unaccess d) : e.nvm = e'.nvm := by
  have hnvm := congrArg (fun x : Dev => x.nvm) h
  exact hnvm

/-- The staging registers are taken from a diagnostic path where staging is open (R559). -/
theorem Dev.accepts_stageCtrl (d : Dev) (a : Access) (v : Word) (hr : d.released = true) :
    d.accepts a (regAddr stageCtrl) v = (!a.master.diag || d.stagingMode) := by
  rw [d.accepts_reg a stageCtrl v (by decide) hr]
  simp [Dev.acceptsReg, stageCtrl]

/-- Taking a free word counts it. -/
theorem Dev.freshWord_accepts (d : Dev) (a : Access) (addr v : Word) : d.freshWord.1.accepts a addr v = d.accepts a addr v := rfl

/-! ### The NVM of a session -/

/-- Bytes of the NVM after an erase of a session. -/
theorem Mem.erase_nvmByte (m : Mem) (v : Nvm) (a n k : Nat) :
    (m.erase v a n).nvmByte k = if v.fitted = true ∧ a ≤ k ∧ k < a + n then 0xFF else m.nvmByte k := by
  cases hf : v.fitted with
  | false => simp [Mem.erase, hf]
  | true => simpa [Mem.erase, hf] using m.nvm_erased a n k

theorem Mem.erase_frame (m : Mem) (v : Nvm) (a n : Nat) : { m.erase v a n with nvm := m.nvm } = m := by
  rw [Mem.erase]; split_ifs <;> rfl

theorem Mem.program_frame (m : Mem) (v : Nvm) (a : Nat) (bs : List Byte) : { m.program v a bs with nvm := m.nvm } = m := by
  rw [Mem.program]; split_ifs <;> rfl

/-- A fitted NVM takes the bytes programmed. -/
theorem Mem.program_fitted (m : Mem) (v : Nvm) (a : Nat) (bs : List Byte) (h : v.fitted = true) :
    m.program v a bs = { m with nvm := Memory.write 0xFF m.nvm a bs } := if_pos h

theorem Memory.readN_length (x : Byte) (m : List Host.Cell) (a n : Nat) : (Memory.readN x m a n).length = n := by
  simp [Memory.readN]

/-- A byte of a range that was read. -/
theorem Memory.readN_getD (x y : Byte) (m : List Host.Cell) (a n k : Nat) (h : k < n) :
    (Memory.readN x m a n).getD k y = Memory.read x m (a + k) := by
  simp [Memory.readN, List.getD_eq_getElem?_getD, h]

/-- The head of a range that was read. -/
theorem Memory.readN_take (x : Byte) (m : List Host.Cell) (a n k : Nat) (h : k ≤ n) :
    (Memory.readN x m a n).take k = Memory.readN x m a k := by
  simp [Memory.readN, ← List.map_take, List.take_range, Nat.min_eq_left h]

/-! ### Opening and closing -/

/-- With no session open there is none to abort. -/
theorem Dev.abortStage_of_none (d : Dev) (h : d.nvm.session = none) : d.abortStage = d := by
  simp [Dev.abortStage, Dev.closeStage, h]

/-- What the close of a session leaves in the NVM block. -/
theorem Dev.closeStage_nvm (d : Dev) (x : Session) (st : StageStatus) (lg : Bool) (h : d.nvm.session = some x) :
    (d.closeStage st lg).nvm = { d.nvm with status := st, session := none } := by
  cases lg with
  | false => simp [Dev.closeStage, h]
  | true => simp [Dev.closeStage, h, Dev.logStage, Dev.freshWord]

/-- What an OPEN that is taken to its register does, and its answer. -/
def openEffect (a : Access) (len : Nat) (pin : Bool) (t : State) : State × Res :=
  if !t.dev.stagingMode then (t, Res.addrErr)
  else if t.dev.nvm.session.any fun x => !x.ownedBy a then (t, Res.busy)
  else
    ({ t with
      dev := t.dev.abortStage.onNvm fun v => { v with status := .erasing, session := some (Session.fresh a len pin) },
      mem := t.mem.erase t.dev.nvm t.dev.nvm.stageBase (min 0x10000 (Session.fresh a len pin).span) }, Res.ok)

theorem State.openStage_eq (s : State) (a : Access) (v : Word) (len : Nat) (pin : Bool) :
    s.openStage a v len pin = s.write a (regAddr stageCtrl) 4 v true (openEffect a len pin) := rfl

/-- In Standby or Depot with no session open a session starts. -/
theorem openEffect_opens (s : State) (a : Access) (len : Nat) (pin : Bool) (hmode : s.dev.stagingMode = true)
    (hnone : s.dev.nvm.session = none) :
    openEffect a len pin s =
      ({ s with
        dev := s.dev.onNvm fun v => { v with status := .erasing, session := some (Session.fresh a len pin) },
        mem := s.mem.erase s.dev.nvm s.dev.nvm.stageBase (min 0x10000 (Session.fresh a len pin).span) }, Res.ok) := by
  simp [openEffect, hmode, hnone, Dev.abortStage_of_none]

/-- In another mode none does. -/
theorem openEffect_refused (s : State) (a : Access) (len : Nat) (pin : Bool) (hmode : s.dev.stagingMode = false) :
    openEffect a len pin s = (s, Res.addrErr) := by
  simp [openEffect, hmode]

/-- OPEN in Standby or Depot (R74 to R76): the erase begins with the first sector. -/
theorem exec_stageOpen_opens (s : State) (a : Access) (len : Nat) (pin : Bool) (hr : s.dev.released = true)
    (hnone : s.dev.nvm.session = none) (hmode : s.dev.stagingMode = true) :
    ∃ t, exec (.stageOpen a len pin) s = .next t ∧ t.dev.nvm.status = .erasing ∧
      (∀ k, t.mem.nvmByte k = if s.dev.nvm.fitted = true ∧ s.dev.nvm.stageBase ≤ k ∧
        k < s.dev.nvm.stageBase + min 0x10000 (Session.fresh a len pin).span then 0xFF else s.mem.nvmByte k) ∧
      { t.mem with nvm := s.mem.nvm } = s.mem ∧
      t.dev.nvm.session = some ⟨a, len, pin, [], List.replicate 256 0xFF, none, 0⟩ ∧
      t.dev.bus.answer = some ⟨a.master, 0, 0, 0⟩ ∧
      { t.dev.unaccess s.dev with
        freeIdx := s.dev.freeIdx,
        nvm := { t.dev.nvm with status := s.dev.nvm.status, session := s.dev.nvm.session } } = s.dev := by
  have hacc : s.dev.freshWord.1.accepts a (regAddr stageCtrl) s.dev.freshWord.2 = true := by
    rw [Dev.freshWord_accepts, s.dev.accepts_stageCtrl a _ hr, hmode, Bool.or_true]
  let s1 : State := { s with dev := s.dev.freshWord.1 }
  obtain ⟨hdev, hmem⟩ := s1.write_accepted s.dev a _ 4 s.dev.freshWord.2 true (openEffect a len pin) hacc
  have hanswer := s1.write_answer a _ 4 s.dev.freshWord.2 true (openEffect a len pin) hacc
  rw [openEffect_opens s1 a len pin hmode hnone] at hdev hmem hanswer
  have hnvm := Dev.nvm_of_unaccess hdev
  refine ⟨s.runM (stageOpen a len pin), rfl, ?_, fun k => ?_, ?_, ?_, ?_, ?_⟩
  · rw [State.runM_dev, Dev.settle_nvm, stageOpen, State.openStage_eq, hnvm]; rfl
  · rw [State.runM_mem, stageOpen, State.openStage_eq, hmem]
    exact Mem.erase_nvmByte ..
  · rw [State.runM_mem, stageOpen, State.openStage_eq, hmem]
    exact Mem.erase_frame ..
  · rw [State.runM_dev, Dev.settle_nvm, stageOpen, State.openStage_eq, hnvm]; rfl
  · rw [State.runM_dev, Dev.settle_bus, stageOpen, State.openStage_eq, hanswer]; rfl
  · rw [State.runM_dev, Dev.unaccess_settle, Dev.settle_nvm, stageOpen, State.openStage_eq, hdev, hnvm]; rfl

/-- OPEN in another mode answers ADDR_ERR, whether the path or the register refuses it (R74, R559). -/
theorem exec_stageOpen_refused (s : State) (a : Access) (len : Nat) (pin : Bool) (hmode : s.dev.stagingMode = false) :
    ∃ t, exec (.stageOpen a len pin) s = .next t ∧ t.mem = s.mem ∧ t.dev.nvm = s.dev.nvm ∧
      t.dev.bus.answer = some ⟨a.master, 2, 0, 0⟩ := by
  let s1 : State := { s with dev := s.dev.freshWord.1 }
  suffices h : (s1.openStage a s.dev.freshWord.2 len pin).mem = s.mem ∧
      (s1.openStage a s.dev.freshWord.2 len pin).dev.nvm = s.dev.nvm ∧
      (s1.openStage a s.dev.freshWord.2 len pin).dev.bus.answer = some ⟨a.master, 2, 0, 0⟩ by
    obtain ⟨hmem, hnvm, hanswer⟩ := h
    exact ⟨s.runM (stageOpen a len pin), rfl, hmem, (Dev.settle_nvm _).trans hnvm,
      (congrArg (fun b : Bus => b.answer) (Dev.settle_bus _)).trans hanswer⟩
  rw [State.openStage_eq]
  cases hacc : s1.dev.accepts a (regAddr stageCtrl) s.dev.freshWord.2 with
  | true =>
    obtain ⟨hdev, hmem⟩ := s1.write_accepted s.dev a _ 4 s.dev.freshWord.2 true (openEffect a len pin) hacc
    have hanswer := s1.write_answer a _ 4 s.dev.freshWord.2 true (openEffect a len pin) hacc
    rw [openEffect_refused s1 a len pin hmode] at hdev hmem hanswer
    exact ⟨hmem, (Dev.nvm_of_unaccess hdev).trans rfl, hanswer⟩
  | false =>
    obtain ⟨hdev, hmem, hanswer⟩ := s1.write_refused s.dev a _ 4 s.dev.freshWord.2 true (openEffect a len pin) hacc
    exact ⟨hmem, (Dev.nvm_of_unaccess hdev).trans rfl, hanswer⟩

/-- The erase of a session is done (R76): its sectors read erased. -/
theorem exec_stageEraseDone_ok (s : State) (x : Session) (hx : s.dev.nvm.session = some x) (hst : s.dev.nvm.status = .erasing)
    (hfit : s.dev.nvm.fitted = true) :
    ∃ t, exec (.stageEraseDone true) s = .next t ∧ t.dev.nvm = { s.dev.nvm with status := .ready } ∧
      (∀ k, s.dev.nvm.stageBase ≤ k → k < s.dev.nvm.stageBase + x.span → t.mem.nvmByte k = 0xFF) ∧
      (∀ k, k < s.dev.nvm.stageBase ∨ s.dev.nvm.stageBase + x.span ≤ k → t.mem.nvmByte k = s.mem.nvmByte k) ∧
      { t.mem with nvm := s.mem.nvm } = s.mem ∧ { t.dev.unreport s.dev with nvm := s.dev.nvm } = s.dev := by
  have heq : stageEraseDone true s =
      { s with dev := s.dev.onNvm fun v => { v with status := .ready },
               mem := s.mem.erase s.dev.nvm s.dev.nvm.stageBase x.span } := by
    simp only [stageEraseDone, hx, hst, hfit, and_self, if_true]
  refine ⟨_, rfl, ?_, fun k h1 h2 => ?_, fun k h => ?_, ?_, ?_⟩
  · rw [State.runM_dev, Dev.settle_nvm, heq]; rfl
  · rw [State.runM_mem, heq]
    exact (Mem.erase_nvmByte ..).trans (if_pos ⟨hfit, h1, h2⟩)
  · rw [State.runM_mem, heq]
    exact (Mem.erase_nvmByte ..).trans (if_neg (by omega))
  · rw [State.runM_mem, heq]
    exact Mem.erase_frame ..
  · rw [State.runM_dev, Dev.unreport_settle, heq]; rfl

/-! ### GO -/

/-- A GO that is served (R76, R77): out of range, of no bytes, or programmed. -/
theorem State.stageGo_served (s : State) (a : Access) (half : Bool) (count : Nat) (x : Session)
    (hx : s.dev.nvm.session = some x) (ha : x.owner = a) (hst : s.dev.nvm.status = .ready ∨ s.dev.nvm.status = .range)
    (hacc : s.dev.accepts a (regAddr 0x5002C) 0 = true) :
    let t := if x.outOfRange s.dev.nvm.offset.toNat count then { s with dev := s.dev.onNvm fun v => { v with status := .range } }
      else if count = 0 then s
      else stageProgram s.dev.nvm.offset.toNat (Memory.readN 0 s.mem.stage (if half then 0x4000 else 0) count) s
    (stageGo a half count s).dev.nvm = t.dev.nvm ∧ (stageGo a half count s).mem = t.mem := by
  obtain ⟨hdev, hmem⟩ := State.write_accepted s s.dev a (regAddr stageGoOff) 4 0 false _ hacc
  have howned : x.ownedBy a = true := by simp [Session.ownedBy, ha]
  have hserve : ¬(s.dev.nvm.status ≠ .ready ∧ s.dev.nvm.status ≠ .range) := by
    rintro ⟨h1, h2⟩
    exact hst.elim h1 h2
  refine ⟨(Dev.nvm_of_unaccess hdev).trans ?_, hmem.trans ?_⟩
  all_goals
    simp only [hx, howned, hserve, Bool.not_true, Bool.false_eq_true, if_false]
    split_ifs <;> rfl

/-- A GO out of range reads RANGE and leaves the session open (R77). -/
theorem exec_stageGo_range (s : State) (a : Access) (half : Bool) (count : Nat) (x : Session)
    (hx : s.dev.nvm.session = some x) (ha : x.owner = a) (hst : s.dev.nvm.status = .ready ∨ s.dev.nvm.status = .range)
    (hacc : s.dev.accepts a (regAddr 0x5002C) 0 = true) (hrange : x.outOfRange s.dev.nvm.offset.toNat count = true) :
    ∃ t, exec (.stageGo a half count) s = .next t ∧ t.mem = s.mem ∧ t.dev.nvm = { s.dev.nvm with status := .range } := by
  obtain ⟨hnvm, hmem⟩ := s.stageGo_served a half count x hx ha hst hacc
  rw [if_pos hrange] at hnvm hmem
  exact ⟨_, rfl, hmem, (Dev.settle_nvm _).trans hnvm⟩

/-- A GO within range is programmed (R76 step 4). -/
theorem exec_stageGo_program (s : State) (a : Access) (half : Bool) (count : Nat) (x : Session)
    (hx : s.dev.nvm.session = some x) (ha : x.owner = a) (hst : s.dev.nvm.status = .ready ∨ s.dev.nvm.status = .range)
    (hacc : s.dev.accepts a (regAddr 0x5002C) 0 = true) (hrange : x.outOfRange s.dev.nvm.offset.toNat count = false)
    (hcount : 0 < count) :
    ∃ t, exec (.stageGo a half count) s = .next t ∧
      t.dev.nvm = (stageProgram s.dev.nvm.offset.toNat (Memory.readN 0 s.mem.stage (if half then 0x4000 else 0) count) s).dev.nvm ∧
      t.mem = (stageProgram s.dev.nvm.offset.toNat (Memory.readN 0 s.mem.stage (if half then 0x4000 else 0) count) s).mem := by
  obtain ⟨hnvm, hmem⟩ := s.stageGo_served a half count x hx ha hst hacc
  rw [hrange, if_neg Bool.false_ne_true, if_neg (by omega)] at hnvm hmem
  exact ⟨_, rfl, (Dev.settle_nvm _).trans hnvm, hmem⟩

/-- A program ended (R76): the status is READY again. -/
theorem exec_stageProgramDone_ok (s : State) (hst : s.dev.nvm.status = .programming) :
    ∃ t, exec (.stageProgramDone true) s = .next t ∧ t.mem = s.mem ∧ t.dev.nvm.status = .ready ∧
      { t.dev.unreport s.dev with nvm := s.dev.nvm } = s.dev := by
  have heq : stageProgramDone true s.dev =
      s.dev.onNvm fun v => { v with status := .ready, session := v.session.map fun x => { x with busy := none } } := by
    simp only [stageProgramDone, hst, if_true]
  refine ⟨_, rfl, rfl, ?_, ?_⟩
  · rw [State.run_dev, Dev.settle_nvm, heq]; rfl
  · rw [State.run_dev, Dev.unreport_settle, heq]; rfl

/-- Settles O21: OPEN and its erase, then a GO by the three ways `State.stageGo_served` names, of which the first page holds its
header. -/
theorem stagingPages : Obligations.StagingPages := by
  intro s a hr
  refine ⟨fun len pin hnone => ⟨exec_stageOpen_opens s a len pin hr hnone, exec_stageOpen_refused s a len pin⟩,
    exec_stageEraseDone_ok s, fun x half count hfit hx ha hst hacc => ⟨exec_stageGo_range s a half count x hx ha hst hacc, ?_, ?_⟩,
    exec_stageProgramDone_ok s⟩
  · intro hrange hcount hoff
    obtain ⟨t, hexec, hnvm, hmem⟩ := exec_stageGo_program s a half count x hx ha hst hacc hrange hcount
    simp only [stageProgram, if_neg (Nat.ne_of_gt hoff), List.drop_zero, Nat.add_zero, Memory.readN_length,
      Mem.program_fitted _ _ _ _ hfit] at hnvm hmem
    obtain ⟨hin, hout⟩ := s.mem.nvm_written (s.dev.nvm.stageBase + s.dev.nvm.offset.toNat)
      (Memory.readN 0 s.mem.stage (if half then 0x4000 else 0) count)
    rw [Memory.readN_length] at hin hout
    refine ⟨t, hexec, by rw [hnvm]; rfl, by rw [hnvm]; simp [hx, goPages], fun k hk => ?_, fun k hk => ?_, by rw [hmem]⟩
    · rw [hmem, hin k hk, Memory.readN_getD _ _ _ _ _ _ hk]
    · rw [hmem, hout k hk]
  · intro hrange hcount hoff
    obtain ⟨t, hexec, hnvm, hmem⟩ := exec_stageGo_program s a half count x hx ha hst hacc hrange (by omega)
    have hzero : s.dev.nvm.offset.toNat = 0 := by rw [hoff]; rfl
    simp only [stageProgram, hzero, if_true, Nat.add_zero, Mem.program_fitted _ _ _ _ hfit] at hnvm hmem
    refine ⟨t, hexec, by rw [hnvm]; rfl, ?_, fun k hk => ?_⟩
    · rw [hnvm, ← Memory.readN_take _ _ _ _ _ hcount]
      simp [hx]
    · rw [hmem]
      exact (s.mem.nvm_written _ _).2 _ (by omega)

/-! ### COMMIT -/

/-- What a COMMIT by the owner of a session that waits for its next GO leaves in the NVM block. -/
theorem Dev.commitStage_nvm (d : Dev) (a : Access) (v : Word) (x : Session) (hx : d.nvm.session = some x) (ha : x.owner = a)
    (hst : d.nvm.status = .ready ∨ d.nvm.status = .range) (hacc : d.accepts a (regAddr stageCtrl) v = true) :
    (d.commitStage a v).nvm =
      if x.complete then { d.nvm with status := .verifying } else { d.nvm with status := .incomplete, session := none } := by
  have howned : x.ownedBy a = true := by simp [Session.ownedBy, ha]
  have hverify : d.nvm.status ≠ .verifying := by rcases hst with h | h <;> simp [h]
  rw [Dev.commitStage, Dev.write_nvm, if_pos hacc]
  simp only [hx, howned, hverify, hst, Bool.not_true, Bool.false_eq_true, if_false, and_true]
  split_ifs
  · simp [Dev.onChk, Dev.logStage, hx]
  · rw [Dev.closeStage_nvm _ x _ _ (by simpa [Dev.logStage] using hx)]
    simp [Dev.logStage]

/-- COMMIT (R76 steps 5 and 6): the check starts, or the session closes as INCOMPLETE. -/
theorem exec_stageCommit_ends (s : State) (x : Session) (a : Access) (hx : s.dev.nvm.session = some x) (ha : x.owner = a)
    (hst : s.dev.nvm.status = .ready ∨ s.dev.nvm.status = .range) (hacc : ∀ v, s.dev.accepts a (regAddr 0x50020) v = true) :
    ∃ t, exec (.stageCommit a) s = .next t ∧ t.mem = s.mem ∧
      (if x.complete then t.dev.nvm = { s.dev.nvm with status := .verifying }
        else t.dev.nvm = { s.dev.nvm with status := .incomplete, session := none }) := by
  have hnvm := s.dev.freshWord.1.commitStage_nvm a s.dev.freshWord.2 x hx ha hst (hacc _)
  refine ⟨_, rfl, rfl, ?_⟩
  rw [State.run_dev, Dev.settle_nvm, stageCommit, hnvm]
  split_ifs <;> rfl

/-! ### The bank pin -/

@[simp] theorem Dev.pinBank_nvm (d : Dev) (n : Nat) : (d.pinBank n).nvm = d.nvm := by
  rw [Dev.pinBank]; split_ifs <;> rfl

@[simp] theorem Dev.pinBank_pairs (d : Dev) (n : Nat) : (d.pinBank n).pairs = d.pairs := by
  rw [Dev.pinBank]; split_ifs <;> rfl

/-- The pin names the bank. -/
@[simp] theorem Dev.pinBank_pin (d : Dev) (n : Nat) : (d.pinBank n).jnl.pin = n := by
  rw [Dev.pinBank]
  split_ifs with h
  · exact h
  · rfl

/-- A changed pin causes a journal set (R68). -/
theorem Dev.pinBank_due (d : Dev) (n : Nat) (h : n ≠ d.jnl.pin) : (d.pinBank n).jnl.due.isSome = true := by
  rw [Dev.pinBank, if_neg (Ne.symm h)]
  show Option.isSome (match d.jnl.due with | some c => some c | none => some 4) = true
  cases d.jnl.due <;> rfl

/-- A commit of NVM_PIN_C pins the bank of its code; code 3 leaves the pin (R79; log 42). -/
theorem exec_nvmPin_committed (s : State) (a : Access)
    (hacc : s.dev.accepts a (regAddr 0x50014) (~~~s.dev.pairs.nvmPin.pending) = true) :
    ∃ t, exec (.nvmPin a (~~~s.dev.pairs.nvmPin.pending)) s = .next t ∧ t.mem = s.mem ∧ t.dev.nvm = s.dev.nvm ∧
      t.dev.jnl.pin =
        (if s.dev.pairs.nvmPin.pending.toNat % 4 = 3 then s.dev.jnl.pin else s.dev.pairs.nvmPin.pending.toNat % 4) ∧
      t.dev.pairs.nvmPin = ⟨s.dev.pairs.nvmPin.pending, s.dev.pairs.nvmPin.pending⟩ := by
  refine ⟨_, rfl, rfl, ?_, ?_, ?_⟩
  · rw [State.run_dev, Dev.settle_nvm, nvmPin, Dev.write_nvm, if_pos hacc, Dev.commitPair_accepted _ _ _ _ _ _ rfl]
    dsimp only
    split_ifs <;> simp
  · rw [State.run_dev, Dev.settle_jnl_pin, nvmPin, Dev.write_jnl_pin, if_pos hacc, Dev.commitPair_accepted _ _ _ _ _ _ rfl]
    dsimp only
    split_ifs <;> simp
  · rw [State.run_dev, Dev.settle_pairs, nvmPin, Dev.write_pairs, if_pos hacc, Dev.commitPair_accepted _ _ _ _ _ _ rfl]
    dsimp only
    split_ifs <;> simp

/-! ### The check and the closes -/

/-- A check that passes (R76 to R78): the held header is programmed, the status is DONE, and the pin names the new bank or none. -/
theorem exec_stageCommitDone_passed (s : State) (x : Session) (hx : s.dev.nvm.session = some x)
    (hst : s.dev.nvm.status = .verifying) (hfit : s.dev.nvm.fitted = true)
    (hcheck : (s.mem.stagedBank s.dev.nvm x).check (some s.dev.fst.usable) = 0) :
    ∃ t, exec (.stageCommitDone true) s = .next t ∧ { t.mem with nvm := s.mem.nvm } = s.mem ∧
      t.dev.nvm = { s.dev.nvm with status := .done, session := none } ∧
      t.dev.jnl.pin = (if x.pinNew then (if s.dev.nvm.inactiveB then 2 else 1) else 0) ∧
      (t.dev.jnl.pin ≠ s.dev.jnl.pin → t.dev.jnl.due.isSome = true) ∧
      (∀ k, k < (s.dev.nvm.stagedHeader x).length →
        t.mem.nvmByte (s.dev.nvm.stageBase + k) = (s.dev.nvm.stagedHeader x).getD k 0xFF) := by
  let n := if x.pinNew then (if s.dev.nvm.inactiveB then 2 else 1) else 0
  have hclose : s.dev.closeStage .done false = s.dev.onNvm fun v => { v with session := none, status := .done } := by
    simp [Dev.closeStage, hx]
  have heq : stageCommitDone true s =
      { s with dev := (s.dev.closeStage .done false).setPin n,
               mem := { s.mem with nvm := Memory.write 0xFF s.mem.nvm s.dev.nvm.stageBase (s.dev.nvm.stagedHeader x) } } := by
    simp only [stageCommitDone, hx, hst, hfit, and_self, if_true, hcheck, ne_eq, not_true_eq_false, if_false,
      Mem.program_fitted _ _ _ _ hfit, hclose, Dev.onNvm_nvm, n]
  have hpin : (s.runM (stageCommitDone true)).dev.jnl.pin = n := by
    rw [State.runM_dev, Dev.settle_jnl_pin, heq]
    exact Dev.pinBank_pin _ n
  refine ⟨_, rfl, ?_, ?_, hpin, fun hne => ?_, ?_⟩
  · rw [State.runM_mem, heq]
  · rw [State.runM_dev, Dev.settle_nvm, heq]
    exact (Dev.pinBank_nvm _ n).trans (s.dev.closeStage_nvm x .done false hx)
  · rw [hpin] at hne
    rw [State.runM_dev, Dev.settle_jnl_due, heq, hclose]
    exact Dev.pinBank_due _ n hne
  · rw [State.runM_mem, heq]
    exact (s.mem.nvm_written _ _).1

/-- A check that fails reads VERIFY_FAIL and is reported (R77). -/
theorem exec_stageCommitDone_failed (s : State) (x : Session) (ok : Bool) (hx : s.dev.nvm.session = some x)
    (hst : s.dev.nvm.status = .verifying) (hfit : s.dev.nvm.fitted = true)
    (hcheck : (s.mem.stagedBank s.dev.nvm x).check (some s.dev.fst.usable) ≠ 0) :
    ∃ t, exec (.stageCommitDone ok) s = .next t ∧ t.mem = s.mem ∧
      t.dev.nvm = { s.dev.nvm with status := .verifyFail, session := none } ∧ t.dev.sys.fault.getLsbD 3 = true := by
  have heq : stageCommitDone ok s = { s with dev := (s.dev.closeStage .verifyFail false).report 3 } := by
    simp only [stageCommitDone, hx, hst, hfit, and_self, if_true, hcheck, ne_eq, not_false_eq_true]
  refine ⟨_, rfl, ?_, ?_, ?_⟩
  · rw [State.runM_mem, heq]
  · rw [State.runM_dev, Dev.settle_nvm, heq, Dev.report_nvm, s.dev.closeStage_nvm x _ _ hx]
  · rw [State.runM_dev, heq]
    exact Dev.raise_shown _ _ _ _ (by decide)

/-- An erase that fails closes the session as PROGRAM_FAIL and is reported (R77). -/
theorem exec_stageEraseDone_failed (s : State) (x : Session) (hx : s.dev.nvm.session = some x)
    (hst : s.dev.nvm.status = .erasing) (hfit : s.dev.nvm.fitted = true) :
    ∃ t, exec (.stageEraseDone false) s = .next t ∧ t.mem = s.mem ∧
      t.dev.nvm = { s.dev.nvm with status := .programFail, session := none } ∧ t.dev.sys.fault.getLsbD 3 = true := by
  have heq : stageEraseDone false s = { s with dev := (s.dev.closeStage .programFail true).report 3 } := by
    simp only [stageEraseDone, hx, hst, hfit, and_self, if_true, Bool.false_eq_true, if_false]
  refine ⟨_, rfl, ?_, ?_, ?_⟩
  · rw [State.runM_mem, heq]
  · rw [State.runM_dev, Dev.settle_nvm, heq, Dev.report_nvm, s.dev.closeStage_nvm x _ _ hx]
  · rw [State.runM_dev, heq]
    exact Dev.raise_shown _ _ _ _ (by decide)

/-- So does a program that fails. -/
theorem exec_stageProgramDone_failed (s : State) (x : Session) (hx : s.dev.nvm.session = some x)
    (hst : s.dev.nvm.status = .programming) :
    ∃ t, exec (.stageProgramDone false) s = .next t ∧ t.mem = s.mem ∧
      t.dev.nvm = { s.dev.nvm with status := .programFail, session := none } ∧ t.dev.sys.fault.getLsbD 3 = true := by
  have heq : stageProgramDone false s.dev = (s.dev.closeStage .programFail true).report 3 := by
    simp only [stageProgramDone, hst, if_true, Bool.false_eq_true, if_false]
  refine ⟨_, rfl, rfl, ?_, ?_⟩
  · rw [State.run_dev, Dev.settle_nvm, heq, Dev.report_nvm, s.dev.closeStage_nvm x _ _ hx]
  · rw [State.run_dev, heq]
    exact Dev.raise_shown _ _ _ _ (by decide)

/-- Settles O22: a clause for each way a session ends, and the commit of the bank pin. -/
theorem stagingEnds : Obligations.StagingEnds := by
  intro s x hr hx
  refine ⟨fun a ha hst hacc => exec_stageCommit_ends s x a hx ha hst hacc, fun hst hfit => ?_,
    exec_stageEraseDone_failed s x hx, exec_stageProgramDone_failed s x hx,
    ⟨_, rfl, rfl, (Dev.settle_nvm _).trans (s.dev.closeStage_nvm x _ _ hx)⟩, exec_nvmPin_committed s⟩
  by_cases hcheck : (s.mem.stagedBank s.dev.nvm x).check (some s.dev.fst.usable) = 0
  · obtain ⟨t, hexec, hmem, hrest⟩ := exec_stageCommitDone_passed s x hx hst hfit hcheck
    exact ⟨t, hexec, hmem, (if_pos hcheck).mpr hrest⟩
  · obtain ⟨t, hexec, hmem, hrest⟩ := exec_stageCommitDone_failed s x true hx hst hfit hcheck
    exact ⟨t, hexec, by rw [hmem], (if_neg hcheck).mpr ⟨hmem, hrest⟩⟩

end Sys2Proof.Machine
end

section
/-! SUPPORT. The start path after PORST_N: steps 1 to 4 of R86, then the personality or the bank that the straps choose
(03 R82, R83, R86, R111; 02 R45). -/

namespace Sys2Proof.Machine

/-- Steps 1 to 4 of R86 with the straps sampled. -/
def Dev.started (d : Dev) (m : Mem) (b c : BitVec 2) : Dev :=
  let d1 := { d with
    aon := { d.aon with bootSel := b, i2ca := c, refclk := true, phase := .loading },
    whl := ({ d.whl with tim := 0 }).startServos,
    chk := bootUnits,
    nvm := d.nvm.bringUp,
    sys := { d.sys with coreRun := upd d.sys.coreRun 3 fun _ => true } }
  let d0 := ((if d.aon.refclk then d1 else d1.openRings).commandAvs 850).readJournal m
  d0.assignStates d0.jnl.plan.retired

/-- Production Test entered by the straps. -/
def Dev.startProduction (d : Dev) : Dev :=
  let e := ({ d with aon := { d.aon with phase := .production } }).takePart
  { e with sys := { e.sys with mode := .production } }.takeRole

/-- The straps choose how the start goes on. -/
theorem Dev.startPath_eq (d : Dev) (m : Mem) (b c : BitVec 2) :
    d.startPath m b c =
      if b = 2 then (d.started m b c).startProduction
      else if b = 3 then (d.started m b c).enterRomSafe m
      else (d.started m b c).chooseBank m none := by
  match b with
  | 0 | 1 => rw [if_neg (by decide), if_neg (by decide)]; rfl
  | 2 => rw [if_pos rfl]; rfl
  | 3 => rw [if_neg (by decide), if_pos rfl]; rfl

/-- What no choice of the straps changes once steps 1 to 4 are done. -/
structure StartView where
  bootSel : BitVec 2
  i2ca : BitVec 2
  refclk : Bool
  tim : Nat
  coreRun : Vector Bool 4
  mode : NvmMode
  issued : List NvmCmd
  img : Option Image
  ports : Vector Port 16
  strands : Vector Strand 64
  ply : Ply
  dma : Dma
  bob : Bob
  fst : Fst
  lay : LayoutCtx

def Dev.startView (d : Dev) : StartView :=
  ⟨d.aon.bootSel, d.aon.i2ca, d.aon.refclk, d.whl.tim, d.sys.coreRun, d.nvm.mode, d.nvm.issued, d.img, d.ports, d.strands, d.ply,
    d.dma, d.bob, d.fst, d.lay⟩

@[simp] theorem Dev.enterRomSafe_nvm_mode (d : Dev) (m : Mem) : (d.enterRomSafe m).nvm.mode = d.nvm.mode := by
  simp [Dev.enterRomSafe]
@[simp] theorem Dev.enterRomSafe_nvm_issued (d : Dev) (m : Mem) : (d.enterRomSafe m).nvm.issued = d.nvm.issued := by
  simp [Dev.enterRomSafe]

@[simp] theorem Dev.chooseBank_nvm_mode (d : Dev) (m : Mem) (c : Option Nat) : (d.chooseBank m c).nvm.mode = d.nvm.mode := by
  simp only [Dev.chooseBank]
  split <;> split_ifs <;> simp
@[simp] theorem Dev.chooseBank_nvm_issued (d : Dev) (m : Mem) (c : Option Nat) :
    (d.chooseBank m c).nvm.issued = d.nvm.issued := by
  simp only [Dev.chooseBank]
  split <;> split_ifs <;> simp

theorem Dev.startProduction_view (d : Dev) : d.startProduction.startView = d.startView := by
  simp [Dev.startView, Dev.startProduction]

theorem Dev.enterRomSafe_view (d : Dev) (m : Mem) : (d.enterRomSafe m).startView = d.startView := by
  simp [Dev.startView]

theorem Dev.chooseBank_view (d : Dev) (m : Mem) (c : Option Nat) : (d.chooseBank m c).startView = d.startView := by
  simp [Dev.startView]

theorem Dev.settle_view (d : Dev) : d.settle.startView = d.startView := by
  simp [Dev.startView]

/-- The switch to 8D-8D-8D mode leaves the NVM that is fitted (R45, R46). -/
@[simp] theorem Nvm.bringUp_fitted (v : Nvm) : v.bringUp.fitted = v.fitted := by
  simp only [Nvm.bringUp]
  split_ifs <;> rfl

theorem Nvm.bringUp_mode (v : Nvm) : v.bringUp.mode = if v.fitted then .octal else .single := by
  simp only [Nvm.bringUp, apply_ite Nvm.mode]

/-- The reset pair and the SFDP read come first. -/
theorem Nvm.bringUp_issued (v : Nvm) :
    v.bringUp.issued.take 3 = [⟨.single, 0x66, []⟩, ⟨.single, 0x99, []⟩, ⟨.single, 0x5A, []⟩] := by
  simp only [Nvm.bringUp]
  split_ifs <;> simp

/-- The pin in force is the journal's. -/
theorem Dev.readJournal_pin (d : Dev) (m : Mem) : (d.readJournal m).jnl.pin = (m.scanJournal d.nvm.fitted).1.pin := by
  simp only [Dev.readJournal]
  split_ifs <;> simp [Dev.onHist]

/-- What steps 1 to 4 leave. -/
theorem Dev.started_view (d : Dev) (m : Mem) (b c : BitVec 2) :
    (d.started m b c).startView =
      ⟨b, c, true, 0, upd d.sys.coreRun 3 fun _ => true, d.nvm.bringUp.mode, d.nvm.bringUp.issued, d.img, d.ports, d.strands,
        d.ply, d.dma, d.bob, d.fst, d.lay⟩ := by
  simp only [Dev.startView, Dev.started]
  split_ifs <;> simp [Whl.startServos]

theorem Dev.started_phase (d : Dev) (m : Mem) (b c : BitVec 2) : (d.started m b c).aon.phase = .loading := by
  simp only [Dev.started]
  split_ifs <;> simp

theorem Dev.started_pin (d : Dev) (m : Mem) (b c : BitVec 2) :
    (d.started m b c).jnl.pin = (m.scanJournal d.nvm.fitted).1.pin := by
  simp only [Dev.started, Dev.assignStates_jnl, Dev.readJournal_pin]
  split_ifs <;> simp

theorem Dev.started_banks (d : Dev) (m m' : Mem) (b c : BitVec 2) : (d.started m b c).banks m' = d.banks m' := by
  simp only [Dev.started, Dev.banks]
  split_ifs <;> simp_all

@[simp] theorem Dev.startProduction_phase (d : Dev) : d.startProduction.aon.phase = .production := by
  simp [Dev.startProduction]
@[simp] theorem Dev.startProduction_mode (d : Dev) : d.startProduction.sys.mode = .production := by
  simp [Dev.startProduction]
@[simp] theorem Dev.enterRomSafe_phase (d : Dev) (m : Mem) : (d.enterRomSafe m).aon.phase = .romSafe := by
  simp [Dev.enterRomSafe]
@[simp] theorem Dev.enterRomSafe_bootSel (d : Dev) (m : Mem) : (d.enterRomSafe m).aon.bootSel = d.aon.bootSel :=
  congrArg StartView.bootSel (d.enterRomSafe_view m)

/-- A bank that can be booted loads on; without one the ROM safe personality runs (R59, R111). -/
theorem Dev.chooseBank_phase (d : Dev) (m : Mem) (cap : Option Nat) :
    (d.chooseBank m cap).aon.phase =
      if ((d.banks m).selectBank d.jnl.pin cap).2.isSome then d.aon.phase else .romSafe := by
  simp only [Dev.chooseBank]
  cases ((d.banks m).selectBank d.jnl.pin cap).2 with
  | none => simp
  | some b => simp only [Option.isSome_some, if_true]; split_ifs <;> simp

/-- The ROM safe personality shows its bit: 28 where the straps asked for it, 0 where no bank could be booted. -/
theorem Dev.settle_romSafe_bit (d : Dev) (h : d.aon.phase = .romSafe) :
    d.settle.sys.fault.getLsbD (if d.aon.bootSel = 3 then 28 else 0) = true := by
  have shown := Dev.settle_shown d
  rw [Dev.standingShown, Dev.settle_standing] at shown
  by_cases hb : d.aon.bootSel = 3
  · rw [if_pos hb]
    exact shown (28, true) (by simp [Dev.standing, h, hb]) rfl
  · rw [if_neg hb]
    have hstands : (decide (d.aon.phase = .romSafe) && decide (d.aon.bootSel ≠ 3)) = true := by
      rw [decide_eq_true h, decide_eq_true hb]; rfl
    exact shown (0, _) (List.mem_cons_self ..) hstands

/-- Whatever the straps choose, the rest of what steps 1 to 4 left stands. -/
theorem Dev.startPath_view (d : Dev) (m : Mem) (b c : BitVec 2) :
    (d.startPath m b c).startView = (d.started m b c).startView := by
  rw [Dev.startPath_eq]
  split_ifs
  · exact Dev.startProduction_view _
  · exact Dev.enterRomSafe_view _ _
  · exact Dev.chooseBank_view _ _ _

theorem Dev.startPath_bootSel (d : Dev) (m : Mem) (b c : BitVec 2) : (d.startPath m b c).aon.bootSel = b :=
  congrArg StartView.bootSel ((Dev.startPath_view ..).trans (Dev.started_view ..))

/-- Settles O10: the straps choose among three continuations of the same first steps, none of which touches what they left. -/
theorem startPath : Obligations.StartPath := by
  intro s b c _ hphase
  have hdev : (porstRelease b c s.mem s.dev) = s.dev.startPath s.mem b c := if_pos hphase
  have view : (s.dev.startPath s.mem b c).settle.startView = _ :=
    (Dev.settle_view _).trans ((Dev.startPath_view ..).trans (Dev.started_view ..))
  simp only [Dev.startView, StartView.mk.injEq] at view
  obtain ⟨hboot, hi2ca, hclk, htim, hcore, hmode, hissued, himg, hports, hstrands, hply, hdma, hbob, hfst, hlay⟩ := view
  refine ⟨_, rfl, rfl, rfl, ?_⟩
  rw [State.runR_dev, hdev]
  refine ⟨hboot, hi2ca, hclk, ?_, ?_, ?_, ?_, ?_, ?_, ?_, himg, hports, hstrands, hply, hdma, hbob, hfst, hlay⟩
  · rw [Dev.w0, htim]
  · intro k
    rw [hcore]
    simp only [Fin.getElem_fin, upd_get, Fin.ext_iff]
  · intro hb
    rw [Dev.startPath_eq, if_pos hb]
    simp
  · intro hb
    have heq : s.dev.startPath s.mem b c = (s.dev.started s.mem b c).enterRomSafe s.mem := by
      rw [Dev.startPath_eq, if_neg (by simp [hb]), if_pos hb]
    have hsel : (s.dev.startPath s.mem b c).aon.bootSel = 3 := (Dev.startPath_bootSel ..).trans hb
    have bit := Dev.settle_romSafe_bit (s.dev.startPath s.mem b c) (by simp [heq])
    rw [if_pos hsel] at bit
    exact ⟨by simp [heq], bit⟩
  · intro hb
    have h2 : b ≠ 2 := by rcases hb with rfl | rfl <;> decide
    have h3 : b ≠ 3 := by rcases hb with rfl | rfl <;> decide
    have heq : s.dev.startPath s.mem b c = (s.dev.started s.mem b c).chooseBank s.mem none := by
      rw [Dev.startPath_eq, if_neg h2, if_neg h3]
    have hphase' := Dev.chooseBank_phase (s.dev.started s.mem b c) s.mem none
    rw [Dev.started_banks, Dev.started_pin, Dev.started_phase, ← heq] at hphase'
    split_ifs at hphase' ⊢ with hsome
    · simp [hphase']
    · have hsel : (s.dev.startPath s.mem b c).aon.bootSel ≠ 3 := by rwa [Dev.startPath_bootSel]
      have bit := Dev.settle_romSafe_bit _ hphase'
      rw [if_neg hsel] at bit
      exact ⟨by simp [hphase'], bit, Dev.settle_faultN_of_bit _ 0 (by decide) bit⟩
  · rw [hmode, Nvm.bringUp_mode]
  · rw [hissued, Nvm.bringUp_issued]

end Sys2Proof.Machine
end

section
/-! SUPPORT. The fault summary bit by bit, the watchdogs, temperature and supply, and what a spindle that traps keeps
(16 R551, R552, R556, R557; 07 R242, R243, R258). -/

namespace Sys2Proof.Machine

/-! ### Bits of the fault summary -/

theorem Dev.raise_bit (d : Dev) (b x y i : Nat) (hb : b < 32) :
    (d.raise b x y).sys.fault.getLsbD i = (d.sys.fault.getLsbD i || decide (i = b)) := by
  by_cases h : i = b
  · subst h
    rw [Dev.raise_sets d i x y hb, decide_eq_true rfl, Bool.or_true]
  · rw [Dev.raise_other d b x y i h, decide_eq_false h, Bool.or_false]

/-- Settling adds the standing conditions, and no other bit. -/
theorem Dev.settle_bit (d : Dev) (i : Nat) :
    d.settle.sys.fault.getLsbD i = (d.sys.fault.getLsbD i || decide ((i, true) ∈ d.standing)) := by
  have key : ∀ (l : List (Nat × Bool)) (e : Dev), (∀ p ∈ l, p.1 < 32) →
      (l.foldl (fun e p => if p.2 then e.report p.1 else e) e).sys.fault.getLsbD i =
        (e.sys.fault.getLsbD i || decide ((i, true) ∈ l)) := by
    intro l
    induction l with
    | nil => simp
    | cons p l ih =>
      intro e hb
      obtain ⟨b, on⟩ := p
      rw [List.foldl_cons, ih _ fun q hq => hb q (List.mem_cons_of_mem _ hq)]
      cases on with
      | false => simp
      | true => simp [Dev.report, Dev.raise_bit _ _ _ _ _ (hb (b, true) (List.mem_cons_self ..)), Bool.or_assoc]
  exact key d.standing d fun p hp => (d.standing_bits p hp).1

/-- The bits of a word that FAULT_SET takes. -/
theorem Dev.raiseAll_bit (d : Dev) (v : Word) (i : Nat) (hi : i < 31) :
    (d.raiseAll v).sys.fault.getLsbD i = (d.sys.fault.getLsbD i || v.getLsbD i) := by
  have key : ∀ (l : List Nat) (e : Dev), (∀ b ∈ l, b < 32) →
      (l.foldl Dev.report e).sys.fault.getLsbD i = (e.sys.fault.getLsbD i || decide (i ∈ l)) := by
    intro l
    induction l with
    | nil => simp
    | cons b l ih =>
      intro e hb
      rw [List.foldl_cons, ih _ fun q hq => hb q (List.mem_cons_of_mem _ hq), Dev.report,
        Dev.raise_bit _ _ _ _ _ (hb b (List.mem_cons_self ..))]
      simp [Bool.or_assoc]
  rw [Dev.raiseAll, key _ _ fun b hb => by simp only [bitsOf, List.mem_filter, List.mem_range] at hb; omega]
  simp [bitsOf, hi, BitVec.testBit_toNat]

/-- A write that is taken shows its effect's bits, and bit 30 where a diagnostic path wrote with success (R554). -/
theorem Dev.write_bit (d : Dev) (a : Access) (addr : Word) (n : Nat) (v : Word) (lg : Bool) (f : Dev → Dev × Res) (i : Nat)
    (h : d.accepts a addr v = true) :
    (d.write a addr n v lg f).sys.fault.getLsbD i =
      ((f d).1.sys.fault.getLsbD i || (decide (i = 30) && (decide ((f d).2.log = 0) && a.master.diag))) := by
  simp only [Dev.write, h, if_true]
  by_cases hd : (f d).2.log = 0 ∧ a.master.diag = true
  · rw [if_pos hd]
    cases lg <;> simp [hd, Dev.report, Dev.answer, Dev.raise_bit]
  · rw [if_neg hd]
    cases lg <;> simp [hd, Dev.answer]

/-! ### The registers of the summary and of the watchdogs -/

/-- A clear of the summary: the bits written as 1 go, those whose condition stands show again (R552). -/
theorem exec_faultSumClear (s : State) (a : Access) (v : Word) (hr : s.dev.released = true) :
    ∃ t, exec (.faultSumClear a v) s = .next t ∧ t.mem = s.mem ∧ t.dev.bus.answer = some ⟨a.master, 0, 0, 0⟩ ∧
      (∀ i, i < 31 → t.dev.sys.fault.getLsbD i =
        ((s.dev.sys.fault.getLsbD i && !v.getLsbD i) || decide ((i, true) ∈ s.dev.standing) || (decide (i = 30) && a.master.diag))) ∧
      t.dev.unaccess s.dev = s.dev := by
  have hacc := Dev.accepts_open s.dev a 0x20 v hr (by omega)
  refine ⟨_, rfl, rfl, ?_, fun i hi => ?_, ?_⟩
  · rw [State.run_dev, Dev.settle_bus, faultSumClear, Dev.write_answer _ _ _ _ _ _ _ hacc]
    rfl
  · have hstand : (faultSumClear a v s.dev).standing = s.dev.standing :=
      Dev.standing_congr _ _ (by simp [faultSumClear]) (by simp [faultSumClear]) (by simp [faultSumClear]) (by simp [faultSumClear])
    have hmask : ∀ k < 31, (0x7FFFFFFF : Word).getLsbD k = true := by decide
    rw [State.run_dev, Dev.settle_bit, hstand, faultSumClear, Dev.write_bit _ _ _ _ _ _ _ _ hacc]
    simp only [Dev.onSys, w1c, BitVec.getLsbD_and, BitVec.getLsbD_not, hmask i hi, Bool.and_true, Res.ok, decide_true, Bool.true_and,
      show i < 32 by omega, Bool.or_right_comm]
  · rw [State.run_dev, Dev.unaccess_settle, faultSumClear, Dev.write_accepted _ _ _ _ _ _ _ _ hacc]
    rfl

theorem Dev.raiseAll_standing (d : Dev) (v : Word) : (d.raiseAll v).standing = d.standing :=
  Dev.foldl_reports Dev.standing (fun _ _ => Dev.standing_congr _ _ (by simp) (by simp) (by simp) (by simp)) _ _

theorem Dev.raiseAll_unaccess (d : Dev) (v : Word) : (d.raiseAll v).unaccess d = d :=
  (Dev.foldl_reports (fun e => e.unaccess d) (fun _ _ => by simp) _ _).trans rfl

/-- A word set by core 2. -/
theorem exec_faultSet_core2 (s : State) (a : Access) (v : Word) (hr : s.dev.released = true) (hm : a.master = .core 2) :
    ∃ t, exec (.faultSet a v) s = .next t ∧ t.mem = s.mem ∧ t.dev.bus.answer = some ⟨a.master, 0, 0, 0⟩ ∧
      (∀ i, i < 31 → t.dev.sys.fault.getLsbD i = (s.dev.sys.fault.getLsbD i || v.getLsbD i || decide ((i, true) ∈ s.dev.standing))) ∧
      t.dev.unaccess s.dev = s.dev := by
  have hacc := Dev.accepts_open s.dev a 0x24 v hr (by omega)
  refine ⟨_, rfl, rfl, ?_, fun i hi => ?_, ?_⟩
  · rw [State.run_dev, Dev.settle_bus, faultSet, Dev.write_answer _ _ _ _ _ _ _ hacc, if_pos hm]
    rfl
  · have hstand : (faultSet a v s.dev).standing = s.dev.standing := by
      rw [← Dev.raiseAll_standing s.dev v]
      exact Dev.standing_congr _ _ (by simp [faultSet, hm, hacc]) (by simp [faultSet, hm, hacc]) (by simp [faultSet, hm, hacc])
        (by simp [faultSet, hm, hacc])
    rw [State.run_dev, Dev.settle_bit, hstand, faultSet, Dev.write_bit _ _ _ _ _ _ _ _ hacc, if_pos hm, Dev.raiseAll_bit _ _ _ hi, hm]
    simp [Master.diag]
  · rw [State.run_dev, Dev.unaccess_settle, faultSet, Dev.write_accepted _ _ _ _ _ _ _ _ hacc, if_pos hm]
    exact Dev.raiseAll_unaccess ..

/-- Nobody else sets bits. -/
theorem exec_faultSet_other (s : State) (a : Access) (v : Word) (hr : s.dev.released = true) (hm : a.master ≠ .core 2) :
    ∃ t, exec (.faultSet a v) s = .next t ∧ t.mem = s.mem ∧ t.dev.bus.answer = some ⟨a.master, 2, 0, 0⟩ ∧
      t.dev.unaccess s.dev = s.dev := by
  have hacc := Dev.accepts_open s.dev a 0x24 v hr (by omega)
  refine ⟨_, rfl, rfl, ?_, ?_⟩
  · rw [State.run_dev, Dev.settle_bus, faultSet, Dev.write_answer _ _ _ _ _ _ _ hacc, if_neg hm]
    rfl
  · rw [State.run_dev, Dev.unaccess_settle, faultSet, Dev.write_accepted _ _ _ _ _ _ _ _ hacc, if_neg hm]
    rfl

/-- A core services its own watchdog only (R557). -/
theorem exec_watchdogService (s : State) (a : Access) (n : Fin 4) (hr : s.dev.released = true) :
    ∃ t, exec (.watchdogService a n) s = .next t ∧ t.mem = s.mem ∧
      t.dev.bus.answer = some ⟨a.master, if a.master = .core n then 0 else 2, 0, 0⟩ ∧
      t.dev.sys.serviced = (if a.master = .core n then upd s.dev.sys.serviced n (· + 1) else s.dev.sys.serviced) ∧
      { t.dev.unaccess s.dev with sys := { t.dev.sys with fault := s.dev.sys.fault, serviced := s.dev.sys.serviced } } = s.dev := by
  have hacc := Dev.accepts_open s.dev a (0x30 + 4 * n.val) 1 hr (by omega)
  refine ⟨_, rfl, rfl, ?_, ?_, ?_⟩
  · rw [State.run_dev, Dev.settle_bus, Dev.write_answer _ _ _ _ _ _ _ hacc, Dev.serviceWdog]
    split_ifs <;> rfl
  · rw [State.run_dev, Dev.settle_sys_serviced, Dev.write_sys_serviced, if_pos hacc, Dev.serviceWdog]
    split_ifs <;> rfl
  · have hun : ∀ e : Dev, { e.unaccess s.dev with sys := { e.sys with fault := s.dev.sys.fault, serviced := s.dev.sys.serviced } } =
        (e.unaccess s.dev).onSys fun y => { y with serviced := s.dev.sys.serviced } := fun _ => rfl
    rw [hun, State.run_dev, Dev.unaccess_settle, Dev.write_accepted _ _ _ _ _ _ _ _ hacc, Dev.serviceWdog]
    split_ifs <;> rfl

/-- An expired watchdog resets its core, is counted and reported; from the second time on CORE_FAIL comes with it (R551, R557). -/
theorem exec_coreWatchdogExpiry (s : State) (n : Fin 4) (hrun : s.dev.sys.coreRun[n] = true) :
    ∃ t, exec (.coreWatchdogExpiry n) s = .next t ∧ t.mem = s.mem ∧ t.dev.sys.wdog = upd s.dev.sys.wdog n (fun c => satAdd c 1) ∧
      t.dev.sys.coreRestarts = upd s.dev.sys.coreRestarts n (· + 1) ∧ t.dev.sys.fault.getLsbD 25 = true ∧
      (s.dev.sys.wdog[n] ≠ 0 → t.dev.sys.fault.getLsbD 26 = true) ∧ { t.dev.unreport s.dev with sys := s.dev.sys } = s.dev := by
  have heq := coreWatchdogExpiry.eq_1 n s.dev
  rw [if_pos hrun] at heq
  refine ⟨_, rfl, rfl, ?_, ?_, ?_, fun h => ?_, ?_⟩
  · rw [State.run_dev, Dev.settle_sys_wdog, heq]
    dsimp only
    split_ifs <;> simp [Dev.onSys]
  · rw [State.run_dev, Dev.settle_sys_coreRestarts, heq]
    dsimp only
    split_ifs <;> simp [Dev.onSys]
  · rw [State.run_dev, heq]
    dsimp only
    split_ifs
    · exact Dev.settle_keeps _ _ (Dev.raise_keeps _ _ _ _ _ (Dev.raise_sets _ _ _ _ (by decide)))
    · exact Dev.raise_shown _ _ _ _ (by decide)
  · have again : 0 < (s.dev.sys.wdog[n]).toNat := Nat.pos_of_ne_zero fun h0 => h (BitVec.eq_of_toNat_eq h0)
    rw [State.run_dev, heq, if_pos (decide_eq_true again)]
    exact Dev.raise_shown _ _ _ _ (by decide)
  · rw [State.run_dev, Dev.unreport_settle, heq]
    dsimp only
    split_ifs <;> simp only [Dev.unreport_raise] <;> rfl

/-! ### Temperature and supply -/

/-- The hot and the critical temperature of a released device show (R552, log 12). -/
theorem Dev.settle_hot (d : Dev) (hr : d.released = true) (k : Fin 12) :
    (120 * 16 ≤ d.age.temp[k] → d.settle.sys.fault.getLsbD 6 = true) ∧
      (130 * 16 ≤ d.age.temp[k] → d.settle.sys.fault.getLsbD 7 = true) := by
  have hany (p : Int → Bool) (h : p d.age.temp[k] = true) : (d.released && d.age.temp.toList.any p) = true := by
    rw [hr, Bool.true_and, List.any_eq_true]
    exact ⟨_, by simp, h⟩
  have shown := d.settle_shown
  rw [Dev.standingShown, Dev.settle_standing] at shown
  exact ⟨fun h => shown (6, d.released && d.age.temp.toList.any fun t => decide (120 * 16 ≤ t)) (by simp [Dev.standing])
      (hany _ (decide_eq_true h)),
    fun h => shown (7, d.released && d.age.temp.toList.any fun t => decide (130 * 16 ≤ t)) (by simp [Dev.standing])
      (hany _ (decide_eq_true h))⟩

/-- A sample keeps the present and the highest temperatures; the hot ones show as standing conditions (R552, R556). -/
theorem exec_thermalSample (s : State) (l : List Int) (hr : s.dev.released = true) :
    let now (k : Fin 12) : Int := nth l k.val s.dev.age.temp[k]
    ∃ t, exec (.thermalSample l) s = .next t ∧ t.mem = s.mem ∧ (∀ k : Fin 12, t.dev.age.temp[k] = now k ∧
        t.dev.age.tempMax[k] = (if s.dev.age.tempSeen then max s.dev.age.tempMax[k] (now k) else now k)) ∧
      (∀ k : Fin 12, 120 * 16 ≤ now k → t.dev.sys.fault.getLsbD 6 = true) ∧
      (∀ k : Fin 12, 130 * 16 ≤ now k → t.dev.sys.fault.getLsbD 7 = true) ∧
      (t.dev.fst.hot = true ↔ ∃ k : Fin 12, 85 * 16 < now k) ∧
      { t.dev.unreport s.dev with age := s.dev.age, fst := s.dev.fst } = s.dev := by
  intro now
  obtain ⟨age, fst, heq, htemp, hmax, hhot⟩ : ∃ age fst, thermalSample l s.dev = { s.dev with age := age, fst := fst } ∧
      age.temp = Vector.ofFn now ∧
      age.tempMax = (if s.dev.age.tempSeen then Vector.ofFn fun k => max s.dev.age.tempMax[k] (Vector.ofFn now)[k] else Vector.ofFn now) ∧
      fst.hot = (Vector.ofFn now).any fun x => decide (85 * 16 < x) := ⟨_, _, if_pos hr, rfl, rfl, rfl⟩
  have hnow (k : Fin 12) : (thermalSample l s.dev).age.temp[k] = now k := by rw [heq, htemp]; simp
  have hot (k : Fin 12) := (thermalSample l s.dev).settle_hot (by rw [heq]; exact hr) k
  simp only [hnow] at hot
  refine ⟨_, rfl, rfl, fun k => ⟨?_, ?_⟩, fun k => (hot k).1, fun k => (hot k).2, ?_, ?_⟩
  · rw [State.run_dev, Dev.settle_age, hnow]
  · rw [State.run_dev, Dev.settle_age, heq, hmax]
    split_ifs <;> simp
  · rw [State.run_dev, Dev.settle_fst, heq, hhot, Vector.any_eq_true]
    simp [Fin.exists_iff]
  · rw [State.run_dev, Dev.unreport_settle, heq]
    rfl

/-- The first missed AVS target is retried (R556). -/
theorem exec_avsTimeout_first (s : State) (hr : s.dev.released = true) (hok : s.dev.age.avsOk = false)
    (hfirst : s.dev.age.avsRetried = false) :
    ∃ t, exec .avsTimeout s = .next t ∧ t.mem = s.mem ∧ t.dev.age = { s.dev.age with avsRetry := true, avsRetried := true } ∧
      { t.dev.unreport s.dev with age := s.dev.age } = s.dev := by
  have heq : avsTimeout s.dev = s.dev.onAge fun a => { a with avsRetry := true, avsRetried := true } := by
    simp [avsTimeout, hr, hok, hfirst]
  refine ⟨_, rfl, rfl, ?_, ?_⟩
  · rw [State.run_dev, Dev.settle_age, heq]; rfl
  · rw [State.run_dev, Dev.unreport_settle, heq]; rfl

theorem Dev.releaseCores_frame (d : Dev) : ∃ c, d.releaseCores = d.onSys fun y => { y with coreRun := c } := by
  rw [Dev.releaseCores]
  split_ifs
  · exact ⟨_, rfl⟩
  · exact ⟨d.sys.coreRun, rfl⟩

@[simp] theorem Dev.releaseCores_age (d : Dev) : d.releaseCores.age = d.age := by
  obtain ⟨c, h⟩ := d.releaseCores_frame
  rw [h]; rfl
@[simp] theorem Dev.releaseCores_sys_fault (d : Dev) : d.releaseCores.sys.fault = d.sys.fault := by
  obtain ⟨c, h⟩ := d.releaseCores_frame
  rw [h]; rfl

/-- Releasing cores changes nothing but which of them run. -/
theorem Dev.releaseCores_unreport (d e : Dev) (g : Age) (y : Sys) :
    { d.releaseCores.unreport e with age := g, sys := y } = { d.unreport e with age := g, sys := y } := by
  obtain ⟨c, h⟩ := d.releaseCores_frame
  rw [h]; rfl

/-- The cores are released once the voltage stands or the retry has ended, in a running device (19 R606). -/
theorem Dev.releaseCores_run (d : Dev) (h : d.age.avsOk = true ∨ d.age.avsEnded = true) (k : Fin 4) :
    d.releaseCores.sys.coreRun[k] = (d.sys.coreRun[k] || decide (d.aon.phase = .running)) := by
  have ho : (d.age.avsOk || d.age.avsEnded) = true := by rcases h with h | h <;> simp [h]
  simp only [Dev.releaseCores, ho, Bool.and_true]
  split_ifs with hp <;> simp_all [Dev.onSys]

/-- The second one commands 0.85 V, is reported and releases the cores (R556; 19 R606). -/
theorem exec_avsTimeout_second (s : State) (hr : s.dev.released = true) (hok : s.dev.age.avsOk = false)
    (hsecond : s.dev.age.avsRetried = true) :
    ∃ t, exec .avsTimeout s = .next t ∧ t.mem = s.mem ∧ t.dev.age.avsTarget = 850 ∧ t.dev.age.avsEnded = true ∧
      t.dev.sys.fault.getLsbD 5 = true ∧
      (∀ k : Fin 4, s.dev.aon.phase = .running → t.dev.sys.coreRun[k] = true) ∧
      { t.dev.unreport s.dev with age := s.dev.age, sys := s.dev.sys } = s.dev := by
  obtain ⟨age, heq, htarget, hended⟩ : ∃ age : Age, avsTimeout s.dev = (({ s.dev with age := age } : Dev).report 5).releaseCores ∧
      age.avsTarget = 850 ∧ age.avsEnded = true :=
    ⟨_, by rw [avsTimeout, hr, hok, hsecond]; rfl, rfl, rfl⟩
  refine ⟨_, rfl, rfl, ?_, ?_, ?_, fun k hk => ?_, ?_⟩
  · rw [State.run_dev, Dev.settle_age, heq, Dev.releaseCores_age, Dev.report_age, htarget]
  · rw [State.run_dev, Dev.settle_age, heq, Dev.releaseCores_age, Dev.report_age, hended]
  · rw [State.run_dev, heq]
    refine Dev.settle_keeps _ _ ?_
    rw [Dev.releaseCores_sys_fault]
    exact Dev.raise_sets _ _ _ _ (by decide)
  · rw [State.run_dev, Dev.settle_sys_coreRun, heq, Dev.releaseCores_run _ (.inr (by rw [Dev.report_age, hended])), Dev.report_aon]
    simp [hk]
  · rw [State.run_dev, Dev.unreport_settle, heq, Dev.releaseCores_unreport, Dev.unreport_report]
    rfl

/-- A target that is reached releases the cores (19 R606). -/
theorem exec_avsTargetReached (s : State) (mv : Nat) (hr : s.dev.released = true) :
    ∃ t, exec (.avsTargetReached mv) s = .next t ∧ t.mem = s.mem ∧ t.dev.age = { s.dev.age with avsRead := mv, avsOk := true } ∧
      (∀ k : Fin 4, t.dev.sys.coreRun[k] = (s.dev.sys.coreRun[k] || decide (s.dev.aon.phase = .running))) ∧
      { t.dev.unreport s.dev with age := s.dev.age, sys := s.dev.sys } = s.dev := by
  have heq : avsTargetReached mv s.dev = (s.dev.onAge fun a => { a with avsRead := mv, avsOk := true }).releaseCores := if_pos hr
  refine ⟨_, rfl, rfl, ?_, fun k => ?_, ?_⟩
  · rw [State.run_dev, Dev.settle_age, heq, Dev.releaseCores_age]; rfl
  · rw [State.run_dev, Dev.settle_sys_coreRun, heq, Dev.releaseCores_run _ (.inl rfl)]; rfl
  · rw [State.run_dev, Dev.unreport_settle, heq, Dev.releaseCores_unreport]
    rfl

/-! ### A spindle that traps -/

/-- What the substitution or completion of a tile leaves: the fault summary and the spindles. -/
def Dev.trapView (d : Dev) : Word × Spn := (d.sys.fault, d.spn)

theorem Dev.trimCredits_trapView (d : Dev) : d.trimCredits.trapView = d.trapView := by
  rw [Dev.trimCredits]
  split <;> rfl

theorem Dev.markSubst_trapView (d : Dev) (st : StreamNo) (key t : Nat) : (d.markSubst st key t).trapView = d.trapView := by
  rw [Dev.markSubst, Dev.dropTilePkt]
  split_ifs
  · rfl
  · exact (Dev.trimCredits_trapView _).trans rfl

theorem Dev.repeatFrame_trapView (d : Dev) (st : StreamNo) (key : Nat) : (d.repeatFrame st key).trapView = d.trapView := by
  rw [Dev.repeatFrame]
  split
  · rfl
  · split
    · rfl
    · exact List.foldlRecOn (motive := fun e : Dev => e.trapView = d.trapView) _ _ rfl
        fun e he t _ => (Dev.markSubst_trapView e st key t).trans he

theorem Dev.judgeRepeat_trapView (d : Dev) (st : StreamNo) (key : Nat) : (d.judgeRepeat st key).trapView = d.trapView := by
  simp only [Dev.judgeRepeat]
  split
  · split
    · split_ifs
      · exact (Dev.repeatFrame_trapView _ st key).trans rfl
      · rfl
    · rfl
  · rfl

theorem Dev.substitute_trapView (d : Dev) (st : StreamNo) (key t : Nat) : (d.substitute st key t).trapView = d.trapView :=
  (Dev.judgeRepeat_trapView _ st key).trans (Dev.markSubst_trapView d st key t)

theorem Dev.markSpareLow_trapView (d : Dev) : d.markSpareLow.trapView = d.trapView := by
  rw [Dev.markSpareLow]
  split_ifs
  · refine List.foldlRecOn (motive := fun e : Dev => e.trapView = d.trapView) _ _ rfl fun e he st _ => ?_
    split_ifs <;> exact he
  · rfl

/-- Spindle `n` has trapped with `code`: reported, out of service, without a job. -/
structure Dev.HasTrapped (d : Dev) (n : SpindleNo) (code : Nat) : Prop where
  reported : d.sys.fault.getLsbD 8 = true
  notWorking : (d.spn.spindles[n]).st ≠ .working
  notSpare : (d.spn.spindles[n]).st ≠ .spare
  lastTrap : (d.spn.spindles[n]).lastTrap = code
  jobless : (d.spn.spindles[n]).job = none

theorem Dev.HasTrapped.of_view {d e : Dev} {n : SpindleNo} {code : Nat} (h : d.HasTrapped n code) (hv : e.trapView = d.trapView) :
    e.HasTrapped n code := by
  obtain ⟨hf, hs⟩ := Prod.mk.inj hv
  obtain ⟨h1, h2, h3, h4, h5⟩ := h
  exact ⟨hf ▸ h1, hs ▸ h2, hs ▸ h3, hs ▸ h4, hs ▸ h5⟩

/-- Another spindle may change. -/
theorem Dev.HasTrapped.onSpindle {d : Dev} {n m : SpindleNo} {code : Nat} (h : d.HasTrapped n code) (hm : m ≠ n)
    (f : Spindle → Spindle) : (d.onSpindle m f).HasTrapped n code := by
  have hget : ((d.onSpindle m f).spn.spindles[n]) = d.spn.spindles[n] := upd_other _ _ _ _ hm.symm
  obtain ⟨h1, h2, h3, h4, h5⟩ := h
  exact ⟨h1, by rwa [hget], by rwa [hget], by rwa [hget], by rwa [hget]⟩

/-- A spindle that is idle in service is not the one that trapped. -/
theorem Dev.HasTrapped.ne_of_idle {d : Dev} {n m : SpindleNo} {code : Nat} {st : SpinState} {b : Bool} (h : d.HasTrapped n code)
    (hst : st = .working ∨ st = .spare) (hm : m ∈ d.idlesIn st b) : m ≠ n := by
  rintro rfl
  simp only [Dev.idlesIn, Dev.idleIn, List.mem_filter, Bool.and_eq_true, decide_eq_true_eq] at hm
  obtain ⟨_, ⟨hmst, _⟩, _⟩ := hm
  rcases hst with rfl | rfl
  · exact h.notWorking hmst
  · exact h.notSpare hmst

/-- The spindle of a re-run is another one (R247). -/
theorem Dev.HasTrapped.ne_of_rerun {d : Dev} {n m k : SpindleNo} {code left cyc : Nat} (h : d.HasTrapped n code)
    (hm : d.rerunOn k left cyc = some m) : m ≠ n := by
  have hmem := List.mem_of_find?_eq_some hm
  simp only [List.mem_append] at hmem
  rcases hmem with ((hm | hm) | hm) | hm
  · exact h.ne_of_idle (.inr rfl) hm
  · exact h.ne_of_idle (.inr rfl) hm
  · exact h.ne_of_idle (.inl rfl) hm
  · exact h.ne_of_idle (.inl rfl) hm

/-- A quarantine reports, and takes the spindle out of service with its trap cause (R243, R258). -/
theorem Dev.quarantine_hasTrapped (d : Dev) (n : SpindleNo) (code : Nat) (hjob : (d.spn.spindles[n]).job = none) :
    (d.quarantine n code).1.HasTrapped n code := by
  let q := satNat 255 ((d.spn.spindles[n]).quarantines + 1)
  have hspn : (d.quarantine n code).1.spn.spindles[n] =
      { d.spn.spindles[n] with st := if 3 ≤ q then .held else .quarantined, quarantines := q, lastTrap := code } := by
    have h : (d.quarantine n code).1.spn = (d.onSpindle n fun x =>
        { x with st := if 3 ≤ q then .held else .quarantined, quarantines := q, lastTrap := code }).spn := by
      simp only [Dev.quarantine, apply_ite Dev.spn, Dev.numberDecision_spn, Dev.raise_spn, ite_self, q]
    rw [h]
    exact upd_same ..
  refine ⟨?_, ?_, ?_, ?_, ?_⟩
  · simp only [Dev.quarantine]
    split_ifs <;> exact Dev.raise_sets _ _ _ _ (by decide)
  · rw [hspn]; split_ifs <;> simp
  · rw [hspn]; split_ifs <;> simp
  · rw [hspn]
  · rw [hspn]; exact hjob

theorem State.failTile_hasTrapped (s : State) (n k : SpindleNo) (st : StreamNo) (key t code : Nat) (h : s.dev.HasTrapped n code) :
    (s.failTile k st key t).dev.HasTrapped n code := by
  rw [State.failTile]
  split
  · exact h
  · split
    · next l e x _ _ =>
      by_cases hst : x.st ≠ .running ∧ x.st ≠ .heldForShadow
      · rw [if_pos hst]; exact h
      · rw [if_neg hst]
        dsimp only
        split
        · next m hm =>
          split_ifs at hm with hre
          exact (h.onSpindle (h.ne_of_rerun hm) _).of_view rfl
        · exact h.of_view (Dev.substitute_trapView ..)
    · exact h

theorem State.copyTrapped_hasTrapped (s : State) (n k : SpindleNo) (j : Job) (code : Nat) (h : s.dev.HasTrapped n code) :
    (s.copyTrapped k j).dev.HasTrapped n code := by
  rw [State.copyTrapped]
  split
  · exact h
  · split
    · split_ifs with hst
      · exact h
      · split
        · exact h.of_view rfl
        · exact h.of_view rfl
        · exact State.failTile_hasTrapped _ _ _ _ _ _ _ h
    · exact h

theorem Dev.afterQuarantine_hasTrapped (d : Dev) (n k : SpindleNo) (worked : Bool) (code : Nat) (h : d.HasTrapped n code) :
    (d.afterQuarantine k worked).HasTrapped n code := by
  have hp : (d.promote k).HasTrapped n code := by
    rw [Dev.promote]
    split
    · next m l hm =>
      have hmem : m ∈ d.idlesIn .spare (inB k) ++ d.idlesIn .spare (!inB k) := by rw [hm]; exact List.mem_cons_self ..
      have hne : m ≠ n := (List.mem_append.1 hmem).elim (h.ne_of_idle (.inr rfl)) (h.ne_of_idle (.inr rfl))
      exact (h.onSpindle hne _).of_view rfl
    · obtain ⟨h1, h2, h3, h4, h5⟩ := h
      exact ⟨h1, h2, h3, h4, h5⟩
  rw [Dev.afterQuarantine]
  refine Dev.HasTrapped.of_view ?_ (Dev.markSpareLow_trapView _)
  split_ifs
  · exact hp
  · exact h

/-- A trap attributed to a spindle quarantines it, whatever becomes of its tile (R242, R243). -/
theorem State.trap_hasTrapped (s : State) (n : SpindleNo) (code : Nat) (hjob : (s.dev.spn.spindles[n]).job.isSome = true) :
    (s.trap n code).dev.HasTrapped n code := by
  obtain ⟨j, hj⟩ := Option.isSome_iff_exists.1 hjob
  rw [State.trap, hj]
  refine Dev.afterQuarantine_hasTrapped _ _ _ _ _ (State.copyTrapped_hasTrapped _ _ _ _ _ ?_)
  refine Dev.quarantine_hasTrapped _ _ _ ?_
  simp [Dev.onSpindle, Dev.onSpn]

theorem Dev.HasTrapped.settled {d : Dev} {n : SpindleNo} {code : Nat} (h : d.HasTrapped n code) : d.settle.HasTrapped n code := by
  obtain ⟨h1, h2, h3, h4, h5⟩ := h
  refine ⟨Dev.settle_keeps _ _ h1, ?_, ?_, ?_, ?_⟩ <;> rw [Dev.settle_spn] <;> assumption

/-- An operation that is not allowed traps with cause 2 (R242, R635). -/
theorem exec_tileFailure_illegalOp (s : State) (n : SpindleNo) (hjob : (s.dev.spn.spindles[n]).job.isSome = true) :
    ∃ t, exec (.tileFailure n .illegalOp) s = .next t ∧ t.dev.sys.fault.getLsbD 8 = true ∧ (t.dev.spn.spindles[n]).lastTrap = 2 ∧
      (t.dev.spn.spindles[n]).job = none := by
  have heq : tileFailure n .illegalOp s = s.trap n 2 := by
    rw [tileFailure, if_neg (by rw [Option.isNone_iff_eq_none, ← Option.not_isSome_iff_eq_none, hjob]; simp)]
  have h := (heq ▸ s.trap_hasTrapped n 2 hjob).settled
  exact ⟨_, rfl, h.reported, h.lastTrap, h.jobless⟩

/-- An overrun traps with cause 4 (R242, R635). -/
theorem exec_tileWatchdog (s : State) (n : SpindleNo) (hjob : (s.dev.spn.spindles[n]).job.isSome = true) :
    ∃ t, exec (.tileWatchdog n) s = .next t ∧ t.dev.sys.fault.getLsbD 8 = true ∧ (t.dev.spn.spindles[n]).lastTrap = 4 ∧
      (t.dev.spn.spindles[n]).job = none := by
  have h := (s.trap_hasTrapped n 4 hjob).settled
  exact ⟨_, rfl, h.reported, h.lastTrap, h.jobless⟩

/-- A failed self-test holds the spindle and is reported (R258). -/
theorem exec_selfTestDone_failed (s : State) (n : SpindleNo) (hst : (s.dev.spn.spindles[n]).st = .quarantined) :
    ∃ t, exec (.selfTestDone n false) s = .next t ∧ t.mem = s.mem ∧ (t.dev.spn.spindles[n]).st = .held ∧
      t.dev.sys.fault.getLsbD 8 = true := by
  have heq : selfTestDone n false s.dev = (s.dev.numberDecision.onSpindle n fun x => { x with st := .held }).raise 8 n.val 0 := if_pos hst
  refine ⟨_, rfl, rfl, ?_, ?_⟩
  · rw [State.run_dev, Dev.settle_spn, heq, Dev.raise_spn]
    simp [Dev.onSpindle, Dev.onSpn]
  · rw [State.run_dev, heq]
    exact Dev.raise_shown _ _ _ _ (by decide)

/-- Settles O56: a clause for each command of the health layer. -/
theorem healthAndSupply : Obligations.HealthAndSupply := by
  intro s a hr
  refine ⟨exec_faultSumClear s a (hr := hr), fun v => exec_faultSet_core2 s a v hr, fun v => exec_faultSet_other s a v hr,
    fun n => ⟨exec_watchdogService s a n hr, exec_coreWatchdogExpiry s n⟩, fun l => exec_thermalSample s l hr,
    exec_avsTimeout_first s hr, exec_avsTimeout_second s hr, fun mv => exec_avsTargetReached s mv hr,
    fun n => ⟨fun hjob => ⟨exec_tileFailure_illegalOp s n hjob, exec_tileWatchdog s n hjob⟩, exec_selfTestDone_failed s n⟩,
    fun hc hheld hclosed => ?_, ?_⟩
  · obtain ⟨t, hexec, hmem, hdue, _⟩ := exec_journalPeriodicDue_changed s hr hc hheld hclosed
    refine ⟨t, hexec, hmem, ?_⟩
    rw [hdue]
    split_ifs <;> rfl
  · obtain ⟨t, hexec, hmem, hheld, _⟩ := exec_powerFailRecovered s
    exact ⟨t, hexec, hmem, hheld⟩

end Sys2Proof.Machine
end

section
/-! SUPPORT. The ageing monitors and the re-plan (16 R561 to R565, R567 to R569, R593). -/

namespace Sys2Proof.Machine

/-! ### Entries of lists -/

theorem nth_map_range {α : Type} (n k : Nat) (f : Nat → α) (x : α) (h : k < n) : nth ((List.range n).map f) k x = f k := by
  simp [nth, h]

/-! ### Delay samples (R561, R569) -/

/-- A delay sample keeps the present and the lowest slacks, and the present ones in the history. -/
theorem exec_delayMonitorSample (s : State) (l : List Nat) (hr : s.dev.released = true) :
    let now (k : Nat) := nth l k (nth s.dev.age.slack k 0)
    ∃ t, exec (.delayMonitorSample l) s = .next t ∧ t.mem = s.mem ∧ (∀ k, k < 80 → nth t.dev.age.slack k 0 = now k ∧
        nth t.dev.age.slackMin k 0 = (if s.dev.age.slackSeen then min (nth s.dev.age.slackMin k 0) (now k) else now k) ∧
        (nth t.dev.jnl.history.slack k (0, 0)).1 = now k) ∧
      { t.dev.unreport s.dev with age := s.dev.age, jnl := s.dev.jnl } = s.dev := by
  intro now
  obtain ⟨age, jnl, heq, hslack, hmin, hhist⟩ : ∃ age jnl, delayMonitorSample l s.dev = { s.dev with age := age, jnl := jnl } ∧
      age.slack = (List.range 80).map now ∧
      age.slackMin = (if s.dev.age.slackSeen then (List.range 80).map fun k =>
        min (nth s.dev.age.slackMin k 0) (nth ((List.range 80).map now) k 0) else (List.range 80).map now) ∧
      jnl.history.slack = (List.range 80).map fun k => (nth ((List.range 80).map now) k 0, (nth s.dev.jnl.history.slack k (0, 0)).2) :=
    ⟨_, _, if_pos hr, rfl, rfl, rfl⟩
  refine ⟨_, rfl, rfl, fun k hk => ⟨?_, ?_, ?_⟩, ?_⟩
  · rw [State.run_dev, Dev.settle_age, heq, hslack, nth_map_range _ _ _ _ hk]
  · rw [State.run_dev, Dev.settle_age, heq, hmin]
    split_ifs <;> simp only [nth_map_range _ _ _ _ hk]
  · rw [State.run_dev, Dev.settle_jnl_history_slack, heq, hhist]
    simp only [nth_map_range _ _ _ _ hk]
  · rw [State.run_dev, Dev.unreport_settle, heq]
    rfl

/-! ### The powered minute (R562 to R564, R569) -/

/-- A minute counted, before anything is reported. -/
def Dev.minuteCounted (d : Dev) : Dev :=
  let d1 := (d.onHist fun h => h.minute d.age.temp).sampleCurrents
  let h1 := d1.jnl.history
  let cs := (List.range 16).map fun n => monthEnd (nth h1.currents n (0, 0)) (nth d1.age.currents n (0, 0))
  let d2 := if decide (h1.minutes % 43200 = 0) then
      (d1.onHist fun h => { h with currents := cs }).onAge fun a => { a with currents := List.replicate 16 (0, 0) }
    else d1
  if 60000 ≤ h1.sincePlan then d2.startReplan 2 else d2

theorem Dev.unreport_startReplan (e d : Dev) (c : Nat) : (e.startReplan c).unreport d = (e.unreport d).startReplan c := rfl

theorem Dev.unreport_foldl_raise {α : Type} (l : List α) (b : Nat) (f : α → Nat) (e d : Dev) :
    (l.foldl (fun e n => e.raise b (f n) 0) e).unreport d = e.unreport d :=
  List.foldlRecOn (motive := fun x : Dev => x.unreport d = e.unreport d) l _ rfl fun _ hx _ _ => (Dev.unreport_raise ..).trans hx

/-- What a minute tick does beyond counting is to report (R563). -/
theorem minuteTick_unreport (d x : Dev) (hr : d.released = true) : (minuteTick d).unreport x = d.minuteCounted.unreport x := by
  simp only [minuteTick, hr, Dev.minuteCounted, Bool.not_true, Bool.false_eq_true, if_false]
  split_ifs <;> simp only [Dev.unreport_startReplan, Dev.unreport_foldl_raise, Dev.unreport_report]

/-- What a counted minute changes. -/
theorem Dev.minuteCounted_values (d : Dev) :
    d.minuteCounted.jnl.history.minutes = satNat 0xFFFFFFFF (d.jnl.history.minutes + 1) ∧
      d.minuteCounted.jnl.history.sincePlan = satNat 0xFFFFFFFF (d.jnl.history.sincePlan + 1) ∧
      d.minuteCounted.jnl.history.stress = (d.jnl.history.minute d.age.temp).stress ∧
      d.minuteCounted.age.replan =
        if 60000 ≤ satNat 0xFFFFFFFF (d.jnl.history.sincePlan + 1) then some (d.age.replan.getD 0 ||| 2) else d.age.replan := by
  have hsince : (d.onHist fun h => h.minute d.age.temp).sampleCurrents.jnl.history.sincePlan =
    satNat 0xFFFFFFFF (d.jnl.history.sincePlan + 1) := rfl
  simp only [Dev.minuteCounted, hsince]
  split_ifs <;> exact ⟨rfl, rfl, rfl, rfl⟩

/-- `e` with the ageing unit and the journal put back as `d` has them. -/
def Dev.unage (e d : Dev) : Dev := { e with age := d.age, jnl := d.jnl }

theorem Dev.unage_onAge (e d : Dev) (f : Age → Age) : (e.onAge f).unage d = e.unage d := rfl
theorem Dev.unage_onHist (e d : Dev) (f : History → History) : (e.onHist f).unage d = e.unage d := rfl

/-- What a counted minute leaves. -/
theorem Dev.minuteCounted_unage (d : Dev) : d.minuteCounted.unage d = d := by
  simp only [Dev.minuteCounted]
  split_ifs <;> simp only [Dev.startReplan, Dev.sampleCurrents, Dev.unage_onAge, Dev.unage_onHist] <;> rfl

/-- The rows of R562: bounds of a band in degrees C and its weight. -/
def stressTable : List (Int × Int × Nat) :=
  [(-4096, 0, 1), (0, 20, 3), (20, 40, 20), (40, 60, 106), (60, 70, 323), (70, 80, 643), (80, 90, 1234), (90, 100, 2285),
    (100, 105, 3550), (105, 110, 4716), (110, 115, 6220), (115, 120, 8144), (120, 125, 10592), (125, 130, 13686),
    (130, 4096, 19864)]

/-- Each row of R562 is a band of the model: the bounds before it lie at or below its lower end, those behind it at or above its upper
one. -/
theorem stressTable_bands : ∀ r ∈ stressTable, ∃ k < 15, (∀ b ∈ bandBounds.take k, b ≤ r.1) ∧
    (∀ b ∈ bandBounds.drop k, r.2.1 ≤ b) ∧ nth bandWeights k 0 = r.2.2 := by
  decide

/-- The band of a temperature between the bounds before and behind it. -/
theorem bandOf_eq (t : Int) (k : Nat) (hk : k < 15) (hlow : ∀ b ∈ bandBounds.take k, b * 16 ≤ t)
    (hhigh : ∀ b ∈ bandBounds.drop k, t < b * 16) : bandOf t = k := by
  have htake : (bandBounds.take k).filter (fun b => decide (b * 16 ≤ t)) = bandBounds.take k :=
    List.filter_eq_self.2 fun b hb => decide_eq_true (hlow b hb)
  have hdrop : (bandBounds.drop k).filter (fun b => decide (b * 16 ≤ t)) = [] :=
    List.filter_eq_nil_iff.2 fun b hb => by have := hhigh b hb; simp; omega
  have hlen : bandBounds.length = 14 := rfl
  rw [bandOf, ← List.take_append_drop k bandBounds, List.filter_append, htake, hdrop, List.append_nil, List.length_take]
  omega

/-- The weight of a temperature is that of its row of R562. -/
theorem bandWeight_of_row (t lo hi : Int) (w : Nat) (hrow : (lo, hi, w) ∈ stressTable) (hlo : lo * 16 ≤ t) (hhi : t < hi * 16) :
    nth bandWeights (bandOf t) 0 = w := by
  obtain ⟨k, hk, hlow, hhigh, hw⟩ := stressTable_bands _ hrow
  rw [bandOf_eq t k hk (fun b hb => by have := hlow b hb; dsimp only at this; omega)
    (fun b hb => by have := hhigh b hb; dsimp only at this; omega), hw]

/-- A powered minute is counted, and its stress weighted by the sensor's band (R562, R564, R569). -/
theorem exec_minuteTick (s : State) (hr : s.dev.released = true) :
    let h := s.dev.jnl.history
    ∃ t, exec .minuteTick s = .next t ∧ t.mem = s.mem ∧ t.dev.jnl.history.minutes = satNat 0xFFFFFFFF (h.minutes + 1) ∧
      t.dev.jnl.history.sincePlan = satNat 0xFFFFFFFF (h.sincePlan + 1) ∧
      (∀ (k : Fin 12) (lo hi : Int) (w : Nat), (lo, hi, w) ∈ stressTable → lo * 16 ≤ s.dev.age.temp[k] → s.dev.age.temp[k] < hi * 16 →
        nth t.dev.jnl.history.stress k.val 0 = nth h.stress k.val 0 + w) ∧
      (t.dev.age.replan = if 60000 ≤ satNat 0xFFFFFFFF (h.sincePlan + 1) then some (s.dev.age.replan.getD 0 ||| 2) else s.dev.age.replan) ∧
      { t.dev.unreport s.dev with age := s.dev.age, jnl := s.dev.jnl } = s.dev := by
  intro h
  obtain ⟨hminutes, hsince, hstress, hreplan⟩ := s.dev.minuteCounted_values
  have hd : (s.run minuteTick).dev.unreport s.dev = s.dev.minuteCounted.unreport s.dev := by
    rw [State.run_dev, Dev.unreport_settle, minuteTick_unreport _ _ hr]
  refine ⟨_, rfl, rfl, ?_, ?_, fun k lo hi w hrow hlo hhi => ?_, ?_, ?_⟩
  · exact (congrArg (fun d : Dev => d.jnl.history.minutes) hd).trans hminutes
  · exact (congrArg (fun d : Dev => d.jnl.history.sincePlan) hd).trans hsince
  · have hsum : (s.run minuteTick).dev.jnl.history.stress = (h.minute s.dev.age.temp).stress :=
      (congrArg (fun d : Dev => d.jnl.history.stress) hd).trans hstress
    have htemp : s.dev.age.temp.toList.getD k.val 0 = s.dev.age.temp[k] := by simp
    rw [hsum, History.minute]
    dsimp only
    rw [nth_map_range _ _ _ _ k.isLt, htemp, bandWeight_of_row _ lo hi w hrow hlo hhi]
  · exact (congrArg (fun d : Dev => d.age.replan) hd).trans hreplan
  · rw [hd]
    exact congrArg (fun d : Dev => d.unreport s.dev) s.dev.minuteCounted_unage

/-! ### AGE_CTRL (R593) -/

/-- In Depot a re-plan starts, or a running one serves the trigger too (R564). -/
theorem exec_replan_depot (s : State) (hr : s.dev.released = true) (hm : s.dev.sys.mode = .depot) :
    ∃ t, exec (.replan none) s = .next t ∧ t.mem = s.mem ∧ t.dev.age = { s.dev.age with replan := some (s.dev.age.replan.getD 0 ||| 1) } ∧
      { t.dev.unreport s.dev with age := s.dev.age } = s.dev := by
  have heq : replan none s.dev = s.dev.startReplan 1 := by simp [replan, hr, hm]
  refine ⟨_, rfl, rfl, ?_, ?_⟩
  · rw [State.run_dev, Dev.settle_age, heq]; rfl
  · rw [State.run_dev, Dev.unreport_settle, heq]; rfl

/-- The ageing unit after an operation `g` of AGE_CTRL that may or may not start. -/
def Age.started (x : Age) (may : Bool) (g : Age → Age) : Age := if may then g x else { x with ignored := satAdd x.ignored 1 }

theorem Dev.ageBit_onAge (d : Dev) (may : Bool) (g : Age → Age) :
    d.ageBit may (fun e => e.onAge g) = { d with age := d.age.started may g } := by
  cases may <;> rfl

/-- What a write of AGE_CTRL makes of the ageing unit, for the three words with one bit. -/
def Dev.ageCtrlAge (d : Dev) (v : Word) : Age :=
  if v = 1 then d.age.started (decide (d.sys.mode = .depot)) fun x => { x with replan := some (x.replan.getD 0 ||| 1) }
  else if v = 2 then d.age.started d.inNolive fun x => { x with vminBusy := true }
  else d.age.started (decide (d.sys.mode = .depot)) fun x => { x with eyeBusy := true }

theorem Dev.ageCtrl_oneBit (d : Dev) (v : Word) (hv : v = 1 ∨ v = 2 ∨ v = 4) : d.ageCtrl v = { d with age := d.ageCtrlAge v } := by
  rcases hv with rfl | rfl | rfl
  · exact d.ageBit_onAge _ _
  · exact d.ageBit_onAge _ _
  · exact d.ageBit_onAge _ _

/-- A write of one bit of AGE_CTRL starts its operation in Depot with NOLIVE, and is counted outside Depot. -/
theorem exec_ageCtrl (s : State) (a : Access) (c : Instr) (v : Word)
    (hcv : (c, v) ∈ [(Instr.replan (some a), 1), (.vminProbe a, 2), (.eyeScan a, 4)])
    (hacc : s.dev.accepts a (regAddr 0x10004) v = true) :
    ∃ t, exec c s = .next t ∧ t.mem = s.mem ∧ t.dev.bus.answer = some ⟨a.master, 0, 0, 0⟩ ∧
      (s.dev.sys.mode = .depot → s.dev.sys.nolive = true → t.dev.age =
        (if v = 1 then { s.dev.age with replan := some (s.dev.age.replan.getD 0 ||| 1) }
         else if v = 2 then { s.dev.age with vminBusy := true } else { s.dev.age with eyeBusy := true })) ∧
      (s.dev.sys.mode ≠ .depot → t.dev.age = { s.dev.age with ignored := satAdd s.dev.age.ignored 1 }) ∧
      { t.dev.unaccess s.dev with age := s.dev.age } = s.dev := by
  obtain ⟨hexec, hv⟩ : exec c s = .next (s.run (ageCtrlWrite a v)) ∧ (v = 1 ∨ v = 2 ∨ v = 4) := by
    simp only [List.mem_cons, Prod.mk.injEq, List.not_mem_nil, or_false] at hcv
    rcases hcv with ⟨rfl, rfl⟩ | ⟨rfl, rfl⟩ | ⟨rfl, rfl⟩
    · exact ⟨rfl, .inl rfl⟩
    · exact ⟨rfl, .inr (.inl rfl)⟩
    · exact ⟨rfl, .inr (.inr rfl)⟩
  have hage : (s.run (ageCtrlWrite a v)).dev.age = s.dev.ageCtrlAge v := by
    rw [State.run_dev, Dev.settle_age, ageCtrlWrite, Dev.write_age, if_pos hacc, Dev.ageCtrl_oneBit _ _ hv]
  refine ⟨_, hexec, rfl, ?_, fun hm hn => ?_, fun hm => ?_, ?_⟩
  · rw [State.run_dev, Dev.settle_bus, ageCtrlWrite, Dev.write_answer _ _ _ _ _ _ _ hacc]
    rfl
  · have hin : s.dev.inNolive = true := by simp [Dev.inNolive, hm, hn]
    rw [hage, Dev.ageCtrlAge, decide_eq_true hm, hin]
    rfl
  · have hin : s.dev.inNolive = false := by simp [Dev.inNolive, hm]
    rw [hage, Dev.ageCtrlAge, decide_eq_false hm, hin]
    split_ifs <;> rfl
  · rw [State.run_dev, Dev.unaccess_settle, ageCtrlWrite, Dev.write_accepted _ _ _ _ _ _ _ _ hacc, Dev.ageCtrl_oneBit _ _ hv]
    rfl

/-! ### Probe and scan (R561, R569) -/

/-- A finished probe goes to the history. -/
theorem exec_vminProbeDone (s : State) (mv worst : Nat) (hb : s.dev.age.vminBusy = true) :
    let h := s.dev.jnl.history
    ∃ t, exec (.vminProbeDone mv worst) s = .next t ∧ t.mem = s.mem ∧ t.dev.age = { s.dev.age with vminBusy := false } ∧
      t.dev.jnl.history.vmin = mv ∧ t.dev.jnl.history.vminWorst = worst ∧
      t.dev.jnl.history.vminBase = (if h.vminBase = 0 then mv else h.vminBase) ∧
      { t.dev.unreport s.dev with age := s.dev.age, jnl := s.dev.jnl } = s.dev := by
  intro h
  have heq : vminProbeDone mv worst s.dev = (s.dev.onAge fun a => { a with vminBusy := false }).onHist fun h =>
      { h with vmin := mv, vminBase := if h.vminBase = 0 then mv else h.vminBase, vminWorst := worst } := if_pos hb
  refine ⟨_, rfl, rfl, ?_, ?_, ?_, ?_, ?_⟩
  · rw [State.run_dev, Dev.settle_age, heq]; rfl
  · rw [State.run_dev, Dev.settle_jnl_history_vmin, heq]; rfl
  · rw [State.run_dev, Dev.settle_jnl_history_vminWorst, heq]; rfl
  · rw [State.run_dev, Dev.settle_jnl_history_vminBase, heq]; rfl
  · rw [State.run_dev, Dev.unreport_settle, heq]; rfl

/-- A port with the eye that a scan found, if it measured the port. -/
def Port.scanned (x : Port) : Option (Nat × Nat) → Port
  | some e => { x with eyeH := e.1, eyeV := e.2 }
  | none => x

/-- A finished scan goes to the ports it measured. -/
theorem exec_eyeScanDone (s : State) (l : List (Option (Nat × Nat))) (hb : s.dev.age.eyeBusy = true) :
    ∃ t, exec (.eyeScanDone l) s = .next t ∧ t.mem = s.mem ∧ t.dev.age = { s.dev.age with eyeBusy := false } ∧
      (∀ p : PortNo, (∀ e, nth l p.val none = some e → (t.dev.ports[p]).eyeH = e.1 ∧ (t.dev.ports[p]).eyeV = e.2) ∧
        (nth l p.val none = none → t.dev.ports[p] = s.dev.ports[p])) ∧
      { t.dev.unreport s.dev with age := s.dev.age, jnl := s.dev.jnl, ports := s.dev.ports } = s.dev := by
  obtain ⟨jnl, heq⟩ : ∃ jnl, eyeScanDone l s.dev = { s.dev with
      age := { s.dev.age with eyeBusy := false }, jnl := jnl,
      ports := Vector.ofFn fun p : PortNo => (s.dev.ports[p]).scanned (nth l p.val none) } :=
    ⟨_, by rw [eyeScanDone, if_pos hb]; rfl⟩
  have hport (p : PortNo) : (s.run (eyeScanDone l)).dev.ports[p] = (s.dev.ports[p]).scanned (nth l p.val none) := by
    rw [State.run_dev, Dev.settle_ports, heq]
    simp
  refine ⟨_, rfl, rfl, ?_, fun p => ⟨fun e he => ?_, fun he => ?_⟩, ?_⟩
  · rw [State.run_dev, Dev.settle_age, heq]
  · rw [hport, he]
    exact ⟨rfl, rfl⟩
  · rw [hport, he]
    rfl
  · rw [State.run_dev, Dev.unreport_settle, heq]
    rfl

/-! ### The re-plan (R564, R565, R567, R568) -/

/-- A fold that only adds bits keeps those that are set. -/
theorem foldl_or_keeps {α : Type} (l : List α) (f : BitVec 64 → α → BitVec 64) (hf : ∀ m a k, m.getLsbD k = true → (f m a).getLsbD k = true)
    (m : BitVec 64) (k : Nat) (h : m.getLsbD k = true) : (l.foldl f m).getLsbD k = true :=
  List.foldlRecOn (motive := fun x : BitVec 64 => x.getLsbD k = true) l f h fun x hx a _ => hf x a k hx

/-- One spindle's part of the mask of held spindles. -/
def Dev.addHeld (d : Dev) (m : BitVec 64) (n : SpindleNo) : BitVec 64 :=
  if (d.spn.spindles[n]).st = .held then m ||| (1#64 <<< n.val) else m

theorem Dev.addHeld_keeps (d : Dev) (m : BitVec 64) (n : SpindleNo) (k : Nat) (h : m.getLsbD k = true) :
    (d.addHeld m n).getLsbD k = true := by
  rw [Dev.addHeld]
  split_ifs <;> simp [h]

theorem Dev.addHeld_self (d : Dev) (m : BitVec 64) (n : SpindleNo) (h : (d.spn.spindles[n]).st = .held) :
    (d.addHeld m n).getLsbD n.val = true := by
  have hn := n.isLt
  rw [Dev.addHeld, if_pos h]
  simp [hn]

/-- Every held spindle is in the mask. -/
theorem Dev.heldMask_of_held (d : Dev) (n : SpindleNo) (h : (d.spn.spindles[n]).st = .held) : d.heldMask.getLsbD n.val = true := by
  obtain ⟨l₁, l₂, hl⟩ := List.append_of_mem (List.mem_finRange n)
  have hmask : d.heldMask = l₂.foldl d.addHeld (d.addHeld (l₁.foldl d.addHeld 0) n) := by
    rw [← List.foldl_cons, ← List.foldl_append, ← hl]
    rfl
  rw [hmask]
  exact foldl_or_keeps l₂ d.addHeld d.addHeld_keeps _ _ (d.addHeld_self _ n h)

theorem Dev.planVoltage_retired (d : Dev) (rows : List SlackRow) (old : Plan) :
    (d.planVoltage rows old).retired = old.retired ||| d.heldMask := by
  simp only [Dev.planVoltage]
  split
  · split <;> rfl
  · rfl

/-- Retiring more spindles keeps those retired. -/
theorem Dev.planRetire_keeps (d : Dev) (p : Planning) (k : Nat) (h : p.retired.getLsbD k = true) :
    (d.planRetire p).retired.getLsbD k = true := by
  refine List.foldlRecOn (motive := fun q : Planning => q.retired.getLsbD k = true) _ _ h fun q hq n _ => ?_
  split_ifs
  · simp [hq]
  · exact hq

/-- A new plan retires every held spindle (R565). -/
theorem Dev.newPlan_retired (d : Dev) (rows : List SlackRow) (n : SpindleNo) (h : (d.spn.spindles[n]).st = .held) :
    (d.newPlan rows).1.retired.getLsbD n.val = true := by
  refine Dev.planRetire_keeps _ _ _ ?_
  rw [Dev.planVoltage_retired, BitVec.getLsbD_or, d.heldMask_of_held n h, Bool.or_true]

/-- Bits of a cause that other bits join are still there. -/
theorem or_and_and_self (c x m : Nat) : (c ||| x) &&& (c &&& m) = c &&& m := by
  refine Nat.eq_of_testBit_eq fun i => ?_
  simp only [Nat.testBit_and, Nat.testBit_or]
  cases c.testBit i <;> simp

/-- A new plan keeps the trigger's bits among its causes (R568). -/
theorem Dev.newPlan_cause (d : Dev) (rows : List SlackRow) (cause : Nat) (h : d.age.replan = some cause) :
    (d.newPlan rows).1.cause &&& (cause &&& 3) = cause &&& 3 := by
  obtain ⟨x, hx⟩ : ∃ x, (d.newPlan rows).1.cause = cause ||| x :=
    ⟨_, by simp only [Dev.newPlan, h, Option.getD_some, Nat.or_assoc]; rfl⟩
  rw [hx, or_and_and_self]

theorem Dev.newPlan_number (d : Dev) (rows : List SlackRow) :
    (d.newPlan rows).1.number = ((if d.jnl.plan.valid then d.jnl.plan.number else 0) + 1) % 2 ^ 32 := by
  simp only [Dev.newPlan]
  split_ifs <;> rfl

/-- A finished re-plan, before AGEING is reported. -/
def Dev.replanned (d : Dev) (rows : List SlackRow) : Dev :=
  let p := (d.newPlan rows).1
  let d1 := (d.onJnl fun j => { j with plan := p }).onHist fun h =>
    { h with sincePlan := 0, plyEvents := 0, slack := if !d.jnl.plan.valid then h.slack.map fun s => (s.1, s.1) else h.slack }
  let d2 := { (d1.jnlDue 3) with ports := d1.ports.map fun (x : Port) => { x with trainedSincePlan := false } }
  (if d.inNolive then d2.adoptPlan p else d2).onAge fun a => { a with replan := none, planPending := !d.inNolive }

theorem replanDone_unreport (d x : Dev) (rows : List SlackRow) (cause : Nat) (h : d.age.replan = some cause) :
    (replanDone rows d).unreport x = (d.replanned rows).unreport x := by
  have heq : replanDone rows d = if (d.newPlan rows).2 then (d.replanned rows).report 27 else d.replanned rows := by
    rw [replanDone, h]
    rfl
  rw [heq]
  split_ifs
  · exact Dev.unreport_report ..
  · rfl

/-- The journal's content after a re-plan. -/
theorem Dev.replanned_jnl (d : Dev) (rows : List SlackRow) :
    (d.replanned rows).jnl.plan = (d.newPlan rows).1 ∧ (d.replanned rows).jnl.history.sincePlan = 0 ∧
      (d.replanned rows).jnl.due = (match d.jnl.due with | some c => some c | none => some 3) := by
  simp only [Dev.replanned]
  split_ifs <;> exact ⟨rfl, rfl, rfl⟩

/-- What no re-plan touches. -/
theorem Dev.replanned_frame (d : Dev) (rows : List SlackRow) :
    (d.replanned rows).strands = d.strands ∧ (d.replanned rows).streams = d.streams ∧ (d.replanned rows).whl = d.whl ∧
      (d.replanned rows).ply = d.ply := by
  simp only [Dev.replanned]
  split_ifs <;> simp [Dev.adoptPlan]

theorem Dev.replanned_age (d : Dev) (rows : List SlackRow) :
    (d.replanned rows).age.replan = none ∧ (d.replanned rows).age.planPending = !d.inNolive := ⟨rfl, rfl⟩

/-- Outside Depot with NOLIVE the plan waits (R567). -/
theorem Dev.replanned_waits (d : Dev) (rows : List SlackRow) (h : d.inNolive = false) :
    (d.replanned rows).spn = d.spn ∧ (d.replanned rows).age.avsTarget = d.age.avsTarget := by
  simp only [Dev.replanned, h, Bool.false_eq_true, if_false]
  exact ⟨rfl, rfl⟩

/-- In Depot with NOLIVE it takes effect at once (R567). -/
theorem Dev.replanned_adopted (d : Dev) (rows : List SlackRow) (h : d.inNolive = true) :
    (d.replanned rows).spn.spa = (d.newPlan rows).1.spa ∧ (d.replanned rows).spn.spb = (d.newPlan rows).1.spb ∧
      (d.replanned rows).age.avsTarget = (d.newPlan rows).1.avs := by
  simp only [Dev.replanned, h, if_true]
  exact ⟨rfl, rfl, rfl⟩

/-- A finished re-plan is numbered and goes to the journal, and takes effect at once in Depot with NOLIVE alone (R565, R567, R568). -/
theorem exec_replanDone (s : State) (rows : List SlackRow) (cause : Nat) (hc : s.dev.age.replan = some cause) :
    let h := s.dev.jnl.history
    ∃ t, exec (.replanDone rows) s = .next t ∧ t.mem = s.mem ∧ t.dev.age.replan = none ∧ t.dev.jnl.plan.valid = true ∧
      t.dev.jnl.plan.number = ((if s.dev.jnl.plan.valid then s.dev.jnl.plan.number else 0) + 1) % 2 ^ 32 ∧
      t.dev.jnl.plan.minutes = h.minutes ∧ t.dev.jnl.plan.cause &&& (cause &&& 3) = cause &&& 3 ∧
      (∀ n : SpindleNo, (s.dev.spn.spindles[n]).st = .held → t.dev.jnl.plan.retired.getLsbD n.val = true) ∧
      t.dev.jnl.history.sincePlan = 0 ∧ t.dev.jnl.due = (match s.dev.jnl.due with | some c => some c | none => some 3) ∧
      t.dev.age.planPending = !s.dev.inNolive ∧
      (s.dev.inNolive = false → t.dev.spn = s.dev.spn ∧ t.dev.age.avsTarget = s.dev.age.avsTarget) ∧
      (s.dev.inNolive = true → t.dev.spn.spa = t.dev.jnl.plan.spa ∧ t.dev.spn.spb = t.dev.jnl.plan.spb ∧
        t.dev.age.avsTarget = t.dev.jnl.plan.avs) ∧
      t.dev.strands = s.dev.strands ∧ t.dev.streams = s.dev.streams ∧ t.dev.whl = s.dev.whl ∧ t.dev.ply = s.dev.ply := by
  intro h
  have hview : (s.run (replanDone rows)).dev.unreport s.dev = (s.dev.replanned rows).unreport s.dev := by
    rw [State.run_dev, Dev.unreport_settle, replanDone_unreport _ _ _ _ hc]
  have hage : (s.run (replanDone rows)).dev.age = (s.dev.replanned rows).age := (congrArg Dev.age hview :)
  have hspn : (s.run (replanDone rows)).dev.spn = (s.dev.replanned rows).spn := (congrArg Dev.spn hview :)
  obtain ⟨hplan, hsince, hdue⟩ := s.dev.replanned_jnl rows
  obtain ⟨hstrands, hstreams, hwhl, hply⟩ := s.dev.replanned_frame rows
  have hp : (s.run (replanDone rows)).dev.jnl.plan = (s.dev.newPlan rows).1 :=
    (congrArg (fun d : Dev => d.jnl.plan) hview).trans hplan
  refine ⟨_, rfl, rfl, ?_⟩
  rw [hage, hspn, hp]
  exact ⟨(s.dev.replanned_age rows).1, rfl, s.dev.newPlan_number rows, rfl, s.dev.newPlan_cause rows cause hc,
    s.dev.newPlan_retired rows, (congrArg (fun d : Dev => d.jnl.history.sincePlan) hview).trans hsince,
    (congrArg (fun d : Dev => d.jnl.due) hview).trans hdue, (s.dev.replanned_age rows).2, s.dev.replanned_waits rows,
    s.dev.replanned_adopted rows, (congrArg (fun d : Dev => d.strands) hview).trans hstrands, (congrArg (fun d : Dev => d.streams) hview).trans hstreams,
    (congrArg (fun d : Dev => d.whl) hview).trans hwhl, (congrArg (fun d : Dev => d.ply) hview).trans hply⟩

/-- Settles O57: a clause for each command of the ageing unit, and the journal writer's own lemmas for the sets. -/
theorem ageingAndReplan : Obligations.AgeingAndReplan := by
  intro s hr h
  refine ⟨fun l => exec_delayMonitorSample s l hr, exec_minuteTick s hr, exec_replan_depot s hr, exec_ageCtrl s,
    exec_vminProbeDone s, exec_eyeScanDone s, exec_replanDone s, fun cause hdue hmay hfree => ?_,
    fun bank slot seq trailer hw hstep => ?_, fun bank sector l he => ?_⟩
  · obtain ⟨t, hexec, hwriting, hnone, _, _, _, hmem, _⟩ := exec_journalSetWrite_due s cause hdue hmay hfree
    have hsome := congrArg Option.isSome hwriting
    rw [Option.isSome_map] at hsome
    exact ⟨t, hexec, hnone, hsome, hmem⟩
  · obtain ⟨t, hexec, hnone, hseq, _, _, _, _, hmem, _⟩ := exec_journalSetProgrammed_ok s bank slot seq trailer hw hstep
    exact ⟨t, hexec, hnone, hseq, hmem⟩
  · obtain ⟨t, hexec, hl, _, _, hmem, _⟩ := exec_sectorEraseDone_ok s bank sector l he
    exact ⟨t, hexec, hl, hmem⟩

end Sys2Proof.Machine
end

section
/-! SUPPORT. What a reset leaves (03 R81, R108; 18 R590). -/

namespace Sys2Proof.Machine

/-- Settles O4: the reset values are literals, so the kernel computes each of them. -/
theorem resetValues : Obligations.ResetValues := by
  unfold Obligations.ResetValues
  decide

/-- While the device is held in reset, no condition stands: settling drives the pins alone. -/
theorem Dev.settle_of_held (d : Dev) (hr : d.released = false) (hi : d.img = none) :
    d.settle = { d with pins := { d.pins with
      faultN := false, alertN := true, bypHold := d.aon.tier.map fun t => decide (t ≠ .bypass) } } := by
  have hphase : d.aon.phase ≠ .romSafe := fun h => by simp [Dev.released, h] at hr
  have hpath : d.pathRuns = false := by
    unfold Dev.released at hr
    unfold Dev.pathRuns
    split at hr <;> simp_all
  have hshown : d.standingShown := by
    intro p hp hon
    simp [Dev.standing, hr, hi, hphase] at hp
    rcases hp with rfl | rfl | rfl | rfl | rfl | rfl | rfl <;> cases hon
  rw [Dev.settle, d.raiseStanding_of_shown hshown, Dev.drivePins, Dev.faultNLevel, Dev.alertNLevel, hpath, hr]
  rfl

/-- With both switches closed as well, nothing changes at all. -/
theorem Dev.settle_of_bypassed (d : Dev) (hr : d.released = false) (hi : d.img = none) (hp : d.pins = Pins.reset)
    (ht : d.aon.tier = Vector.replicate 2 .bypass) : d.settle = d := by
  have hhold : (Vector.replicate 2 RingTier.bypass).map (fun t => decide (t ≠ .bypass)) = Pins.reset.bypHold := by simp [Pins.reset]
  rw [d.settle_of_held hr hi, ht, hhold, ← hp]
  cases d
  cases hp
  rfl

theorem exec_powerOnReset (s : State) : exec .powerOnReset s = .next (powerOnReset s) := by
  show Host.Outcome.next (s.runM powerOnReset) = _
  rw [State.runM, Dev.settle_of_bypassed _ rfl rfl rfl rfl]
  rfl

theorem exec_brownOut (s : State) : exec .brownOut s = .next (brownOut s) := by
  show Host.Outcome.next (s.runM brownOut) = _
  rw [State.runM, Dev.settle_of_bypassed _ rfl rfl rfl rfl]
  rfl

/-- What a reset that spares the AON domain leaves of the state. -/
theorem Dev.hold_settle (d : Dev) (b : Nat) :
    (d.hold b).settle = { d.hold b with pins := { Pins.reset with
      bypHold := (d.aon.tier.map (heldTier d.aon.refclk)).map fun t => decide (t ≠ .bypass) } } := by
  rw [Dev.settle_of_held _ rfl rfl]
  rfl

/-- Settles O8: settling adds nothing to what a reset leaves but the pins that hold the rings (R105). -/
theorem resetSources : Obligations.ResetSources := by
  intro s
  refine ⟨⟨_, exec_powerOnReset s, rfl, rfl, rfl⟩, ⟨_, exec_brownOut s, rfl, rfl, rfl⟩, fun hp => ⟨_, rfl, rfl, ?_, ?_⟩⟩
  · rw [State.runM_mem, porstAssert, if_neg hp]; rfl
  · rw [State.runM_dev, porstAssert, if_neg hp, Dev.hold_settle]; rfl

end Sys2Proof.Machine
end

section
/-! SUPPORT. The retimer tier: the rings open, lock, and fail with their clock (03 R105, R106; 16 R551, R553). -/

namespace Sys2Proof.Machine

/-- A ring whose switch is closed starts the order of R106; any other stays in its tier. -/
theorem Dev.openRings_tier (d : Dev) (r : Fin 2) :
    d.openRings.aon.tier[r] = if d.aon.tier[r] = .bypass then .opening else d.aon.tier[r] := by
  simp [Dev.openRings]

/-- Once the rings are opened both switches are held open (R105). -/
theorem Dev.openRings_bypHold (d : Dev) (r : Fin 2) : d.openRings.settle.pins.bypHold[r] = true := by
  rw [Dev.settle_bypHold, Fin.getElem_fin, Vector.getElem_map, ← Fin.getElem_fin, Dev.openRings_tier]
  split_ifs with h
  · rfl
  · simpa using h

/-- The AON registers put back after an opening of the rings. -/
theorem Dev.openRings_aon_frame (d e : Dev) (a : Aon) (h : { d with aon := a } = e) : { d.openRings.settle.unreport e with aon := a } = e := by
  subst h
  rw [Dev.unreport_settle]
  rfl

theorem exec_powerOnResetRelease_opens (s : State) (hp : s.dev.aon.phase = .powerReset) (hc : s.dev.aon.refclk = true) :
    exec .powerOnResetRelease s =
      .next { s with dev := ({ s.dev with aon := { s.dev.aon with phase := .reset } } : Dev).openRings.settle } := by
  show Host.Outcome.next (s.run powerOnResetRelease) = _
  simp only [State.run, powerOnResetRelease, hp, hc, if_true]

theorem exec_refclkValid_opens (s : State) (hp : s.dev.aon.phase ≠ .powerReset) (hs : s.dev.skn.stopped = false) :
    exec .refclkValid s =
      .next { s with dev := ({ s.dev with aon := { s.dev.aon with refclk := true } } : Dev).openRings.settle } := by
  show Host.Outcome.next (s.run refclkValid) = _
  simp only [State.run, refclkValid, hp, hs, Bool.false_eq_true, or_self, if_false]

theorem ringIx_not_ne (b : Bool) : ringIx (!b) ≠ ringIx b := by cases b <;> decide

theorem exec_retimerLock (s : State) (b : Bool) (ht : s.dev.aon.tier[ringIx b] = .opening) :
    ∃ t, exec (.retimerLock b) s = .next t ∧ t.mem = s.mem ∧ t.dev.skn.retimerSeen = true ∧
      t.dev.aon.tier[ringIx b] = (if s.dev.pathRuns then .full else .retimer) ∧
      t.dev.aon.tier[ringIx (!b)] = s.dev.aon.tier[ringIx (!b)] ∧
      { t.dev.unreport s.dev with aon := s.dev.aon, skn := { t.dev.skn with retimerSeen := s.dev.skn.retimerSeen } } = s.dev := by
  refine ⟨_, rfl, rfl, ?_⟩
  rw [State.run_dev, retimerLock, if_pos ht, Dev.settle_skn, Dev.settle_aon, Dev.unreport_settle]
  exact ⟨rfl, upd_same .., upd_other _ _ _ _ (ringIx_not_ne b), rfl⟩

/-- CLOCK stands while the reference clock fails (R551). -/
theorem Dev.settle_clock (d : Dev) (hr : d.released = true) (hc : d.aon.refclk = false) :
    d.settle.sys.fault.getLsbD 4 = true := by
  have shown := Dev.settle_shown d
  rw [Dev.standingShown, Dev.settle_standing] at shown
  exact shown (4, true) (by simp [Dev.standing, hr, hc]) rfl

theorem exec_pllFailure (s : State) (hr : s.dev.released = true) :
    ∃ t, exec .pllFailure s = .next t ∧ t.mem = s.mem ∧ t.dev.aon.refclk = false ∧ t.dev.sys.fault.getLsbD 4 = true ∧
      t.dev.pins.faultN = false ∧ { t.dev.unreport s.dev with aon := s.dev.aon } = s.dev := by
  refine ⟨_, rfl, rfl, ?_⟩
  rw [State.run_dev, Dev.settle_aon, Dev.unreport_settle]
  exact ⟨rfl, Dev.settle_clock _ hr rfl, Dev.settle_faultN_of_clock _ rfl, rfl⟩

/-- Settles O9: REFCLK and the release of the reset both end in `Dev.openRings`; the lock and the failure touch one register each. -/
theorem retimerBringUp : Obligations.RetimerBringUp := by
  intro s _
  refine ⟨fun hp hc => ?_, fun hp hs => ?_, exec_retimerLock s, exec_pllFailure s⟩
  · refine ⟨_, exec_powerOnResetRelease_opens s hp hc, by simp, rfl, ?_, Dev.openRings_bypHold _, Dev.openRings_aon_frame _ _ _ rfl⟩
    rw [Dev.settle_aon]
    exact Dev.openRings_tier _
  · refine ⟨_, exec_refclkValid_opens s hp hs, by simp, rfl, ?_, Dev.openRings_bypHold _, Dev.openRings_aon_frame _ _ _ rfl⟩
    rw [Dev.settle_aon]
    exact Dev.openRings_tier _

end Sys2Proof.Machine
end

section
/-! SUPPORT. The resets that a commit of SYS_SWRST and SYSRST cause, and the start that follows (03 R81, R82; 18 R592). -/

namespace Sys2Proof.Machine

/-! ### What a start keeps of the reset that it follows -/

theorem Dev.started_cause (d : Dev) (m : Mem) (b c : BitVec 2) : (d.started m b c).aon.cause = d.aon.cause := by
  simp only [Dev.started]
  split_ifs <;> simp

theorem Dev.started_ringPorts (d : Dev) (m : Mem) (b c : BitVec 2) : (d.started m b c).skn.ports = d.skn.ports := by
  simp only [Dev.started]
  split_ifs <;> simp

theorem Dev.enterRomSafe_ringPorts (d : Dev) (m : Mem) : (d.enterRomSafe m).skn.ports = d.skn.ports := by
  simp [Dev.enterRomSafe]

theorem Dev.chooseBank_ringPorts (d : Dev) (m : Mem) (cap : Option Nat) : (d.chooseBank m cap).skn.ports = d.skn.ports := by
  simp only [Dev.chooseBank]
  split <;> split_ifs <;> simp [Dev.enterRomSafe_ringPorts]

/-- No choice of the straps touches the cause register or the ring lanes. -/
theorem Dev.startPath_keeps (d : Dev) (m : Mem) (b c : BitVec 2) :
    (d.startPath m b c).aon.cause = d.aon.cause ∧ (d.startPath m b c).skn.ports = d.skn.ports := by
  rw [Dev.startPath_eq, ← Dev.started_cause d m b c, ← Dev.started_ringPorts d m b c]
  split_ifs
  · simp [Dev.startProduction]
  · simp [Dev.enterRomSafe_ringPorts]
  · simp [Dev.chooseBank_ringPorts]

/-! ### Software and JTAG resets -/

/-- What a reset of a source leaves once the start that follows has sampled the straps: its cause bit, W0 at 0, the ring lanes as
they were (R81, R82). -/
def Restarted (s : State) (cause : BitVec 5) (b c : BitVec 2) (t : State) : Prop :=
  t.dev.aon.cause = s.dev.aon.cause ||| cause ∧ t.dev.aon.bootSel = b ∧ t.dev.aon.i2ca = c ∧ t.dev.w0 = 0 ∧
    t.dev.strands = Vector.replicate 64 Strand.reset ∧ t.dev.skn.ports = s.dev.skn.ports ∧
    t.mem = { Mem.reset with nvm := s.mem.nvm }

theorem State.restart_restarted (s : State) (n : Nat) (b c : BitVec 2) :
    Restarted s (1#5 <<< n) b c { s.restart n b c with dev := (s.restart n b c).dev.settle } := by
  obtain ⟨hcause, hports⟩ := (s.dev.hold n).startPath_keeps s.mem.afterReset b c
  have view := ((s.dev.hold n).startPath_view s.mem.afterReset b c).trans (Dev.started_view ..)
  simp only [Dev.startView, StartView.mk.injEq] at view
  obtain ⟨hboot, hi2ca, -, htim, -, -, -, -, -, hstrands, -⟩ := view
  simp only [Restarted, State.restart, Dev.settle_aon, Dev.settle_strands, Dev.settle_skn, Dev.w0, Dev.settle_whl, Dev.onBus_aon,
    Dev.onBus_strands, Dev.onBus_skn, Dev.onBus_whl, hcause, hports, hboot, hi2ca, htim, hstrands]
  exact ⟨rfl, trivial, trivial, trivial, rfl, rfl, rfl⟩

theorem Master.noReset_of_diag (m : Master) : Master.noReset m = !m.diag := by cases m <;> rfl

/-- SYS_SWRST takes every write once the reset is released (R559). -/
theorem Dev.accepts_swrst (d : Dev) (a : Access) (v : Word) (hr : d.released = true) : d.accepts a (regAddr 0x1C) v = true :=
  d.accepts_open a 0x1C v hr (Or.inl (by decide))

/-- The pending value taken by the commit of SYS_SWRST. -/
theorem Dev.swrstCommit_fires (d : Dev) (a : Access) (ha : a.master.diag = true) :
    d.swrstCommit a (~~~d.pairs.swrst.pending) = ({ d with pairs := { d.pairs with
      swrst := ⟨d.pairs.swrst.pending, d.pairs.swrst.pending⟩ } }, Res.ok) := by
  rw [Dev.swrstCommit, Master.noReset_of_diag, ha, if_neg (by simp), Dev.commitPair_accepted]
  rfl

/-- A commit of 1 from a diagnostic path resets the device, and its answer has gone out before (R82, R592). -/
theorem exec_softwareReset_fires (s : State) (a : Access) (b c : BitVec 2) (hr : s.dev.released = true) (ha : a.master.diag = true)
    (hbit : s.dev.pairs.swrst.pending.getLsbD 0 = true) :
    ∃ t, exec (.softwareReset a (~~~s.dev.pairs.swrst.pending) b c) s = .next t ∧ Restarted s 0b01000 b c t ∧
      t.dev.bus.answer = some ⟨a.master, 0, 0, 0⟩ := by
  generalize hv : ~~~s.dev.pairs.swrst.pending = v
  have hacc := s.dev.accepts_swrst a v hr
  have hfires : s.dev.swrstFires a v = true := by
    simp [Dev.swrstFires, hacc, Master.noReset_of_diag, ha, hbit, hv]
  have hcommit := s.dev.swrstCommit_fires a ha
  rw [hv] at hcommit
  let w : State := { s with dev := s.dev.write a (regAddr 0x1C) 4 v true fun e => e.swrstCommit a v }
  have hrun : s.runM (softwareReset a v b c) = { w.restart 3 b c with dev := (w.restart 3 b c).dev.settle } := by
    rw [State.runM, softwareReset, if_pos hfires]
    rfl
  have haon : w.dev.aon = s.dev.aon := by rw [Dev.write_aon, if_pos hacc, hcommit]
  have hskn : w.dev.skn = s.dev.skn := by rw [Dev.write_skn, if_pos hacc, hcommit]
  have hans : w.dev.bus.answer = some ⟨a.master, 0, 0, 0⟩ := by rw [Dev.write_answer _ _ _ _ _ _ _ hacc, hcommit]; rfl
  have restarted := w.restart_restarted 3 b c
  rw [Restarted, haon, hskn] at restarted
  refine ⟨_, rfl, ?_, ?_⟩
  · rw [hrun]
    exact restarted
  · rw [hrun, Dev.settle_bus]
    exact hans

/-- A commit from a core or the DMA is refused (R592). -/
theorem exec_softwareReset_refused (s : State) (a : Access) (b c : BitVec 2) (hr : s.dev.released = true)
    (ha : a.master.diag = false) :
    ∃ t, exec (.softwareReset a (~~~s.dev.pairs.swrst.pending) b c) s = .next t ∧ t.dev.unaccess s.dev = s.dev ∧ t.mem = s.mem ∧
      t.dev.bus.answer = some ⟨a.master, 2, 0, 0⟩ := by
  generalize hv : ~~~s.dev.pairs.swrst.pending = v
  have hno : Master.noReset a.master = true := by rw [Master.noReset_of_diag, ha]; rfl
  have hacc := s.dev.accepts_swrst a v hr
  have hfires : s.dev.swrstFires a v = false := by simp [Dev.swrstFires, hno]
  have hcommit : s.dev.swrstCommit a v = (s.dev, Res.addrErr) := by rw [Dev.swrstCommit, if_pos ⟨hno, hv.symm⟩]
  have hrun : softwareReset a v b c s =
      { s with dev := s.dev.write a (regAddr 0x1C) 4 v true fun e => e.swrstCommit a v } := by
    rw [softwareReset, hfires, if_neg (by simp)]
  refine ⟨_, rfl, ?_, ?_, ?_⟩
  · rw [State.runM_dev, hrun, Dev.unaccess_settle, Dev.write_accepted _ _ _ _ _ _ _ _ hacc, hcommit, Dev.unaccess_self]
  · rw [State.runM_mem, hrun]
  · rw [State.runM_dev, hrun, Dev.settle_bus, Dev.write_answer _ _ _ _ _ _ _ hacc, hcommit]
    rfl

/-- The JTAG system reset of a released device (R81). -/
theorem exec_sysrst_released (s : State) (b c : BitVec 2) (hr : s.dev.released = true) :
    ∃ t, exec (.sysrst b c) s = .next t ∧ Restarted s 0b10000 b c t := by
  let w : State := { s with dev := s.dev.jtagTake .sysrst 0 false false }
  have hw : w.dev.released = true := hr
  have hrun : s.runM (sysrst b c) = { w.restart 4 b c with dev := (w.restart 4 b c).dev.settle } := by
    rw [State.runM, sysrst, if_pos hw]
    rfl
  refine ⟨_, rfl, ?_⟩
  rw [hrun]
  exact w.restart_restarted 4 b c

/-- Settles O12: an accepted commit and SYSRST are the same restart, a refused commit leaves the access alone. -/
theorem softwareAndJtagReset : Obligations.SoftwareAndJtagReset := by
  intro s b c _ hr
  refine ⟨fun a v ha hbit hv => ?_, fun a v ha hv => hv ▸ exec_softwareReset_refused s a b c hr ha, exec_sysrst_released s b c hr⟩
  obtain ⟨t, hexec, ⟨hcause, hboot, hi2ca, hw0, hstrands, hports, hmem⟩, hans⟩ := exec_softwareReset_fires s a b c hr ha hbit
  exact ⟨t, hv ▸ hexec, hcause, hboot, hi2ca, hw0, hstrands, hports, hmem, hans⟩

end Sys2Proof.Machine
end

section
/-! SUPPORT. Frame store training and the end of the image load (03 R86, R328). -/

namespace Sys2Proof.Machine

/-! ### What modes, layouts and power leave alone -/

/-- A step that keeps a view of the registers keeps it over a list. -/
theorem Dev.foldl_view {α β : Type} (view : Dev → β) (g : Dev → α → Dev) (h : ∀ e a, view (g e a) = view e) (l : List α) (d : Dev) :
    view (l.foldl g d) = view d :=
  List.foldlRecOn (motive := fun e : Dev => view e = view d) l g rfl fun e he a _ => (h e a).trans he

/-- What no change of mode, layout or power touches: the AON domain, the image, the TAP and the test lanes, the pairs, and whether
an NVM is fitted. -/
def Dev.fixtures (d : Dev) : Aon × Option Image × Jtag × Tst × Pairs × Bool := (d.aon, d.img, d.jtag, d.tst, d.pairs, d.nvm.fitted)

@[simp] theorem Dev.raise_fixtures (d : Dev) (b x y : Nat) : (d.raise b x y).fixtures = d.fixtures := by simp [Dev.fixtures]

@[simp] theorem Dev.logAccess_fixtures (d : Dev) (a : Access) (p : Word) (z : Nat) (v : Word) (l r : Nat) :
    (d.logAccess a p z v l r).fixtures = d.fixtures := by simp [Dev.fixtures]

theorem Dev.setPoc_fixtures (d : Dev) (m : BitVec 16) : (d.setPoc m).fixtures = d.fixtures := by
  refine (Dev.foldl_view Dev.fixtures _ (fun e p => ?_) _ _).trans rfl
  split_ifs <;> rfl

theorem Dev.abortStage_fixtures (d : Dev) : d.abortStage.fixtures = d.fixtures := by
  simp only [Dev.abortStage, Dev.closeStage]
  split
  · rfl
  · split_ifs
    · exact (Dev.logAccess_fixtures ..).trans rfl
    · rfl

theorem Dev.setMode_fixtures (d : Dev) (m : Mode) (n : Bool) : (d.setMode m n).fixtures = d.fixtures := by
  simp only [Dev.setMode]
  split_ifs
  · rfl
  · exact d.abortStage_fixtures
  · exact d.abortStage_fixtures

theorem Dev.selectShed_fixtures (d : Dev) (w : Nat) : (d.selectShed w).fixtures = d.fixtures := by
  simp only [Dev.selectShed]
  split <;> rfl

theorem Dev.trimCredits_fixtures (d : Dev) : d.trimCredits.fixtures = d.fixtures := by
  rw [Dev.trimCredits]
  split <;> rfl

theorem Dev.endTransition_fixtures (d : Dev) (id : Nat) : (d.endTransition id).fixtures = d.fixtures := by
  rw [Dev.endTransition]
  split
  · split_ifs
    · exact d.setMode_fixtures _ _
    · rfl
  · rfl

theorem Dev.finishAdoption_fixtures (d : Dev) : d.finishAdoption.fixtures = d.fixtures := by
  rw [Dev.finishAdoption]
  split
  · rfl
  · split_ifs
    · exact (Dev.endTransition_fixtures _ _).trans ((Dev.trimCredits_fixtures _).trans (Dev.selectShed_fixtures _ _))
    · rfl

theorem Dev.assignHank_fixtures (d : Dev) (id : Nat) (ns : List Nat) : (d.assignHank id ns).fixtures = d.fixtures := by
  rw [Dev.assignHank]
  split
  · rfl
  · exact Dev.foldl_view Dev.fixtures _ (fun e n => Dev.raise_fixtures ..) _ _

theorem Dev.raiseSwitch_fixtures (d : Dev) (l : LayoutCfg) : (d.raiseSwitch l).fixtures = d.fixtures :=
  (Dev.finishAdoption_fixtures _).trans (Dev.assignHank_fixtures _ _ _)

theorem Dev.trainPly_fixtures (d : Dev) : d.trainPly.fixtures = d.fixtures := by
  rw [Dev.trainPly]
  split
  · split_ifs <;> rfl
  · rfl

theorem Dev.checkWarm_fixtures (d : Dev) : d.checkWarm.fixtures = d.fixtures := by
  rw [Dev.checkWarm]
  split
  · split
    · split_ifs
      · exact d.setMode_fixtures _ _
      · rfl
    · rfl
  · rfl

theorem Dev.enterWarmup_fixtures (d : Dev) (m : Mode) (l : LayoutCfg) : (d.enterWarmup m l).fixtures = d.fixtures := by
  refine (Dev.checkWarm_fixtures _).trans ((Dev.trainPly_fixtures _).trans ((Dev.setPoc_fixtures _ _).trans
    ((Dev.raiseSwitch_fixtures _ _).trans ((Dev.setMode_fixtures _ _ _).trans ?_))))
  split_ifs <;> rfl

/-- However a start goes on, the image and the start path stay as they were. -/
theorem Dev.startModes_fixtures (d : Dev) (i : Image) : (d.startModes i).fixtures = d.fixtures := by
  rw [Dev.startModes]
  split_ifs
  · exact d.trainPly_fixtures
  · split
    · exact d.trainPly_fixtures
    · split
      · exact d.trainPly_fixtures
      · split_ifs
        · exact d.enterWarmup_fixtures _ _
        · exact (Dev.trainPly_fixtures _).trans (Dev.raise_fixtures ..)

/-! ### The image load -/

/-- The start path and the image. -/
def Dev.bootView (d : Dev) : Aon × Option Image := (d.aon, d.img)

theorem Dev.bootView_of_fixtures {d e : Dev} (h : d.fixtures = e.fixtures) : d.bootView = e.bootView := by
  simp only [Dev.fixtures, Prod.mk.injEq] at h
  obtain ⟨haon, himg, -⟩ := h
  rw [Dev.bootView, haon, himg, Dev.bootView]

theorem Dev.beginConv_bootView (d : Dev) (c : Fin 4) (b : Bool) : (d.beginConv c b).bootView = d.bootView := by
  simp only [Dev.beginConv]
  split_ifs <;> rfl

theorem Dev.settleConv_bootView (d : Dev) (c : Fin 4) : (d.settleConv c).bootView = d.bootView := by
  simp only [Dev.settleConv]
  split_ifs
  · rfl
  · exact Dev.beginConv_bootView _ _ _
  · rfl

theorem Dev.loadSense_bootView (d : Dev) (i : Image) : (d.loadSense i).bootView = d.bootView := by
  simp only [Dev.loadSense]
  rw [Dev.foldl_view Dev.bootView _ Dev.settleConv_bootView]
  simp only [Dev.bootView]

theorem Dev.takeRole_bootView (d : Dev) : d.takeRole.bootView = d.bootView := by simp [Dev.bootView]

theorem Dev.assignStates_bootView (d : Dev) (r : BitVec 64) : (d.assignStates r).bootView = d.bootView := by simp [Dev.bootView]

theorem Dev.placeCaptures_bootView (d : Dev) : d.placeCaptures.bootView = d.bootView := by
  rw [Dev.placeCaptures]
  split
  · refine Dev.foldl_view Dev.bootView _ (fun e p => ?_) _ _
    rfl
  · rfl

/-- A loaded image is in force; the AON domain stays as it was. -/
theorem Dev.loadImage_bootView (d : Dev) (i : Image) : (d.loadImage i).bootView = (d.aon, some i) := by
  have hloaded : (d.loadImage i).bootView = Dev.bootView _ :=
    (Dev.assignStates_bootView _ _).trans ((Dev.placeCaptures_bootView _).trans ((Dev.loadSense_bootView _ i).trans (Dev.takeRole_bootView _)))
  rw [hloaded]
  simp only [Dev.bootView, Dev.bindUnits]

theorem Dev.releaseCores_bootView (d : Dev) : d.releaseCores.bootView = d.bootView := by
  obtain ⟨c, hc⟩ := d.releaseCores_frame
  rw [hc]
  rfl

/-- The end of the load in the running state. -/
theorem imageLoadDone_bootView (m : Mem) (d : Dev) (hp : d.aon.phase = .loading) (hm : d.sys.mode ≠ .shutdown)
    (ht : d.fst.trained = true) (hb : d.nvm.booted ≠ 0) :
    (imageLoadDone m d).bootView =
      ({ d.aon with phase := .running, tier := d.aon.tier.map fun t => if t = .retimer then .full else t },
        some (((d.banks m).bank (decide (d.nvm.booted = 2))).image (decide (d.nvm.booted = 2)))) := by
  rw [imageLoadDone, if_pos ⟨hp, hm, ht, hb⟩]
  refine (Dev.bootView_of_fixtures (Dev.startModes_fixtures _ _)).trans ((Dev.releaseCores_bootView _).trans ?_)
  generalize hi : ((d.banks m).bank (decide (d.nvm.booted = 2))).image (decide (d.nvm.booted = 2)) = i
  have hload := d.loadImage_bootView i
  simp only [Dev.bootView, Prod.mk.injEq] at hload
  obtain ⟨haon, himg⟩ := hload
  simp only [Dev.bootView, Dev.takePart, haon, himg]

theorem exec_imageLoadDone (s : State) (hp : s.dev.aon.phase = .loading) (hm : s.dev.sys.mode ≠ .shutdown)
    (ht : s.dev.fst.trained = true) (hb : s.dev.nvm.booted ≠ 0) :
    ∃ t, exec .imageLoadDone s = .next t ∧ t.mem = s.mem ∧ t.pending = s.pending ∧ t.dev.aon.phase = .running ∧
      t.dev.img = some (((s.dev.banks s.mem).bank (decide (s.dev.nvm.booted = 2))).image (decide (s.dev.nvm.booted = 2))) ∧
      (∀ r : Fin 2, t.dev.aon.tier[r] = if s.dev.aon.tier[r] = .retimer then .full else s.dev.aon.tier[r]) := by
  have hview := imageLoadDone_bootView s.mem s.dev hp hm ht hb
  simp only [Dev.bootView, Prod.mk.injEq] at hview
  obtain ⟨haon, himg⟩ := hview
  refine ⟨_, rfl, rfl, rfl, ?_⟩
  rw [State.runR_dev, Dev.settle_aon, Dev.settle_img, haon, himg]
  refine ⟨rfl, rfl, fun r => ?_⟩
  simp

/-! ### Frame store training -/

/-- The frame store moves neither the standing conditions nor the pins: where both showed the state, they still do. -/
theorem Dev.settle_of_fst (d : Dev) (f : Fst) (hshown : d.standingShown) (hpins : d.pinsFollow) :
    ({ d with fst := f } : Dev).settle = { d with fst := f } :=
  Dev.settle_of_follow _ hshown hpins

/-- Settles O11: training touches the frame store alone, and nothing after the load touches the start path or the image again. -/
theorem imageLoad : Obligations.ImageLoad := by
  intro s ⟨_, hshown, hpins⟩
  refine ⟨fun gib ok hr ht hp => ?_, fun gib ok ht => ?_, exec_imageLoadDone s⟩
  · refine ⟨_, rfl, rfl, ?_⟩
    rw [State.runR_dev, frameStoreTrained, hr, ht, if_neg (by simp), if_neg hp, Dev.settle_of_fst _ _ hshown hpins]
    exact ⟨rfl, rfl, rfl⟩
  · show Host.Outcome.next (s.runR (frameStoreTrained gib ok)) = _
    rw [State.runR, frameStoreTrained, if_pos (by simp [ht]), Dev.settle_of_follow _ hshown hpins]

end Sys2Proof.Machine
end

section
/-! SUPPORT. Ring ports and transit (13 R458 to R465; 03 R109). -/

namespace Sys2Proof.Machine

/-- `e` differs from `d` in the skein part, in what a report changes and in the pins that follow, and in nothing else. -/
def Dev.SknOnly (e d : Dev) : Prop := { e.unreport d with skn := d.skn } = d

namespace Dev.SknOnly

variable {e d : Dev}

theorem self (d : Dev) : d.SknOnly d := rfl
theorem onSkn (h : e.SknOnly d) (f : Skn → Skn) : (e.onSkn f).SknOnly d := h
theorem onRPort (h : e.SknOnly d) (p : Fin 4) (f : RPort → RPort) : (e.onRPort p f).SknOnly d := h
theorem putMsg (h : e.SknOnly d) (p : Fin 4) (m : RingMsg) : (e.putMsg p m).SknOnly d := h
theorem discardMsg (h : e.SknOnly d) (p : Fin 4) : (e.discardMsg p).SknOnly d := h
theorem jnlChanged (h : e.SknOnly d) : { e with jnl := { e.jnl with changed := true } }.SknOnly d := h

theorem raise (h : e.SknOnly d) (b s x : Nat) : (e.raise b s x).SknOnly d := by
  simpa only [Dev.SknOnly, Dev.unreport_raise] using h

theorem settle (h : e.SknOnly d) : e.settle.SknOnly d := by
  simpa only [Dev.SknOnly, Dev.unreport_settle] using h

theorem sendMsg (h : e.SknOnly d) (r : Fin 2) (m : RingMsg) : (e.sendMsg r m).SknOnly d := by
  unfold Dev.sendMsg
  dsimp only
  split_ifs
  · exact h.putMsg _ _
  · exact h.discardMsg _
  · exact h.putMsg _ _
  · exact h.discardMsg _

theorem originate (h : e.SknOnly d) (r : Fin 2) (m : RingMsg) : (e.originate r m).SknOnly d := h.sendMsg _ _

theorem forward (h : e.SknOnly d) (p : Fin 4) (m : RingMsg) : (e.forward p m).SknOnly d := by
  unfold Dev.forward
  split_ifs
  · exact h.discardMsg _
  · exact h.sendMsg _ _

theorem reply (h : e.SknOnly d) (r : Fin 2) (m : RingMsg) (mtype : Byte) (code : BitVec 4) (detail : Byte) (payload : List Byte) :
    (e.reply r m mtype code detail payload).SknOnly d := h.originate _ _

theorem passOn (h : e.SknOnly d) (p : Fin 4) (m : RingMsg) : (e.passOn p m).SknOnly d := by
  unfold Dev.passOn
  extract_lets r child s cross
  by_cases hc : cross = true
  · rw [if_pos hc]
    split_ifs
    · exact h.reply ..
    · exact h.reply ..
    · exact h.discardMsg _
    · exact h.sendMsg _ _
    · exact h.sendMsg _ _
  · rw [if_neg hc]
    exact h.forward _ _

theorem linkChanged (h : e.SknOnly d) (p : Fin 4) (up : Bool) : (e.linkChanged p up).SknOnly d := by
  unfold Dev.linkChanged
  extract_lets r id
  by_cases hr : !e.ringOn r ∨ id = 0xFFFF
  · rw [if_pos hr]
    exact h
  rw [if_neg hr]
  by_cases hp : posOf id = 0
  · rw [if_pos hp]
    exact h.onSkn _
  · rw [if_neg hp]
    exact h.originate _ _

theorem ringDown (h : e.SknOnly d) (p : Fin 4) : (e.ringDown p).SknOnly d := by
  unfold Dev.ringDown
  split_ifs
  · exact ((h.onRPort p _).raise _ _ _).linkChanged _ _
  · exact h

end Dev.SknOnly

/-! ### Sending a message (R464) -/

theorem Dev.sendMsg_up (d : Dev) (r : Fin 2) (m : RingMsg) (h : (d.skn.ports[portFor r m.west]).up = true) :
    d.sendMsg r m = d.putMsg (portFor r m.west) m := if_pos h

/-- A message that is not WRAPPED turns round at a down port. -/
theorem Dev.sendMsg_turns (d : Dev) (r : Fin 2) (m : RingMsg) (h : (d.skn.ports[portFor r m.west]).up = false)
    (hw : m.wrapped = false) (hb : (d.skn.ports[portFor r !m.west]).up = true) :
    d.sendMsg r m = d.putMsg (portFor r !m.west) { m with west := !m.west, wrapped := true, hops := 0 } := by
  unfold Dev.sendMsg
  rw [if_neg (ne_true_of_eq_false h), if_neg (ne_true_of_eq_false hw), if_pos hb]

/-- A WRAPPED message ends at a down port. -/
theorem Dev.sendMsg_ends (d : Dev) (r : Fin 2) (m : RingMsg) (h : (d.skn.ports[portFor r m.west]).up = false)
    (hw : m.wrapped = true) : d.sendMsg r m = d.discardMsg (portFor r m.west) := by
  unfold Dev.sendMsg
  rw [if_neg (ne_true_of_eq_false h), if_pos hw]

@[simp] theorem ringOf_portFor (r : Fin 2) (w : Bool) : ringOf (portFor r w) = r := by
  revert r w; decide

/-- The two ports of an interface are those of its two directions. -/
theorem portFor_ringOf (p : Fin 4) : p = portFor (ringOf p) (decide (p.val % 2 = 1)) := by
  revert p; decide

/-- A message that is not WRAPPED leaves an interface with an up port by one of its ports; only its direction, its WRAPPED flag and its
hop count may have changed. -/
theorem Dev.sendMsg_leaves (d : Dev) (p : Fin 4) (m : RingMsg) (hp : (d.skn.ports[p]).up = true) (hw : m.wrapped = false) :
    ∃ q x, d.sendMsg (ringOf p) m = d.putMsg q x ∧ ringOf q = ringOf p ∧
      x = { m with west := x.west, wrapped := x.wrapped, hops := x.hops } := by
  by_cases hout : (d.skn.ports[portFor (ringOf p) m.west]).up = true
  · exact ⟨_, _, d.sendMsg_up _ _ hout, ringOf_portFor _ _, rfl⟩
  · have hback : (d.skn.ports[portFor (ringOf p) !m.west]).up = true := by
      have hwest : (!m.west) = decide (p.val % 2 = 1) := by
        by_contra hne
        have hwest' : m.west = decide (p.val % 2 = 1) := by
          revert hne
          cases m.west <;> simp
        exact hout (by simpa only [hwest', ← portFor_ringOf] using hp)
      simpa only [hwest, ← portFor_ringOf] using hp
    exact ⟨_, _, d.sendMsg_turns _ _ (by simpa using hout) hw hback, ringOf_portFor _ _, rfl⟩

/-- What a device originates on an interface with an up port leaves by one of its ports. -/
theorem Dev.originate_leaves (d : Dev) (p : Fin 4) (m : RingMsg) (hp : (d.skn.ports[p]).up = true) :
    ∃ q x, d.originate (ringOf p) m = d.putMsg q x ∧ ringOf q = ringOf p ∧ x.mtype = m.mtype ∧ x.dest = m.dest ∧
      x.payload = m.payload := by
  obtain ⟨q, x, hsend, hq, hx⟩ := d.sendMsg_leaves p
    { m with west := d.goesWest (ringOf p) (d.targetPos (ringOf p) m.dest), wrapped := false, ringB := decide (ringOf p = 1), hops := 0,
             src := d.nodeId (ringOf p) } hp rfl
  exact ⟨q, x, hsend, hq, by rw [hx], by rw [hx], by rw [hx]⟩

/-- A message at 255 hops is discarded (R463). -/
theorem Dev.forward_last (d : Dev) (p : Fin 4) (m : RingMsg) (h : 254 ≤ m.hops) : d.forward p m = d.discardMsg p := by
  simp only [Dev.forward]
  rw [if_pos (by omega)]

theorem Dev.forward_hop (d : Dev) (p : Fin 4) (m : RingMsg) (h : m.hops < 254) :
    d.forward p m = d.sendMsg (ringOf p) { m with hops := m.hops + 1 } := by
  simp only [Dev.forward]
  rw [if_neg (by omega)]

theorem Dev.ringOn_retimer (d : Dev) (r : Fin 2) (h : d.aon.tier[r] = .retimer) : d.ringOn r = false := by
  unfold Dev.ringOn
  rw [h]
  rfl

/-- In the retimer tier no message is the node's own. -/
theorem Dev.ringIn_retimer (d : Dev) (p : Fin 4) (h : d.aon.tier[ringOf p] = .retimer) : d.ringIn p = false := by
  rw [Dev.ringIn, d.ringOn_retimer _ h, Bool.false_and]

theorem Dev.retime_retimer (d : Dev) (p : Fin 4) (m : RingMsg) (h : d.aon.tier[ringOf p] = .retimer) :
    d.retime p m = d.putMsg (acrossPort p) m := by
  simp [Dev.retime, h]

theorem Dev.ringOn_ringIn (d : Dev) (p : Fin 4) (h : d.ringIn p = true) : d.ringOn (ringOf p) = true := by
  unfold Dev.ringIn at h
  simp_all

/-! ### A port that changes state (R466) -/

/-- A device that has no part on the interface, or no node ID there, tells nobody. -/
theorem Dev.linkChanged_untold (d : Dev) (p : Fin 4) (up : Bool) (h : d.ringOn (ringOf p) = false ∨ d.nodeId (ringOf p) = 0xFFFF) :
    d.linkChanged p up = d := by
  simp only [Dev.linkChanged]
  rw [if_pos (by simpa using h)]

/-- The head of the segment notes it itself. -/
theorem Dev.linkChanged_head (d : Dev) (p : Fin 4) (up : Bool) (h : d.ringOn (ringOf p) = true) (hid : d.nodeId (ringOf p) ≠ 0xFFFF)
    (hpos : posOf (d.nodeId (ringOf p)) = 0) :
    d.linkChanged p up = d.onSkn fun k => { k with enumDue := upd k.enumDue (ringOf p) fun _ => true } := by
  simp only [Dev.linkChanged]
  rw [if_neg (by simpa [h] using hid), if_pos hpos]

/-- Any other node with an ID tells the head by LINK_EVENT, where a port of the interface is up. -/
theorem Dev.linkChanged_tells (d : Dev) (p : Fin 4) (up : Bool) (h : d.ringIn p = true) (hid : d.nodeId (ringOf p) ≠ 0xFFFF)
    (hpos : posOf (d.nodeId (ringOf p)) ≠ 0) :
    ∃ q m, d.linkChanged p up = d.putMsg q m ∧ ringOf q = ringOf p ∧ m.mtype = 0x19 ∧
      m.dest = BitVec.ofNat 16 (segOf (d.nodeId (ringOf p)) * 256) ∧ m.payload = [BitVec.ofNat 8 p.val, if up then 1 else 0] := by
  simp only [Dev.linkChanged]
  rw [if_neg (by simpa [d.ringOn_ringIn p h] using hid), if_neg hpos]
  have hp : (d.skn.ports[p]).up = true := by unfold Dev.ringIn at h; simp_all
  obtain ⟨q, m, hsend, hq, hmtype, hdest, hpayload⟩ := d.originate_leaves p _ hp
  exact ⟨q, m, hsend, hq, hmtype, hdest, hpayload⟩

/-- A discarded message is counted on its port, and nothing else about the ports changes. -/
theorem Dev.discardMsg_port (d : Dev) (p q : Fin 4) :
    ∃ n, (d.discardMsg p).skn.ports[q] = { d.skn.ports[q] with discarded := n } ∧
      (q ≠ p → n = (d.skn.ports[q]).discarded) := by
  by_cases hq : q = p
  · subst hq
    exact ⟨_, upd_same .., fun h => absurd rfl h⟩
  · exact ⟨_, upd_other _ _ _ _ hq, fun _ => rfl⟩

/-- Sending a message changes at most the count of discarded messages, of a port of its interface. -/
theorem Dev.sendMsg_port (d : Dev) (r : Fin 2) (m : RingMsg) (q : Fin 4) :
    ∃ n, (d.sendMsg r m).skn.ports[q] = { d.skn.ports[q] with discarded := n } ∧
      (ringOf q ≠ r → n = (d.skn.ports[q]).discarded) := by
  have hput (e : Dev) (p : Fin 4) (x : RingMsg) (he : e = d.putMsg p x) :
      ∃ n, e.skn.ports[q] = { d.skn.ports[q] with discarded := n } ∧ (ringOf q ≠ r → n = (d.skn.ports[q]).discarded) :=
    ⟨_, he ▸ rfl, fun _ => rfl⟩
  have hdrop (e : Dev) (w : Bool) (he : e = d.discardMsg (portFor r w)) :
      ∃ n, e.skn.ports[q] = { d.skn.ports[q] with discarded := n } ∧ (ringOf q ≠ r → n = (d.skn.ports[q]).discarded) := by
    obtain ⟨n, hport, hn⟩ := d.discardMsg_port (portFor r w) q
    exact ⟨n, he ▸ hport, fun hr => hn fun hq => hr (by rw [hq, ringOf_portFor])⟩
  unfold Dev.sendMsg
  dsimp only
  split_ifs
  · exact hput _ _ _ rfl
  · exact hdrop _ _ rfl
  · exact hput _ _ _ rfl
  · exact hdrop _ _ rfl

theorem Dev.sendMsg_sys (d : Dev) (r : Fin 2) (m : RingMsg) : (d.sendMsg r m).sys = d.sys := by
  unfold Dev.sendMsg
  dsimp only
  split_ifs <;> rfl

theorem Dev.linkChanged_sys (d : Dev) (p : Fin 4) (up : Bool) : (d.linkChanged p up).sys = d.sys := by
  unfold Dev.linkChanged
  extract_lets r id
  by_cases hr : !d.ringOn r ∨ id = 0xFFFF
  · rw [if_pos hr]
  rw [if_neg hr]
  by_cases hp : posOf id = 0
  · rw [if_pos hp]
    rfl
  · rw [if_neg hp]
    exact d.sendMsg_sys _ _

/-- What a change of state leaves of the ports. -/
theorem Dev.linkChanged_port (d : Dev) (p q : Fin 4) (up : Bool) :
    ∃ n, (d.linkChanged p up).skn.ports[q] = { d.skn.ports[q] with discarded := n } ∧
      (ringOf q ≠ ringOf p → n = (d.skn.ports[q]).discarded) := by
  unfold Dev.linkChanged
  extract_lets r id
  by_cases hr : !d.ringOn r ∨ id = 0xFFFF
  · rw [if_pos hr]
    exact ⟨_, rfl, fun _ => rfl⟩
  rw [if_neg hr]
  by_cases hp : posOf id = 0
  · rw [if_pos hp]
    exact ⟨_, rfl, fun _ => rfl⟩
  · rw [if_neg hp]
    exact d.sendMsg_port _ _ _

/-- A command that changes the skein part alone, by a known effect. -/
theorem State.run_sknOnly (s : State) (f : Dev → Dev) (h : (f s.dev).SknOnly s.dev) :
    { (s.run f).dev.unreport s.dev with skn := s.dev.skn } = s.dev := h.settle


/-! ### Ports (R458, R459) -/

/-- The device with a port that has trained, before its node tells anybody. -/
def Dev.portTrained (d : Dev) (p : Fin 4) (c : EqCoeffs) : Dev :=
  let e := d.onRPort p fun x => { x with up := true, coeffs := some c, attempts := 0 }
  { e with jnl := { e.jnl with changed := true } }

/-- A trained port comes up and its node tells the head. -/
theorem ringPortUp_trains (d : Dev) (p : Fin 4) (c : EqCoeffs)
    (htier : d.aon.tier[ringOf p] = .retimer ∨ d.aon.tier[ringOf p] = .full) (hstop : d.skn.stopped = false)
    (hlane : d.laneServes (ringLane p) = true) (hdown : (d.skn.ports[p]).up = false) :
    ringPortUp p c d = (d.portTrained p c).linkChanged p true :=
  if_pos ⟨htier, by simp [hstop], hlane, by simpa using hdown⟩

/-- Of a port that has trained, the interface takes part where it is in full participation. -/
theorem Dev.portTrained_ringIn (d : Dev) (p : Fin 4) (c : EqCoeffs) (hstop : d.skn.stopped = false) :
    (d.portTrained p c).ringIn p = decide (d.aon.tier[ringOf p] = .full) := by
  have hup : ((d.portTrained p c).skn.ports[p]).up = true := congrArg RPort.up (upd_same _ _ _)
  show (decide (d.aon.tier[ringOf p] = .full) && !d.skn.stopped && ((d.portTrained p c).skn.ports[p]).up) = _
  rw [hup, hstop]
  simp

/-- RING_PORT_UP: the port is up with its coefficients, and the head of its segment learns it. -/
theorem exec_ringPortUp (s : State) (p : Fin 4) (c : EqCoeffs)
    (htier : s.dev.aon.tier[ringOf p] = .retimer ∨ s.dev.aon.tier[ringOf p] = .full) (hstop : s.dev.skn.stopped = false)
    (hlane : s.dev.laneServes (ringLane p) = true) (hdown : (s.dev.skn.ports[p]).up = false) :
    let k := s.dev.skn
    let r := ringOf p
    let id := s.dev.nodeId r
    ∃ t, exec (.ringPortUp p c) s = .next t ∧ t.mem = s.mem ∧
      t.dev.skn.ports = upd k.ports p (fun x => { x with up := true, coeffs := some c, attempts := 0 }) ∧
      (s.dev.aon.tier[r] = .retimer ∨ id = 0xFFFF → t.dev.skn.sent = k.sent) ∧
      (s.dev.aon.tier[r] = .full → id ≠ 0xFFFF → posOf id ≠ 0 →
        ∃ q m, t.dev.skn.sent = (q, m) :: k.sent ∧ ringOf q = r ∧ m.mtype = 0x19 ∧ m.dest = BitVec.ofNat 16 (segOf id * 256) ∧
          m.payload = [BitVec.ofNat 8 p.val, 1]) ∧
      (s.dev.aon.tier[r] = .full → id ≠ 0xFFFF → posOf id = 0 → t.dev.skn.enumDue[r] = true ∧ t.dev.skn.sent = k.sent) ∧
      { t.dev.unreport s.dev with skn := k } = s.dev := by
  intro k r id
  have heq := ringPortUp_trains s.dev p c htier hstop hlane hdown
  have honly : (s.dev.portTrained p c).SknOnly s.dev := ((Dev.SknOnly.self s.dev).onRPort p _).jnlChanged
  have hin := s.dev.portTrained_ringIn p c hstop
  refine ⟨s.run (ringPortUp p c), rfl, rfl, ?_⟩
  rw [← and_assoc, ← and_assoc, ← and_assoc]
  refine ⟨?_, s.run_sknOnly _ (by rw [heq]; exact honly.linkChanged p true)⟩
  rw [State.run_dev, Dev.settle_skn, heq]
  by_cases hid : s.dev.aon.tier[r] = .retimer ∨ id = 0xFFFF
  · have hno : s.dev.aon.tier[r] = .full → id ≠ 0xFFFF → False := fun hfull hne => by
      rcases hid with hret | h
      · rw [hret] at hfull
        cases hfull
      · exact hne h
    rw [Dev.linkChanged_untold (s.dev.portTrained p c) p true (hid.imp_left (Dev.ringOn_retimer s.dev r))]
    exact ⟨⟨⟨rfl, fun _ => rfl⟩, fun hfull hne => (hno hfull hne).elim⟩, fun hfull hne => (hno hfull hne).elim⟩
  obtain ⟨hret, hne⟩ := not_or.mp hid
  have hfull : s.dev.aon.tier[r] = .full := htier.resolve_left hret
  have hin' : (s.dev.portTrained p c).ringIn p = true := by rw [hin, decide_eq_true hfull]
  by_cases hpos : posOf id = 0
  · rw [Dev.linkChanged_head _ _ _ (Dev.ringOn_ringIn _ _ hin') hne hpos]
    exact ⟨⟨⟨rfl, fun _ => rfl⟩, fun _ _ h => absurd hpos h⟩, fun _ _ _ => ⟨upd_same _ _ _, rfl⟩⟩
  · obtain ⟨q, m, hsend, hm⟩ := Dev.linkChanged_tells _ _ true hin' hne hpos
    rw [hsend]
    exact ⟨⟨⟨rfl, fun h => absurd h hid⟩, fun _ _ _ => ⟨q, m, rfl, hm⟩⟩, fun _ _ h => absurd h hpos⟩


/-- A port that goes down: what it loses, and what its interface alone may count. -/
theorem Dev.ringDown_port (d : Dev) (p q : Fin 4) (hup : (d.skn.ports[p]).up = true) :
    let f : RPort → RPort := fun x => { x with up := false, ldlyT1 := none, delays := [] }
    ∃ n, (d.ringDown p).skn.ports[q] = { (upd d.skn.ports p f)[q] with discarded := n } ∧
      (ringOf q ≠ ringOf p → n = ((upd d.skn.ports p f)[q]).discarded) := by
  intro f
  have heq : d.ringDown p = ((d.onRPort p f).raise 21 p.val 0).linkChanged p false := if_pos hup
  have hports : ((d.onRPort p f).raise 21 p.val 0).skn.ports = upd d.skn.ports p f := congrArg Skn.ports (Dev.raise_skn _ _ _ _)
  rw [heq, ← hports]
  exact Dev.linkChanged_port _ _ _ _

theorem Dev.ringDown_reported (d : Dev) (p : Fin 4) (hup : (d.skn.ports[p]).up = true) :
    (d.ringDown p).sys.fault.getLsbD 21 = true := by
  unfold Dev.ringDown
  rw [if_pos hup, Dev.linkChanged_sys]
  exact Dev.raise_sets _ _ _ _ (by decide)

/-- RING_PORT_LOSS: the port is down, reported, and has lost its link delays. -/
theorem exec_ringPortLoss (s : State) (p : Fin 4) (hup : (s.dev.skn.ports[p]).up = true) :
    let k := s.dev.skn
    ∃ t, exec (.ringPortLoss p) s = .next t ∧ t.mem = s.mem ∧ t.dev.sys.fault.getLsbD 21 = true ∧ (t.dev.skn.ports[p]).up = false ∧
      (t.dev.skn.ports[p]).delays = [] ∧ (t.dev.skn.ports[p]).coeffs = (k.ports[p]).coeffs ∧
      (∀ q : Fin 4, ringOf q ≠ ringOf p → t.dev.skn.ports[q] = k.ports[q]) ∧ { t.dev.unreport s.dev with skn := k } = s.dev := by
  intro k
  obtain ⟨n, hp, -⟩ := s.dev.ringDown_port p p hup
  have hother (q : Fin 4) (hq : ringOf q ≠ ringOf p) : (s.dev.ringDown p).skn.ports[q] = k.ports[q] := by
    obtain ⟨m, hport, hm⟩ := s.dev.ringDown_port p q hup
    rw [hport, hm hq, upd_other _ _ _ _ fun h => hq (by rw [h])]
  rw [upd_same] at hp
  have hbit : (s.run fun d => d.ringDown p).dev.sys.fault.getLsbD 21 = true :=
    Dev.settle_keeps (s.dev.ringDown p) 21 (s.dev.ringDown_reported p hup)
  refine ⟨s.run fun d => d.ringDown p, rfl, rfl, hbit, ?_⟩
  rw [← and_assoc, ← and_assoc, ← and_assoc]
  refine ⟨?_, s.run_sknOnly _ ((Dev.SknOnly.self s.dev).ringDown p)⟩
  rw [State.run_dev, Dev.settle_skn]
  exact ⟨⟨⟨congrArg RPort.up hp, congrArg RPort.delays hp⟩, (congrArg RPort.coeffs hp).trans rfl⟩, hother⟩

/-- The skein part after a command whose effect on the registers is known. -/
theorem State.run_skn (s : State) (f : Dev → Dev) (e : Dev) (h : f s.dev = e) : (s.run f).dev.skn = e.skn := by
  rw [State.run_dev, Dev.settle_skn, h]

/-- RING_PORT_RETRY: an attempt is counted. -/
theorem exec_ringPortRetry (s : State) (p : Fin 4) (hdown : (s.dev.skn.ports[p]).up = false) :
    let k := s.dev.skn
    ∃ t, exec (.ringPortRetry p) s = .next t ∧ t.mem = s.mem ∧
      t.dev.skn = { k with ports := upd k.ports p fun x => { x with attempts := x.attempts + 1 } } ∧
      { t.dev.unreport s.dev with skn := k } = s.dev := by
  intro k
  have heq : ringPortRetry p s.dev = s.dev.onRPort p fun x => { x with attempts := x.attempts + 1 } :=
    if_neg (ne_true_of_eq_false hdown)
  exact ⟨_, rfl, rfl, s.run_skn _ _ heq, s.run_sknOnly _ (by rw [heq]; exact (Dev.SknOnly.self _).onRPort _ _)⟩

/-! ### Link delay (R459) -/

/-- LDLY_SEND: the port asks, and notes when. -/
theorem exec_ldlySend (s : State) (p : Fin 4) (hin : s.dev.ringIn p = true) :
    let k := s.dev.skn
    ∃ t m, exec (.ldlySend p) s = .next t ∧ t.mem = s.mem ∧
      t.dev.skn = { k with ports := upd k.ports p (fun x => { x with ldlyT1 := some s.dev.w0 }), sent := (p, m) :: k.sent } ∧
      m.mtype = 0x11 ∧ m.len = 0 ∧ { t.dev.unreport s.dev with skn := k } = s.dev := by
  intro k
  let d1 := s.dev.onRPort p fun x => { x with ldlyT1 := some s.dev.w0 }
  have heq : ldlySend p s.dev = d1.putMsg p (hopMsg p ⟨d1.nodeId (ringOf p), 0⟩ 0x11 []) := if_pos hin
  exact ⟨_, _, rfl, rfl, s.run_skn _ _ heq, rfl, rfl,
    s.run_sknOnly _ (by rw [heq]; exact ((Dev.SknOnly.self _).onRPort _ _).putMsg _ _)⟩

/-- LDLY_REQ: answered with t2 and t3. -/
theorem exec_ldlyReq (s : State) (p : Fin 4) (q : RingMsg) (hin : s.dev.ringIn p = true) :
    let k := s.dev.skn
    ∃ t m, exec (.ldlyReq p q) s = .next t ∧ t.mem = s.mem ∧ t.dev.skn = { k with sent := (p, m) :: k.sent } ∧
      m.mtype = 0x12 ∧ m.payload = le 8 s.dev.w0 ++ le 8 s.dev.w0 ∧ { t.dev.unreport s.dev with skn := k } = s.dev := by
  intro k
  have heq : ldlyReq p q s.dev = s.dev.linkMsg p 0x12 (le 8 s.dev.w0 ++ le 8 s.dev.w0) := if_pos hin
  exact ⟨_, _, rfl, rfl, s.run_skn _ _ heq, rfl, rfl, s.run_sknOnly _ (by rw [heq]; exact (Dev.SknOnly.self _).putMsg _ _)⟩

/-- LDLY_RESP: one measurement, the last eight kept. -/
theorem exec_ldlyResp (s : State) (p : Fin 4) (head : MsgHead) (t1 t2 t3 : Nat) (hin : s.dev.ringIn p = true)
    (ht1 : (s.dev.skn.ports[p]).ldlyT1 = some t1) :
    let k := s.dev.skn
    ∃ t, exec (.ldlyResp ⟨p, head⟩ t2 t3) s = .next t ∧ t.mem = s.mem ∧
      t.dev.skn = { k with ports := upd k.ports p fun x =>
        { x with ldlyT1 := none, delays := (((s.dev.w0 : Int) - t1 - (t3 - t2)) :: x.delays).take 8 } } ∧
      { t.dev.unreport s.dev with skn := k } = s.dev := by
  intro k
  have heq : ldlyResp p head t2 t3 s.dev = s.dev.onRPort p fun x =>
      { x with ldlyT1 := none, delays := (((s.dev.w0 : Int) - t1 - (t3 - t2)) :: x.delays).take 8 } := by
    unfold ldlyResp
    rw [if_pos hin, ht1]
  exact ⟨_, rfl, rfl, s.run_skn _ _ heq, s.run_sknOnly _ (by rw [heq]; exact (Dev.SknOnly.self _).onRPort _ _)⟩

/-! ### Transit (R463 to R465, R475; 03 R109) -/

/-- The retimer tier passes a message to the opposite port, whatever the command that brings it. -/
theorem State.run_retimes (s : State) (p : Fin 4) (m : RingMsg) (f : Dev → Dev) (h : s.dev.aon.tier[ringOf p] = .retimer)
    (hf : f s.dev = s.dev.retime p m) :
    (s.run f).mem = s.mem ∧ (s.run f).dev.skn = { s.dev.skn with sent := (acrossPort p, m) :: s.dev.skn.sent } ∧
      { (s.run f).dev.unreport s.dev with skn := s.dev.skn } = s.dev := by
  have heq : f s.dev = s.dev.putMsg (acrossPort p) m := hf.trans (s.dev.retime_retimer p m h)
  exact ⟨rfl, s.run_skn _ _ heq, s.run_sknOnly _ (by rw [heq]; exact (Dev.SknOnly.self _).putMsg _ _)⟩

theorem ringTransit_retimer (d : Dev) (p : Fin 4) (m : RingMsg) (res : Nat) (h : d.aon.tier[ringOf p] = .retimer) :
    ringTransit p m res d = d.retime p (addCorr m res) :=
  if_neg (ne_true_of_eq_false (d.ringIn_retimer p h))

theorem ldlyReq_retimer (d : Dev) (p : Fin 4) (m : RingMsg) (h : d.aon.tier[ringOf p] = .retimer) :
    ldlyReq p m d = d.retime p m :=
  if_neg (ne_true_of_eq_false (d.ringIn_retimer p h))

theorem ldlyResp_retimer (d : Dev) (p : Fin 4) (head : MsgHead) (t2 t3 : Nat) (h : d.aon.tier[ringOf p] = .retimer) :
    ldlyResp p head t2 t3 d = d.retime p (hopMsg (acrossPort p) head 0x12 (le 8 t2 ++ le 8 t3)) :=
  if_neg (ne_true_of_eq_false (d.ringIn_retimer p h))

/-- A junction holds a message for its other interface (R465). -/
def Dev.crosses (d : Dev) (r : Fin 2) (m : RingMsg) : Bool :=
  let below := d.inSubtree (segOf (d.nodeId 1)) (segOf m.dest)
  d.skn.junction && decide (segOf m.dest ≠ segOf (d.nodeId r)) && (if r = 0 then below else !below)

theorem ringTransit_stays (d : Dev) (p : Fin 4) (m : RingMsg) (res : Nat) (hin : d.ringIn p = true)
    (hc : d.crosses (ringOf p) m = false) : ringTransit p m res d = d.forward p m := by
  unfold ringTransit Dev.passOn
  rw [if_pos hin]
  exact if_neg (ne_true_of_eq_false hc)

theorem ringTransit_crosses (d : Dev) (p : Fin 4) (m : RingMsg) (res : Nat) (hin : d.ringIn p = true)
    (hc : d.crosses (ringOf p) m = true) (hchild : ringOf p = 0 → d.skn.enumd[1] = true) :
    ringTransit p m res d = d.sendMsg (if ringOf p = 0 then 1 else 0) { m with hops := 0 } := by
  have hopen : ¬(ringOf p = 0 ∧ (!d.skn.enumd[1]) = true) := fun ⟨h0, h⟩ => by simp [hchild h0] at h
  unfold ringTransit Dev.passOn
  rw [if_pos hin]
  exact (if_pos hc).trans (if_neg hopen)

/-- A request for a child segment that is not enumerated is answered by its junction (R475). -/
theorem ringTransit_unenumerated (d : Dev) (p : Fin 4) (m : RingMsg) (res : Nat) (hin : d.ringIn p = true)
    (hc : d.crosses (ringOf p) m = true) (h0 : ringOf p = 0) (hchild : d.skn.enumd[1] = false) (hreq : isRequest m = true) :
    ringTransit p m res d = d.reply 0 m (if m.mtype = 3 then 6 else 4) 1 0 [] := by
  unfold ringTransit Dev.passOn
  rw [if_pos hin]
  exact (if_pos hc).trans ((if_pos ⟨h0, by simp [hchild]⟩).trans (if_pos hreq))

/-- RING_TRANSIT at a node that does not move the message to its other interface. -/
theorem exec_ringTransit_stays (s : State) (p : Fin 4) (m : RingMsg) (res : Nat) (hin : s.dev.ringIn p = true)
    (hc : s.dev.crosses (ringOf p) m = false) :
    let k := s.dev.skn
    let out := portFor (ringOf p) m.west
    let back := portFor (ringOf p) !m.west
    ∃ t, exec (.ringTransit p m res) s = .next t ∧ t.mem = s.mem ∧ { t.dev.unreport s.dev with skn := k } = s.dev ∧
      (254 ≤ m.hops → t.dev.skn = { k with ports := upd k.ports p fun x => { x with discarded := satAdd x.discarded 1 } }) ∧
      (m.hops < 254 → (k.ports[out]).up = true → t.dev.skn = { k with sent := (out, { m with hops := m.hops + 1 }) :: k.sent }) ∧
      (m.hops < 254 → (k.ports[out]).up = false → m.wrapped = false → (k.ports[back]).up = true →
        t.dev.skn = { k with sent := (back, { m with west := !m.west, wrapped := true, hops := 0 }) :: k.sent }) ∧
      (m.hops < 254 → (k.ports[out]).up = false → m.wrapped = true →
        t.dev.skn = { k with ports := upd k.ports out fun x => { x with discarded := satAdd x.discarded 1 } }) := by
  intro k out back
  have hfwd := ringTransit_stays s.dev p m res hin hc
  have hhop (h : m.hops < 254) := hfwd.trans (s.dev.forward_hop p m h)
  refine ⟨s.run (ringTransit p m res), rfl, rfl,
    s.run_sknOnly _ (by rw [hfwd]; exact (Dev.SknOnly.self _).forward _ _), fun hlast => ?_, fun h hout => ?_,
    fun h hout hw hback => ?_, fun h hout hw => ?_⟩
  · exact s.run_skn _ _ (hfwd.trans (s.dev.forward_last p m hlast))
  · exact s.run_skn _ _ ((hhop h).trans (s.dev.sendMsg_up _ _ hout))
  · exact s.run_skn _ _ ((hhop h).trans (s.dev.sendMsg_turns _ _ hout hw hback))
  · exact s.run_skn _ _ ((hhop h).trans (s.dev.sendMsg_ends _ _ hout hw))

/-- RING_TRANSIT at a junction that moves the message to its other interface. -/
theorem exec_ringTransit_crosses (s : State) (p : Fin 4) (m : RingMsg) (res : Nat) (hin : s.dev.ringIn p = true)
    (hc : s.dev.crosses (ringOf p) m = true) (hchild : ringOf p = 0 → s.dev.skn.enumd[1] = true) :
    let k := s.dev.skn
    let q := portFor (if ringOf p = 0 then 1 else 0) m.west
    (k.ports[q]).up = true →
    ∃ t, exec (.ringTransit p m res) s = .next t ∧ t.mem = s.mem ∧ t.dev.skn = { k with sent := (q, { m with hops := 0 }) :: k.sent } ∧
      { t.dev.unreport s.dev with skn := k } = s.dev := by
  intro k q hup
  have heq : ringTransit p m res s.dev = s.dev.putMsg q { m with hops := 0 } :=
    (ringTransit_crosses s.dev p m res hin hc hchild).trans (s.dev.sendMsg_up _ _ hup)
  exact ⟨_, rfl, rfl, s.run_skn _ _ heq, s.run_sknOnly _ (by rw [heq]; exact (Dev.SknOnly.self _).putMsg _ _)⟩

/-- RING_TRANSIT of a request at the junction of an unenumerated child. -/
theorem exec_ringTransit_unenumerated (s : State) (p : Fin 4) (m : RingMsg) (res : Nat) (hin : s.dev.ringIn p = true)
    (hc : s.dev.crosses (ringOf p) m = true) (h0 : ringOf p = 0) (hchild : s.dev.skn.enumd[1] = false)
    (hreq : m.mtype = 1 ∨ m.mtype = 2 ∨ m.mtype = 3 ∨ m.mtype = 8) :
    let k := s.dev.skn
    let q := portFor 0 (s.dev.goesWest 0 (s.dev.targetPos 0 m.src))
    (k.ports[q]).up = true →
    ∃ t x, exec (.ringTransit p m res) s = .next t ∧ t.mem = s.mem ∧ t.dev.skn = { k with sent := (q, x) :: k.sent } ∧
      x.mtype = (if m.mtype = 3 then 6 else 4) ∧ x.code = 1 ∧ x.dest = m.src ∧ x.src = s.dev.nodeId 0 ∧ x.tag = m.tag ∧
      { t.dev.unreport s.dev with skn := k } = s.dev := by
  intro k q hup
  have hreply := ringTransit_unenumerated s.dev p m res hin hc h0 hchild (decide_eq_true hreq)
  have hsend := s.dev.sendMsg_up 0
    { m with mtype := if m.mtype = 3 then 6 else 4, dest := m.src, len := 0, code := (1 : BitVec 4).zeroExtend 8, detail := 0,
             payload := [], west := s.dev.goesWest 0 (s.dev.targetPos 0 m.src), wrapped := false, ringB := false, hops := 0,
             src := s.dev.nodeId 0 } hup
  have heq := hreply.trans hsend
  exact ⟨_, _, rfl, rfl, s.run_skn _ _ heq, rfl, rfl, rfl, rfl, rfl,
    s.run_sknOnly _ (by rw [heq]; exact (Dev.SknOnly.self _).putMsg _ _)⟩

/-- Settles O47: each command runs one effect of the skein part, which the lemmas above compute; the frame follows from that part alone
being touched. -/
theorem ringPorts : Obligations.RingPorts := by
  intro s p k r id
  refine ⟨exec_ringPortUp s p, exec_ringPortLoss s p, exec_ringPortRetry s p, fun hin => ?_, fun hret => ?_, fun m res => ?_⟩
  · exact ⟨exec_ldlySend s p hin, fun q => exec_ldlyReq s p q hin, fun head t1 t2 t3 ht1 => exec_ldlyResp s p head t1 t2 t3 hin ht1⟩
  · intro Passes
    refine ⟨fun m res hm => ⟨_, rfl, ?_⟩, fun m res hm => ⟨_, rfl, ?_⟩, fun m => ⟨_, rfl, ?_⟩, 
      fun head t2 t3 => ⟨_, hopMsg (acrossPort p) head 0x12 (le 8 t2 ++ le 8 t3), rfl, ?_, rfl, rfl, rfl, rfl⟩⟩
    · exact s.run_retimes p m _ hret ((ringTransit_retimer s.dev p m res hret).trans (congrArg _ (if_neg hm)))
    · exact s.run_retimes p _ _ hret ((ringTransit_retimer s.dev p m res hret).trans (congrArg _ (if_pos hm)))
    · exact s.run_retimes p m _ hret (ldlyReq_retimer s.dev p m hret)
    · exact s.run_retimes p _ _ hret (ldlyResp_retimer s.dev p head t2 t3 hret)
  · exact ⟨exec_ringTransit_stays s p m res, fun hin hc hchild => exec_ringTransit_crosses s p m res hin hc hchild,
      fun hin hc h0 hchild hreq => exec_ringTransit_unenumerated s p m res hin hc h0 hchild hreq⟩

end Sys2Proof.Machine
end

section
/-! SUPPORT. Ring time and enumeration (13 R457, R466 to R469; 12 R430 to R433). -/

namespace Sys2Proof.Machine

/-! ### What sending a message leaves as it is -/

/-- What neither a message on a port nor a discarded one changes, sending does not change. -/
theorem Dev.sendMsg_keeps {α : Type} (g : Dev → α) (d : Dev) (r : Fin 2) (m : RingMsg) (hput : ∀ p x, g (d.putMsg p x) = g d)
    (hdrop : ∀ p, g (d.discardMsg p) = g d) : g (d.sendMsg r m) = g d := by
  unfold Dev.sendMsg
  dsimp only
  split_ifs
  · exact hput _ _
  · exact hdrop _
  · exact hput _ _
  · exact hdrop _

/-- What neither a message on a port nor a discarded one changes, forwarding does not change. -/
theorem Dev.forward_keeps {α : Type} (g : Dev → α) (d : Dev) (p : Fin 4) (m : RingMsg) (hput : ∀ p x, g (d.putMsg p x) = g d)
    (hdrop : ∀ p, g (d.discardMsg p) = g d) : g (d.forward p m) = g d := by
  unfold Dev.forward
  split_ifs
  · exact hdrop _
  · exact d.sendMsg_keeps g _ _ hput hdrop

/-- A message short of its last hop leaves by an up port. -/
theorem Dev.forward_up (d : Dev) (p : Fin 4) (m : RingMsg) (h : m.hops < 254) (hup : (d.skn.ports[portFor (ringOf p) m.west]).up = true) :
    d.forward p m = d.putMsg (portFor (ringOf p) m.west) { m with hops := m.hops + 1 } :=
  (d.forward_hop p m h).trans (d.sendMsg_up _ _ hup)

/-! ### TIME messages (R468; 12 R430, R433) -/

namespace Dev.SknOnly

variable {e d : Dev}

theorem ringStamp (h : e.SknOnly d) (p : Fin 4) (seq : Nat) : (e.ringStamp p seq).SknOnly d := by
  unfold Dev.ringStamp
  split_ifs
  · exact h.onRPort _ _
  · exact h

theorem sendTime (h : e.SknOnly d) (p : Fin 4) (head : MsgHead) (t : TimeMsg) : (e.sendTime p head t).SknOnly d := by
  unfold Dev.sendTime
  split_ifs
  · exact (h.putMsg _ _).ringStamp _ _
  · exact h

end Dev.SknOnly

/-- A stamp in queue mode touches the port's queue alone: no message leaves and no port changes its state. -/
theorem Dev.ringStamp_frame (d : Dev) (p q : Fin 4) (seq : Nat) :
    (d.ringStamp p seq).skn.sent = d.skn.sent ∧ (d.ringStamp p seq).skn.timeSeq = d.skn.timeSeq ∧
      (d.ringStamp p seq).skn.follow = d.skn.follow ∧ ((d.ringStamp p seq).skn.ports[q]).up = (d.skn.ports[q]).up ∧
      (d.ringStamp p seq).whl = d.whl := by
  unfold Dev.ringStamp
  split_ifs
  · refine ⟨rfl, rfl, rfl, ?_, rfl⟩
    simp only [Dev.onRPort, Dev.onSkn_skn]
    by_cases hq : q = p
    · subst hq
      rw [upd_same]
      split_ifs <;> rfl
    · rw [upd_other _ _ _ _ hq]
  · exact ⟨rfl, rfl, rfl, rfl, rfl⟩

theorem Dev.sendTime_down (d : Dev) (p : Fin 4) (head : MsgHead) (t : TimeMsg) (h : (d.skn.ports[p]).up = false) :
    d.sendTime p head t = d := if_neg (ne_true_of_eq_false h)

theorem Dev.sendTime_up (d : Dev) (p : Fin 4) (head : MsgHead) (t : TimeMsg) (h : (d.skn.ports[p]).up = true) :
    d.sendTime p head t = (d.putMsg p (hopMsg p head 0x10 (timeBytes t))).ringStamp p t.seq := if_pos h

/-- The message a port sends, where it is up. -/
def Dev.timeOut (d : Dev) (p : Fin 4) (head : MsgHead) (t : TimeMsg) : List (Fin 4 × RingMsg) :=
  if (d.skn.ports[p]).up then [(p, hopMsg p head 0x10 (timeBytes t))] else []

/-- What a TIME message on a port changes: the messages sent, and nothing of the port states, the sequence and the originator
followed. -/
theorem Dev.sendTime_frame (d : Dev) (p q : Fin 4) (head : MsgHead) (t : TimeMsg) :
    (d.sendTime p head t).skn.sent = d.timeOut p head t ++ d.skn.sent ∧ (d.sendTime p head t).skn.timeSeq = d.skn.timeSeq ∧
      (d.sendTime p head t).skn.follow = d.skn.follow ∧ ((d.sendTime p head t).skn.ports[q]).up = (d.skn.ports[q]).up ∧
      (d.sendTime p head t).whl = d.whl := by
  unfold Dev.timeOut
  cases hup : (d.skn.ports[p]).up
  · rw [d.sendTime_down p head t hup]
    exact ⟨rfl, rfl, rfl, rfl, rfl⟩
  · rw [d.sendTime_up p head t hup]
    exact (d.putMsg p _).ringStamp_frame p q t.seq

/-- A TIME message in both directions of an interface. -/
def Dev.sendTimes (d : Dev) (r : Fin 2) (head : MsgHead) (t : TimeMsg) : Dev :=
  (d.sendTime (portFor r false) head t).sendTime (portFor r true) head t

/-- What an interface sends in both directions. -/
def Dev.timesOut (d : Dev) (r : Fin 2) (head : MsgHead) (t : TimeMsg) : List (Fin 4 × RingMsg) :=
  d.timeOut (portFor r true) head t ++ d.timeOut (portFor r false) head t

theorem Dev.timeOut_congr (d e : Dev) (p : Fin 4) (head : MsgHead) (t : TimeMsg) (h : (e.skn.ports[p]).up = (d.skn.ports[p]).up) :
    e.timeOut p head t = d.timeOut p head t := by
  unfold Dev.timeOut
  rw [h]

theorem Dev.sendTimes_frame (d : Dev) (r : Fin 2) (q : Fin 4) (head : MsgHead) (t : TimeMsg) :
    (d.sendTimes r head t).skn.sent = d.timesOut r head t ++ d.skn.sent ∧ (d.sendTimes r head t).skn.timeSeq = d.skn.timeSeq ∧
      ((d.sendTimes r head t).skn.ports[q]).up = (d.skn.ports[q]).up := by
  let e := d.sendTime (portFor r false) head t
  obtain ⟨hsent1, hseq1, -, hup1, -⟩ := d.sendTime_frame (portFor r false) q head t
  obtain ⟨-, -, -, hwest, -⟩ := d.sendTime_frame (portFor r false) (portFor r true) head t
  obtain ⟨hsent2, hseq2, -, hup2, -⟩ := e.sendTime_frame (portFor r true) q head t
  refine ⟨?_, hseq2.trans hseq1, hup2.trans hup1⟩
  show (e.sendTime (portFor r true) head t).skn.sent = _
  rw [hsent2, Dev.timeOut_congr d e _ _ _ hwest, hsent1, Dev.timesOut, List.append_assoc]

/-- Each up port of the interface sends. -/
theorem Dev.mem_timesOut (d : Dev) (r : Fin 2) (west : Bool) (head : MsgHead) (t : TimeMsg)
    (h : (d.skn.ports[portFor r west]).up = true) :
    (portFor r west, hopMsg (portFor r west) head 0x10 (timeBytes t)) ∈ d.timesOut r head t := by
  have hone : (portFor r west, hopMsg (portFor r west) head 0x10 (timeBytes t)) ∈ d.timeOut (portFor r west) head t := by
    unfold Dev.timeOut
    rw [if_pos h]
    exact List.mem_singleton_self _
  cases west
  · exact List.mem_append_right _ hone
  · exact List.mem_append_left _ hone

/-- Only the up ports of the interface send. -/
theorem Dev.of_mem_timesOut (d : Dev) (r : Fin 2) (head : MsgHead) (t : TimeMsg) (x : Fin 4 × RingMsg)
    (h : x ∈ d.timesOut r head t) : ringOf x.1 = r ∧ (d.skn.ports[x.1]).up = true := by
  have hone (w : Bool) (hw : x ∈ d.timeOut (portFor r w) head t) : ringOf x.1 = r ∧ (d.skn.ports[x.1]).up = true := by
    unfold Dev.timeOut at hw
    split_ifs at hw with hup
    · obtain rfl := List.mem_singleton.mp hw
      exact ⟨ringOf_portFor r w, hup⟩
    · cases hw
  exact (List.mem_append.mp h).elim (hone true) (hone false)

/-! ### Origination (R468, R469) -/

/-- The TIME message of an originator. -/
def Dev.originTime (d : Dev) (r : Fin 2) : TimeMsg := ⟨d.whl.timeNow 2, 0, d.nodeId r, 0, d.whl.quality 2, d.skn.timeSeq⟩

/-- Origination on one interface, from the values that `d` has. -/
def Dev.originOn (d e : Dev) (r : Fin 2) : Dev :=
  if d.timeOrigin r then e.sendTimes r ⟨d.nodeId r, 0⟩ (d.originTime r) else e

/-- What an interface originates. -/
def Dev.originOut (d : Dev) (r : Fin 2) : List (Fin 4 × RingMsg) :=
  if d.timeOrigin r then d.timesOut r ⟨d.nodeId r, 0⟩ (d.originTime r) else []

theorem timeOriginate_sends (d : Dev) (h : d.timeOrigin 0 = true ∨ d.timeOrigin 1 = true) :
    timeOriginate d = (d.originOn (d.originOn d 0) 1).onSkn fun k => { k with timeSeq := (k.timeSeq + 1) % 2 ^ 32 } :=
  if_pos ((Bool.or_eq_true _ _).mpr h)

theorem Dev.SknOnly.originOn {e d : Dev} (h : e.SknOnly d) (r : Fin 2) : (d.originOn e r).SknOnly d := by
  unfold Dev.originOn
  split_ifs
  · exact (h.sendTime _ _ _).sendTime _ _ _
  · exact h

theorem Dev.originOn_frame (d e : Dev) (r : Fin 2) (q : Fin 4) (hup : ∀ q : Fin 4, (e.skn.ports[q]).up = (d.skn.ports[q]).up) :
    (d.originOn e r).skn.sent = d.originOut r ++ e.skn.sent ∧ (d.originOn e r).skn.timeSeq = e.skn.timeSeq ∧
      ((d.originOn e r).skn.ports[q]).up = (d.skn.ports[q]).up := by
  unfold Dev.originOn Dev.originOut
  split_ifs
  · obtain ⟨hsent, hseq, hports⟩ := e.sendTimes_frame r q ⟨d.nodeId r, 0⟩ (d.originTime r)
    refine ⟨hsent.trans ?_, hseq, hports.trans (hup q)⟩
    unfold Dev.timesOut
    rw [Dev.timeOut_congr d e _ _ _ (hup _), Dev.timeOut_congr d e _ _ _ (hup _)]
  · exact ⟨rfl, rfl, hup q⟩

theorem Dev.mem_originOut (d : Dev) (r : Fin 2) (west : Bool) (ho : d.timeOrigin r = true)
    (hup : (d.skn.ports[portFor r west]).up = true) :
    (portFor r west, hopMsg (portFor r west) ⟨d.nodeId r, 0⟩ 0x10 (timeBytes (d.originTime r))) ∈ d.originOut r := by
  unfold Dev.originOut
  rw [if_pos ho]
  exact d.mem_timesOut r west _ _ hup

theorem Dev.of_mem_originOut (d : Dev) (r : Fin 2) (x : Fin 4 × RingMsg) (h : x ∈ d.originOut r) :
    d.timeOrigin (ringOf x.1) = true ∧ (d.skn.ports[x.1]).up = true := by
  unfold Dev.originOut at h
  split_ifs at h with ho
  · obtain ⟨hr, hup⟩ := d.of_mem_timesOut r _ _ x h
    exact ⟨hr ▸ ho, hup⟩
  · cases h

/-- TIME_ORIGINATE: the node's ring time goes out in both directions on the interfaces where it originates it. -/
theorem exec_timeOriginate (s : State) (h : s.dev.timeOrigin 0 = true ∨ s.dev.timeOrigin 1 = true) :
    let k := s.dev.skn
    let w := s.dev.whl
    ∃ t l, exec .timeOriginate s = .next t ∧ t.mem = s.mem ∧ t.dev.skn.timeSeq = (k.timeSeq + 1) % 2 ^ 32 ∧ t.dev.skn.sent = l ++ k.sent ∧
      (∀ r west, s.dev.timeOrigin r = true → (k.ports[portFor r west]).up = true → ∃ m, (portFor r west, m) ∈ l ∧ m.mtype = 0x10 ∧
        m.payload = timeBytes ⟨w.timeNow 2, 0, s.dev.nodeId r, 0, w.quality 2, k.timeSeq⟩) ∧
      (∀ x ∈ l, s.dev.timeOrigin (ringOf x.1) = true ∧ (k.ports[x.1]).up = true) ∧ { t.dev.unreport s.dev with skn := k } = s.dev := by
  intro k w
  let e := s.dev.originOn s.dev 0
  have hfirst (q : Fin 4) := s.dev.originOn_frame s.dev 0 q fun _ => rfl
  obtain ⟨hsent1, hseq1, -⟩ := hfirst 0
  obtain ⟨hsent2, hseq2, -⟩ := s.dev.originOn_frame e 1 0 fun q => (hfirst q).2.2
  have heq := timeOriginate_sends s.dev h
  have hskn := s.run_skn _ _ heq
  refine ⟨s.run timeOriginate, s.dev.originOut 1 ++ s.dev.originOut 0, rfl, rfl, ?_, ?_, fun r west ho hup => ?_, fun x hx => ?_, ?_⟩
  · rw [hskn]
    show ((s.dev.originOn e 1).skn.timeSeq + 1) % 2 ^ 32 = _
    rw [hseq2, hseq1]
  · rw [hskn]
    show (s.dev.originOn e 1).skn.sent = _
    rw [hsent2, hsent1, List.append_assoc]
  · refine ⟨hopMsg (portFor r west) ⟨s.dev.nodeId r, 0⟩ 0x10 (timeBytes (s.dev.originTime r)), ?_, rfl, rfl⟩
    have hmem := s.dev.mem_originOut r west ho hup
    match r with
    | 0 => exact List.mem_append_right _ hmem
    | 1 => exact List.mem_append_left _ hmem
  · exact (List.mem_append.mp hx).elim (s.dev.of_mem_originOut 1 x) (s.dev.of_mem_originOut 0 x)
  · exact s.run_sknOnly _ (by rw [heq]; exact (((Dev.SknOnly.self _).originOn 0).originOn 1).onSkn _)

/-! ### A TIME message on its way (R468, R469; 12 R430, R431; 03 R109) -/

/-- A TIME message ends at its origin. -/
theorem timeMsg_own (d : Dev) (p : Fin 4) (head : MsgHead) (x : TimeMsg) (res : Nat) (hin : d.ringIn p = true)
    (hme : d.isMe x.node = true) : timeMsg p head x res d = d := by
  unfold timeMsg
  dsimp only
  rw [if_pos hin, if_pos hme]

theorem timeMsg_retimer (d : Dev) (p : Fin 4) (head : MsgHead) (x : TimeMsg) (res : Nat) (h : d.aon.tier[ringOf p] = .retimer) :
    timeMsg p head x res d = d.retime p (hopMsg (acrossPort p) head 0x10 (timeBytes { x with corr := x.corr + res })) :=
  if_neg (ne_true_of_eq_false (d.ringIn_retimer p h))

/-- A node that forwards outside queue mode. -/
theorem timeMsg_other (d : Dev) (p : Fin 4) (head : MsgHead) (x : TimeMsg) (res : Nat) (hin : d.ringIn p = true)
    (hme : d.isMe x.node = false) (hq : d.whl.cfg.ringQueueMode = false) :
    let e := d.followTime p x (x.corr + (d.skn.ports[p]).delay)
    timeMsg p head x res d = if 255 ≤ x.hops + 1 then e else
      e.sendTime (acrossPort p) { head with hops := head.hops + 1 }
        { x with corr := x.corr + (d.skn.ports[p]).delay + res, hops := x.hops + 1 } := by
  have hstamp : d.ringStamp p x.seq = d := if_neg (ne_true_of_eq_false hq)
  unfold timeMsg
  simp only [hin, hme, hq, hstamp, Bool.false_eq_true, if_true, if_false]

theorem Dev.followTime_other (d : Dev) (p : Fin 4) (x : TimeMsg) (corr : Int) (h : (d.whl.cfgOf 2).source ≠ 2) :
    d.followTime p x corr = d := if_neg fun hc => h hc.1

/-- Outside queue mode a port keeps no stamp. -/
theorem Dev.sendTime_plain (d : Dev) (p : Fin 4) (head : MsgHead) (x : TimeMsg) (hq : d.whl.cfg.ringQueueMode = false)
    (hup : (d.skn.ports[p]).up = true) : d.sendTime p head x = d.putMsg p (hopMsg p head 0x10 (timeBytes x)) :=
  (d.sendTime_up p head x hup).trans (if_neg (ne_true_of_eq_false hq))

/-- A sample below the step threshold, in TRACKING with no large offset noted, makes no step; it is the offset from then on. -/
theorem Servo.sample_small (v : Servo) (c : WhorlCfg) (theta acq : Int) (now : Nat) (hst : v.st = .tracking) (hf : v.first = none)
    (hsmall : theta.natAbs < c.stepThr * 1000) : (v.sample c theta acq now).2 = none ∧ (v.sample c theta acq now).1.theta = theta := by
  unfold Servo.sample
  simp only [hst, hf, decide_eq_false (Nat.not_le.mpr hsmall), Bool.false_eq_true, if_false, Servo.pi]
  split_ifs <;> exact ⟨rfl, rfl⟩

/-- Such a sample changes the servo of its whorl alone. -/
theorem Dev.sampleWhorl_small (d : Dev) (n : Nat) (theta : Int) (hst : (d.whl.servo[servoIx n]).st = .tracking)
    (hf : (d.whl.servo[servoIx n]).first = none) (hsmall : theta.natAbs < (d.whl.cfgOf n).stepThr * 1000) :
    ∃ v : Servo, v.theta = theta ∧
      d.sampleWhorl n theta = d.onWhl fun w => { w with servo := upd w.servo (servoIx n) fun _ => v } := by
  obtain ⟨hnone, htheta⟩ := Servo.sample_small _ (d.whl.cfgOf n) theta (d.whl.acqStep n theta) d.whl.tim hst hf hsmall
  refine ⟨_, htheta, ?_⟩
  unfold Dev.sampleWhorl Whl.sample
  simp only [hnone]
  rfl

/-- The first TIME message a W2 of source 2 follows: the choice is noted and W2 takes a sample. -/
theorem Dev.followTime_first (d : Dev) (p : Fin 4) (x : TimeMsg) (corr : Int) (hsrc : (d.whl.cfgOf 2).source = 2)
    (hj : d.skn.junction = false) (hseg : segOf x.node = segOf (d.nodeId 0)) (hnone : d.skn.follow = none) :
    d.followTime p x corr =
      ((d.onSkn fun k => { k with follow := some (x.node, x.seq, x.hops, p) }).onWhl fun w =>
        { w with originQuality := x.quality }).sampleWhorl 2 ((d.whl.nsOf 2 : Int) - (x.origin.toNs + (x.origin.frac + corr) / 65536)) := by
  have hc : d.chooseTime p x = (some (x.node, x.seq, x.hops, p), true) := by
    unfold Dev.chooseTime
    rw [hnone]
  unfold Dev.followTime
  rw [if_pos ⟨hsrc, by simp [hj], hseg⟩, hc]
  rfl

/-- TIME at its origin: nothing happens. -/
theorem exec_timeMsg_own (s : State) (p : Fin 4) (head : MsgHead) (x : TimeMsg) (res : Nat) (hin : s.dev.ringIn p = true)
    (hme : s.dev.isMe x.node = true) :
    ∃ t, exec (.timeMsg ⟨p, head⟩ x res) s = .next t ∧ t.mem = s.mem ∧ t.dev.unreport s.dev = s.dev := by
  refine ⟨s.run (timeMsg p head x res), rfl, rfl, ?_⟩
  rw [State.run_dev, Dev.unreport_settle, timeMsg_own s.dev p head x res hin hme, Dev.unreport_self]

/-- TIME at a node that forwards it without following ring time. -/
theorem exec_timeMsg_forward (s : State) (p : Fin 4) (head : MsgHead) (x : TimeMsg) (res : Nat) (hin : s.dev.ringIn p = true)
    (hme : s.dev.isMe x.node = false) (hq : s.dev.whl.cfg.ringQueueMode = false) (hsrc : (s.dev.whl.cfgOf 2).source ≠ 2)
    (hhops : x.hops < 254) :
    let k := s.dev.skn
    (k.ports[acrossPort p]).up = true →
    ∃ t m, exec (.timeMsg ⟨p, head⟩ x res) s = .next t ∧ t.mem = s.mem ∧ t.dev.skn = { k with sent := (acrossPort p, m) :: k.sent } ∧
      m.mtype = 0x10 ∧ m.payload = timeBytes { x with corr := x.corr + (k.ports[p]).delay + res, hops := x.hops + 1 } ∧
      m.src = head.src ∧ m.hops = head.hops + 1 ∧ { t.dev.unreport s.dev with skn := k } = s.dev := by
  intro k hup
  have heq := timeMsg_other s.dev p head x res hin hme hq
  dsimp only at heq
  rw [if_neg (by omega), s.dev.followTime_other p x _ hsrc, s.dev.sendTime_plain _ _ _ hq hup] at heq
  exact ⟨_, _, rfl, rfl, s.run_skn _ _ heq, rfl, rfl, rfl, rfl,
    s.run_sknOnly _ (by rw [heq]; exact (Dev.SknOnly.self _).putMsg _ _)⟩

/-- TIME at a node whose W2 follows ring time. -/
theorem exec_timeMsg_follow (s : State) (p : Fin 4) (head : MsgHead) (x : TimeMsg) (res : Nat) (hin : s.dev.ringIn p = true)
    (hme : s.dev.isMe x.node = false) (hq : s.dev.whl.cfg.ringQueueMode = false) (hsrc : (s.dev.whl.cfgOf 2).source = 2)
    (hj : s.dev.skn.junction = false) (hseg : segOf x.node = segOf (s.dev.nodeId 0)) (hnone : s.dev.skn.follow = none)
    (hst : (s.dev.whl.servo[(1 : Fin 5)]).st = .tracking) (hfirst : (s.dev.whl.servo[(1 : Fin 5)]).first = none) :
    let w := s.dev.whl
    let theta : Int := w.nsOf 2 - (x.origin.toNs + (x.origin.frac + (x.corr + (s.dev.skn.ports[p]).delay)) / 65536)
    theta.natAbs < (w.cfgOf 2).stepThr * 1000 →
    ∃ t, exec (.timeMsg ⟨p, head⟩ x res) s = .next t ∧ t.mem = s.mem ∧ (t.dev.whl.servo[(1 : Fin 5)]).theta = theta ∧
      t.dev.whl.originQuality = x.quality ∧ t.dev.skn.follow = some (x.node, x.seq, x.hops, p) ∧
      (∀ n : Fin 5, n ≠ 1 → t.dev.whl.servo[n] = w.servo[n]) := by
  intro w theta hsmall
  let d1 := (s.dev.onSkn fun k => { k with follow := some (x.node, x.seq, x.hops, p) }).onWhl fun w =>
    { w with originQuality := x.quality }
  obtain ⟨v, htheta, hsample⟩ := d1.sampleWhorl_small 2 theta hst hfirst hsmall
  let e := d1.onWhl fun w => { w with servo := upd w.servo (servoIx 2) fun _ => v }
  have hfollow : s.dev.followTime p x (x.corr + (s.dev.skn.ports[p]).delay) = e :=
    (s.dev.followTime_first p x _ hsrc hj hseg hnone).trans hsample
  have hkeeps : (timeMsg p head x res s.dev).whl = e.whl ∧ (timeMsg p head x res s.dev).skn.follow = e.skn.follow := by
    rw [timeMsg_other s.dev p head x res hin hme hq, hfollow]
    split_ifs
    · exact ⟨rfl, rfl⟩
    · obtain ⟨-, -, hf, -, hw⟩ := e.sendTime_frame (acrossPort p) p { head with hops := head.hops + 1 }
        { x with corr := x.corr + (s.dev.skn.ports[p]).delay + res, hops := x.hops + 1 }
      exact ⟨hw, hf⟩
  have hwhl : (s.run (timeMsg p head x res)).dev.whl = e.whl := by rw [State.run_dev, Dev.settle_whl, hkeeps.1]
  have hfol : (s.run (timeMsg p head x res)).dev.skn.follow = e.skn.follow := by rw [State.run_dev, Dev.settle_skn, hkeeps.2]
  refine ⟨s.run (timeMsg p head x res), rfl, rfl, ?_, ?_, hfol, fun n hn => ?_⟩
  · rw [hwhl]
    exact (congrArg Servo.theta (upd_same _ (1 : Fin 5) _)).trans htheta
  · rw [hwhl]
    rfl
  · rw [hwhl]
    exact upd_other _ (1 : Fin 5) _ _ hn

/-! ### Enumeration (R466, R467) -/

namespace Dev.SknOnly

variable {e d : Dev}

theorem setCount (h : e.SknOnly d) (r : Fin 2) (n : Nat) : (e.setCount r n).SknOnly d := h
theorem sendEnum (h : e.SknOnly d) (r : Fin 2) (west : Bool) : (e.sendEnum r west).SknOnly d := by
  unfold Dev.sendEnum
  split_ifs
  · exact h.putMsg _ _
  · exact h

end Dev.SknOnly

theorem Dev.sendEnum_up (d : Dev) (r : Fin 2) (west : Bool) (h : (d.skn.ports[portFor r west]).up = true) :
    d.sendEnum r west = d.putMsg (portFor r west)
      { enumOf west (d.nodeId r) (segOf (d.nodeId r)) 1 with ringB := decide (r = 1) } := if_pos h

/-- ENUM_SEND at a head whose east port is up. -/
theorem exec_enumSend (s : State) (b : Bool) :
    let k := s.dev.skn
    let r := ringIx b
    s.dev.headOn r = true → s.dev.ringOn r = true → (k.ports[portFor r false]).up = true →
    ∃ t m, exec (.enumSend b) s = .next t ∧ t.mem = s.mem ∧
      t.dev.skn = { k with enumDue := upd k.enumDue r (fun _ => false), sent := (portFor r false, m) :: k.sent } ∧ m.mtype = 0x18 ∧
      m.west = false ∧ m.payload = le 1 (segOf (s.dev.nodeId r)) ++ le 1 1 ∧ { t.dev.unreport s.dev with skn := k } = s.dev := by
  intro k r hhead hon hup
  let d1 := s.dev.onSkn fun k => { k with enumDue := upd k.enumDue r fun _ => false }
  have hsend : enumSend b s.dev = d1.sendEnum r false := by
    unfold enumSend
    dsimp only
    rw [if_pos ⟨hhead, hon⟩, hup]
    rfl
  have heq := hsend.trans (d1.sendEnum_up r false hup)
  exact ⟨_, _, rfl, rfl, s.run_skn _ _ heq, rfl, rfl, rfl,
    s.run_sknOnly _ (by rw [heq]; exact ((Dev.SknOnly.self _).onSkn _).putMsg _ _)⟩

/-- The head takes its own ENUM back with the node count, and sends it west where it returned WRAPPED. -/
theorem exec_enumMsg_head (s : State) (p : Fin 4) (head : MsgHead) (west wrapped : Bool) (segment next count : Nat)
    (hin : s.dev.ringIn p = true) :
    let k := s.dev.skn
    let r := ringOf p
    s.dev.headOn r = true → segment = segOf (s.dev.nodeId r) →
    ∃ t, exec (.enumMsg ⟨p, head⟩ west wrapped segment next count) s = .next t ∧ t.mem = s.mem ∧ t.dev.skn.enumd[r] = true ∧
      t.dev.skn.count[r] = count ∧ t.dev.skn.ids = k.ids ∧
      ((wrapped && west) = false → t.dev.skn.sent = k.sent) ∧
      ((wrapped && west) = true → (k.ports[portFor r true]).up = true →
        ∃ m, t.dev.skn.sent = (portFor r true, m) :: k.sent ∧ m.mtype = 0x18 ∧ m.west = true) ∧
      { t.dev.unreport s.dev with skn := k } = s.dev := by
  intro k r hhead hseg
  let e := s.dev.setCount r count
  have heq : enumMsg p head west wrapped segment next count s.dev = if wrapped ∧ west then e.sendEnum r true else e := by
    unfold enumMsg
    dsimp only
    rw [if_neg (by simp [hin]), if_pos ⟨hhead, hseg⟩]
  have honly : (enumMsg p head west wrapped segment next count s.dev).SknOnly s.dev := by
    rw [heq]
    split_ifs
    · exact ((Dev.SknOnly.self _).setCount _ _).sendEnum _ _
    · exact (Dev.SknOnly.self _).setCount _ _
  refine ⟨s.run (enumMsg p head west wrapped segment next count), rfl, rfl, ?_⟩
  rw [← and_assoc, ← and_assoc, ← and_assoc, ← and_assoc]
  refine ⟨?_, s.run_sknOnly _ honly⟩
  rw [State.run_dev, Dev.settle_skn, heq]
  have hcount : e.skn.enumd[r] = true ∧ e.skn.count[r] = count := ⟨upd_same _ _ _, upd_same _ _ _⟩
  by_cases hw : wrapped ∧ west
  · rw [if_pos hw]
    have hww : (wrapped && west) = true := by simpa using hw
    cases hup : (k.ports[portFor r true]).up
    · have hsame : e.sendEnum r true = e := if_neg (ne_true_of_eq_false hup)
      rw [hsame]
      exact ⟨⟨⟨hcount, rfl⟩, fun _ => rfl⟩, fun _ h => absurd h (by decide)⟩
    · rw [e.sendEnum_up r true hup]
      exact ⟨⟨⟨hcount, rfl⟩, fun h => absurd hww (by simp [h])⟩, fun _ _ => ⟨_, rfl, rfl, rfl⟩⟩
  · rw [if_neg hw]
    exact ⟨⟨⟨hcount, rfl⟩, fun _ => rfl⟩, fun h => absurd (by simpa using h) hw⟩

/-- The position within a segment that an ID carries. -/
theorem posOf_of_segment (segment next : Nat) (h : next ≤ 255) : posOf (BitVec.ofNat 16 (segment * 256 + next)) = next := by
  simp only [posOf, BitVec.toNat_ofNat]
  omega

/-- An unpinned node that has no ID from ring A takes what the message carries. -/
theorem Dev.takePos_carried (d : Dev) (r : Fin 2) (segment next : Nat) (hpin : d.skn.pins[r] = 0xFFFF)
    (hdual : r = 1 → d.skn.ids[0] = none) :
    d.takePos r segment next = if 255 < next then none else some (BitVec.ofNat 16 (segment * 256 + next)) := by
  have hnone : ¬(r = 1 ∧ (!d.skn.junction) = true ∧ (d.skn.ids[0]).isSome = true) := fun ⟨h1, _, h0⟩ => by
    rw [hdual h1] at h0
    cases h0
  simp only [Dev.takePos]
  rw [if_neg fun h => h.1 hpin, if_neg hnone]

/-- A node whose ID is taken or given up on an interface; RING is reported where it has none, or another one than before. -/
def Dev.enumTaken (d : Dev) (r : Fin 2) (id : Option Half) : Dev :=
  let e := d.onSkn fun k => { k with ids := upd k.ids r fun _ => id }
  if id.isNone || ((d.skn.ids[r]).isSome && decide (d.skn.ids[r] ≠ id)) then e.raise 21 r.val 0 else e

theorem Dev.enumTaken_skn (d : Dev) (r : Fin 2) (id : Option Half) :
    (d.enumTaken r id).skn = { d.skn with ids := upd d.skn.ids r fun _ => id } := by
  unfold Dev.enumTaken
  split_ifs
  · exact Dev.raise_skn _ _ _ _
  · rfl

theorem Dev.SknOnly.enumTaken {e d : Dev} (h : e.SknOnly d) (r : Fin 2) (id : Option Half) : (e.enumTaken r id).SknOnly d := by
  unfold Dev.enumTaken
  split_ifs
  · exact (h.onSkn _).raise _ _ _
  · exact h.onSkn _

theorem Dev.enumTaken_reported (d : Dev) (r : Fin 2) (id : Option Half)
    (h : (id.isNone || ((d.skn.ids[r]).isSome && decide (d.skn.ids[r] ≠ id))) = true) :
    (d.enumTaken r id).sys.fault.getLsbD 21 = true := by
  unfold Dev.enumTaken
  rw [if_pos h]
  exact Dev.raise_sets _ _ _ _ (by decide)

/-- A forward-going ENUM at a node that is not the head. -/
theorem enumMsg_forwardGoing (d : Dev) (p : Fin 4) (head : MsgHead) (segment next count : Nat) (hin : d.ringIn p = true)
    (hhead : d.headOn (ringOf p) = false) (hpin : d.skn.pins[ringOf p] = 0xFFFF) (hdual : ringOf p = 1 → d.skn.ids[0] = none) :
    enumMsg p head false false segment next count d =
      if 255 < next then (d.enumTaken (ringOf p) none).forward p (passedEnum p head false false segment next)
      else ((d.enumTaken (ringOf p) (some (BitVec.ofNat 16 (segment * 256 + next)))).setCount (ringOf p) count).forward p
        (passedEnum p head false false segment (next + 1)) := by
  unfold enumMsg Dev.enumNode
  dsimp only
  rw [if_neg (by simp [hin]), if_neg (by simp [hhead]), if_neg (by decide), if_neg (by decide),
    d.takePos_carried _ segment next hpin hdual]
  by_cases hnext : 255 < next
  · rw [if_pos hnext, if_pos hnext]
    rfl
  · rw [if_neg hnext, if_neg hnext]
    dsimp only
    rw [posOf_of_segment segment next (by omega)]
    rfl

/-- ENUM at an unpinned node that takes the position it carries. -/
theorem exec_enumMsg_takes (s : State) (p : Fin 4) (head : MsgHead) (segment next count : Nat) (hin : s.dev.ringIn p = true) :
    let k := s.dev.skn
    let r := ringOf p
    s.dev.headOn r = false → k.pins[r] = 0xFFFF → (r = 1 → k.ids[0] = none) → next ≤ 255 → head.hops < 254 →
    (k.ports[portFor r false]).up = true →
    let id : Half := BitVec.ofNat 16 (segment * 256 + next)
    ∃ t m, exec (.enumMsg ⟨p, head⟩ false false segment next count) s = .next t ∧ t.mem = s.mem ∧ t.dev.skn.ids[r] = some id ∧
      t.dev.skn.enumd[r] = true ∧ t.dev.skn.count[r] = count ∧ t.dev.skn.sent = (portFor r false, m) :: k.sent ∧
      m.mtype = 0x18 ∧ m.payload = le 1 segment ++ le 1 (next + 1) ∧ m.src = head.src ∧ m.hops = head.hops + 1 ∧
      (k.ids[r].isSome = true → k.ids[r] ≠ some id → t.dev.sys.fault.getLsbD 21 = true) ∧
      { t.dev.unreport s.dev with skn := k } = s.dev := by
  intro k r hhead hpin hdual hnext hhops hup id
  let e := (s.dev.enumTaken r (some id)).setCount r count
  have hskn : e.skn = { k with ids := upd k.ids r fun _ => some id, enumd := upd k.enumd r fun _ => true,
                               count := upd k.count r fun _ => count } := by
    simp only [e, Dev.setCount, Dev.onSkn_skn, Dev.enumTaken_skn]
    rfl
  have heq : enumMsg p head false false segment next count s.dev =
      e.putMsg (portFor r false) { passedEnum p head false false segment (next + 1) with hops := head.hops + 1 } := by
    rw [enumMsg_forwardGoing s.dev p head segment next count hin hhead hpin hdual, if_neg (by omega)]
    exact e.forward_up p _ hhops (by rw [hskn]; exact hup)
  have hskn' := s.run_skn _ _ heq
  refine ⟨s.run (enumMsg p head false false segment next count),
    { passedEnum p head false false segment (next + 1) with hops := head.hops + 1 }, rfl, rfl, ?_, ?_, ?_, ?_, rfl, rfl, rfl, rfl, fun hsome hne => ?_,
    s.run_sknOnly _ (by rw [heq]; exact (((Dev.SknOnly.self _).enumTaken _ _).setCount _ _).putMsg _ _)⟩
  · rw [hskn']
    show e.skn.ids[r] = _
    rw [hskn]
    exact upd_same _ _ _
  · rw [hskn']
    show e.skn.enumd[r] = _
    rw [hskn]
    exact upd_same _ _ _
  · rw [hskn']
    show e.skn.count[r] = _
    rw [hskn]
    exact upd_same _ _ _
  · rw [hskn']
    show (_, _) :: e.skn.sent = _
    rw [hskn]
  · rw [State.run_dev, heq]
    refine Dev.settle_keeps _ _ (s.dev.enumTaken_reported r (some id) ?_)
    simpa using ⟨hsome, hne⟩

/-- ENUM past position 255 at an unpinned node: it has no ID, and reports that. -/
theorem exec_enumMsg_full (s : State) (p : Fin 4) (head : MsgHead) (segment next count : Nat) (hin : s.dev.ringIn p = true) :
    let k := s.dev.skn
    let r := ringOf p
    s.dev.headOn r = false → k.pins[r] = 0xFFFF → (r = 1 → k.ids[0] = none) → 255 < next →
    ∃ t, exec (.enumMsg ⟨p, head⟩ false false segment next count) s = .next t ∧ t.mem = s.mem ∧ t.dev.skn.ids[r] = none ∧
      t.dev.sys.fault.getLsbD 21 = true ∧ { t.dev.unreport s.dev with skn := k } = s.dev := by
  intro k r hhead hpin hdual hnext
  let e := s.dev.enumTaken r none
  have heq : enumMsg p head false false segment next count s.dev = e.forward p (passedEnum p head false false segment next) := by
    rw [enumMsg_forwardGoing s.dev p head segment next count hin hhead hpin hdual, if_pos hnext]
  have hids : (e.forward p (passedEnum p head false false segment next)).skn.ids[r] = none := by
    have hkept : (e.forward p (passedEnum p head false false segment next)).skn.ids = e.skn.ids :=
      Dev.forward_keeps (fun x => x.skn.ids) e p _ (fun _ _ => rfl) (fun _ => rfl)
    rw [hkept, Dev.enumTaken_skn]
    exact upd_same _ _ _
  have hsys : (e.forward p (passedEnum p head false false segment next)).sys = e.sys :=
    Dev.forward_keeps Dev.sys e p _ (fun _ _ => rfl) (fun _ => rfl)
  refine ⟨s.run (enumMsg p head false false segment next count), rfl, rfl, ?_, ?_,
    s.run_sknOnly _ (by rw [heq]; exact ((Dev.SknOnly.self _).enumTaken _ _).forward _ _)⟩
  · rw [s.run_skn _ _ heq, hids]
  · rw [State.run_dev, heq]
    refine Dev.settle_keeps _ _ ?_
    rw [hsys]
    exact s.dev.enumTaken_reported r none rfl

/-! ### LINK_EVENT (R466) -/

theorem linkEvent_retimer (d : Dev) (p : Fin 4) (head : MsgHead) (code now : Byte) (h : d.aon.tier[ringOf p] = .retimer) :
    linkEvent p head code now d = d.retime p (linkEventMsg p head code now) :=
  if_pos (by rw [d.ringIn_retimer p h]; rfl)

/-- The head of the segment owes an ENUM. -/
theorem linkEvent_head (d : Dev) (p : Fin 4) (head : MsgHead) (code now : Byte) (hin : d.ringIn p = true)
    (hhead : d.headOn (ringOf p) = true) (hseg : segOf head.src = segOf (d.nodeId (ringOf p))) :
    linkEvent p head code now d = d.onSkn fun k => { k with enumDue := upd k.enumDue (ringOf p) fun _ => true } := by
  unfold linkEvent
  dsimp only
  rw [if_neg (by simp [hin]), if_pos ⟨hhead, hseg⟩]

/-- A message leaves by the opposite port where its direction is that of its arrival. -/
theorem portFor_acrossPort (p : Fin 4) : portFor (ringOf p) (decide ((acrossPort p).val % 2 = 1)) = acrossPort p := by
  revert p; decide

/-- Any other node without a child segment passes it on. -/
theorem linkEvent_passed (d : Dev) (p : Fin 4) (head : MsgHead) (code now : Byte) (hin : d.ringIn p = true)
    (hhead : d.headOn (ringOf p) = false) (hj : d.skn.junction = false) (hhops : head.hops < 254)
    (hup : (d.skn.ports[acrossPort p]).up = true) :
    linkEvent p head code now d = d.putMsg (acrossPort p) { linkEventMsg p head code now with hops := head.hops + 1 } := by
  have hstays : d.passOn p (linkEventMsg p head code now) = d.forward p (linkEventMsg p head code now) := by
    unfold Dev.passOn
    simp only [hj, Bool.false_and, Bool.false_eq_true, if_false]
  have hport : portFor (ringOf p) (linkEventMsg p head code now).west = acrossPort p := portFor_acrossPort p
  have hfwd := d.forward_up p (linkEventMsg p head code now) hhops (by simpa only [hport] using hup)
  unfold linkEvent
  dsimp only
  rw [if_neg (by simp [hin]), if_neg (by simp [hhead]), hstays, hfwd, hport]
  rfl

/-! ### The pinned node ID (R457) -/

theorem Dev.pinNode_nodes (d : Dev) (r : Fin 2) (v : Half) : (d.pinNode r v).jnl.nodes = upd d.jnl.nodes r fun _ => v := by
  unfold Dev.pinNode
  split_ifs with h
  · exact (upd_back _ _ _ h.symm).symm
  · rfl

theorem Dev.pinNode_skn (d : Dev) (r : Fin 2) (v : Half) : (d.pinNode r v).skn = d.skn := by
  unfold Dev.pinNode
  split_ifs <;> rfl

/-- A complement write pins the node ID for the next start, and leaves the ring part as it is. -/
theorem exec_nodePin (s : State) (a : Access) (b : Bool) :
    let q := if b then s.dev.pairs.sknPinB else s.dev.pairs.sknPinA
    s.dev.accepts a (regAddr (if b then 0x300EC else 0x300E4)) (~~~q.pending) = true →
    ∃ t, exec (.nodePin a b (~~~q.pending)) s = .next t ∧ t.mem = s.mem ∧
      t.dev.jnl.nodes = upd s.dev.jnl.nodes (ringIx b) (fun _ => q.pending.truncate 16) ∧ t.dev.skn = s.dev.skn := by
  intro q hacc
  let e := { s.dev with pairs := if b then { s.dev.pairs with sknPinB := ⟨q.pending, q.pending⟩ }
    else { s.dev.pairs with sknPinA := ⟨q.pending, q.pending⟩ } }
  have hacc' : (s.dev.commitNode a b (~~~q.pending)).unaccess s.dev =
      (e.pinNode (ringIx b) (q.pending.truncate 16)).unaccess s.dev := by
    rw [Dev.commitNode, Dev.write_accepted _ _ _ _ _ _ _ _ hacc, Dev.commitPair_accepted _ _ _ _ _ _ rfl]
  refine ⟨s.run fun d => d.commitNode a b (~~~q.pending), rfl, rfl, ?_, ?_⟩
  · have hnodes : (s.dev.commitNode a b (~~~q.pending)).settle.jnl.nodes = (e.pinNode (ringIx b) (q.pending.truncate 16)).jnl.nodes :=
      congrArg (fun x => x.jnl.nodes) ((Dev.unaccess_settle _ s.dev).trans hacc')
    rw [State.run_dev, hnodes]
    exact Dev.pinNode_nodes e _ _
  · rw [State.run_dev, Dev.settle_skn]
    exact (congrArg Dev.skn hacc').trans (Dev.pinNode_skn e _ _)

/-- Settles O48: TIME, ENUM and LINK_EVENT act on the skein part alone, and a followed TIME message on its whorl; each clause is the
effect of one command, computed above. -/
theorem ringTimeAndEnumeration : Obligations.RingTimeAndEnumeration := by
  intro s k w
  refine ⟨exec_timeOriginate s, fun p head x res => ⟨exec_timeMsg_own s p head x res, fun hret => ?_,
      fun hin hme hq hsrc hhops => exec_timeMsg_forward s p head x res hin hme hq hsrc hhops,
      fun hin hme hq hsrc hj hseg hnone hst hfirst => exec_timeMsg_follow s p head x res hin hme hq hsrc hj hseg hnone hst hfirst⟩,
    exec_enumSend s, fun p head west wrapped segment next count hin =>
      ⟨exec_enumMsg_head s p head west wrapped segment next count hin, fun hhead hpin hdual =>
        ⟨exec_enumMsg_takes s p head segment next count hin hhead hpin hdual, exec_enumMsg_full s p head segment next count hin hhead hpin hdual⟩⟩,
    fun p head code now => ⟨fun hin hhead hseg => ?_, fun hin hhead hj hhops hup => ?_, fun hret => ?_⟩, fun a b _ => exec_nodePin s a b⟩
  · obtain ⟨hmem, hskn, hframe⟩ := s.run_retimes p _ _ hret (timeMsg_retimer s.dev p head x res hret)
    exact ⟨_, _, rfl, hmem, hskn, rfl, rfl, rfl, rfl, hframe⟩
  · have heq := linkEvent_head s.dev p head code now hin hhead hseg
    exact ⟨_, rfl, rfl, s.run_skn _ _ heq, s.run_sknOnly _ (by rw [heq]; exact (Dev.SknOnly.self _).onSkn _)⟩
  · have heq := linkEvent_passed s.dev p head code now hin hhead hj hhops hup
    exact ⟨_, rfl, rfl, s.run_skn _ _ heq, s.run_sknOnly _ (by rw [heq]; exact (Dev.SknOnly.self _).putMsg _ _)⟩
  · obtain ⟨hmem, hskn, hframe⟩ := s.run_retimes p _ _ hret (linkEvent_retimer s.dev p head code now hret)
    exact ⟨_, rfl, hmem, hskn, rfl, rfl, rfl, rfl, hframe⟩

end Sys2Proof.Machine
end

section
/-! SUPPORT. Layout staging at a node and the audit token (13 R488, R489, R491 to R498). -/

namespace Sys2Proof.Machine

/-! ### Layout staging and activation at a node (R488, R489) -/

/-- An accepted register write: its register's answer, and its register's effect apart from what every access leaves behind. -/
theorem State.run_write (s : State) (a : Access) (addr : Word) (v : Word) (g : Dev → Dev × Res) (f : Dev → Dev) (e : Dev) (r : Res)
    (hf : f s.dev = s.dev.write a addr 4 v true g) (hacc : s.dev.accepts a addr v = true) (hg : g s.dev = (e, r)) :
    (s.run f).dev.bus.answer = some ⟨a.master, r.code, r.detail, 0⟩ ∧ (s.run f).dev.unaccess s.dev = e.unaccess s.dev := by
  rw [State.run_dev, hf, Dev.unaccess_settle, Dev.settle_bus, Dev.write_answer _ _ _ _ _ _ _ hacc,
    Dev.write_accepted _ _ _ _ _ _ _ _ hacc, hg]
  exact ⟨rfl, rfl⟩

/-- A block that is judged and refused leaves nothing but its answer: the words held for it are gone. -/
theorem Dev.judgeStage_refused (d : Dev) (w : Nat → Word) (code : BitVec 4) (detail : Byte)
    (h : (d.layoutCfg ((w 0).toNat % 256) = none ∧ code = 2 ∧ detail = 1) ∨
      (∃ l, d.layoutCfg ((w 0).toNat % 256) = some l ∧
        ((BitVec.ofNat 64 l.digest ≠ w 3 ++ w 2 ∧ code = 2 ∧ detail = 2) ∨
         (BitVec.ofNat 64 l.digest = w 3 ++ w 2 ∧ d.sys.transition.isSome = true ∧ code = 6 ∧ detail = 4) ∨
         (BitVec.ofNat 64 l.digest = w 3 ++ w 2 ∧ d.sys.transition = none ∧ l.allows d.sys.mode = false ∧ code = 2 ∧ detail = 3)))) :
    d.judgeStage w = (d, Res.detailed code detail) := by
  unfold Dev.judgeStage
  dsimp only
  obtain ⟨hl, rfl, rfl⟩ | ⟨l, hl, ⟨hdig, rfl, rfl⟩ | ⟨hdig, htr, rfl, rfl⟩ | ⟨hdig, htr, hm, rfl, rfl⟩⟩ := h <;> rw [hl]
  · exact if_pos hdig
  · exact (if_neg (not_not.mpr hdig)).trans (if_pos htr)
  · exact (if_neg (not_not.mpr hdig)).trans ((if_neg (by rw [htr]; decide)).trans (if_pos (by rw [hm]; rfl)))

theorem Dev.judgeStage_staged (d : Dev) (w : Nat → Word) (l : LayoutCfg) (hl : d.layoutCfg ((w 0).toNat % 256) = some l)
    (hdig : BitVec.ofNat 64 l.digest = w 3 ++ w 2) (htr : d.sys.transition = none) (hm : l.allows d.sys.mode = true) :
    d.judgeStage w = ({ d with lay := { d.lay with staged := some ((w 0).toNat % 256, w 3 ++ w 2) } }, Res.ok) := by
  unfold Dev.judgeStage
  dsimp only
  rw [hl]
  exact (if_neg (not_not.mpr hdig)).trans ((if_neg (by rw [htr]; decide)).trans (if_neg (by rw [hm]; decide)))

/-- The entry that an activation block asks for (R489). -/
def actEntry (w : Nat → Word) : SaqEntry :=
  let digest : DWord := w 7 ++ w 6
  ⟨(w 0).toNat % 256, ((w 3 ++ w 2 : BitVec 64).toNat * 1000000000 + (w 4).toNat : Nat), 0, true, (w 0).toNat / 256 % 2, 1,
    BitVec.ofNat 32 ((w 0).toNat / 2 ^ 16 % 256), loWord digest, hiWord digest, 0, 0⟩

theorem Dev.judgeAct_refused (d : Dev) (w : Nat → Word) (code : BitVec 4) (detail : Byte)
    (h : (5 < (w 0).toNat % 256 ∧ code = 2 ∧ detail = 5) ∨
      ((w 0).toNat % 256 ≤ 5 ∧ d.lay.staged ≠ some ((w 0).toNat / 2 ^ 16 % 256, w 7 ++ w 6) ∧ code = 2 ∧ detail = 6) ∨
      ((w 0).toNat % 256 ≤ 5 ∧ d.lay.staged = some ((w 0).toNat / 2 ^ 16 % 256, w 7 ++ w 6) ∧ d.whl.freeEntry = none ∧ code = 6 ∧
        detail = 7)) :
    d.judgeAct w = (d, Res.detailed code detail) := by
  unfold Dev.judgeAct
  dsimp only
  obtain ⟨hw, rfl, rfl⟩ | ⟨hw, hst, rfl, rfl⟩ | ⟨hw, hst, hfree, rfl, rfl⟩ := h
  · exact if_pos hw
  · exact (if_neg (not_lt.mpr hw)).trans (if_pos hst)
  · rw [hfree]
    exact (if_neg (not_lt.mpr hw)).trans (if_neg (not_not.mpr hst))

/-- An entry whose time is not passed is added as it is. -/
theorem Dev.judgeAct_added (d : Dev) (w : Nat → Word) (i : Fin 256) (hw : (w 0).toNat % 256 ≤ 5)
    (hst : d.lay.staged = some ((w 0).toNat / 2 ^ 16 % 256, w 7 ++ w 6)) (hfree : d.whl.freeEntry = some i)
    (hpass : d.whl.passed (actEntry w) = false) : d.judgeAct w = (d.setSaq i (some (actEntry w)), Res.ok) := by
  have hjudge : (d.setSaq i (some (actEntry w))).judgeEntry i = d.setSaq i (some (actEntry w)) := by
    have hentry : (d.setSaq i (some (actEntry w))).whl.saq[i] = some (actEntry w) := upd_same _ _ _
    unfold Dev.judgeEntry
    rw [hentry]
    exact if_neg (ne_true_of_eq_false hpass)
  unfold Dev.judgeAct
  dsimp only
  rw [hfree]
  refine (if_neg (not_lt.mpr hw)).trans ((if_neg (not_not.mpr hst)).trans ?_)
  exact congrArg (fun x => (x, Res.ok)) hjudge

theorem Dev.onSkn_frame (d : Dev) (f : Skn → Skn) : { (d.onSkn f).unaccess d with skn := d.skn } = d := by
  dsimp only [Dev.unaccess, Dev.unreport, Dev.onSkn]

theorem Dev.onSkn_lay_frame (d : Dev) (f : Skn → Skn) (x : LayoutCtx) :
    { ({ d.onSkn f with lay := x } : Dev).unaccess d with skn := d.skn, lay := d.lay } = d := by
  dsimp only [Dev.unaccess, Dev.unreport, Dev.onSkn]

theorem Dev.onSkn_onWhl_frame (d : Dev) (f : Skn → Skn) (g : Whl → Whl) :
    { ((d.onSkn f).onWhl g).unaccess d with skn := d.skn, whl := d.whl } = d := by
  dsimp only [Dev.unaccess, Dev.unreport, Dev.onSkn, Dev.onWhl]

/-- LSTAGE_WRITE with a block that is refused. -/
theorem exec_lstageWrite_refused (s : State) (a : Access) (v : Word) (hacc : s.dev.accepts a (regAddr 0x3030C) v = true)
    (code : BitVec 4) (detail : Byte)
    (h : (s.dev.onSkn fun k => { k with lstage := [] }).judgeStage (heldWord (assocSet s.dev.skn.lstage 3 v)) =
      (s.dev.onSkn fun k => { k with lstage := [] }, Res.detailed code detail)) :
    ∃ t, exec (.lstageWrite a v) s = .next t ∧ t.mem = s.mem ∧ t.dev.bus.answer = some ⟨a.master, code, detail, 0⟩ ∧
      t.dev.skn = { s.dev.skn with lstage := [] } ∧ { t.dev.unaccess s.dev with skn := s.dev.skn } = s.dev := by
  obtain ⟨hans, hun⟩ := s.run_write a _ v _ (lstageWrite a v) _ _ rfl hacc h
  exact ⟨s.run (lstageWrite a v), rfl, rfl, hans, congrArg Dev.skn hun, by rw [hun]; exact s.dev.onSkn_frame _⟩

/-- LACT_WRITE with a block that is refused. -/
theorem exec_lactWrite_refused (s : State) (a : Access) (v : Word) (hacc : s.dev.accepts a (regAddr 0x3033C) v = true)
    (code : BitVec 4) (detail : Byte)
    (h : (s.dev.onSkn fun k => { k with lact := [] }).judgeAct (heldWord (assocSet s.dev.skn.lact 7 v)) =
      (s.dev.onSkn fun k => { k with lact := [] }, Res.detailed code detail)) :
    ∃ t, exec (.lactWrite a v) s = .next t ∧ t.mem = s.mem ∧ t.dev.bus.answer = some ⟨a.master, code, detail, 0⟩ ∧
      t.dev.skn = { s.dev.skn with lact := [] } ∧ { t.dev.unaccess s.dev with skn := s.dev.skn } = s.dev := by
  obtain ⟨hans, hun⟩ := s.run_write a _ v _ (lactWrite a v) _ _ rfl hacc h
  exact ⟨s.run (lactWrite a v), rfl, rfl, hans, congrArg Dev.skn hun, by rw [hun]; exact s.dev.onSkn_frame _⟩

/-- LSTAGE_WRITE with a block that is staged. -/
theorem exec_lstageWrite_staged (s : State) (a : Access) (v : Word) (hacc : s.dev.accepts a (regAddr 0x3030C) v = true) :
    let w := heldWord (assocSet s.dev.skn.lstage 3 v)
    let id := (w 0).toNat % 256
    let digest : DWord := w 3 ++ w 2
    ∀ l, s.dev.layoutCfg id = some l → BitVec.ofNat 64 l.digest = digest → s.dev.sys.transition = none → l.allows s.dev.sys.mode = true →
      ∃ t, exec (.lstageWrite a v) s = .next t ∧ t.mem = s.mem ∧ t.dev.bus.answer = some ⟨a.master, 0, 0, 0⟩ ∧
        t.dev.skn = { s.dev.skn with lstage := [] } ∧ t.dev.lay = { s.dev.lay with staged := some (id, digest) } ∧
        { t.dev.unaccess s.dev with skn := s.dev.skn, lay := s.dev.lay } = s.dev := by
  intro w id digest l hl hdig htr hm
  have hjudge := (s.dev.onSkn fun k => { k with lstage := [] }).judgeStage_staged w l hl hdig htr hm
  obtain ⟨hans, hun⟩ := s.run_write a _ v _ (lstageWrite a v) _ _ rfl hacc hjudge
  exact ⟨s.run (lstageWrite a v), rfl, rfl, hans, congrArg Dev.skn hun, congrArg Dev.lay hun, by rw [hun]; exact s.dev.onSkn_lay_frame _ _⟩

/-- LACT_WRITE with a block whose entry is added. -/
theorem exec_lactWrite_added (s : State) (a : Access) (v : Word) (hacc : s.dev.accepts a (regAddr 0x3033C) v = true) :
    let w := heldWord (assocSet s.dev.skn.lact 7 v)
    ∀ i, (w 0).toNat % 256 ≤ 5 → s.dev.lay.staged = some ((w 0).toNat / 2 ^ 16 % 256, w 7 ++ w 6) → s.dev.whl.freeEntry = some i →
      s.dev.whl.passed (actEntry w) = false →
      ∃ t, exec (.lactWrite a v) s = .next t ∧ t.mem = s.mem ∧ t.dev.bus.answer = some ⟨a.master, 0, 0, 0⟩ ∧
        t.dev.skn = { s.dev.skn with lact := [] } ∧
        t.dev.whl = { s.dev.whl with saq := upd s.dev.whl.saq i fun _ => some (actEntry w) } ∧
        { t.dev.unaccess s.dev with skn := s.dev.skn, whl := s.dev.whl } = s.dev := by
  intro w i hw hst hfree hpass
  have hjudge := (s.dev.onSkn fun k => { k with lact := [] }).judgeAct_added w i hw hst hfree hpass
  obtain ⟨hans, hun⟩ := s.run_write a _ v _ (lactWrite a v) _ _ rfl hacc hjudge
  exact ⟨s.run (lactWrite a v), rfl, rfl, hans, congrArg Dev.skn hun, congrArg Dev.whl hun, by rw [hun]; exact s.dev.onSkn_onWhl_frame _ _⟩

/-! ### The audit token (R491 to R494, R498) -/

namespace Dev.SknOnly

variable {e d : Dev}

theorem report (h : e.SknOnly d) (b : Nat) : (e.report b).SknOnly d := h.raise _ _ _

theorem lapEnd (h : e.SknOnly d) (r : Fin 2) (x : AuditToken) : (e.lapEnd r x).SknOnly d := by
  unfold Dev.lapEnd
  dsimp only
  split_ifs
  · exact (h.onSkn _).report _
  · exact h.onSkn _

end Dev.SknOnly

/-- The token of a lap that begins, with the references of its head (R491, R494). -/
def Dev.lapToken (d : Dev) (r : Fin 2) (x : AuditRef) : AuditToken :=
  { lap := d.skn.lap, segment := segOf (d.nodeId r), refLayout := x.layout, silent := 0, refGen := x.gen,
    layoutMismatch := 0, refDigest := x.digest, nodes := 0, mismatch := 0, lowest := 0xFFFFFFFF, minGen := 0xFFFFFFFF,
    maxGen := 0, lowestLayout := 0xFFFFFFFF }

/-- The root head counts itself and its values are the references, so it never differs from them (R494). -/
theorem Dev.lapToken_visited (d : Dev) (r : Fin 2) (id : Nat) (again : Bool) :
    let x := d.auditSelf
    let y := visitToken (d.lapToken r x) x id again
    y.lap = d.skn.lap ∧ y.segment = segOf (d.nodeId r) ∧ y.refLayout = x.layout ∧ y.refGen = x.gen ∧ y.refDigest = x.digest ∧
      y.nodes = 1 ∧ y.mismatch = 0 ∧ y.layoutMismatch = 0 := by
  simp [visitToken, Dev.lapToken, bit1]

/-- A lap of the root head that is no junction: its token goes out in the next phase. -/
theorem auditLaunch_root (d : Dev) (b : Bool) (j : Nat) (hhead : d.headOn (ringIx b) = true) (hon : d.ringOn (ringIx b) = true)
    (hid : d.nodeId (ringIx b) ≠ 0xFFFF) (hseg : segOf (d.nodeId (ringIx b)) = 0) (hj : d.skn.junction = false)
    (hphase : d.nextPhase (ringIx b) 1 0 = some j) :
    let r := ringIx b
    let x := d.auditSelf
    auditLaunch b d =
      (d.onSkn fun k => { k with layoutDiffered := decide (x.layout ≠ x.layout), lap := (k.lap + 1) % 2 ^ 32, lapPhase := some j }).putMsg
        (phasePort r j) (auditMsg (d.nodeId r) (decide (j % 2 = 1)) (decide ((phasePort r j).val / 2 = 1))
          (visitToken (d.lapToken r x) x (d.nodeId 0).toNat d.skn.layoutDiffered)) := by
  intro r x
  let y := visitToken (d.lapToken r x) x (d.nodeId 0).toNat d.skn.layoutDiffered
  let e := d.onSkn fun k => { k with layoutDiffered := decide (x.layout ≠ x.layout), lap := (k.lap + 1) % 2 ^ 32 }
  have hrefs : d.auditRefs r = (d, x) := if_pos hseg
  have hlaunch : auditLaunch b d = e.sendAudit r y 0 := by
    unfold auditLaunch
    dsimp only
    rw [if_pos ⟨hhead, hon, hid⟩, hrefs, hj]
    rfl
  have hnext : e.nextPhase r y.nodes 0 = some j := hphase
  rw [hlaunch, Dev.sendAudit, hnext]
  rfl

/-- AUDIT_LAUNCH at the root head. -/
theorem exec_auditLaunch (s : State) (b : Bool) (j : Nat) :
    let k := s.dev.skn
    let r := ringIx b
    let id := s.dev.nodeId r
    let x := s.dev.auditSelf
    s.dev.headOn r = true → s.dev.ringOn r = true → id ≠ 0xFFFF → segOf id = 0 → k.junction = false → s.dev.nextPhase r 1 0 = some j →
    ∃ t m y, exec (.auditLaunch b) s = .next t ∧ t.mem = s.mem ∧ t.dev.skn.sent = (phasePort r j, m) :: k.sent ∧ m.mtype = 0x1A ∧
      m.payload = auditBytes y ∧ y.lap = k.lap ∧ y.segment = 0 ∧ y.refLayout = x.layout ∧ y.refGen = x.gen ∧ y.refDigest = x.digest ∧
      y.nodes = 1 ∧ y.mismatch = 0 ∧ y.layoutMismatch = 0 ∧ t.dev.skn.lap = (k.lap + 1) % 2 ^ 32 ∧ t.dev.skn.lapPhase = some j ∧
      { t.dev.unreport s.dev with skn := k } = s.dev := by
  intro k r id x hhead hon hid hseg hj hphase
  have heq := auditLaunch_root s.dev b j hhead hon hid hseg hj hphase
  obtain ⟨hlap, hsegment, hlayout, hgen, hdigest, hnodes, hmis, hlmis⟩ :=
    s.dev.lapToken_visited r (s.dev.nodeId 0).toNat k.layoutDiffered
  have hskn := s.run_skn _ _ heq
  refine ⟨s.run (auditLaunch b), _, _, rfl, rfl, congrArg Skn.sent hskn, rfl, rfl, hlap, hsegment.trans hseg, hlayout, hgen, hdigest,
    hnodes, hmis, hlmis, congrArg Skn.lap hskn, congrArg Skn.lapPhase hskn, s.run_sknOnly _ ?_⟩
  rw [heq]
  exact ((Dev.SknOnly.self _).onSkn _).putMsg _ _

/-- In the retimer tier the token passes unchanged. -/
theorem audit_retimer (d : Dev) (p : Fin 4) (head : MsgHead) (west wrapped : Bool) (x : AuditToken)
    (h : d.aon.tier[ringOf p] = .retimer) :
    audit p head west wrapped x d = d.retime p (passedAudit p head west wrapped x) :=
  if_pos (by rw [d.ringIn_retimer p h]; rfl)

/-- The head without a junction takes its own token back and goes on with its lap. -/
theorem audit_home (d : Dev) (p : Fin 4) (head : MsgHead) (west wrapped : Bool) (x : AuditToken) (j : Nat)
    (hin : d.ringIn p = true) (hj : d.skn.junction = false) (hhead : d.headOn 0 = true) (hseg : x.segment = segOf (d.nodeId 0))
    (hphase : d.skn.lapPhase = some j) (hlap : x.lap = (d.skn.lap + 2 ^ 32 - 1) % 2 ^ 32) :
    audit p head west wrapped x d = d.sendAudit 0 x (afterPhase j wrapped) := by
  unfold audit
  dsimp only
  rw [hj]
  refine (if_neg (by simp [hin])).trans ((if_pos ⟨hhead, hseg, Or.inr rfl⟩).trans ?_)
  rw [hphase]
  exact if_pos hlap

/-- Any other node without a junction is visited. -/
theorem audit_visits (d : Dev) (p : Fin 4) (head : MsgHead) (west wrapped : Bool) (x : AuditToken) (hin : d.ringIn p = true)
    (hj : d.skn.junction = false) (hother : d.headOn 0 = false ∨ x.segment ≠ segOf (d.nodeId 0)) :
    audit p head west wrapped x d = d.auditNode p head west wrapped x := by
  have hnot : ¬(d.headOn 0 = true ∧ x.segment = segOf (d.nodeId 0) ∧ (ringOf p = 0 ∨ (!false) = true)) := fun ⟨hhead, hseg, _⟩ =>
    hother.elim (fun h => by rw [h] at hhead; cases hhead) fun h => h hseg
  unfold audit
  dsimp only
  rw [hj]
  exact (if_neg (by simp [hin])).trans (if_neg hnot)

/-- The token has been here: in this lap already, or on a WRAPPED pass. -/
def Dev.lapWas (d : Dev) (wrapped : Bool) (x : AuditToken) : Bool :=
  wrapped || d.skn.lapSeen.any fun y => decide (y = (x.segment, x.lap))

/-- The node and the token after its visit. -/
def Dev.visited (d : Dev) (x : AuditToken) : Dev × AuditToken :=
  (d.onSkn fun k => { k with lapSeen := [(x.segment, x.lap)] }).auditVisit x

theorem Dev.auditNode_seen (d : Dev) (p : Fin 4) (head : MsgHead) (west wrapped : Bool) (x : AuditToken)
    (h : d.lapWas wrapped x = true) : d.auditNode p head west wrapped x = d.forward p (passedAudit p head west wrapped x) := by
  unfold Dev.auditNode
  extract_lets seen v fresh y
  have hy : y = (d, x) := if_pos h
  rw [hy]

theorem Dev.auditNode_counted (d : Dev) (p : Fin 4) (head : MsgHead) (west wrapped : Bool) (x : AuditToken)
    (h : d.lapWas wrapped x = false) (hj : d.skn.junction = false) :
    d.auditNode p head west wrapped x = (d.visited x).1.forward p (passedAudit p head west wrapped (d.visited x).2) := by
  unfold Dev.auditNode
  extract_lets seen v fresh y
  have hy : y = d.visited x := (if_neg (ne_true_of_eq_false h)).trans (if_neg (ne_true_of_eq_false hj))
  rw [hy]

/-- What a visit adds to the token (R493). -/
theorem visitToken_counts (x : AuditToken) (me : AuditRef) (id : Nat) (again : Bool) :
    let y := visitToken x me id again
    y.nodes = x.nodes + 1 ∧ y.minGen = min x.minGen me.gen ∧ y.maxGen = max x.maxGen me.gen ∧
      y.mismatch = x.mismatch + (if me.gen ≠ x.refGen ∨ me.digest ≠ x.refDigest then 1 else 0) ∧
      y.layoutMismatch = x.layoutMismatch + (if me.layout ≠ x.refLayout ∧ again = true then 1 else 0) ∧ y.silent = x.silent := by
  refine ⟨rfl, rfl, rfl, ?_, ?_, rfl⟩ <;> simp [visitToken, bit1]

/-- AUDIT at a node of the segment. -/
theorem exec_audit_node (s : State) (p : Fin 4) (head : MsgHead) (west wrapped : Bool) (x : AuditToken) (hin : s.dev.ringIn p = true)
    (hj : s.dev.skn.junction = false) (hother : s.dev.headOn 0 = false ∨ x.segment ≠ segOf (s.dev.nodeId 0)) (hhops : head.hops < 254) :
    let k := s.dev.skn
    (k.ports[portFor (ringOf p) west]).up = true →
    let seen := wrapped || k.lapSeen.any fun y => decide (y = (x.segment, x.lap))
    let me := s.dev.auditSelf
    ∃ t m y, exec (.audit ⟨p, head⟩ west wrapped x) s = .next t ∧ t.mem = s.mem ∧ t.dev.skn.sent = (portFor (ringOf p) west, m) :: k.sent ∧
      m.mtype = 0x1A ∧ m.wrapped = wrapped ∧ m.src = head.src ∧ m.hops = head.hops + 1 ∧ m.payload = auditBytes y ∧
      (seen = true → y = x ∧ t.dev.skn.layoutDiffered = k.layoutDiffered) ∧
      (seen = false → y.nodes = x.nodes + 1 ∧ y.minGen = min x.minGen me.gen ∧ y.maxGen = max x.maxGen me.gen ∧
        y.mismatch = x.mismatch + (if me.gen ≠ x.refGen ∨ me.digest ≠ x.refDigest then 1 else 0) ∧
        y.layoutMismatch = x.layoutMismatch + (if me.layout ≠ x.refLayout ∧ k.layoutDiffered = true then 1 else 0) ∧
        y.silent = x.silent ∧ t.dev.skn.layoutDiffered = decide (me.layout ≠ x.refLayout)) ∧
      { t.dev.unreport s.dev with skn := k } = s.dev := by
  intro k hup seen me
  have hvisit := audit_visits s.dev p head west wrapped x hin hj hother
  cases hseen : s.dev.lapWas wrapped x
  · have heq := hvisit.trans ((s.dev.auditNode_counted p head west wrapped x hseen hj).trans
      ((s.dev.visited x).1.forward_up p _ hhops hup))
    have hskn := s.run_skn _ _ heq
    obtain ⟨hnodes, hmin, hmax, hmis, hlmis, hsil⟩ := visitToken_counts x me (s.dev.nodeId 0).toNat k.layoutDiffered
    refine ⟨s.run (audit p head west wrapped x), _, (s.dev.visited x).2, rfl, rfl, congrArg Skn.sent hskn, rfl, rfl, rfl, rfl, rfl,
      fun h => absurd (hseen.symm.trans h) (by decide),
      fun _ => ⟨hnodes, hmin, hmax, hmis, hlmis, hsil, congrArg Skn.layoutDiffered hskn⟩, s.run_sknOnly _ ?_⟩
    rw [heq]
    exact (((Dev.SknOnly.self _).onSkn _).onSkn _).putMsg _ _
  · have heq := hvisit.trans ((s.dev.auditNode_seen p head west wrapped x hseen).trans (s.dev.forward_up p _ hhops hup))
    have hskn := s.run_skn _ _ heq
    refine ⟨s.run (audit p head west wrapped x), _, x, rfl, rfl, congrArg Skn.sent hskn, rfl, rfl, rfl, rfl, rfl,
      fun _ => ⟨rfl, (congrArg Skn.layoutDiffered hskn).trans rfl⟩, fun h => absurd (hseen.symm.trans h) (by decide), s.run_sknOnly _ ?_⟩
    rw [heq]
    exact (Dev.SknOnly.self _).putMsg _ _

/-- A lap that ends keeps its token. -/
theorem Dev.lapEnd_skn (d : Dev) (r : Fin 2) (x : AuditToken) :
    (d.lapEnd r x).skn = { d.skn with lapPhase := none, lapDone := some (d.whl.tim, x) } := by
  unfold Dev.lapEnd
  dsimp only
  split_ifs
  · exact Dev.report_skn _ _
  · rfl

/-- The root head reports a mismatch and a silent segment. -/
theorem Dev.lapEnd_reported (d : Dev) (r : Fin 2) (x : AuditToken) (hroot : segOf (d.nodeId r) = 0)
    (hbad : x.mismatch ≠ 0 ∨ x.layoutMismatch ≠ 0 ∨ x.silent ≠ 0) : (d.lapEnd r x).sys.fault.getLsbD 22 = true := by
  unfold Dev.lapEnd
  dsimp only
  rw [if_pos ⟨hroot, hbad⟩]
  exact Dev.raise_sets _ _ _ _ (by decide)

/-- AUDIT at its head, with no phase left. -/
theorem exec_audit_home (s : State) (p : Fin 4) (head : MsgHead) (west wrapped : Bool) (x : AuditToken) (hin : s.dev.ringIn p = true)
    (hj : s.dev.skn.junction = false) :
    let k := s.dev.skn
    ∀ j, s.dev.headOn 0 = true → x.segment = segOf (s.dev.nodeId 0) → k.lapPhase = some j → x.lap = (k.lap + 2 ^ 32 - 1) % 2 ^ 32 →
      s.dev.nextPhase 0 x.nodes (afterPhase j wrapped) = none →
      ∃ t, exec (.audit ⟨p, head⟩ west wrapped x) s = .next t ∧ t.mem = s.mem ∧
        t.dev.skn = { k with lapPhase := none, lapDone := some (s.dev.whl.tim, x) } ∧
        (x.segment = 0 → x.mismatch ≠ 0 ∨ x.layoutMismatch ≠ 0 ∨ x.silent ≠ 0 → t.dev.sys.fault.getLsbD 22 = true) ∧
        { t.dev.unreport s.dev with skn := k } = s.dev := by
  intro k j hhead hseg hphase hlap hlast
  have heq : audit p head west wrapped x s.dev = s.dev.lapEnd 0 x := by
    rw [audit_home s.dev p head west wrapped x j hin hj hhead hseg hphase hlap, Dev.sendAudit, hlast]
  refine ⟨s.run (audit p head west wrapped x), rfl, rfl, (s.run_skn _ _ heq).trans (s.dev.lapEnd_skn 0 x), fun hroot hbad => ?_,
    s.run_sknOnly _ (by rw [heq]; exact (Dev.SknOnly.self _).lapEnd _ _)⟩
  rw [State.run_dev, heq]
  exact Dev.settle_keeps _ _ (s.dev.lapEnd_reported 0 x (hseg.symm.trans hroot) hbad)

/-- Settles O52: a block is judged as its register's write, and each AUDIT command acts on the skein part alone; the lemmas above compute
both. -/
theorem layoutActivationAndAudit : Obligations.LayoutActivationAndAudit := by
  intro s k
  refine ⟨fun a v hacc => ?_, fun a v hacc => ?_, exec_auditLaunch s, fun p head west wrapped x hret => ?_,
    fun p head west wrapped x hin hj => ⟨exec_audit_node s p head west wrapped x hin hj, exec_audit_home s p head west wrapped x hin hj⟩⟩
  · exact ⟨fun code detail h => exec_lstageWrite_refused s a v hacc code detail (Dev.judgeStage_refused _ _ code detail h),
      exec_lstageWrite_staged s a v hacc⟩
  · exact ⟨fun code detail h => exec_lactWrite_refused s a v hacc code detail (Dev.judgeAct_refused _ _ code detail h),
      exec_lactWrite_added s a v hacc⟩
  · obtain ⟨hmem, hskn, hframe⟩ := s.run_retimes p _ _ hret (audit_retimer s.dev p head west wrapped x hret)
    exact ⟨_, _, rfl, hmem, hskn, rfl, rfl, rfl, rfl, rfl, hframe⟩

end Sys2Proof.Machine
end

section
/-! SUPPORT. The doffer's frames, slots and blocks (11 R382 to R401; 03 R91). -/

namespace Sys2Proof.Machine

/-- `e` differs from `d` in the streams, the ply link, in what a report changes and in the pins that follow, and in nothing else. -/
def Dev.DofferOnly (e d : Dev) : Prop := { e.unreport d with streams := d.streams, ply := d.ply } = d

namespace Dev.DofferOnly

variable {e d : Dev}

theorem self (d : Dev) : d.DofferOnly d := rfl
theorem onPly (h : e.DofferOnly d) (f : Ply → Ply) : (e.onPly f).DofferOnly d := h
theorem onStream (h : e.DofferOnly d) (st : StreamNo) (f : Stream → Stream) : (e.onStream st f).DofferOnly d := h

end Dev.DofferOnly

/-- A command that changes the streams and the link alone. -/
theorem State.run_dofferOnly (d e : Dev) (h : e.DofferOnly d) :
    { e.settle.unreport d with streams := d.streams, ply := d.ply } = d := by
  rw [Dev.unreport_settle]
  exact h

/-! ### The doffer's queue (R389) -/

/-- The device with packets at the end of the doffer's queue. -/
def Dev.queued (d : Dev) (xs : List OutPkt) : Dev := d.onPly fun p => { p with queue := p.queue ++ xs }

theorem Dev.queued_queued (d : Dev) (xs ys : List OutPkt) : (d.queued xs).queued ys = d.queued (xs ++ ys) := by
  simp only [Dev.queued, Dev.onPly, List.append_assoc]

/-- A packet is queued while the link has lanes. -/
theorem Dev.pushPkt_queued (d : Dev) (h prio ptype id line : Nat) (payload : List Byte) (key : Nat) (hmap : d.ply.map ≠ 0) :
    d.pushPkt h prio ptype id line payload key = d.queued [⟨2, h, prio, ptype, id, line, payload, key⟩] := if_neg hmap

/-- What the packets of a list of lines look like in the queue. -/
def linePkts (h prio id key : Nat) (ls : List (List Byte × Nat)) : List OutPkt := ls.map fun p => ⟨2, h, prio, 1, id, p.2, p.1, key⟩

theorem Dev.pushLines_queued (d : Dev) (h prio id key : Nat) (ls : List (List Byte × Nat)) (hmap : d.ply.map ≠ 0) :
    ls.foldl (fun x p => x.pushPkt h prio 1 id p.2 p.1 key) d = d.queued (linePkts h prio id key ls) := by
  induction ls generalizing d with
  | nil =>
    simp only [List.foldl_nil, linePkts, List.map_nil, Dev.queued, Dev.onPly, List.append_nil]
  | cons p ls ih =>
    rw [List.foldl_cons, Dev.pushPkt_queued _ _ _ _ _ _ _ _ hmap, ih (d.queued _) hmap, Dev.queued_queued]
    rfl

/-- Packet type and stream of a queued packet. -/
def OutPkt.kind (x : OutPkt) : Nat × Nat := (x.ptype, x.id)

theorem kind_linePkts (h prio id key : Nat) (ls : List (List Byte × Nat)) :
    (linePkts h prio id key ls).map OutPkt.kind = List.replicate ls.length (1, id) := by
  simp [linePkts, OutPkt.kind, Function.comp_def]

/-! ### Whole frames (R382, R391, R393; 03 R91) -/

/-- A whole frame goes into the queue: frame start, its lines and its slub map unless the stream is shed, frame end. -/
theorem Dev.sendWhole_queued (d : Dev) (st : StreamNo) (e : StreamCfg) (r : Rec) (lines : List (List Byte)) (slub : Option (List Byte))
    (hmap : d.ply.map ≠ 0) :
    ∃ xs, d.sendWhole st e r lines slub = (d.queued xs).onStream st (fun g => { g with afterReneg := false }) ∧
      xs.map OutPkt.kind = ((2, st.val) :: (if d.shed st = true then [] else
        List.replicate lines.length (1, st.val) ++ (slub.map fun _ => (5, st.val)).toList)) ++ [(3, st.val)] := by
  unfold Dev.sendWhole
  extract_lets h key d1 sent d2 d3
  let slubs : List OutPkt := if d.shed st then [] else (slub.map fun b => ⟨2, h, e.priority, 5, st.val, 0, b, key⟩).toList
  let body := linePkts h e.priority st.val key sent.zipIdx
  have hd1 : d1 = d.queued [⟨2, h, e.priority, 2, st.val, 0, d.recordBytes r none, key⟩] := d.pushPkt_queued _ _ _ _ _ _ _ hmap
  have hmap1 : d1.ply.map ≠ 0 := by rw [hd1]; exact hmap
  have hd2 : d2 = d1.queued body := d1.pushLines_queued h e.priority st.val key _ hmap1
  have hmap2 : d2.ply.map ≠ 0 := by rw [hd2]; exact hmap1
  have hd3 : d3 = d2.queued slubs := by
    have hnone : d2.queued [] = d2 := by simp only [Dev.queued, Dev.onPly, List.append_nil]
    cases slub with
    | none => simp only [d3, slubs, Option.map_none, Option.toList_none, ite_self, hnone]
    | some b =>
      cases hshed : d.shed st
      · simp only [d3, slubs, hshed, Bool.false_eq_true, if_false, Option.map_some, Option.toList_some]
        exact d2.pushPkt_queued _ _ _ _ _ _ _ hmap2
      · simp only [d3, slubs, hshed, if_true, hnone]
  have hmap3 : d3.ply.map ≠ 0 := by rw [hd3]; exact hmap2
  let last : OutPkt := ⟨2, h, e.priority, 3, st.val, 0, d3.recordBytes r (some (crcCfg d3.plyCrc (sent.flatMap (padTo 4)))), key⟩
  have hlast : d3.pushPkt h e.priority 3 st.val 0 last.payload key = d3.queued [last] := d3.pushPkt_queued _ _ _ _ _ _ _ hmap3
  refine ⟨[⟨2, h, e.priority, 2, st.val, 0, d.recordBytes r none, key⟩] ++ body ++ slubs ++ [last], ?_, ?_⟩
  · rw [hlast]
    rw [hd3, hd2, hd1, Dev.queued_queued, Dev.queued_queued, Dev.queued_queued]
    simp only [List.append_assoc]
  · simp only [List.cons_append, List.nil_append, List.map_cons, List.map_append, List.map_nil, body, kind_linePkts, List.length_zipIdx]
    cases hshed : d.shed st
    · cases slub <;> simp [sent, slubs, last, hshed, OutPkt.kind]
    · simp [sent, slubs, last, hshed, OutPkt.kind]

/-- What is new in the queue after packets were added. -/
theorem Dev.queued_drop (d : Dev) (xs : List OutPkt) : (d.queued xs).ply.queue.drop d.ply.queue.length = xs := List.drop_left' rfl
theorem Dev.queued_take (d : Dev) (xs : List OutPkt) : (d.queued xs).ply.queue.take d.ply.queue.length = d.ply.queue := List.take_left' rfl

theorem Dev.onStream_get (d : Dev) (st : StreamNo) (f : Stream → Stream) : (d.onStream st f).streams[st] = f d.streams[st] :=
  upd_same _ _ _

/-- A counted slot of a stream, with packets in the queue: what the clauses on slots say of the state after it. -/
structure SlotDelivered (d e : Dev) (st : StreamNo) (kinds : List (Nat × Nat)) : Prop where
  alive : (e.streams[st]).alive = (d.streams[st]).nextAlive
  counted : (e.streams[st]).counted = true
  added : (e.ply.queue.drop d.ply.queue.length).map (fun y => (y.ptype, y.id)) = kinds
  kept : e.ply.queue.take d.ply.queue.length = d.ply.queue
  frame : e.DofferOnly d

/-- A slot is delivered where a stream was counted, packets were queued, and nothing else but the streams changed. -/
theorem SlotDelivered.of_queued (d e0 : Dev) (st : StreamNo) (g : Stream → Stream) (xs : List OutPkt) (kinds : List (Nat × Nat))
    (hkinds : xs.map OutPkt.kind = kinds) (he0 : e0.DofferOnly d) (hply : e0.ply = d.ply)
    (halive : (g e0.streams[st]).alive = (d.streams[st]).nextAlive) (hcounted : (g e0.streams[st]).counted = true) :
    SlotDelivered d ((e0.queued xs).onStream st g) st kinds where
  alive := by
    rw [Dev.onStream_get]
    exact halive
  counted := by
    rw [Dev.onStream_get]
    exact hcounted
  added := by
    have hq : ((e0.queued xs).onStream st g).ply.queue = (d.queued xs).ply.queue := congrArg (fun p : Ply => p.queue ++ xs) hply
    rw [hq, d.queued_drop]
    exact hkinds
  kept := by
    have hq : ((e0.queued xs).onStream st g).ply.queue = (d.queued xs).ply.queue := congrArg (fun p : Ply => p.queue ++ xs) hply
    rw [hq, d.queued_take]
  frame := (he0.onPly _).onStream _ _

/-- What a whole frame puts into the queue: frame start, unless the stream is shed its lines and what follows them, frame end. -/
def Dev.frameKinds (d : Dev) (st : StreamNo) (body : List (Nat × Nat)) : List (Nat × Nat) :=
  ((2, st.val) :: (if d.shed st = true then [] else body)) ++ [(3, st.val)]

theorem Dev.onStream_onStream (d : Dev) (st : StreamNo) (f g : Stream → Stream) :
    (d.onStream st f).onStream st g = d.onStream st fun x => g (f x) := by
  simp only [Dev.onStream, upd_upd]

theorem Dev.countSlot_get (d : Dev) (st : StreamNo) :
    (d.countSlot st).streams[st] = { d.streams[st] with alive := (d.streams[st]).nextAlive, counted := true } := d.onStream_get st _

/-- A WARMING frame (03 R90) is counted and delivered whole. -/
theorem Dev.warmFrame_delivers (d : Dev) (st : StreamNo) (l : LayoutCfg) (e : StreamCfg) (lost : Bool) (hmap : d.ply.map ≠ 0) :
    ∃ xs, d.warmFrame st l e lost = ((d.countSlot st).queued xs).onStream st (fun g => { g with afterReneg := false }) ∧
      xs.map OutPkt.kind = d.frameKinds st (List.replicate e.height (1, st.val)) := by
  unfold Dev.warmFrame
  extract_lets n w q d1 r
  obtain ⟨xs, heq, hkinds⟩ := d1.sendWhole_queued st e r (List.replicate e.height e.greyLine) none hmap
  refine ⟨xs, heq, hkinds.trans ?_⟩
  rw [List.length_replicate, Option.map_none, Option.toList_none, List.append_nil]
  rfl

/-- A WARMING frame as a slot's delivery, whatever else of the streams was noted before. -/
theorem SlotDelivered.warm (d d0 : Dev) (st : StreamNo) (l : LayoutCfg) (e : StreamCfg) (lost : Bool) (hmap : d.ply.map ≠ 0)
    (h0 : d0.DofferOnly d) (hply : d0.ply = d.ply) (hnext : (d0.streams[st]).nextAlive = (d.streams[st]).nextAlive) :
    SlotDelivered d (d0.warmFrame st l e lost) st (d.frameKinds st (List.replicate e.height (1, st.val))) := by
  obtain ⟨xs, heq, hkinds⟩ := d0.warmFrame_delivers st l e lost (by rw [hply]; exact hmap)
  rw [heq]
  refine SlotDelivered.of_queued d (d0.countSlot st) st _ xs _ (hkinds.trans ?_) (h0.onStream _ _) hply ?_ ?_
  · unfold Dev.frameKinds Dev.shed
    rw [hply]
  · rw [d0.countSlot_get]
    exact hnext
  · rw [d0.countSlot_get]

/-- A WARMING frame leaves the slot timer. -/
theorem Dev.warmFrame_slotAt (d : Dev) (st : StreamNo) (l : LayoutCfg) (e : StreamCfg) (lost : Bool) (hmap : d.ply.map ≠ 0) :
    ((d.warmFrame st l e lost).streams[st]).slotAt = (d.streams[st]).slotAt := by
  obtain ⟨xs, heq, -⟩ := d.warmFrame_delivers st l e lost hmap
  rw [heq, Dev.onStream_get]
  show ((d.countSlot st).streams[st]).slotAt = _
  rw [d.countSlot_get]

/-- After a command that delivered a slot. -/
theorem SlotDelivered.settled {d e : Dev} {st : StreamNo} {kinds : List (Nat × Nat)} (h : SlotDelivered d e st kinds) :
    (e.settle.streams[st]).alive = (d.streams[st]).nextAlive ∧ (e.settle.streams[st]).counted = true ∧
      (e.settle.ply.queue.drop d.ply.queue.length).map (fun y => (y.ptype, y.id)) = kinds ∧
      e.settle.ply.queue.take d.ply.queue.length = d.ply.queue ∧
      { e.settle.unreport d with streams := d.streams, ply := d.ply } = d := by
  rw [Dev.settle_streams, Dev.settle_ply, Dev.unreport_settle]
  exact ⟨h.alive, h.counted, h.added, h.kept, h.frame⟩

theorem warmingSlot_warms (d : Dev) (st : StreamNo) (l : LayoutCfg) (e : StreamCfg) (hcfg : d.slotCfg st = some (l, e))
    (hpath : d.pathOn = true) (hmap : d.ply.map ≠ 0) (hlive : (d.streams[st]).live = false) :
    warmingSlot st d = d.warmFrame st l e (d.cameraLost e) := by
  unfold warmingSlot
  rw [hcfg]
  exact if_neg (by rw [hlive, hpath]; exact fun h => h.elim (by decide) fun h => h.elim (by decide) hmap)

/-- The stream's slot timer restarts. -/
def Dev.slotNoted (d : Dev) (st : StreamNo) : Dev := d.onStream st fun g => { g with slotAt := some d.whl.tim }

theorem Dev.slotNoted_stream (d : Dev) (st : StreamNo) :
    (d.slotNoted st).streams[st] = { d.streams[st] with slotAt := some d.whl.tim } := upd_same _ _ _

/-- A slot timer that may open no slot. -/
theorem repeatSlot_closed (s : State) (st : StreamNo) (l : LayoutCfg) (e : StreamCfg) (hcfg : s.dev.slotCfg st = some (l, e))
    (hrep : s.dev.repeatsSlot e = false) : repeatSlot st s = s := by
  unfold repeatSlot
  dsimp only
  rw [hcfg]
  exact if_pos (Or.inr (by rw [hrep]; rfl))

/-- A slot without a previous frame delivers a WARMING frame. -/
theorem repeatSlot_warms (s : State) (st : StreamNo) (l : LayoutCfg) (e : StreamCfg) (hcfg : s.dev.slotCfg st = some (l, e))
    (hpath : s.dev.pathOn = true) (hrep : s.dev.repeatsSlot e = true) (hprev : (s.dev.streams[st]).prev = none) :
    repeatSlot st s = { s with dev := (s.dev.slotNoted st).warmFrame st l e (s.dev.cameraLost e) } := by
  unfold repeatSlot
  dsimp only
  rw [hcfg]
  refine (if_neg (by simp [hpath, hrep])).trans ?_
  rw [hprev]
  rfl

/-- A slot with a previous frame delivers it again. -/
theorem repeatSlot_repeats (s : State) (st : StreamNo) (l : LayoutCfg) (e : StreamCfg) (p : PrevFrame)
    (hcfg : s.dev.slotCfg st = some (l, e)) (hpath : s.dev.pathOn = true) (hrep : s.dev.repeatsSlot e = true)
    (hprev : (s.dev.streams[st]).prev = some p) :
    ∃ pe r lines slub, ∃ q : PrevFrame,
      repeatSlot st s =
        { s with
          dev := (((s.dev.slotNoted st).countSlot st).sendWhole st pe r lines (some slub)).onStream st fun g =>
            { g with prev := some q } } ∧
      lines.length = p.height ∧ q.num = p.num := by
  unfold repeatSlot
  dsimp only
  rw [hcfg]
  dsimp only
  rw [if_neg (by simp [hpath, hrep]), hprev]
  exact ⟨_, _, _, _, _, rfl, by rw [List.length_map, List.length_range], rfl⟩

/-- The clauses on slots: a WARMING slot, a repeat slot without and with a previous frame, and a timer that opens no slot. -/
theorem exec_slots (s : State) (st : StreamNo) (l : LayoutCfg) (e : StreamCfg) (hmap : s.dev.ply.map ≠ 0)
    (hcfg : s.dev.slotCfg st = some (l, e)) (hpath : s.dev.pathOn = true) :
    let Warms : State → Prop := fun t =>
      t.mem = s.mem ∧ (t.dev.streams[st]).alive = (s.dev.streams[st]).nextAlive ∧ (t.dev.streams[st]).counted = true ∧
      (t.dev.ply.queue.drop s.dev.ply.queue.length).map (fun y => (y.ptype, y.id)) =
        ((2, st.val) :: (if s.dev.shed st = true then [] else List.replicate e.height (1, st.val))) ++ [(3, st.val)] ∧
      t.dev.ply.queue.take s.dev.ply.queue.length = s.dev.ply.queue ∧
      { t.dev.unreport s.dev with streams := s.dev.streams, ply := s.dev.ply } = s.dev
    ((s.dev.streams[st]).live = false → ∃ t, exec (.warmingSlot st) s = .next t ∧ Warms t) ∧
    (s.dev.repeatsSlot e = true → (s.dev.streams[st]).prev = none →
      ∃ t, exec (.repeatSlot st) s = .next t ∧ Warms t ∧ (t.dev.streams[st]).slotAt = some s.dev.whl.tim) ∧
    (s.dev.repeatsSlot e = false → ∃ t, exec (.repeatSlot st) s = .next t ∧ t.mem = s.mem ∧ t.dev.unreport s.dev = s.dev) ∧
    (∀ p, s.dev.repeatsSlot e = true → (s.dev.streams[st]).prev = some p →
      ∃ t, exec (.repeatSlot st) s = .next t ∧ t.mem = s.mem ∧ (t.dev.streams[st]).alive = (s.dev.streams[st]).nextAlive ∧
        (t.dev.streams[st]).slotAt = some s.dev.whl.tim ∧ ((t.dev.streams[st]).prev.map fun x => x.num) = some p.num ∧
        (t.dev.ply.queue.drop s.dev.ply.queue.length).map (fun y => (y.ptype, y.id)) =
          ((2, st.val) :: (if s.dev.shed st = true then [] else List.replicate p.height (1, st.val) ++ [(5, st.val)])) ++ [(3, st.val)] ∧
        t.dev.ply.queue.take s.dev.ply.queue.length = s.dev.ply.queue ∧
        { t.dev.unreport s.dev with streams := s.dev.streams, ply := s.dev.ply } = s.dev) := by
  intro Warms
  have hself := Dev.DofferOnly.self s.dev
  refine ⟨fun hlive => ?_, fun hrep hprev => ?_, fun hrep => ?_, fun p hrep hprev => ?_⟩
  · have hdel := (SlotDelivered.warm s.dev s.dev st l e (s.dev.cameraLost e) hmap hself rfl rfl).settled
    rw [← warmingSlot_warms s.dev st l e hcfg hpath hmap hlive] at hdel
    exact ⟨s.run (warmingSlot st), rfl, rfl, hdel⟩
  · have heq := repeatSlot_warms s st l e hcfg hpath hrep hprev
    have hnext : ((s.dev.slotNoted st).streams[st]).nextAlive = (s.dev.streams[st]).nextAlive := by
      rw [s.dev.slotNoted_stream]
      rfl
    have hdel := (SlotDelivered.warm s.dev (s.dev.slotNoted st) st l e (s.dev.cameraLost e) hmap (hself.onStream _ _) rfl hnext).settled
    refine ⟨s.runM (repeatSlot st), rfl, ?_, ?_⟩
    · refine ⟨by rw [State.runM_mem, heq], ?_⟩
      rw [State.runM_dev, heq]
      exact hdel
    · rw [State.runM_dev, heq, Dev.settle_streams]
      exact ((s.dev.slotNoted st).warmFrame_slotAt st l e _ hmap).trans (congrArg Stream.slotAt (s.dev.slotNoted_stream st))
  · have heq := repeatSlot_closed s st l e hcfg hrep
    refine ⟨s.runM (repeatSlot st), rfl, by rw [State.runM_mem, heq], ?_⟩
    rw [State.runM_dev, heq, Dev.unreport_settle, Dev.unreport_self]
  · obtain ⟨pe, r, lines, slub, q, heq, hlen, hnum⟩ := repeatSlot_repeats s st l e p hcfg hpath hrep hprev
    let d1 := (s.dev.slotNoted st).countSlot st
    obtain ⟨xs, hsend, hkinds⟩ := d1.sendWhole_queued st pe r lines (some slub) hmap
    let g : Stream → Stream := fun x => { x with afterReneg := false, prev := some q }
    have hdev : (repeatSlot st s).dev = (d1.queued xs).onStream st g := by
      rw [heq]
      show (d1.sendWhole st pe r lines (some slub)).onStream st _ = _
      rw [hsend, Dev.onStream_onStream]
    have hget : d1.streams[st] =
        { (s.dev.slotNoted st).streams[st] with alive := ((s.dev.slotNoted st).streams[st]).nextAlive, counted := true } :=
      Dev.countSlot_get _ _
    rw [s.dev.slotNoted_stream] at hget
    have hdel := (SlotDelivered.of_queued s.dev d1 st g xs _ hkinds ((hself.onStream _ _).onStream _ _) rfl (by rw [hget]; rfl)
      (by rw [hget])).settled
    rw [← hdev, hlen] at hdel
    obtain ⟨halive, -, hadded, hkept, hframe⟩ := hdel
    have hstream : (s.runM (repeatSlot st)).dev.streams[st] = g d1.streams[st] := by
      rw [State.runM_dev, Dev.settle_streams, hdev, Dev.onStream_get]
      rfl
    refine ⟨s.runM (repeatSlot st), rfl, by rw [State.runM_mem, heq], halive, ?_, ?_, hadded, hkept, hframe⟩
    · rw [hstream, hget]
    · rw [hstream]
      exact congrArg some hnum

/-! ### Frame end (R382, R390; 07 R255) -/

theorem PrevFrame.repeats_num (p : PrevFrame) (prior : Option PrevFrame) : (p.repeats prior).num = p.num := by
  cases prior <;> rfl

/-- A frame whose stream entry is known becomes a previous frame under its own number. -/
theorem Dev.asPrev_num (d : Dev) (st : StreamNo) (f : OutFrame) (prior : Option PrevFrame) (c : LayoutCfg × StreamCfg)
    (hcfg : d.cfgOf st f = some c) : ∃ p, d.asPrev st f prior = some p ∧ p.num = f.num := by
  unfold Dev.asPrev
  rw [hcfg, Option.map_some]
  refine ⟨_, rfl, ?_⟩
  dsimp only
  split_ifs
  · exact PrevFrame.repeats_num _ _
  · rfl

/-- FRAME_END_SEND with the last band sent and the sources closed: the slub map where tiles were substituted, frame end, and the frame is
the stream's previous frame. -/
theorem frameEndSend_ends (d : Dev) (st : StreamNo) (f : OutFrame) (fs : List OutFrame) (l : LayoutCfg) (e : StreamCfg)
    (hmap : d.ply.map ≠ 0) (hframes : (d.streams[st]).frames = f :: fs) (hcfg : d.cfgOf st f = some (l, e)) (hall : f.handed = l.rows e)
    (hclosed : (d.sourcesOf f).all (fun p => !p.2.isOpen) = true) (hsent : d.ply.linesSent st.val f.key = true) (hlost : f.lost = false) :
    ∃ (slubs : List OutPkt) (last : OutPkt) (prev : Stream → Option PrevFrame),
      frameEndSend st d = (d.queued (slubs ++ [last])).onStream st (fun g => { g with frames := fs, prev := prev g }) ∧
      slubs.length = (if f.notOwn = [] ∨ d.shed st = true then 0 else 1) ∧
      (last.ptype = 3 ∧ last.id = st.val ∧ last.key = f.key) ∧ ∀ g, (prev g).map (fun p => p.num) = some f.num := by
  unfold frameEndSend
  rw [hframes]
  dsimp -zeta only
  rw [hcfg]
  dsimp -zeta only
  rw [if_pos ⟨hall, hclosed, hsent⟩, hlost]
  extract_lets h f1 before filled d1 r own d2
  let slubs : List OutPkt := if f.notOwn = [] ∨ d.shed st = true then [] else
    [⟨2, h, e.priority, 5, st.val, 0, slubMap st.val (l.cols e) (l.rows e) f.repeated before.isNone f.num
      ((before.map fun p => p.num).getD 0xFFFFFFFF) f.notOwn filled, f.key⟩]
  have hd1 : d1 = d.queued slubs := by
    simp only [d1, slubs, List.isEmpty_iff, Bool.false_eq_true, or_false]
    split_ifs
    · simp only [Dev.queued, Dev.onPly, List.append_nil]
    · exact d.pushPkt_queued _ _ _ _ _ _ _ hmap
  have hmap1 : d1.ply.map ≠ 0 := by rw [hd1]; exact hmap
  let last : OutPkt := ⟨2, h, e.priority, 3, st.val, 0, d1.recordBytes r (some (crcCfg d1.plyCrc f.sentLines)), f.key⟩
  have hd2 : d2 = d.queued (slubs ++ [last]) := by
    have hpush : d2 = d1.queued [last] := (if_neg (by decide)).trans (d1.pushPkt_queued _ _ _ _ _ _ _ hmap1)
    rw [hpush, hd1, Dev.queued_queued]
  refine ⟨slubs, last, fun g => ((d2.asPrev st f1 g.prev).map own).or g.prev, ?_, ?_, ⟨rfl, rfl, rfl⟩, fun g => ?_⟩
  · exact congrArg (fun x : Dev => x.onStream st fun g => { g with frames := fs, prev := ((d2.asPrev st f1 g.prev).map own).or g.prev }) hd2
  · simp only [slubs]
    split_ifs <;> rfl
  · have hcfg2 : d2.cfgOf st f1 = some (l, e) := by
      rw [hd2]
      exact hcfg
    obtain ⟨p, hp, hnum⟩ := d2.asPrev_num st f1 g.prev _ hcfg2
    have hown : (own p).num = f.num := by
      simp only [own]
      split_ifs <;> exact hnum
    dsimp only
    rw [hp, Option.map_some, Option.some_or, Option.map_some, hown]

/-- FRAME_END_SEND, as the clause on it says. -/
theorem exec_frameEndSend (s : State) (st : StreamNo) (f : OutFrame) (fs : List OutFrame) (l : LayoutCfg) (e : StreamCfg)
    (hmap : s.dev.ply.map ≠ 0) (hframes : (s.dev.streams[st]).frames = f :: fs) (hcfg : s.dev.cfgOf st f = some (l, e))
    (hall : f.handed = l.rows e) (hclosed : (s.dev.sourcesOf f).all (fun p => !p.2.isOpen) = true)
    (hsent : s.dev.ply.linesSent st.val f.key = true) (hlost : f.lost = false) :
    ∃ t, exec (.frameEndSend st) s = .next t ∧ t.mem = s.mem ∧ (t.dev.streams[st]).frames = fs ∧
      (∃ y, t.dev.ply.queue.getLast? = some y ∧ y.ptype = 3 ∧ y.id = st.val ∧ y.key = f.key) ∧
      t.dev.ply.queue.length = s.dev.ply.queue.length + (if f.notOwn = [] ∨ s.dev.shed st = true then 1 else 2) ∧
      ((t.dev.streams[st]).prev.map fun p => p.num) = some f.num ∧
      (∀ u, u ≠ st → t.dev.streams[u] = s.dev.streams[u]) ∧
      { t.dev.unreport s.dev with streams := s.dev.streams, ply := s.dev.ply } = s.dev := by
  obtain ⟨slubs, last, prev, heq, hlen, hlast, hprev⟩ :=
    frameEndSend_ends s.dev st f fs l e hmap hframes hcfg hall hclosed hsent hlost
  let g : Stream → Stream := fun x => { x with frames := fs, prev := prev x }
  have hqueue : (s.run (frameEndSend st)).dev.ply.queue = s.dev.ply.queue ++ (slubs ++ [last]) := by
    rw [State.run_dev, Dev.settle_ply, heq]
    rfl
  have hstreams : (s.run (frameEndSend st)).dev.streams = upd s.dev.streams st g := by
    rw [State.run_dev, Dev.settle_streams, heq]
    rfl
  have hstream : (s.run (frameEndSend st)).dev.streams[st] = g s.dev.streams[st] := by rw [hstreams, upd_same]
  refine ⟨s.run (frameEndSend st), rfl, rfl, by rw [hstream], ⟨last, ?_, hlast⟩, ?_, ?_, fun u hu => ?_, ?_⟩
  · rw [hqueue, ← List.append_assoc, List.getLast?_concat]
  · rw [hqueue, List.length_append, List.length_append, hlen]
    split_ifs <;> rfl
  · rw [hstream]
    exact hprev _
  · rw [hstreams, upd_other _ _ _ _ hu]
  · refine State.run_dofferOnly s.dev (frameEndSend st s.dev) ?_
    rw [heq]
    exact ((Dev.DofferOnly.self _).onPly _).onStream _ _

/-! ### Health packets (R396) and acknowledgements (R401) -/

theorem Dev.pushHealth_frame (d : Dev) : d.pushHealth.streams = d.streams ∧ d.pushHealth.ply.queue.length = d.ply.queue.length + 1 :=
  ⟨rfl, List.length_append⟩

theorem Dev.pushHealths_frame (d : Dev) (l : List Nat) :
    (l.foldl (fun e _ => e.pushHealth) d).streams = d.streams ∧
      (l.foldl (fun e _ => e.pushHealth) d).ply.queue.length = d.ply.queue.length + l.length := by
  induction l generalizing d with
  | nil => exact ⟨rfl, rfl⟩
  | cons x xs ih =>
    obtain ⟨hstreams, hlen⟩ := ih d.pushHealth
    refine ⟨hstreams, hlen.trans ?_⟩
    rw [d.pushHealth_frame.2, List.length_cons]
    omega

theorem exec_healthPacketDue (s : State) (hrun : s.dev.ply.running = true) :
    ∃ t, exec .healthPacketDue s = .next t ∧ t.mem = s.mem ∧ t.dev.streams = s.dev.streams ∧
      t.dev.ply.queue.length = s.dev.ply.queue.length + max 1 ((s.dev.ply.results.length + 31) / 32) := by
  have heq : healthPacketDue s.dev =
      (List.range (max 1 ((s.dev.ply.results.length + 31) / 32))).foldl (fun e _ => e.pushHealth) s.dev := if_pos hrun
  obtain ⟨hstreams, hlen⟩ := s.dev.pushHealths_frame (List.range (max 1 ((s.dev.ply.results.length + 31) / 32)))
  rw [← heq, List.length_range] at hlen
  rw [← heq] at hstreams
  refine ⟨s.run healthPacketDue, rfl, rfl, ?_, ?_⟩
  · rw [State.run_dev, Dev.settle_streams, hstreams]
  · rw [State.run_dev, Dev.settle_ply, hlen]

/-- The replay buffer as queue 196 holds one packet per block. -/
theorem Dev.heldQueue_replay (d : Dev) : (d.heldQueue 196).pkts.length = d.ply.buffer.length := by
  simp [Dev.heldQueue, Ply.replayQueue]

theorem exec_ack (s : State) (up : Byte) (seq : BitVec 24) (hrun : s.dev.ply.running = true) (hopen : s.dev.returnOpen = true)
    (hlater : later24 seq s.dev.ply.acked = true) (hsent : later24 seq s.dev.ply.newest = false) :
    ∃ t, exec (.ack up seq) s = .next t ∧ t.mem = s.mem ∧ t.dev.streams = s.dev.streams ∧ t.dev.ply.acked = seq ∧
      (t.dev.heldQueue 196).pkts.length = (s.dev.ply.buffer.filter fun b => later24 b.1 seq).length := by
  have heq : ∃ f : Ply → Ply, ack up seq s.dev = s.dev.onPly f ∧ (f s.dev.ply).acked = seq ∧
      (f s.dev.ply).buffer = s.dev.ply.buffer.filter fun b => later24 b.1 seq := by
    unfold ack
    dsimp only
    rw [if_pos ⟨hrun, hopen, hlater⟩, hsent]
    exact ⟨_, rfl, rfl, rfl⟩
  obtain ⟨f, heq, hacked, hbuffer⟩ := heq
  have hply : (s.run (ack up seq)).dev.ply = f s.dev.ply := by
    rw [State.run_dev, Dev.settle_ply, heq]
    rfl
  refine ⟨s.run (ack up seq), rfl, rfl, ?_, by rw [hply, hacked], ?_⟩
  · rw [State.run_dev, Dev.settle_streams, heq]
    rfl
  · rw [Dev.heldQueue_replay, hply, hbuffer]

/-! ### Blocks (R389, R401) -/

/-- What filling a block leaves as it is: the streams and the replay buffer. -/
def Dev.sendView (d : Dev) : Vector Stream 64 × List (BitVec 24 × List Byte) := (d.streams, d.ply.buffer)

theorem Dev.trimCredits_sendView (d : Dev) : d.trimCredits.sendView = d.sendView := by
  rw [Dev.trimCredits]
  split <;> rfl

theorem Dev.raise_sendView (d : Dev) (b s x : Nat) : (d.raise b s x).sendView = d.sendView := by
  simp only [Dev.sendView, Dev.raise_streams, Dev.raise_ply]

theorem Dev.onPly_sendView (d : Dev) (f : Ply → Ply) (h : (f d.ply).buffer = d.ply.buffer) : (d.onPly f).sendView = d.sendView :=
  congrArg (Prod.mk d.streams) h

theorem Dev.passDoffer_sendView (d : Dev) (q : Nat) : (d.passDoffer q).sendView = d.sendView :=
  Dev.trimCredits_sendView _

theorem Dev.withholdHanks_sendView (d : Dev) (n : StrandNo) : (d.withholdHanks n).sendView = d.sendView := by
  unfold Dev.withholdHanks
  extract_lets mine lost d1 d2 d3
  have hd1 : d1.sendView = d.sendView := by
    refine (Dev.trimCredits_sendView _).trans (Dev.foldl_view Dev.sendView _ ?_ _ _)
    exact fun _ _ => rfl
  have hd3 : d3.sendView = d.sendView := hd1
  split_ifs
  · exact (d3.raise_sendView _ _ _).trans hd3
  · exact hd3

theorem Dev.dropBad_sendView (d : Dev) (q : Nat) (p : Pkt) : (d.dropBad q p).sendView = d.sendView := by
  unfold Dev.dropBad
  extract_lets d1
  have hd1 : d1.sendView = d.sendView := Dev.raise_sendView _ _ _ _
  split_ifs
  · exact (d1.passDoffer_sendView q).trans hd1
  · exact (d1.withholdHanks_sendView _).trans hd1

theorem Dev.nextPacket_sendView (d e : Dev) (bs : List Byte) (h : d.nextPacket = some (bs, e)) : e.sendView = d.sendView := by
  unfold Dev.nextPacket at h
  split at h
  next q p _ =>
    split_ifs at h
    · obtain ⟨-, rfl⟩ := Prod.mk.inj (Option.some.inj h)
      exact d.passDoffer_sendView q
    · obtain ⟨-, rfl⟩ := Prod.mk.inj (Option.some.inj h)
      exact (Dev.onPly_sendView _ _ rfl).trans (d.passDoffer_sendView q)
  next =>
    obtain ⟨x, -, hx⟩ := Option.map_eq_some_iff.mp h
    obtain ⟨-, rfl⟩ := Prod.mk.inj hx
    exact Dev.onPly_sendView _ _ rfl

/-- Filling a block takes packets from queues, and only adds to the bytes it has. -/
theorem fillPayload_keeps (fuel : Nat) (bad : List Nat) (acc : List Byte) (first : Option Nat) (d : Dev) :
    (fillPayload fuel bad acc first d).2.2.sendView = d.sendView ∧ acc.length ≤ (fillPayload fuel bad acc first d).1.length := by
  induction fuel generalizing bad acc first d with
  | zero => exact ⟨rfl, le_rfl⟩
  | succ fuel ih =>
    rw [fillPayload]
    split_ifs
    · exact ⟨rfl, le_rfl⟩
    split
    next q p _ =>
      obtain ⟨hview, hlen⟩ := ih (bad.erase q) acc first (d.dropBad q p)
      exact ⟨hview.trans (d.dropBad_sendView q p), hlen⟩
    next =>
      split
      next bs e hnext =>
        obtain ⟨hview, hlen⟩ := ih bad (acc ++ bs) (some (first.getD acc.length)) e
        rw [List.length_append] at hlen
        exact ⟨hview.trans (d.nextPacket_sendView e bs hnext), by omega⟩
      next => exact ⟨rfl, le_rfl⟩

theorem packetBytes_length_pos (ptype id line : Nat) (payload : List Byte) : 0 < (packetBytes ptype id line payload).length := by
  simp only [packetBytes, padTo, List.length_append, le_length]
  omega

/-- A health packet that waits is the next packet, before any statistics packet or hank. -/
theorem Dev.nextPacket_health (d : Dev) (h : ∃ x ∈ d.ply.queue, x.cls = 1) :
    d.nextPool = none ∧ ∃ bs e, d.nextPacket = some (bs, e) ∧ 0 < bs.length := by
  obtain ⟨x, hx, hcls⟩ := h
  obtain ⟨y, hy⟩ : ∃ y, d.ply.queue.find? (fun x => decide (x.cls = 1)) = some y :=
    Option.isSome_iff_exists.mp (List.find?_isSome.mpr ⟨x, hx, decide_eq_true hcls⟩)
  have hhigh : d.ply.nextHigh = some y := by
    unfold Ply.nextHigh
    rw [hy, Option.some_or]
  have hpool : d.nextPool = none := if_pos (by rw [hhigh]; rfl)
  obtain ⟨e, he⟩ : ∃ e, d.nextPacket = some (packetBytes y.ptype y.id y.line y.payload, e) := by
    unfold Dev.nextPacket
    rw [hpool]
    dsimp only
    rw [hhigh, Option.some_or, Option.map_some]
    exact ⟨_, rfl⟩
  exact ⟨hpool, _, e, he, packetBytes_length_pos _ _ _ _⟩

/-- With a health packet waiting a block has something to carry. -/
theorem fillPayload_health (fuel : Nat) (bad : List Nat) (acc : List Byte) (first : Option Nat) (d : Dev)
    (h : ∃ x ∈ d.ply.queue, x.cls = 1) : 0 < (fillPayload (fuel + 1) bad acc first d).1.length := by
  obtain ⟨hpool, bs, e, hnext, hpos⟩ := d.nextPacket_health h
  rw [fillPayload]
  split_ifs
  · dsimp only
    omega
  rw [hpool, Option.filter_none]
  dsimp only
  rw [hnext]
  dsimp only
  have hlen := (fillPayload_keeps fuel bad (acc ++ bs) (some (first.getD acc.length)) e).2
  rw [List.length_append] at hlen
  omega

/-- A new block goes into the replay buffer where there is something to carry. -/
theorem Dev.sendNew_sendView (d : Dev) (bad : List Nat) (h : ∃ x ∈ d.ply.queue, x.cls = 1) :
    (d.sendNew bad).streams = d.streams ∧ (d.sendNew bad).ply.buffer.length = d.ply.buffer.length + 1 := by
  let d0 : Dev := { d with ply := { d.ply with rest := [], stalled := false } }
  let r := fillPayload (62 + bad.length) bad d.ply.rest none d0
  have hview : r.2.2.sendView = d.sendView := (fillPayload_keeps _ _ _ _ d0).1
  have hpos : 0 < r.1.length := by
    have hfuel : 62 + bad.length = (61 + bad.length) + 1 := by omega
    show 0 < (fillPayload (62 + bad.length) bad d.ply.rest none d0).1.length
    rw [hfuel]
    exact fillPayload_health _ _ _ _ d0 h
  have hne : ¬r.1.isEmpty = true := fun hempty => by
    rw [List.isEmpty_iff.mp hempty] at hpos
    cases hpos
  obtain ⟨hstreams, hbuffer⟩ := Prod.mk.inj hview
  unfold Dev.sendNew
  extract_lets r' bs
  rw [if_neg hne]
  exact ⟨hstreams, by rw [← hbuffer]; exact List.length_append⟩

theorem Dev.countCorrected_ply (d : Dev) (store : Fin 2) (n : Nat) : (d.countCorrected store n).ply = d.ply := by
  unfold Dev.countCorrected
  split_ifs
  · rfl
  · exact Dev.raise_ply _ _ _ _

theorem Dev.countCorrected_streams (d : Dev) (store : Fin 2) (n : Nat) : (d.countCorrected store n).streams = d.streams := by
  unfold Dev.countCorrected
  split_ifs
  · rfl
  · exact Dev.raise_streams _ _ _ _

/-- BLOCK_SEND with a health packet waiting. -/
theorem exec_blockSend_health (s : State) (bad : List Nat) (corrected : Nat) (hrun : s.dev.ply.running = true)
    (hshed : s.dev.ply.shedNext = none) (hresend : s.dev.ply.resend = []) (hroom : s.dev.ply.buffer.length < 2048)
    (hhealth : ∃ x ∈ s.dev.ply.queue, x.cls = 1) :
    ∃ t, exec (.blockSend false bad corrected) s = .next t ∧ t.mem = s.mem ∧ t.dev.streams = s.dev.streams ∧
      (t.dev.heldQueue 196).pkts.length = (s.dev.heldQueue 196).pkts.length + 1 := by
  let d1 := s.dev.countCorrected 0 corrected
  have hply : d1.ply = s.dev.ply := s.dev.countCorrected_ply 0 corrected
  have hstreams : d1.streams = s.dev.streams := s.dev.countCorrected_streams 0 corrected
  let d2 := d1.onPly fun p => { p with st := .up }
  have hsend : blockSend false bad corrected s.dev = d2.sendNew bad := by
    have happly : s.dev.applyShed = s.dev := by
      unfold Dev.applyShed
      rw [hshed]
    have hresend1 : d1.ply.resend = [] := by rw [hply, hresend]
    have hroom2 : ¬2048 ≤ d2.ply.buffer.length := by
      show ¬2048 ≤ d1.ply.buffer.length
      rw [hply]
      omega
    unfold blockSend
    rw [hrun, happly]
    dsimp only
    rw [if_neg (by decide), hresend1]
    exact if_neg hroom2
  have hhealth2 : ∃ x ∈ d2.ply.queue, x.cls = 1 := by
    show ∃ x ∈ d1.ply.queue, x.cls = 1
    rw [hply]
    exact hhealth
  obtain ⟨hs, hb⟩ := d2.sendNew_sendView bad hhealth2
  refine ⟨s.run (blockSend false bad corrected), rfl, rfl, ?_, ?_⟩
  · rw [State.run_dev, Dev.settle_streams, hsend, hs]
    exact hstreams
  · rw [Dev.heldQueue_replay, Dev.heldQueue_replay, State.run_dev, Dev.settle_ply, hsend, hb]
    show d1.ply.buffer.length + 1 = _
    rw [hply]

/-- Settles O43: the packets a frame, a slot and the health report add to the queue are computed, and filling a block only takes from the
queues. -/
theorem dofferSlots : Obligations.DofferSlots := by
  intro s st hmap
  refine ⟨fun f fs l e hframes hcfg hall hclosed hsent hlost => exec_frameEndSend s st f fs l e hmap hframes hcfg hall hclosed hsent hlost,
    fun l e hcfg hpath => exec_slots s st l e hmap hcfg hpath, fun hrun => ⟨exec_healthPacketDue s hrun, ?_, ?_⟩⟩
  · exact fun bad corrected hshed hresend hroom hhealth => exec_blockSend_health s bad corrected hrun hshed hresend hroom hhealth
  · exact fun up seq hopen hlater hsent => exec_ack s up seq hrun hopen hlater hsent

end Sys2Proof.Machine
end

section
/-! SUPPORT. The remote ports: the TAP's instructions, Production Test by PTEST, and the accesses of MEMAP, the I2C port and the datagrams (03 R84; 16 R559, R560; 17 R583; 19 R618 to R620). -/

namespace Sys2Proof.Machine

/-! ### What the loss of a port's lock leaves as it is (03 R103, R155) -/

/-- What the entry into Production Test leaves to be seen: the fixtures, the mode and the request count, and a pending layout. -/
def Dev.testView (d : Dev) : (Aon × Option Image × Jtag × Tst × Pairs × Bool) × Mode × Byte × Option Nat :=
  (d.fixtures, d.sys.mode, d.sys.reqCount, d.lay.pending)

theorem Dev.raise_testView (d : Dev) (b x y : Nat) : (d.raise b x y).testView = d.testView := by
  simp only [Dev.testView, Dev.raise_fixtures, Dev.raise_sys_mode, Dev.raise_sys_reqCount, Dev.raise_lay]

theorem Dev.trimCredits_testView (d : Dev) : d.trimCredits.testView = d.testView := by
  rw [Dev.trimCredits]
  split <;> rfl

theorem Dev.commitUnit_testView (d : Dev) (n : Nat) (data : List Byte) (marker : Bool) (readers : List Nat) (frame unit : Nat) :
    (d.commitUnit n data marker readers frame unit).1.testView = d.testView := by
  unfold Dev.commitUnit
  by_cases h : (if marker then 1 else cellsOf data.length) ≤ (d.bob.queue n).room
  · rw [if_pos h]
    rfl
  · rw [if_neg h]
    exact Dev.raise_testView _ _ _ _

theorem Dev.dropTilePkt_testView (d : Dev) (st : StreamNo) (key t : Nat) : (d.dropTilePkt st key t).testView = d.testView := by
  unfold Dev.dropTilePkt
  split_ifs
  · rfl
  · exact Dev.trimCredits_testView _

theorem Dev.markSubst_testView (d : Dev) (st : StreamNo) (key t : Nat) : (d.markSubst st key t).testView = d.testView :=
  Dev.dropTilePkt_testView _ _ _ _

theorem Dev.repeatFrame_testView (d : Dev) (st : StreamNo) (key : Nat) : (d.repeatFrame st key).testView = d.testView := by
  unfold Dev.repeatFrame
  split
  · rfl
  · split
    · rfl
    · exact (Dev.foldl_view Dev.testView _ (fun x t => x.markSubst_testView st key t) _ _).trans rfl

theorem Dev.judgeRepeat_testView (d : Dev) (st : StreamNo) (key : Nat) : (d.judgeRepeat st key).testView = d.testView := by
  unfold Dev.judgeRepeat
  extract_lets d1
  have hd1 : d1.testView = d.testView := rfl
  split
  · split
    · split_ifs
      · exact (d1.repeatFrame_testView st key).trans hd1
      · exact hd1
    · exact hd1
  · exact hd1

theorem Dev.substitute_testView (d : Dev) (st : StreamNo) (key t : Nat) : (d.substitute st key t).testView = d.testView :=
  (Dev.judgeRepeat_testView _ _ _).trans (Dev.markSubst_testView _ _ _ _)

theorem Dev.failSource_testView (d : Dev) (n : StrandNo) (num : Word) : (d.failSource n num).testView = d.testView := by
  refine Dev.foldl_view Dev.testView _ (fun e st => ?_) _ _
  refine Dev.foldl_view Dev.testView _ (fun y f => ?_) _ _
  split
  · rfl
  · refine (Dev.foldl_view Dev.testView _ (fun z t => ?_) _ _).trans rfl
    split
    · split_ifs
      · rfl
      · exact z.substitute_testView _ _ _
    · rfl

/-! ### Starts and requests of a strand -/

theorem Dev.sendTrigger_testView (d : Dev) (n : StrandNo) (t : Trig) : (d.sendTrigger n t).testView = d.testView := rfl

theorem Dev.serveQueued_testView (d : Dev) (n : StrandNo) : (d.serveQueued n).testView = d.testView := by
  unfold Dev.serveQueued
  extract_lets g
  split
  · split_ifs
    · exact Dev.sendTrigger_testView _ _ _
    · rfl
  · rfl

theorem Dev.endBusy_testView (d : Dev) (n : StrandNo) : (d.endBusy n).testView = d.testView := by
  unfold Dev.endBusy
  extract_lets d1 d2
  split
  · exact d1.serveQueued_testView n
  · split_ifs
    · rfl
    · exact d2.sendTrigger_testView _ _
    · rfl

theorem Dev.reportTarget_testView (d : Dev) (n : StrandNo) (r : ExpReq) (code : Byte) : (d.reportTarget n r code).testView = d.testView := by
  unfold Dev.reportTarget Dev.reportReq
  split_ifs <;> rfl

theorem Dev.retire_testView (d : Dev) (n : StrandNo) (num : Word) : (d.retire n num).testView = d.testView := by
  unfold Dev.retire
  extract_lets gone d1
  exact (Dev.foldl_view Dev.testView _ (fun e r => e.reportTarget_testView n r 3) _ d : d1.testView = d.testView)

theorem Dev.dropWrite_testView (d : Dev) (n : StrandNo) (frame : Word) (es : List Exposure) :
    (d.dropWrite n frame es).testView = d.testView := by
  unfold Dev.dropWrite
  extract_lets vs mine d1
  split_ifs
  · rfl
  · exact (Dev.foldl_view Dev.testView _ (fun e r => e.reportTarget_testView n r 3) _ d : d1.testView = d.testView)

theorem Dev.dropMsg_testView (d : Dev) (p : PortNo) (m : BcMsg) : (d.dropMsg p m).testView = d.testView := by
  unfold Dev.dropMsg
  split
  · exact d.dropWrite_testView _ _ _
  · rfl
  · rfl

theorem Dev.sealAbandoned_testView (d : Dev) (n : StrandNo) : (d.sealAbandoned n).testView = d.testView := by
  unfold Dev.sealAbandoned
  extract_lets g
  split
  · exact (Dev.retire_testView _ _ _).trans rfl
  · rfl

/-- With no layout pending a strand adopts nothing. -/
theorem Dev.adoptStrand_none (d : Dev) (n : StrandNo) (h : d.lay.pending = none) : d.adoptStrand n = d := by
  unfold Dev.adoptStrand
  rw [h]

theorem Dev.adoptStrand_testView (d : Dev) (n : StrandNo) (h : d.lay.pending = none) : (d.adoptStrand n).testView = d.testView := by
  rw [d.adoptStrand_none n h]

/-! ### A port loses its lock -/

/-- The memories, and what the entry into Production Test leaves to be seen. -/
def State.testView (s : State) : Mem × (Aon × Option Image × Jtag × Tst × Pairs × Bool) × Mode × Byte × Option Nat :=
  (s.mem, s.dev.testView)

/-- A view that no step of a walk over states changes, the walk does not change. -/
theorem State.foldl_view {α β : Type} (view : State → β) (g : State → α → State) (h : ∀ t a, view (g t a) = view t) (l : List α)
    (s : State) : view (l.foldl g s) = view s :=
  List.foldlRecOn (motive := fun t : State => view t = view s) l g rfl fun t ht a _ => (h t a).trans ht

theorem State.testView_congr (s : State) (e : Dev) (h : e.testView = s.dev.testView) : State.testView { s with dev := e } = s.testView :=
  congrArg (Prod.mk s.mem) h

theorem State.abandonFrame_testView (s : State) (n : StrandNo) : (s.abandonFrame n).testView = s.testView := by
  unfold State.abandonFrame
  split
  · split_ifs
    · extract_lets d1 d2
      have hd2 : d2.testView = s.dev.testView := (Dev.failSource_testView _ _ _).trans (Dev.commitUnit_testView d1 _ _ _ _ _ _)
      apply State.testView_congr
      split
      · exact (d2.endBusy_testView n).trans hd2
      · exact hd2
    · rfl
  · rfl

theorem State.loseLock_testView (s : State) (p : PortNo) (h : s.dev.lay.pending = none) :
    (s.loseLock p false).testView = s.testView := by
  unfold State.loseLock
  extract_lets s0 cut s1 x d1 d1' d2 d3
  have hs1 : s1.testView = s.testView := State.foldl_view State.testView _ (fun t n => t.abandonFrame_testView n) _ s0
  have hmem : s1.mem = s.mem := congrArg Prod.fst hs1
  have hdev : s1.dev.testView = s.dev.testView := congrArg Prod.snd hs1
  have hd1' : d1'.testView = s.dev.testView :=
    ((Dev.foldl_view Dev.testView _ (fun e n => e.sealAbandoned_testView n) _ _).trans
      (Dev.foldl_view Dev.testView _ (fun e m => e.dropMsg_testView p m) _ _)).trans hdev
  have hd2 : d2.testView = s.dev.testView := by
    refine List.foldlRecOn (motive := fun e : Dev => e.testView = s.dev.testView) _ _ hd1' fun e he n _ => ?_
    have hnone : e.lay.pending = none := (congrArg (fun v => v.2.2.2) he).trans h
    refine (Dev.adoptStrand_testView _ n ?_).trans he
    exact hnone
  have hd3 : d3.testView = s.dev.testView := (Dev.raise_testView _ _ _ _).trans hd2
  show State.testView { s1 with dev := d3 } = s.testView
  exact (State.testView_congr s1 d3 (hd3.trans hdev.symm)).trans hs1

/-- A fall of POC_EN with no layout pending takes locks alone. -/
theorem State.dropFallen_testView (s : State) (was : BitVec 16) (h : s.dev.lay.pending = none) :
    (s.dropFallen was).testView = s.testView := by
  refine List.foldlRecOn (motive := fun t : State => t.testView = s.testView) _ _ rfl fun t ht p _ => ?_
  have hnone : t.dev.lay.pending = none := (congrArg (fun v => v.2.2.2.2) ht).trans h
  split_ifs
  · exact (t.loseLock_testView p hnone).trans ht
  · exact ht

/-! ### PTEST (R94, R97, R583) -/

theorem Dev.abortStage_testView (d : Dev) : d.abortStage.testView = d.testView := by
  have hrest : d.abortStage.sys = d.sys ∧ d.abortStage.lay = d.lay := by
    simp only [Dev.abortStage, Dev.closeStage]
    split
    · exact ⟨rfl, rfl⟩
    · split_ifs
      · simp only [Dev.logStage, Dev.logAccess_sys, Dev.logAccess_lay]
        exact ⟨rfl, rfl⟩
      · exact ⟨rfl, rfl⟩
  simp only [Dev.testView, d.abortStage_fixtures, hrest]

/-- A change of mode, to a mode that is not Depot, shows the new mode and nothing else. -/
theorem Dev.setMode_testView (d : Dev) (m : Mode) (n : Bool) :
    (d.setMode m n).testView = (d.fixtures, m, d.sys.reqCount, d.lay.pending) := by
  unfold Dev.setMode
  extract_lets d1
  have hview := d.abortStage_testView
  simp only [Dev.testView, Prod.mk.injEq] at hview
  obtain ⟨hfix, -, hcount, hpending⟩ := hview
  have hd1 : d1.testView = (d.fixtures, m, d.sys.reqCount, d.lay.pending) := by
    rw [← hfix, ← hcount, ← hpending]
    rfl
  split_ifs with hsame
  · rw [← hsame.1]
    rfl
  · exact hd1
  · exact hd1

/-- POC_EN touches ports alone. -/
theorem Dev.setPoc_testView (d : Dev) (mask : BitVec 16) : (d.setPoc mask).testView = d.testView := by
  refine (Dev.foldl_view Dev.testView _ (fun e p => ?_) _ _).trans rfl
  split_ifs <;> rfl

/-- Production Test is entered with the pixel path off, and so with no layout pending. -/
theorem Dev.enterProduction_testView (d : Dev) :
    d.enterProduction.testView =
      (({ d.aon with phase := .production }, d.img, d.jtag, d.tst, d.pairs, d.nvm.fitted), .production, d.sys.reqCount, none) := by
  have hpoc := d.setPoc_testView 0
  simp only [Dev.testView, Prod.mk.injEq] at hpoc
  obtain ⟨hfix, -, hcount, -⟩ := hpoc
  have hset : (d.quiet.setMode .production false).testView = (d.fixtures, .production, d.sys.reqCount, none) := by
    rw [Dev.setMode_testView, ← hfix, ← hcount]
    rfl
  simp only [Dev.testView, Dev.fixtures, Prod.mk.injEq] at hset
  obtain ⟨⟨haon, himg, hjtag, htst, hpairs, hnvm⟩, hmode, hreq, hpending⟩ := hset
  simp only [Dev.enterProduction, Dev.testView, Dev.fixtures, haon, himg, hjtag, htst, hpairs, hnvm, hmode, hreq, hpending]

/-- PTEST where the request is served: Production Test, with the instruction's data register selected. -/
theorem exec_ptest_serves (s : State) :
    let e : Dev := { s.dev with jtag := { s.dev.jtag with ir := .ptest, dr := 0, pinsFromCells := false, highz := false } }
    e.judgeMode (some .production) 0 false true = 0 →
    ∃ t, exec .ptest s = .next t ∧ t.mem = s.mem ∧ t.dev.jtag = e.jtag ∧ t.dev.sys.mode = .production ∧ t.dev.aon.phase = .production ∧
      t.dev.sys.reqCount = s.dev.sys.reqCount ∧ t.dev.tst = s.dev.tst ∧ t.dev.nvm.fitted = s.dev.nvm.fitted ∧ t.dev.pairs = s.dev.pairs := by
  intro e hserve
  have heq : ptest s.dev = e.enterProduction := if_pos hserve
  have hview := e.enterProduction_testView
  have hpending : e.enterProduction.lay.pending = none := congrArg (fun v => v.2.2.2) hview
  have hrun : (s.runPower ptest).testView = (s.mem, e.enterProduction.testView) := by
    unfold State.runPower
    rw [heq]
    exact State.dropFallen_testView { s with dev := e.enterProduction } _ hpending
  have hmem : (s.runPower ptest).mem = s.mem := congrArg Prod.fst hrun
  have hdev : (s.runPower ptest).dev.testView = _ := (congrArg Prod.snd hrun).trans hview
  simp only [Dev.testView, Dev.fixtures, Prod.mk.injEq] at hdev
  obtain ⟨⟨haon, -, hjtag, htst, hpairs, hnvm⟩, hmode, hreq, -⟩ := hdev
  refine ⟨s.runM fun t => t.runPower ptest, rfl, hmem, ?_⟩
  rw [State.runM_dev, Dev.settle_jtag, Dev.settle_sys_mode, Dev.settle_aon, Dev.settle_sys_reqCount, Dev.settle_tst, Dev.settle_nvm,
    Dev.settle_pairs, haon]
  exact ⟨hjtag, hmode, rfl, hreq, htst, hnvm, hpairs⟩

/-! ### The instructions of the TAP (R583, R620) -/

/-- A command that changes the TAP alone. -/
theorem State.run_jtag (s : State) (f : Dev → Dev) (y : Jtag) (h : f s.dev = { s.dev with jtag := y }) :
    (s.run f).mem = s.mem ∧ (s.run f).dev.jtag = y ∧ { (s.run f).dev.unreport s.dev with jtag := s.dev.jtag } = s.dev := by
  rw [State.run_dev, Dev.settle_jtag, Dev.unreport_settle, h]
  exact ⟨rfl, rfl, rfl⟩

/-- PTEST where the request is refused: the instruction is taken and nothing else. -/
theorem exec_ptest_refused (s : State) :
    let e : Dev := { s.dev with jtag := { s.dev.jtag with ir := .ptest, dr := 0, pinsFromCells := false, highz := false } }
    e.judgeMode (some .production) 0 false true ≠ 0 →
    ∃ t, exec .ptest s = .next t ∧ t.mem = s.mem ∧ t.dev.jtag = e.jtag ∧ { t.dev.unreport s.dev with jtag := s.dev.jtag } = s.dev := by
  intro e hrefuse
  have heq : ptest s.dev = e := if_neg hrefuse
  have hpower : s.runPower ptest = { s with dev := e } := by
    rw [s.runPower_of_pins ptest (by rw [heq]), heq]
  refine ⟨s.runM fun t => t.runPower ptest, rfl, by rw [State.runM_mem, hpower], ?_⟩
  rw [State.runM_dev, Dev.settle_jtag, Dev.unreport_settle, hpower]
  exact ⟨rfl, rfl⟩

/-! ### The window register that the three ports write and read -/

/-- The effect of a write of SKN_WINn. -/
def Dev.setWin (d : Dev) (n : Fin 16) (v : Word) : Dev := d.onSkn fun k => { k with win := upd k.win n fun _ => v &&& winMask }

/-- A word write of SKN_WINn is that register's write. -/
theorem State.writeAt_sknWin (go : Access → Word → State → State) (s : State) (a : Access) (n : Fin 16) (v : Word) :
    s.writeAt go a (regAddr (0x30000 + 4 * n.val)) (le 4 v.toNat) =
      { s with dev := s.dev.put a (0x30000 + 4 * n.val) v fun e => e.setWin n v } := by
  have hn := n.isLt
  rw [s.writeAt_reg _ a _ _ (by omega) (by simp [le]), word_of_le,
    s.writeReg_plain _ a _ _ v (plainWrite_sknWin n) (by omega) (le_length 4 _) (listed_sknWin _ _ n), Dev.writeReg_sknWin]
  rfl

theorem Dev.view_sknWin (d : Dev) (m : Master) (n : Fin 16) : d.view m (0x30000 + 4 * n.val) = .word (d.skn.win[n]) := by
  have hn := n.isLt
  have hblock : (0x30000 + 4 * n.val) / 0x10000 = 3 := by omega
  have hoff : (0x30000 + 4 * n.val) % 0x10000 = 0 + 4 * n.val := by omega
  simp only [Dev.view, hblock, hoff, Dev.viewSkn, inTable_entry 0 4 16 n.val (by decide) hn, Fin.ofNat_eq_cast, Fin.cast_val_eq_self]

theorem plainWord_sknWin (n : Fin 16) : plainWord (0x30000 + 4 * n.val) = true := by
  revert n; decide

/-- A word read of SKN_WINn answers the word. -/
theorem State.readAt_sknWin (s : State) (a : Access) (n : Fin 16) (hr : s.dev.released = true) :
    s.readAt a (regAddr (0x30000 + 4 * n.val)) 4 = { s with dev := s.dev.answerWord a (s.dev.skn.win[n]) } := by
  have hplain := plainWord_sknWin n
  simp only [plainWord, Bool.and_eq_true, decide_eq_true_eq, Bool.not_eq_true'] at hplain
  obtain ⟨⟨⟨hlt, h4⟩, hb⟩, he⟩ := hplain
  rw [s.readAt_reg a _ hr hlt hb h4, s.dev.readReg_view a _ hr he, Dev.readView, Dev.view_sknWin]

/-- The record that an access over a diagnostic path leaves (02 R65). -/
theorem Dev.logAccess_record (d : Dev) (a : Access) (addr : Word) (size : Nat) (v : Word) (len result : Nat)
    (hdiag : a.master.diag = true) (hr : d.released = true) :
    ∃ r : AccessRec, (d.logAccess a addr size v len result).jnl.log = (r :: d.jnl.log).take 64 ∧ r.path = a.master.path ∧
      r.origin = a.origin ∧ r.detail = (if a.master = .eth then a.detail else 0) ∧ r.addr = addr ∧ r.value = v ∧ r.result = result := by
  refine ⟨⟨d.w0 / 1000000000 % 2 ^ 32, d.w0 % 1000000000, a.master.path, size, a.origin, if a.master = .eth then a.detail else 0,
    addr, v, len, result⟩, ?_, rfl, rfl, rfl, rfl, rfl, rfl⟩
  unfold Dev.logAccess
  rw [if_pos (by rw [hdiag, hr]; rfl)]
  dsimp only
  split_ifs <;> rfl

/-- A write over a diagnostic path that is taken: logged with its path and origin, reported, and otherwise its register's effect. -/
theorem Dev.put_diag (d d0 : Dev) (a : Access) (off : Nat) (v : Word) (f : Dev → Dev) (hacc : d.accepts a (regAddr off) v = true)
    (hdiag : a.master.diag = true) (hr : (f d).released = true) :
    (∃ r : AccessRec, (d.put a off v f).jnl.log = (r :: (f d).jnl.log).take 64 ∧ r.path = a.master.path ∧ r.origin = a.origin ∧
      r.detail = (if a.master = .eth then a.detail else 0) ∧ r.addr = regAddr off ∧ r.value = v ∧ r.result = 0) ∧
    (d.put a off v f).skn = (f d).skn ∧ (d.put a off v f).sys.fault.getLsbD 30 = true ∧
    (d.put a off v f).unaccess d0 = (f d).unaccess d0 := by
  refine ⟨?_, ?_, ?_, Dev.write_accepted _ _ _ _ _ _ _ _ hacc⟩
  · obtain ⟨r, hlog, hrec⟩ := (f d).logAccess_record a (regAddr off) 4 v 4 0 hdiag hr
    refine ⟨r, ?_, hrec⟩
    rw [← hlog]
    simp only [Dev.put, Dev.write, hacc, if_true]
    rw [if_pos ⟨rfl, hdiag⟩]
    exact Dev.report_jnl_log _ _
  · rw [Dev.put, Dev.write_skn, if_pos hacc]
  · rw [Dev.put, Dev.write_bit _ _ _ _ _ _ _ _ hacc, hdiag]
    exact Bool.or_true _

/-- What the clauses on a write of SKN_WINn through a port say of the state after it. -/
def WritesWin (s : State) (n : Fin 16) (v : Word) (path : Nat) (origin : Half) (detail : Word) (t : State) : Prop :=
  ∃ r : AccessRec, t.mem = s.mem ∧ t.dev.skn = { s.dev.skn with win := upd s.dev.skn.win n fun _ => v &&& winMask } ∧
    t.dev.jnl.log = (r :: s.dev.jnl.log).take 64 ∧ r.path = path ∧ r.origin = origin ∧ r.detail = detail ∧
    r.addr = regAddr (0x30000 + 4 * n.val) ∧ r.value = v ∧ r.result = 0 ∧ t.dev.sys.fault.getLsbD 30 = true ∧
    { t.dev.unaccess s.dev with skn := s.dev.skn, jtag := s.dev.jtag } = s.dev

/-- A port's write of SKN_WINn from a state `u` that differs from `s` in the TAP and the bus answer alone. -/
theorem writesWin_of_put (s u : State) (a : Access) (n : Fin 16) (v : Word) (hdiag : a.master.diag = true)
    (hr : u.dev.released = true) (hmem : u.mem = s.mem) (hskn : u.dev.skn = s.dev.skn) (hjnl : u.dev.jnl = s.dev.jnl)
    (hframe : { (u.dev.setWin n v).unaccess s.dev with skn := s.dev.skn, jtag := s.dev.jtag } = s.dev) :
    let e := u.dev.put a (0x30000 + 4 * n.val) v fun e => e.setWin n v
    WritesWin s n v a.master.path a.origin (if a.master = .eth then a.detail else 0) { u with dev := e.settle } := by
  intro e
  have hn := n.isLt
  have hacc := u.dev.accepts_open a (0x30000 + 4 * n.val) v hr (by omega)
  obtain ⟨⟨r, hlog, hpath, horigin, hdetail, haddr, hvalue, hresult⟩, hsk, hbit, hun⟩ :=
    u.dev.put_diag s.dev a _ v (fun e => e.setWin n v) hacc hdiag hr
  refine ⟨r, hmem, ?_, ?_, hpath, horigin, hdetail, haddr, hvalue, hresult, Dev.settle_keeps _ _ hbit, ?_⟩
  · rw [Dev.settle_skn, hsk, ← hskn]
    rfl
  · rw [Dev.settle_jnl_log, hlog, ← hjnl]
    rfl
  · rw [Dev.unaccess_settle, hun]
    exact hframe

/-- A word in a data operand. -/
theorem toNat_zeroExtend_word (v : Word) : (v.zeroExtend 64).toNat = v.toNat := by
  have hv := v.isLt
  rw [BitVec.toNat_setWidth, Nat.mod_eq_of_lt (by omega)]

/-- The state in which MEMAP's access is made. -/
def State.memapTaken (s : State) : State := { s with dev := s.dev.jtagTake .memap 0 false false }

theorem memap_write (s : State) (addr v : Word) :
    memap true addr 4 (v.zeroExtend 64) s = s.memapTaken.writeAt broadcastGo ⟨.jtag, 0, 0⟩ addr (le 4 v.toNat) := by
  rw [memap, if_pos rfl, toNat_zeroExtend_word]
  rfl

theorem memap_read (s : State) (addr : Word) : memap false addr 4 0 s = s.memapTaken.readAt ⟨.jtag, 0, 0⟩ addr 4 := rfl

theorem managementDatagram_write (s : State) (port : Half) (ip addr v : Word) (h : s.dev.ethRuns = true) :
    managementDatagram port ip true addr 4 (v.zeroExtend 64) s = s.writeAt broadcastGo ⟨.eth, port, ip⟩ addr (le 4 v.toNat) := by
  rw [managementDatagram, if_pos h, if_pos rfl, toNat_zeroExtend_word]

theorem managementDatagram_read (s : State) (port : Half) (ip addr : Word) (h : s.dev.ethRuns = true) :
    managementDatagram port ip false addr 4 0 s = s.readAt ⟨.eth, port, ip⟩ addr 4 := if_pos h

/-- The effect of the I2C target write command on the registers and memories. -/
def i2cWrite (x : I2cAddr) (bytes : List Byte) (t : State) : State :=
  if t.dev.i2cAddressed x.target then i2cWriteFrom (x.addr &&& 0xFFFFFFFC) 0 (wordGroups bytes) t else t

/-- The effect of the I2C target read command on the registers. -/
def i2cRead (x : I2cAddr) (words : Nat) (t : State) : State :=
  if t.dev.i2cAddressed x.target then i2cReadFrom (x.addr &&& 0xFFFFFFFC) 0 words t [] else t

theorem exec_i2cTargetWrite (s : State) (x : I2cAddr) (bytes : List Byte) :
    exec (.i2cTargetWrite x bytes) s = .next (s.runM (i2cWrite x bytes)) := rfl

theorem exec_i2cTargetRead (s : State) (x : I2cAddr) (words : Nat) :
    exec (.i2cTargetRead x words) s = .next (s.runM (i2cRead x words)) := rfl

theorem wordGroups_word (v : Nat) : wordGroups (le 4 v) = [le 4 v] := by
  simp [wordGroups, le]

/-- The first word of a transaction goes to its address, side effects or not. -/
theorem Dev.wordAddr_first (d : Dev) (addr : Word) : d.wordAddr addr 0 = addr := by
  simp [Dev.wordAddr]

/-- A one-word write to this device is one access. -/
theorem i2cWrite_word (s : State) (target : BitVec 7) (addr : Word) (v : Nat) (ht : target.toNat = 0x5C + s.dev.aon.i2ca.toNat)
    (h4 : addr &&& 0xFFFFFFFC = addr) :
    i2cWrite ⟨target, addr⟩ (le 4 v) s = s.unanswered.writeAt broadcastGo i2cAccess addr (le 4 v) := by
  have haddr : s.dev.i2cAddressed target = true := decide_eq_true ht
  unfold i2cWrite
  dsimp only
  rw [if_pos haddr, wordGroups_word, h4, i2cWriteFrom, s.dev.wordAddr_first]
  split_ifs <;> rfl

/-- A one-word read of this device is one access, whose word is returned. -/
theorem i2cRead_word (s u : State) (target : BitVec 7) (addr : Word) (w : DWord) (ht : target.toNat = 0x5C + s.dev.aon.i2ca.toNat)
    (h4 : addr &&& 0xFFFFFFFC = addr) (hread : s.unanswered.readAt i2cAccess addr 4 = u)
    (hans : u.dev.bus.answer = some ⟨.i2c, 0, 0, w⟩) :
    i2cRead ⟨target, addr⟩ 1 s = { u with dev := u.dev.onBus fun b => { b with readData := le 4 w.toNat } } := by
  have haddr : s.dev.i2cAddressed target = true := decide_eq_true ht
  unfold i2cRead
  dsimp only
  rw [if_pos haddr, h4, i2cReadFrom, s.dev.wordAddr_first, hread]
  rw [hans, i2cReadFrom]
  have hres : u.readResult 4 = le 4 w.toNat := by
    unfold State.readResult
    rw [if_pos (by decide), hans]
    rfl
  rw [← hres]
  rfl

theorem i2cWrite_other (s : State) (x : I2cAddr) (bytes : List Byte) (h : x.target.toNat ≠ 0x5C + s.dev.aon.i2ca.toNat) :
    i2cWrite x bytes s = s := if_neg (ne_true_of_eq_false (decide_eq_false h))

theorem i2cRead_other (s : State) (x : I2cAddr) (words : Nat) (h : x.target.toNat ≠ 0x5C + s.dev.aon.i2ca.toNat) :
    i2cRead x words s = s := if_neg (ne_true_of_eq_false (decide_eq_false h))

/-- A word-aligned address keeps its value where the two low bits are dropped (R618). -/
theorem aligned_of_mod (x : Nat) (h : x < 2 ^ 32) (h4 : x % 4 = 0) : BitVec.ofNat 32 x &&& 0xFFFFFFFC = BitVec.ofNat 32 x := by
  have hlow : BitVec.ofNat 32 x &&& 3 = 0 := by
    apply BitVec.eq_of_toNat_eq
    rw [BitVec.toNat_and, BitVec.toNat_ofNat, Nat.mod_eq_of_lt h]
    exact (Nat.and_two_pow_sub_one_eq_mod x 2).trans h4
  calc BitVec.ofNat 32 x &&& 0xFFFFFFFC
      = (BitVec.ofNat 32 x &&& 0xFFFFFFFC) ||| (BitVec.ofNat 32 x &&& 3) := by rw [hlow]; exact BitVec.or_zero.symm
    _ = BitVec.ofNat 32 x := by rw [← BitVec.and_or_distrib_left]; exact BitVec.and_allOnes

theorem regAddr_aligned (n : Fin 16) : regAddr (0x30000 + 4 * n.val) &&& 0xFFFFFFFC = regAddr (0x30000 + 4 * n.val) := by
  have hn := n.isLt
  exact aligned_of_mod _ (by omega) (by omega)

/-! ### SKN_WINn through MEMAP, the I2C port and a datagram -/

theorem exec_memap_write_win (s : State) (n : Fin 16) (v : Word) (hr : s.dev.released = true) :
    ∃ t, exec (.memap true (regAddr (0x30000 + 4 * n.val)) 4 (v.zeroExtend 64)) s = .next t ∧ WritesWin s n v 1 0 0 t := by
  refine ⟨s.runM (memap true (regAddr (0x30000 + 4 * n.val)) 4 (v.zeroExtend 64)), rfl, ?_⟩
  rw [State.runM, memap_write, State.writeAt_sknWin]
  refine writesWin_of_put s s.memapTaken ⟨.jtag, 0, 0⟩ n v rfl hr rfl rfl rfl ?_
  dsimp only [Dev.unaccess, Dev.unreport, Dev.setWin, Dev.onSkn, State.memapTaken, Dev.jtagTake]

theorem exec_i2cTargetWrite_win (s : State) (n : Fin 16) (v : Word) (target : BitVec 7) (hr : s.dev.released = true)
    (ht : target.toNat = 0x5C + s.dev.aon.i2ca.toNat) :
    ∃ t, exec (.i2cTargetWrite ⟨target, regAddr (0x30000 + 4 * n.val)⟩ (le 4 v.toNat)) s = .next t ∧ WritesWin s n v 2 0 0 t := by
  refine ⟨_, exec_i2cTargetWrite s _ _, ?_⟩
  rw [State.runM, i2cWrite_word s target _ _ ht (regAddr_aligned n), State.writeAt_sknWin]
  refine writesWin_of_put s s.unanswered i2cAccess n v rfl hr rfl rfl rfl ?_
  dsimp only [Dev.unaccess, Dev.unreport, Dev.setWin, Dev.onSkn, State.unanswered, Dev.onBus]

theorem exec_managementDatagram_write_win (s : State) (port : Half) (ip v : Word) (n : Fin 16) (hr : s.dev.released = true)
    (heth : s.dev.ethRuns = true) :
    ∃ t, exec (.managementDatagram port ip true (regAddr (0x30000 + 4 * n.val)) 4 (v.zeroExtend 64)) s = .next t ∧
      WritesWin s n v 4 port ip t := by
  refine ⟨s.runM (managementDatagram port ip true (regAddr (0x30000 + 4 * n.val)) 4 (v.zeroExtend 64)), rfl, ?_⟩
  rw [State.runM, managementDatagram_write s port ip _ v heth, State.writeAt_sknWin]
  refine writesWin_of_put s s ⟨.eth, port, ip⟩ n v rfl hr rfl rfl rfl ?_
  dsimp only [Dev.unaccess, Dev.unreport, Dev.setWin, Dev.onSkn]

theorem exec_memap_read_win (s : State) (n : Fin 16) (hr : s.dev.released = true) :
    ∃ t, exec (.memap false (regAddr (0x30000 + 4 * n.val)) 4 0) s = .next t ∧ t.mem = s.mem ∧
      t.dev.bus.answer = some ⟨.jtag, 0, 0, (s.dev.skn.win[n]).zeroExtend 64⟩ ∧
      { t.dev.unaccess s.dev with jtag := s.dev.jtag, bus := s.dev.bus } = s.dev := by
  refine ⟨s.runM (memap false (regAddr (0x30000 + 4 * n.val)) 4 0), rfl, ?_⟩
  rw [State.runM, memap_read, s.memapTaken.readAt_sknWin _ n hr]
  dsimp only
  rw [Dev.settle_bus, Dev.unaccess_settle, Dev.answerWord, Dev.unaccess_answer]
  refine ⟨rfl, rfl, ?_⟩
  dsimp only [Dev.unaccess, Dev.unreport, State.memapTaken, Dev.jtagTake]

theorem exec_i2cTargetRead_win (s : State) (n : Fin 16) (target : BitVec 7) (hr : s.dev.released = true)
    (ht : target.toNat = 0x5C + s.dev.aon.i2ca.toNat) :
    ∃ t, exec (.i2cTargetRead ⟨target, regAddr (0x30000 + 4 * n.val)⟩ 1) s = .next t ∧ t.mem = s.mem ∧
      t.dev.bus.readData = le 4 (s.dev.skn.win[n]).toNat ∧ { t.dev.unaccess s.dev with bus := s.dev.bus } = s.dev := by
  refine ⟨_, exec_i2cTargetRead s _ _, ?_⟩
  rw [State.runM, i2cRead_word s _ target _ ((s.dev.skn.win[n]).zeroExtend 64) ht (regAddr_aligned n)
    (s.unanswered.readAt_sknWin i2cAccess n hr) rfl, toNat_zeroExtend_word]
  dsimp only
  rw [Dev.settle_bus, Dev.unaccess_settle]
  refine ⟨rfl, rfl, ?_⟩
  dsimp only [Dev.unaccess, Dev.unreport, State.unanswered, Dev.onBus, Dev.answerWord, Dev.answer]

theorem exec_managementDatagram_read_win (s : State) (port : Half) (ip : Word) (n : Fin 16) (hr : s.dev.released = true)
    (heth : s.dev.ethRuns = true) :
    ∃ t, exec (.managementDatagram port ip false (regAddr (0x30000 + 4 * n.val)) 4 0) s = .next t ∧ t.mem = s.mem ∧
      t.dev.bus.answer = some ⟨.eth, 0, 0, (s.dev.skn.win[n]).zeroExtend 64⟩ ∧
      { t.dev.unaccess s.dev with bus := s.dev.bus } = s.dev := by
  refine ⟨s.runM (managementDatagram port ip false (regAddr (0x30000 + 4 * n.val)) 4 0), rfl, ?_⟩
  rw [State.runM, managementDatagram_read s port ip _ heth, s.readAt_sknWin _ n hr]
  dsimp only
  rw [Dev.settle_bus, Dev.unaccess_settle, Dev.answerWord, Dev.unaccess_answer, Dev.unaccess_self]
  exact ⟨rfl, rfl, rfl⟩

/-! ### Spindle stores outside Production Test (R559) -/

/-- Address of a byte of the spindle stores. -/
def storeAddr (off : Nat) : Word := BitVec.ofNat 32 (0x20000000 + off)

theorem regionOf_storeAddr (off : Nat) (h : off < 0x2000000) : regionOf (storeAddr off) = .store off := by
  have hnat : (storeAddr off).toNat = 0x20000000 + off := by
    rw [storeAddr, BitVec.toNat_ofNat, Nat.mod_eq_of_lt (by omega)]
  unfold regionOf
  rw [hnat]
  dsimp only
  rw [if_neg (by omega), if_neg (by omega), if_pos (by omega), Nat.add_sub_cancel_left]

theorem storeAddr_aligned (off : Nat) (h : off < 0x2000000) (h4 : off % 4 = 0) : storeAddr off &&& 0xFFFFFFFC = storeAddr off :=
  aligned_of_mod _ (by omega) (by omega)

/-- A diagnostic write to the spindle stores is not taken outside Production Test. -/
theorem State.writeAt_store_refused (s : State) (d0 : Dev) (go : Access → Word → State → State) (a : Access) (off : Nat) (v : Nat)
    (hdiag : a.master.diag = true) (hmode : s.dev.sys.mode ≠ .production) (h : off < 0x2000000) :
    (s.writeAt go a (storeAddr off) (le 4 v)).dev.unaccess d0 = s.dev.unaccess d0 ∧
      (s.writeAt go a (storeAddr off) (le 4 v)).mem = s.mem := by
  have hrefuse (w : Word) : s.dev.accepts a (storeAddr off) w = false := by
    unfold Dev.accepts Dev.acceptsDiag
    rw [regionOf_storeAddr off h, hdiag, decide_eq_false hmode]
    exact Bool.and_false _
  obtain ⟨hdev, hmem, -⟩ := s.write_refused d0 a (storeAddr off) 4 (BitVec.ofNat 32 (fromLe ((le 4 v).take 4))) true
    (fun t => if off + 4 ≤ 0x2000000 then
      ({ t with mem := { t.mem with stores := Memory.write 0 t.mem.stores off (le 4 v) } }, Res.ok) else (t, Res.addrErr)) (hrefuse _)
  have hwrite : s.writeAt go a (storeAddr off) (le 4 v) = s.write a (storeAddr off) 4 (BitVec.ofNat 32 (fromLe ((le 4 v).take 4))) true
      fun t => if off + 4 ≤ 0x2000000 then
        ({ t with mem := { t.mem with stores := Memory.write 0 t.mem.stores off (le 4 v) } }, Res.ok) else (t, Res.addrErr) := by
    unfold State.writeAt
    rw [le_length, regionOf_storeAddr off h]
    rfl
  rw [hwrite]
  exact ⟨hdev, hmem⟩

theorem exec_memap_write_store (s : State) (off : Nat) (v : Word) (hmode : s.dev.sys.mode ≠ .production) (h : off < 0x2000000) :
    ∃ t, exec (.memap true (storeAddr off) 4 (v.zeroExtend 64)) s = .next t ∧ t.mem = s.mem ∧
      { t.dev.unaccess s.dev with jtag := s.dev.jtag } = s.dev := by
  refine ⟨s.runM (memap true (storeAddr off) 4 (v.zeroExtend 64)), rfl, ?_⟩
  obtain ⟨hdev, hmem⟩ := s.memapTaken.writeAt_store_refused s.dev broadcastGo ⟨.jtag, 0, 0⟩ off v.toNat rfl hmode h
  rw [State.runM_mem, State.runM_dev, Dev.unaccess_settle, memap_write, hdev, hmem]
  refine ⟨rfl, ?_⟩
  dsimp only [Dev.unaccess, Dev.unreport, State.memapTaken, Dev.jtagTake]

/-- A command that leaves registers and memories as they are. -/
theorem State.runM_same (s : State) (f : State → State) (h : f s = s) :
    (s.runM f).mem = s.mem ∧ (s.runM f).dev.unreport s.dev = s.dev := by
  rw [State.runM_mem, State.runM_dev, h, Dev.unreport_settle, Dev.unreport_self]
  exact ⟨rfl, rfl⟩

/-- A change of registers and memories that leaves the traces of an access alone. -/
theorem State.runM_traces (s : State) (f : State → State) (hdev : (f s).dev.unaccess s.dev = s.dev) (hmem : (f s).mem = s.mem) :
    (s.runM f).mem = s.mem ∧ (s.runM f).dev.unaccess s.dev = s.dev := by
  rw [State.runM_mem, State.runM_dev, Dev.unaccess_settle]
  exact ⟨hmem, hdev⟩

theorem exec_i2cTargetWrite_store (s : State) (off : Nat) (v : Word) (target : BitVec 7) (hmode : s.dev.sys.mode ≠ .production)
    (h : off < 0x2000000) (h4 : off % 4 = 0) :
    ∃ t, exec (.i2cTargetWrite ⟨target, storeAddr off⟩ (le 4 v.toNat)) s = .next t ∧ t.mem = s.mem ∧ t.dev.unaccess s.dev = s.dev := by
  refine ⟨_, exec_i2cTargetWrite s _ _, ?_⟩
  by_cases ht : target.toNat = 0x5C + s.dev.aon.i2ca.toNat
  · obtain ⟨hdev, hmem⟩ := s.unanswered.writeAt_store_refused s.dev broadcastGo i2cAccess off v.toNat rfl hmode h
    have hword := i2cWrite_word s target _ v.toNat ht (storeAddr_aligned off h h4)
    refine s.runM_traces _ ?_ (by rw [hword, hmem]; rfl)
    rw [hword, hdev]
    dsimp only [Dev.unaccess, Dev.unreport, State.unanswered, Dev.onBus]
  · have hsame := i2cWrite_other s ⟨target, storeAddr off⟩ (le 4 v.toNat) ht
    exact s.runM_traces _ (by rw [hsame, Dev.unaccess_self]) (by rw [hsame])

theorem exec_managementDatagram_write_store (s : State) (port : Half) (ip v : Word) (off : Nat)
    (hmode : s.dev.sys.mode ≠ .production) (h : off < 0x2000000) :
    ∃ t, exec (.managementDatagram port ip true (storeAddr off) 4 (v.zeroExtend 64)) s = .next t ∧ t.mem = s.mem ∧
      t.dev.unaccess s.dev = s.dev := by
  refine ⟨s.runM (managementDatagram port ip true (storeAddr off) 4 (v.zeroExtend 64)), rfl, ?_⟩
  by_cases heth : s.dev.ethRuns = true
  · obtain ⟨hdev, hmem⟩ := s.writeAt_store_refused s.dev broadcastGo ⟨.eth, port, ip⟩ off v.toNat rfl hmode h
    have hword := managementDatagram_write s port ip (storeAddr off) v heth
    exact s.runM_traces _ (by rw [hword, hdev, Dev.unaccess_self]) (by rw [hword, hmem])
  · have hsame : managementDatagram port ip true (storeAddr off) 4 (v.zeroExtend 64) s = s := if_neg heth
    exact s.runM_traces _ (by rw [hsame, Dev.unaccess_self]) (by rw [hsame])

/-- Settles O60: the instructions touch the TAP alone; the three ports' accesses are the shared accesses of their masters. -/
theorem remotePorts : Obligations.RemotePorts := by
  intro s j Takes
  refine ⟨⟨_, rfl, s.run_jtag _ _ rfl⟩, ⟨_, rfl, s.run_jtag _ _ rfl⟩, ⟨_, rfl, s.run_jtag _ _ rfl⟩, ⟨_, rfl, s.run_jtag _ _ rfl⟩,
    ⟨_, rfl, s.run_jtag _ _ rfl⟩, ⟨_, rfl, s.run_jtag _ _ rfl⟩, ⟨_, rfl, s.run_jtag _ _ rfl⟩, ⟨_, rfl, s.run_jtag _ _ rfl⟩,
    fun cells => ⟨_, rfl, s.run_jtag _ _ rfl⟩, ⟨exec_ptest_serves s, exec_ptest_refused s⟩,
    fun port ip v n target hr => ?_, fun target addr bytes words ht => ?_, fun port ip write addr size data heth => ?_⟩
  · exact ⟨exec_memap_write_win s n v hr, exec_i2cTargetWrite_win s n v target hr,
      exec_managementDatagram_write_win s port ip v n hr, exec_memap_read_win s n hr, exec_i2cTargetRead_win s n target hr,
      exec_managementDatagram_read_win s port ip n hr, fun off hmode hoff h4 =>
        ⟨exec_memap_write_store s off v hmode hoff, exec_i2cTargetWrite_store s off v target hmode hoff h4,
          exec_managementDatagram_write_store s port ip v off hmode hoff⟩⟩
  · exact ⟨⟨_, exec_i2cTargetWrite s _ _, s.runM_same _ (i2cWrite_other s ⟨target, addr⟩ bytes ht)⟩,
      ⟨_, exec_i2cTargetRead s _ _, s.runM_same _ (i2cRead_other s ⟨target, addr⟩ words ht)⟩⟩
  · exact ⟨_, rfl, s.runM_same _ (if_neg (ne_true_of_eq_false heth))⟩

end Sys2Proof.Machine
end

section
/-! SUPPORT. What the framing of a creel packet changes (spec/04_creel_links.md R124, R127, R128), said once: the port's sequence
byte and counters, and the marks on the open frames of its strands. -/

namespace Sys2Proof.Machine

/-! ### Entries of tables, strands of a port -/

/-- Two changes of an entry that agree on its present value are one. -/
theorem upd_congr {α : Type} {n : Nat} (v : Vector α n) (i : Fin n) (f g : α → α) (h : f v[i] = g v[i]) : upd v i f = upd v i g := by
  simp only [upd, h]

theorem mem_strandsOf (p : PortNo) (n : StrandNo) : n ∈ strandsOf p ↔ portOf n = p := by
  simp [strandsOf, allStrands]

theorem nodup_strandsOf (p : PortNo) : (strandsOf p).Nodup := (List.nodup_finRange 64).filter _

/-- A walk over different strands, each step of which changes its strand by `f`, changes the strands walked over by `f`. -/
theorem Dev.foldl_strands (g : Dev → StrandNo → Dev) (f : Strand → Strand) (hg : ∀ e n, (g e n).strands = upd e.strands n f)
    (l : List StrandNo) (hl : l.Nodup) (d : Dev) (m : StrandNo) :
    (l.foldl g d).strands[m] = if m ∈ l then f d.strands[m] else d.strands[m] := by
  induction l generalizing d with
  | nil => rfl
  | cons n l ih =>
    obtain ⟨hn, hl⟩ := List.nodup_cons.1 hl
    rw [List.foldl_cons, ih hl (g d n), hg]
    by_cases hm : m = n
    · subst hm
      rw [if_neg hn, if_pos List.mem_cons_self, upd_same]
    · rw [upd_other _ _ _ _ hm]
      simp only [List.mem_cons, hm, false_or]

/-! ### Marks and counters -/

/-- The strand with its open frame marked as non-conforming (R128). -/
def Strand.nonConform (g : Strand) : Strand :=
  { g with frames := g.frames.map fun f => if f.isOpen then { f with nonConforming := true } else f }

theorem Dev.nonConform_strands (d : Dev) (n : StrandNo) : (d.nonConform n).strands = upd d.strands n Strand.nonConform := rfl

theorem Dev.nonConform_strand (d : Dev) (n m : StrandNo) :
    (d.nonConform n).strands[m] = if m = n then (d.strands[m]).nonConform else d.strands[m] := by
  rw [d.nonConform_strands]
  split_ifs with h
  · rw [h, upd_same]
  · rw [upd_other _ _ _ _ h]

theorem Dev.nonConformPort_strand (d : Dev) (p : PortNo) (m : StrandNo) :
    (d.nonConformPort p).strands[m] = if portOf m = p then (d.strands[m]).nonConform else d.strands[m] := by
  simp only [Dev.nonConformPort, Dev.foldl_strands _ _ Dev.nonConform_strands _ (nodup_strandsOf p), mem_strandsOf]

/-- The marks touch strands alone. -/
theorem Dev.nonConform_frame (d : Dev) (n : StrandNo) : { d.nonConform n with strands := d.strands } = d := rfl

theorem Dev.nonConformPort_frame (d : Dev) (p : PortNo) : { d.nonConformPort p with strands := d.strands } = d :=
  Dev.foldl_view (fun e : Dev => { e with strands := d.strands }) (fun e n => e.nonConform n) (fun _ _ => rfl) (strandsOf p) d

theorem Dev.nonConformPort_ports (d : Dev) (p : PortNo) : (d.nonConformPort p).ports = d.ports :=
  congrArg (fun e => e.ports) (d.nonConformPort_frame p)

/-- A counter that counts leaves its port with the new counters. -/
theorem Dev.onErrs_ports (d : Dev) (p : PortNo) (f : CrlErrs → CrlErrs) :
    (d.onErrs p f).ports = upd d.ports p fun x => { x with errs := f (d.ports[p]).errs } :=
  upd_congr d.ports p (fun x => { x with errs := f x.errs }) _ rfl

/-! ### The sequence byte and the header -/

/-- The sequence byte does not follow the last one (R124). -/
def Port.skips (x : Port) (seq : Byte) : Bool := x.lastSeq.any fun l => decide (seq ≠ l + 1)

/-- The port with the sequence byte taken: a gap is counted (R124, R127). -/
def Port.takeSeq (x : Port) (seq : Byte) : Port :=
  { x with lastSeq := some seq, errs := if x.skips seq then { x.errs with gap := satAdd x.errs.gap 1 } else x.errs }

/-- The port with the framing of a packet taken: a corrected header is counted (R127). -/
def Port.takeHead (x : Port) (h : PacketHead) : Port :=
  { x.takeSeq h.seq with
    errs := if h.corrected then { (x.takeSeq h.seq).errs with hdrCorrected := satAdd (x.takeSeq h.seq).errs.hdrCorrected 1 }
      else (x.takeSeq h.seq).errs }

theorem Port.takeHead_gap (x : Port) (h : PacketHead) :
    (x.takeHead h).errs.gap = if x.skips h.seq then satAdd x.errs.gap 1 else x.errs.gap := by
  unfold Port.takeHead Port.takeSeq
  cases h.corrected <;> cases x.skips h.seq <;> rfl

theorem Port.takeHead_hdrCorrected (x : Port) (h : PacketHead) :
    (x.takeHead h).errs.hdrCorrected = if h.corrected then satAdd x.errs.hdrCorrected 1 else x.errs.hdrCorrected := by
  unfold Port.takeHead Port.takeSeq
  cases h.corrected <;> cases x.skips h.seq <;> rfl

theorem Dev.takeSeq_eq (d : Dev) (p : PortNo) (seq : Byte) :
    d.takeSeq p seq = if (d.ports[p]).skips seq then (d.onPort p fun x => x.takeSeq seq).nonConformPort p
      else d.onPort p fun x => x.takeSeq seq := by
  have hport : ∀ b, (d.ports[p]).skips seq = b → (d.onPort p fun x => x.takeSeq seq) = d.onPort p fun x =>
      { x with lastSeq := some seq, errs := if b then { x.errs with gap := satAdd x.errs.gap 1 } else x.errs } :=
    fun b hb => congrArg (fun v => { d with ports := v }) (upd_congr _ _ _ _ (by rw [Port.takeSeq, hb]))
  unfold Dev.takeSeq
  change (if (d.ports[p]).skips seq then _ else _) = _
  split_ifs with hskip
  · rw [hport true hskip, Dev.onErrs]
    simp only [Dev.onPort, upd_upd, if_true]
  · rw [hport false (by simpa using hskip)]
    rfl

theorem Dev.takeSeq_ports (d : Dev) (p : PortNo) (seq : Byte) :
    (d.takeSeq p seq).ports = upd d.ports p fun x => x.takeSeq seq := by
  rw [Dev.takeSeq_eq]
  split_ifs
  · rw [Dev.nonConformPort_ports, Dev.onPort_ports]
  · rfl

theorem Dev.takeSeq_strand (d : Dev) (p : PortNo) (seq : Byte) (n : StrandNo) :
    (d.takeSeq p seq).strands[n] =
      if (d.ports[p]).skips seq = true ∧ portOf n = p then (d.strands[n]).nonConform else d.strands[n] := by
  rw [Dev.takeSeq_eq]
  by_cases hskip : (d.ports[p]).skips seq = true
  · rw [if_pos hskip, Dev.nonConformPort_strand]
    simp only [hskip, true_and, Dev.onPort_strands]
  · rw [if_neg hskip, if_neg fun h => hskip h.1]
    rfl

/-- The sequence byte touches the ports and the marks of the strands alone. -/
theorem Dev.takeSeq_frame (d : Dev) (p : PortNo) (seq : Byte) :
    { d.takeSeq p seq with ports := d.ports, strands := d.strands } = d := by
  rw [Dev.takeSeq_eq]
  split_ifs
  · exact congrArg (fun e : Dev => { e with ports := d.ports }) ((d.onPort p fun x => x.takeSeq seq).nonConformPort_frame p)
  · rfl

theorem Dev.takeHead_ports (d : Dev) (p : PortNo) (h : PacketHead) :
    (d.takeHead p h).ports = upd d.ports p fun x => x.takeHead h := by
  simp only [Dev.takeHead, Port.takeHead]
  split_ifs
  · simp only [Dev.onErrs, Dev.onPort_ports, Dev.takeSeq_ports, upd_upd]
  · rw [Dev.takeSeq_ports]

theorem Dev.takeHead_strands (d : Dev) (p : PortNo) (h : PacketHead) : (d.takeHead p h).strands = (d.takeSeq p h.seq).strands := by
  rw [Dev.takeHead]
  split_ifs <;> rfl

/-- The framing of a packet touches the ports and the marks of the strands alone. -/
theorem Dev.takeHead_rest (d : Dev) (p : PortNo) (h : PacketHead) :
    { d.takeHead p h with ports := d.ports, strands := d.strands } = d := by
  rw [Dev.takeHead]
  split_ifs
  · exact d.takeSeq_frame p h.seq
  · exact d.takeSeq_frame p h.seq

theorem Dev.takeHead_strandAt (d : Dev) (p q : PortNo) (h : PacketHead) (vc : Nat) :
    (d.takeHead p h).strandAt q vc = d.strandAt q vc :=
  congrArg (fun e => e.strandAt q vc) (d.takeHead_rest p h)

theorem Dev.takeHead_active (d : Dev) (p : PortNo) (h : PacketHead) (n : StrandNo) : (d.takeHead p h).active n = d.active n :=
  congrArg (fun e => e.active n) (d.takeHead_rest p h)

/-- After the settling nothing but the ports and the strands differs where nothing else did before it. -/
theorem Dev.settle_rest {e d : Dev} (h : { e with ports := d.ports, strands := d.strands } = d) :
    { e.settle.unreport d with ports := d.ports, strands := d.strands } = d := by
  rw [Dev.unreport_settle]
  exact congrArg (fun x : Dev => x.unreport d) h

theorem exec_nullBlankingPacket (s : State) (p : PortNo) (h : PacketHead) (vc : Fin 16) :
    exec (.nullBlankingPacket p h vc) s = .next (s.run fun d => if d.trained p then d.takeHead p h else d) := rfl

/-- Settles O27: the packet leaves the framing alone, whose effect on the port, the strands and the rest is said above. -/
theorem packetFraming : Obligations.PacketFraming := by
  intro s p h vc
  refine ⟨fun ht => ⟨_, exec_nullBlankingPacket s p h vc, rfl, ?_⟩, fun ht => ⟨_, exec_nullBlankingPacket s p h vc, rfl, ?_⟩⟩
  · rw [State.run_dev, if_pos ht, Dev.settle_ports, Dev.settle_strands, Dev.takeHead_ports, Dev.takeHead_strands, upd_same]
    exact ⟨rfl, ⟨Port.takeHead_gap _ h, Port.takeHead_hdrCorrected _ h, s.dev.takeSeq_strand p h.seq⟩,
      fun q hq => upd_other _ _ _ _ hq, Dev.settle_rest (s.dev.takeHead_rest p h)⟩
  · rw [State.run_dev, if_neg (ne_true_of_eq_false ht), Dev.unreport_settle, Dev.unreport_self]

end Sys2Proof.Machine
end

section
/-! SUPPORT. The packets that a creel port counts and discards, and embedded data (spec/04_creel_links.md R126 to R132; 05 R190, R191;
06 R200). -/

namespace Sys2Proof.Machine

/-- The command leaves the registers `e`, once settled, and the memories as they are. -/
def Yields (s : State) (c : Instr) (e : Dev) : Prop := ∃ t, exec c s = .next t ∧ t.mem = s.mem ∧ t.dev = e.settle

theorem yields_run (s : State) (c : Instr) (f : Dev → Dev) (e : Dev) (hexec : exec c s = .next (s.run f)) (hf : f s.dev = e) :
    Yields s c e := ⟨_, hexec, rfl, congrArg Dev.settle hf⟩

theorem yields_runM (s : State) (c : Instr) (f : State → State) (e : Dev) (hexec : exec c s = .next (s.runM f))
    (hf : f s = { s with dev := e }) : Yields s c e :=
  ⟨_, hexec, by rw [State.runM_mem, hf], by rw [State.runM_dev, hf]⟩

/-! ### Acceptance (R132) -/

theorem Dev.accept_unmapped (d : Dev) (p : PortNo) (h : PacketHead) (vc : Nat) (ht : d.trained p = true)
    (hn : (d.takeHead p h).strandAt p vc = none) :
    d.accept p h vc = ((d.takeHead p h).onErrs p fun e => { e with unmapped := satAdd e.unmapped 1 }, none) := by
  simp only [Dev.accept, ht, if_true, hn]

theorem Dev.accept_foreign (d : Dev) (p : PortNo) (h : PacketHead) (vc : Nat) (n : StrandNo) (ht : d.trained p = true)
    (hn : (d.takeHead p h).strandAt p vc = some n) (ha : (d.takeHead p h).active n = false) :
    d.accept p h vc = ((d.takeHead p h).onErrs p fun e => { e with foreign := satAdd e.foreign 1 }, none) := by
  simp only [Dev.accept, ht, if_true, hn, ha, Bool.false_eq_true, if_false]

theorem Dev.accept_known (d : Dev) (p : PortNo) (h : PacketHead) (vc : Nat) (n : StrandNo) (ht : d.trained p = true)
    (hn : (d.takeHead p h).strandAt p vc = some n) (ha : (d.takeHead p h).active n = true) :
    d.accept p h vc = (d.takeHead p h, some n) := by
  simp only [Dev.accept, ht, if_true, hn, ha]

/-- A packet that is not accepted leaves what `Dev.accept` leaves, whatever its kind. -/
theorem yields_unaccepted (s : State) (p : PortNo) (h : PacketHead) (vc : Fin 16) (dt : Byte) (wc : Half) (payload : List Byte)
    (le : LineEvent) (es : List Exposure) (ev : EmbeddedEvent) (cause : UnknownCause) (e : Dev)
    (hacc : s.dev.accept p h vc.val = (e, none)) (c : Instr)
    (hc : c ∈ [.lineStart p h vc, .lineEnd p h vc, .genericShortPacket p h vc dt, .unknownPacket p h ⟨vc, cause⟩,
      .frameEnd p h vc wc, .imageLine p h vc dt payload le, .embeddedData p h vc es ev]) : Yields s c e := by
  have hcount : ∀ f, s.dev.countPacket p h vc f = e := fun f => by rw [Dev.countPacket, hacc]
  simp only [List.mem_cons, List.not_mem_nil, or_false] at hc
  rcases hc with rfl | rfl | rfl | rfl | rfl | rfl | rfl
  case inl | inr.inl | inr.inr.inl => exact yields_run s _ _ e rfl (hcount _)
  · exact yields_run s _ (unknownPacket p h vc cause) e rfl (by rw [unknownPacket, hacc])
  · exact yields_runM s _ (frameEnd p h vc wc) e rfl (by rw [frameEnd, hacc])
  · exact yields_runM s _ (imageLine p h vc dt payload le) e rfl (by rw [imageLine, hacc])
  · exact yields_run s _ (embeddedData p h vc es ev) e rfl (by rw [embeddedData, hacc])

/-! ### What a discarded packet leaves -/

/-- The command leaves the port `p` of `d` with the counters `x`, the strands `ss`, and everything else as it was. -/
def Discards (s : State) (c : Instr) (d : Dev) (p : PortNo) (x : CrlErrs) (ss : Vector Strand 64) : Prop :=
  ∃ t, exec c s = .next t ∧ t.mem = s.mem ∧ t.dev.ports = upd d.ports p (fun y => { y with errs := x }) ∧ t.dev.strands = ss ∧
    { t.dev.unreport s.dev with ports := s.dev.ports, strands := s.dev.strands } = s.dev

/-- A command that counts one packet on the framed device `d`, and beyond that marks strands alone, discards it. -/
theorem Yields.discards {s : State} {c : Instr} {d e : Dev} {p : PortNo} {f : CrlErrs → CrlErrs} (hc : Yields s c e)
    (hd : { d with ports := s.dev.ports, strands := s.dev.strands } = s.dev)
    (he : { e with strands := (d.onErrs p f).strands } = d.onErrs p f) : Discards s c d p (f (d.ports[p]).errs) e.strands := by
  obtain ⟨t, hexec, hmem, hdev⟩ := hc
  refine ⟨t, hexec, hmem, ?_, ?_, ?_⟩
  · rw [hdev, Dev.settle_ports, ← Dev.onErrs_ports]
    exact congrArg (fun y => y.ports) he
  · rw [hdev, Dev.settle_strands]
  · rw [hdev]
    refine Dev.settle_rest ?_
    exact (congrArg (fun y : Dev => { y with ports := s.dev.ports, strands := s.dev.strands }) he).trans hd

/-- A command that counts one packet on the framed device and does nothing else. -/
theorem Yields.counts {s : State} {c : Instr} {d : Dev} {p : PortNo} {f : CrlErrs → CrlErrs} (hc : Yields s c (d.onErrs p f))
    (hd : { d with ports := s.dev.ports, strands := s.dev.strands } = s.dev) : Discards s c d p (f (d.ports[p]).errs) d.strands :=
  hc.discards hd rfl

/-- The marks of a discarded packet, strand by strand. -/
theorem Discards.marks {s : State} {c : Instr} {d : Dev} {p : PortNo} {x : CrlErrs} {ss : Vector Strand 64} (h : Discards s c d p x ss)
    (mark : StrandNo → Strand) (hss : ∀ n : StrandNo, ss[n] = mark n) :
    ∃ t, exec c s = .next t ∧ t.mem = s.mem ∧ t.dev.ports = upd d.ports p (fun y => { y with errs := x }) ∧
      (∀ n : StrandNo, t.dev.strands[n] = mark n) ∧
      { t.dev.unreport s.dev with ports := s.dev.ports, strands := s.dev.strands } = s.dev := by
  obtain ⟨t, hexec, hmem, hports, hstrands, hrest⟩ := h
  exact ⟨t, hexec, hmem, hports, fun n => by rw [hstrands, hss], hrest⟩

/-- A discarded packet of a virtual channel marks the open frame of its strand (R128). -/
theorem Dev.discarded_strand (d : Dev) (p : PortNo) (vc : Nat) (n : StrandNo) :
    (d.discarded p vc).strands[n] = if d.strandAt p vc = some n then (d.strands[n]).nonConform else d.strands[n] := by
  unfold Dev.discarded
  split
  case h_1 m hm => simp only [d.nonConform_strand m n, hm, Option.some.injEq, eq_comm]
  case h_2 hm => rw [hm, if_neg (by simp)]

theorem Dev.discarded_frame (d : Dev) (p : PortNo) (vc : Nat) : { d.discarded p vc with strands := d.strands } = d := by
  unfold Dev.discarded
  split <;> rfl

section
variable {s : State} {p : PortNo} {h : PacketHead}

/-- A packet that is not accepted counts as unmapped or as foreign. -/
theorem discards_unaccepted (vc : Fin 16) (dt : Byte) (wc : Half) (payload : List Byte)
    (le : LineEvent) (es : List Exposure) (ev : EmbeddedEvent) (cause : UnknownCause) (ht : s.dev.trained p = true) (x : CrlErrs)
    (hx : let d := s.dev.takeHead p h
      let e := (d.ports[p]).errs
      (d.strandAt p vc.val = none ∧ x = { e with unmapped := satAdd e.unmapped 1 }) ∨
        (∃ n, d.strandAt p vc.val = some n ∧ d.active n = false ∧ x = { e with foreign := satAdd e.foreign 1 })) (c : Instr)
    (hc : c ∈ [.lineStart p h vc, .lineEnd p h vc, .genericShortPacket p h vc dt, .unknownPacket p h ⟨vc, cause⟩,
      .frameEnd p h vc wc, .imageLine p h vc dt payload le, .embeddedData p h vc es ev]) :
    Discards s c (s.dev.takeHead p h) p x (s.dev.takeHead p h).strands := by
  rcases hx with ⟨hn, rfl⟩ | ⟨n, hn, ha, rfl⟩
  · have hacc := s.dev.accept_unmapped p h vc.val ht hn
    exact (yields_unaccepted s p h vc dt wc payload le es ev cause _ hacc c hc).counts (s.dev.takeHead_rest p h)
  · have hacc := s.dev.accept_foreign p h vc.val n ht hn ha
    exact (yields_unaccepted s p h vc dt wc payload le es ev cause _ hacc c hc).counts (s.dev.takeHead_rest p h)

/-- A packet of an active strand of which `Dev.countPacket` counts one. -/
theorem discards_countPacket (vc : Fin 16) (n : StrandNo) (hacc : s.dev.accept p h vc.val = (s.dev.takeHead p h, some n)) (c : Instr)
    (f : CrlErrs → CrlErrs) (hexec : exec c s = .next (s.run fun d => d.countPacket p h vc f)) :
    Discards s c (s.dev.takeHead p h) p (f ((s.dev.takeHead p h).ports[p]).errs) (s.dev.takeHead p h).strands :=
  (yields_run s c _ _ hexec (by rw [Dev.countPacket, hacc])).counts (s.dev.takeHead_rest p h)

/-- A packet that is counted for one of the causes of R132. -/
theorem discards_unknown (vc : Fin 16) (cause : UnknownCause) (f : CrlErrs → CrlErrs)
    (hf : unknownPacket p h vc cause s.dev = (s.dev.takeHead p h).onErrs p f) :
    Discards s (.unknownPacket p h ⟨vc, cause⟩) (s.dev.takeHead p h) p (f ((s.dev.takeHead p h).ports[p]).errs)
      (s.dev.takeHead p h).strands :=
  (yields_run s _ _ _ rfl hf).counts (s.dev.takeHead_rest p h)

/-- A packet of an active strand that is only counted (R131, R132). -/
theorem discards_counted (vc : Fin 16) (dt : Byte) (n : StrandNo)
    (hacc : s.dev.accept p h vc.val = (s.dev.takeHead p h, some n)) (c : Instr) (x : CrlErrs)
    (hc : let e := ((s.dev.takeHead p h).ports[p]).errs
      (c, x) ∈ [
        (.lineStart p h vc, { e with lineMarks := satAdd e.lineMarks 1 }),
        (.lineEnd p h vc, { e with lineMarks := satAdd e.lineMarks 1 }),
        (.genericShortPacket p h vc dt, { e with generic := satAdd e.generic 1 }),
        (.unknownPacket p h ⟨vc, .unmappedChannel⟩, { e with unmapped := satAdd e.unmapped 1 }),
        (.unknownPacket p h ⟨vc, .foreignImageType⟩, { e with foreign := satAdd e.foreign 1 }),
        (.unknownPacket p h ⟨vc, .inactiveStrand⟩, { e with foreign := satAdd e.foreign 1 })]) :
    Discards s c (s.dev.takeHead p h) p x (s.dev.takeHead p h).strands := by
  simp only [List.mem_cons, List.not_mem_nil, or_false, Prod.mk.injEq] at hc
  rcases hc with ⟨rfl, rfl⟩ | ⟨rfl, rfl⟩ | ⟨rfl, rfl⟩ | ⟨rfl, rfl⟩ | ⟨rfl, rfl⟩ | ⟨rfl, rfl⟩
  · exact discards_countPacket vc n hacc _ (fun e => { e with lineMarks := satAdd e.lineMarks 1 }) rfl
  · exact discards_countPacket vc n hacc _ (fun e => { e with lineMarks := satAdd e.lineMarks 1 }) rfl
  · exact discards_countPacket vc n hacc _ (fun e => { e with generic := satAdd e.generic 1 }) rfl
  · exact discards_unknown vc _ (fun e => { e with unmapped := satAdd e.unmapped 1 }) (by rw [unknownPacket, hacc])
  · exact discards_unknown vc _ (fun e => { e with foreign := satAdd e.foreign 1 }) (by rw [unknownPacket, hacc])
  · exact discards_unknown vc _ (fun e => { e with foreign := satAdd e.foreign 1 }) (by rw [unknownPacket, hacc])

/-- A damaged packet of a virtual channel on a trained lane. -/
theorem discards_damaged (vc : Fin 16) (ht : s.dev.trained p = true) (c : Instr) (f : CrlErrs → CrlErrs)
    (hexec : exec c s = .next (s.run fun d => d.damaged p h (some vc) f)) :
    Discards s c (s.dev.takeHead p h) p (f ((s.dev.takeHead p h).ports[p]).errs)
      (((s.dev.takeHead p h).onErrs p f).discarded p vc.val).strands :=
  (yields_run s c _ _ hexec (if_pos ht)).discards (s.dev.takeHead_rest p h)
    (((s.dev.takeHead p h).onErrs p f).discarded_frame p vc.val)

/-- A damaged control packet. -/
theorem discards_control (ht : s.dev.hears p = true) (c : Instr) (f : CrlErrs → CrlErrs)
    (hexec : exec c s = .next (s.run fun d => d.damaged p h none f)) :
    Discards s c (s.dev.takeSeq p h.seq) p (f ((s.dev.takeSeq p h.seq).ports[p]).errs) (s.dev.takeSeq p h.seq).strands :=
  (yields_run s c _ _ hexec (if_pos ht)).counts (s.dev.takeSeq_frame p h.seq)

end

/-- Settles O28: each command counts on the framed device and marks strands alone, as the lemmas above say of its kind. -/
theorem discardedPackets : Obligations.DiscardedPackets := by
  intro s p h vc dt wc payload le es ev cause
  refine ⟨fun ht => ?_, fun ht => ?_⟩
  all_goals intro d e
  · intro marked
    refine ⟨fun c hc x hx => discards_unaccepted vc dt wc payload le es ev cause ht x hx c hc, fun n hn ha => ?_, fun c x hc => ?_, ?_⟩
    · have hacc := s.dev.accept_known p h vc.val n ht hn ha
      have hmarks : Yields s (.unknownPacket p h ⟨vc, .dataType⟩)
          ((d.onErrs p fun x => { x with unknown := satAdd x.unknown 1 }).nonConform n) :=
        yields_run s _ (unknownPacket p h vc .dataType) _ rfl (by rw [unknownPacket, hacc])
      exact ⟨discards_counted vc dt n hacc,
        (hmarks.discards (s.dev.takeHead_rest p h) (Dev.nonConform_frame _ n)).marks _ (Dev.nonConform_strand _ n)⟩
    · simp only [List.mem_cons, List.not_mem_nil, or_false, Prod.mk.injEq] at hc
      rcases hc with ⟨rfl, rfl⟩ | ⟨rfl, rfl⟩ | ⟨rfl, rfl⟩ | ⟨rfl, rfl⟩
      · exact (discards_damaged vc ht _ (fun e => { e with crc := satAdd e.crc 1 }) rfl).marks _ (Dev.discarded_strand _ p vc.val)
      · exact (discards_damaged vc ht _ (fun e => { e with code := satAdd e.code 1 }) rfl).marks _ (Dev.discarded_strand _ p vc.val)
      · exact (discards_damaged vc ht _ (fun e => { e with openPacket := satAdd e.openPacket 1 }) rfl).marks _ (Dev.discarded_strand _ p vc.val)
      · exact (discards_damaged vc ht _ (fun e => { e with aborted := satAdd e.aborted 1 }) rfl).marks _ (Dev.discarded_strand _ p vc.val)
    · have hmarks : Yields s (.packetDiscard p h .headerUncorrectable)
          ((d.onErrs p fun x => { x with hdrUncorrectable := satAdd x.hdrUncorrectable 1 }).nonConformPort p) :=
        yields_run s _ (packetDiscard p h .headerUncorrectable) _ rfl (if_pos ht)
      exact (hmarks.discards (s.dev.takeHead_rest p h) (Dev.nonConformPort_frame _ p)).marks _ (Dev.nonConformPort_strand _ p)
  · intro c x hc
    simp only [List.mem_cons, List.not_mem_nil, or_false, Prod.mk.injEq] at hc
    rcases hc with ⟨rfl, rfl⟩ | ⟨rfl, rfl⟩ | ⟨rfl, rfl⟩ | ⟨rfl, rfl⟩
    · exact discards_control ht _ (fun e => { e with controlCrc := satAdd e.controlCrc 1 }) rfl
    · exact discards_control ht _ (fun e => { e with code := satAdd e.code 1 }) rfl
    · exact discards_control ht _ (fun e => { e with openPacket := satAdd e.openPacket 1 }) rfl
    · exact discards_control ht _ (fun e => { e with aborted := satAdd e.aborted 1 }) rfl

end Sys2Proof.Machine
end

section
/-! SUPPORT. Embedded data is the readback of its frame (spec/05_strands_exposure.md R190, R191; 06 R200). -/

namespace Sys2Proof.Machine

/-- The strand with the decoded entries as the readback of its open frame, MISMATCH where they differ from the write log (R190, R191). -/
def Strand.takeReadback (g : Strand) (es : List Exposure) : Strand :=
  { g with frames := g.frames.map fun f =>
      if f.isOpen then { f with readback := some es, flags := f.flags ||| (if es ≠ f.opening then 0x0010 else 0) } else f }

theorem embeddedData_intact (d e : Dev) (p : PortNo) (h : PacketHead) (vc : Fin 16) (entries : List Exposure) (n : StrandNo)
    (hacc : d.accept p h vc.val = (e, some n)) :
    embeddedData p h vc entries .intact d = if (e.profile n.val).readback ≠ 0 then
      e.onStrand n fun g => g.takeReadback (entries.take (e.expCount n)) else e := by
  simp only [embeddedData, hacc, Strand.takeReadback, flagIf, flagMismatch, decide_eq_true_eq]

theorem embeddedData_damaged (d e : Dev) (p : PortNo) (h : PacketHead) (vc : Fin 16) (entries : List Exposure) (n : StrandNo)
    (hacc : d.accept p h vc.val = (e, some n)) :
    embeddedData p h vc entries .damaged d = (e.onErrs p fun x => { x with crc := satAdd x.crc 1 }).nonConform n := by
  rw [embeddedData, hacc]

theorem embeddedData_fifoFull (d e : Dev) (p : PortNo) (h : PacketHead) (vc : Fin 16) (entries : List Exposure) (n : StrandNo)
    (hacc : d.accept p h vc.val = (e, some n)) : embeddedData p h vc entries .fifoFull d = e.fifoFull p n := by
  rw [embeddedData, hacc]

section
variable {s : State} {p : PortNo} {h : PacketHead} {vc : Fin 16} {n : StrandNo}
  (hacc : s.dev.accept p h vc.val = (s.dev.takeHead p h, some n)) (entries : List Exposure)
include hacc

theorem exec_embeddedData_intact :
    let d := s.dev.takeHead p h
    ∃ t, exec (.embeddedData p h vc entries .intact) s = .next t ∧ t.mem = s.mem ∧ t.dev.ports = d.ports ∧
      (∀ m : StrandNo, t.dev.strands[m] = if m = n ∧ (d.profile n.val).readback ≠ 0 then
        (d.strands[m]).takeReadback (entries.take (d.expCount n)) else d.strands[m]) ∧
      { t.dev.unreport s.dev with ports := s.dev.ports, strands := s.dev.strands } = s.dev := by
  intro d
  have hrun := embeddedData_intact s.dev d p h vc entries n hacc
  refine ⟨_, rfl, rfl, ?_⟩
  rw [State.run_dev, Dev.settle_ports, Dev.settle_strands, hrun]
  by_cases hread : (d.profile n.val).readback ≠ 0
  · rw [if_pos hread]
    refine ⟨rfl, fun m => ?_, Dev.settle_rest (s.dev.takeHead_rest p h)⟩
    by_cases hm : m = n
    · rw [if_pos ⟨hm, hread⟩, hm, Dev.onStrand_strands, upd_same]
    · rw [if_neg fun hboth => hm hboth.1, Dev.onStrand_strands, upd_other _ _ _ _ hm]
  · rw [if_neg hread]
    exact ⟨rfl, fun m => (if_neg fun hboth => hread hboth.2).symm, Dev.settle_rest (s.dev.takeHead_rest p h)⟩

theorem exec_embeddedData_damaged :
    let d := s.dev.takeHead p h
    ∃ t, exec (.embeddedData p h vc entries .damaged) s = .next t ∧ t.mem = s.mem ∧
      t.dev.ports = upd d.ports p (fun y => { y with errs := { y.errs with crc := satAdd y.errs.crc 1 } }) ∧
      t.dev.strands = upd d.strands n (fun _ => (d.strands[n]).nonConform) ∧
      { t.dev.unreport s.dev with ports := s.dev.ports, strands := s.dev.strands } = s.dev := by
  intro d
  have hmarks := yields_run s (.embeddedData p h vc entries .damaged) _ _ rfl (embeddedData_damaged s.dev d p h vc entries n hacc)
  obtain ⟨t, hexec, hmem, hports, hstrands, hrest⟩ := hmarks.discards (s.dev.takeHead_rest p h) (Dev.nonConform_frame _ n)
  exact ⟨t, hexec, hmem, hports.trans (upd_congr _ _ _ _ rfl), hstrands.trans (upd_congr d.strands n Strand.nonConform _ rfl), hrest⟩

theorem exec_embeddedData_fifoFull :
    let d := s.dev.takeHead p h
    ∃ t, exec (.embeddedData p h vc entries .fifoFull) s = .next t ∧ t.mem = s.mem ∧ t.dev.ports = d.ports ∧
      t.dev.card = upd s.dev.card p (fun c => { c with overflows := satAdd c.overflows 1 }) ∧
      t.dev.strands = upd d.strands n (fun _ => (d.strands[n]).nonConform) ∧
      { t.dev.unreport s.dev with ports := s.dev.ports, strands := s.dev.strands, card := s.dev.card } = s.dev := by
  intro d
  have hcard : d.card = s.dev.card := congrArg (fun e => e.card) (s.dev.takeHead_rest p h)
  refine ⟨_, rfl, rfl, ?_⟩
  rw [State.run_dev, Dev.settle_ports, Dev.settle_strands, Dev.settle_card, Dev.unreport_settle,
    embeddedData_fifoFull s.dev d p h vc entries n hacc, ← hcard]
  refine ⟨rfl, rfl, upd_congr d.strands n Strand.nonConform _ rfl, ?_⟩
  rw [hcard]
  exact congrArg (fun e : Dev => { e.unreport s.dev with card := s.dev.card }) (s.dev.takeHead_rest p h)

end

/-- Settles O32: a packet of an active strand is accepted, and each outcome is one of the three lemmas above. -/
theorem embeddedReadback : Obligations.EmbeddedReadback := by
  intro s p h vc entries n ht hn ha
  have hacc := s.dev.accept_known p h vc.val n ht ((s.dev.takeHead_strandAt p p h vc.val).trans hn)
    ((s.dev.takeHead_active p h n).trans ha)
  exact ⟨exec_embeddedData_intact hacc entries, exec_embeddedData_damaged hacc entries, exec_embeddedData_fifoFull hacc entries⟩

end Sys2Proof.Machine
end

section
/-! SUPPORT. Training of a creel lane (spec/04_creel_links.md R148, R149): what a message on the back channel and a failed attempt
change of a port, and the commands of training. -/

namespace Sys2Proof.Machine

/-! ### Commands that change one port -/

theorem Dev.onPort_onPort (d : Dev) (p : PortNo) (f g : Port → Port) :
    (d.onPort p f).onPort p g = d.onPort p fun x => g (f x) := by
  simp only [Dev.onPort, upd_upd]

theorem Dev.onPort_port_same (d : Dev) (p : PortNo) (f : Port → Port) : (d.onPort p f).ports[p] = f d.ports[p] := upd_same _ _ _

theorem Dev.onPort_port_other (d : Dev) (p q : PortNo) (f : Port → Port) (hq : q ≠ p) : (d.onPort p f).ports[q] = d.ports[q] :=
  upd_other _ _ _ _ hq

/-- Two changes of a port that agree on its present value are one. -/
theorem Dev.onPort_congr (d : Dev) (p : PortNo) (f g : Port → Port) (h : f d.ports[p] = g d.ports[p]) : d.onPort p f = d.onPort p g :=
  congrArg (fun v => { d with ports := v }) (upd_congr d.ports p f g h)

/-- A command that changes one port leaves the other ports and the rest of the registers. -/
theorem Yields.onPort {s : State} {c : Instr} {p : PortNo} {f : Port → Port} (hc : Yields s c (s.dev.onPort p f)) :
    ∃ t, exec c s = .next t ∧ t.mem = s.mem ∧ t.dev.ports = upd s.dev.ports p f ∧
      { t.dev.unreport s.dev with ports := s.dev.ports } = s.dev := by
  obtain ⟨t, hexec, hmem, hdev⟩ := hc
  refine ⟨t, hexec, hmem, ?_, ?_⟩
  · rw [hdev, Dev.settle_ports, Dev.onPort_ports]
  · rw [hdev, Dev.unreport_settle]
    rfl

/-- The same, port by port. -/
theorem Yields.onPort_entries {s : State} {c : Instr} {p : PortNo} {f : Port → Port} (hc : Yields s c (s.dev.onPort p f)) :
    ∃ t, exec c s = .next t ∧ t.mem = s.mem ∧ t.dev.ports[p] = f s.dev.ports[p] ∧
      (∀ q, q ≠ p → t.dev.ports[q] = s.dev.ports[q]) ∧ { t.dev.unreport s.dev with ports := s.dev.ports } = s.dev := by
  obtain ⟨t, hexec, hmem, hports, hrest⟩ := hc.onPort
  exact ⟨t, hexec, hmem, by rw [hports, upd_same], fun q hq => by rw [hports, upd_other _ _ _ _ hq], hrest⟩

/-! ### LINK_CFG -/

/-- A message changes the queues of the back channel alone, and t1 where it is a SYNC_REQ (R136, R144). -/
theorem Port.send_frame (x : Port) (now : Nat) (m : BcMsg) :
    { x.send now m with
      nextTag := x.nextTag, outstanding := x.outstanding, queued := x.queued, sent := x.sent, syncT1 := x.syncT1 } = x := by
  unfold Port.send
  split_ifs <;> rfl

/-- The port with LINK_CFG sent for a step that gets no reply (R136). -/
def Port.sendCfg (x : Port) (p : PortNo) (cmd : Nat) : Port := { x with sent := (0, .linkCfg cmd x.rate p.val) :: x.sent }

theorem Dev.linkCfg_noReply (d : Dev) (p : PortNo) (cmd : Nat) (h : cmd ≠ 3) : d.linkCfg p cmd = d.onPort p fun x => x.sendCfg p cmd := by
  simp only [Dev.linkCfg, Port.send, BcMsg.noReply, h, ne_eq, not_false_eq_true, decide_true, if_true, Port.sendCfg]

/-! ### A failed attempt (R149) -/

/-- The port after a failed attempt. -/
def Port.fail (x : Port) : Port :=
  { x with attempts := x.attempts + 1, seeded := false, startCoeffs := none, upAcked := false, outstanding := [], queued := [],
           step := if 3 ≤ x.attempts + 1 then .waiting else .ts1 }

theorem Dev.failAttempt_third (d : Dev) (p : PortNo) (h : 3 ≤ (d.ports[p]).attempts + 1) :
    d.failAttempt p = (d.onPort p Port.fail).raise 12 p.val ((d.ports[p]).attempts + 1) :=
  (if_pos h).trans (congrArg (fun e : Dev => e.raise 12 p.val _) (d.onPort_congr p _ Port.fail rfl))

theorem Dev.failAttempt_again (d : Dev) (p : PortNo) (h : ¬ 3 ≤ (d.ports[p]).attempts + 1) :
    d.failAttempt p = d.onPort p fun x => x.fail.sendCfg p 1 :=
  (if_neg h).trans <| (congrArg (fun e : Dev => e.linkCfg p 1) (d.onPort_congr p _ Port.fail rfl)).trans <| by
    rw [Dev.linkCfg_noReply _ _ _ (by decide), Dev.onPort_onPort]

/-- A failed attempt changes its port, and the fault summary where it is the third. -/
theorem Dev.failAttempt_unreport (d e : Dev) (p : PortNo) :
    { (d.failAttempt p).unreport e with ports := d.ports } = d.unreport e := by
  by_cases h : 3 ≤ (d.ports[p]).attempts + 1
  · rw [d.failAttempt_third p h, Dev.unreport_raise]
    rfl
  · rw [d.failAttempt_again p h]
    rfl

theorem Dev.failAttempt_port_other (d : Dev) (p q : PortNo) (hq : q ≠ p) : (d.failAttempt p).ports[q] = d.ports[q] := by
  by_cases h : 3 ≤ (d.ports[p]).attempts + 1
  · rw [d.failAttempt_third p h, Dev.raise_ports, Dev.onPort_port_other _ _ _ _ hq]
  · rw [d.failAttempt_again p h, Dev.onPort_port_other _ _ _ _ hq]

/-- Beyond the log of sent messages the port is `Port.fail`. -/
theorem Dev.failAttempt_port (d : Dev) (p : PortNo) :
    { (d.failAttempt p).ports[p] with sent := (d.ports[p]).sent } = (d.ports[p]).fail := by
  by_cases h : 3 ≤ (d.ports[p]).attempts + 1
  · rw [d.failAttempt_third p h, Dev.raise_ports, Dev.onPort_port_same]
    rfl
  · rw [d.failAttempt_again p h, Dev.onPort_port_same]
    rfl

/-- What a command that fails an attempt leaves of port `p` and around it. -/
def FailsAttempt (s : State) (c : Instr) (p : PortNo) : Prop :=
  ∃ t, exec c s = .next t ∧ t.mem = s.mem ∧ (t.dev.ports[p]).attempts = (s.dev.ports[p]).attempts + 1 ∧
    (t.dev.ports[p]).startCoeffs = none ∧ (t.dev.ports[p]).seeded = false ∧ (t.dev.ports[p]).outstanding = [] ∧
    (t.dev.ports[p]).step = (if 3 ≤ (s.dev.ports[p]).attempts + 1 then .waiting else .ts1) ∧
    (3 ≤ (s.dev.ports[p]).attempts + 1 → t.dev.sys.fault.getLsbD 12 = true) ∧
    (∀ q, q ≠ p → t.dev.ports[q] = s.dev.ports[q]) ∧
    t.dev.strands = s.dev.strands ∧ t.dev.card = s.dev.card ∧ t.dev.ply = s.dev.ply ∧ t.dev.pins.pocEn = s.dev.pins.pocEn

/-- An attempt fails from registers `d` that differ from those before the command in the journal and in what port `p` has measured. -/
theorem Yields.failsAttempt {s : State} {c : Instr} {d : Dev} {p : PortNo} (hc : Yields s c (d.failAttempt p))
    (hd : { d with ports := s.dev.ports, jnl := s.dev.jnl } = s.dev)
    (hattempts : (d.ports[p]).attempts = (s.dev.ports[p]).attempts) (hothers : ∀ q, q ≠ p → d.ports[q] = s.dev.ports[q]) :
    FailsAttempt s c p := by
  obtain ⟨t, hexec, hmem, hdev⟩ := hc
  have hport := d.failAttempt_port p
  have hrest : { (d.failAttempt p).settle.unreport s.dev with ports := s.dev.ports, jnl := s.dev.jnl } = s.dev := by
    rw [Dev.unreport_settle]
    exact (congrArg (fun e : Dev => { e with ports := s.dev.ports, jnl := s.dev.jnl }) (d.failAttempt_unreport s.dev p)).trans
      (congrArg (fun e : Dev => e.unreport s.dev) hd)
  refine ⟨t, hexec, hmem, ?_, ?_, ?_, ?_, ?_, fun hthird => ?_, fun q hq => ?_, ?_, ?_, ?_, ?_⟩
  all_goals rw [hdev]
  case refine_6 =>
    rw [d.failAttempt_third p (hattempts ▸ hthird)]
    exact Dev.raise_shown _ _ _ _ (by decide)
  case refine_7 => rw [Dev.settle_ports, d.failAttempt_port_other p q hq, hothers q hq]
  case refine_8 => exact congrArg (fun e => e.strands) hrest
  case refine_9 => exact congrArg (fun e => e.card) hrest
  case refine_10 => exact congrArg (fun e => e.ply) hrest
  case refine_11 => exact congrArg (fun e => e.pins.pocEn) hrest
  all_goals rw [Dev.settle_ports]
  · exact (congrArg (fun x => x.attempts) hport).trans (congrArg (· + 1) hattempts)
  · exact congrArg (fun x => x.startCoeffs) hport
  · exact congrArg (fun x => x.seeded) hport
  · exact congrArg (fun x => x.outstanding) hport
  · exact (congrArg (fun x => x.step) hport).trans (by rw [Port.fail, hattempts])

/-! ### The commands -/

section
variable (s : State) (p : PortNo)

theorem yields_linkCfgRepeat (h : (s.dev.ports[p]).step = .ts1) :
    Yields s (.linkCfgRepeat p) (s.dev.onPort p fun x => x.sendCfg p 1) :=
  yields_run s _ (linkCfgRepeat p) _ rfl ((if_pos h).trans (s.dev.linkCfg_noReply p 1 (by decide)))

theorem yields_creelTs1Received_right (port rate : Byte) (h : (s.dev.ports[p]).step = .ts1)
    (hecho : port.toNat = p.val ∧ rate.toNat = (s.dev.ports[p]).rate) :
    Yields s (.creelTs1Received p port rate) (s.dev.onPort p fun x => { x with step := .ts2 }.sendCfg p 2) :=
  yields_run s _ (creelTs1Received p port rate) _ rfl <| by
    rw [creelTs1Received, if_pos h, if_pos hecho, Dev.linkCfg_noReply _ _ _ (by decide), Dev.onPort_onPort]

theorem yields_creelTs1Received_wrong (port rate : Byte) (h : (s.dev.ports[p]).step = .ts1)
    (hecho : ¬ (port.toNat = p.val ∧ rate.toNat = (s.dev.ports[p]).rate)) :
    Yields s (.creelTs1Received p port rate) (s.dev.failAttempt p) :=
  yields_run s _ (creelTs1Received p port rate) _ rfl ((if_pos h).trans (if_neg hecho))

theorem yields_trainingAttemptTimeout (h : (s.dev.ports[p]).step = .ts1) :
    Yields s (.trainingAttemptTimeout p) (s.dev.failAttempt p) :=
  yields_run s _ (trainingAttemptTimeout p) _ rfl (if_pos h)

theorem yields_trainingRetry (h : (s.dev.ports[p]).step = .waiting) :
    Yields s (.trainingRetry p) (s.dev.onPort p fun x => { x with step := .ts1 }.sendCfg p 1) :=
  yields_run s _ (trainingRetry p) _ rfl <| by
    rw [trainingRetry, if_pos h, Dev.linkCfg_noReply _ _ _ (by decide), Dev.onPort_onPort]

/-- The registers with an eye measured on a port, and the coefficients that gave it (R148, R561). -/
def Dev.measureEye (d : Dev) (p : PortNo) (c : EqCoeffs) (h v : Nat) : Dev :=
  (d.onHist fun y => y.setEye p.val h v).onPort p fun x => { x with eyeH := h, eyeV := v, startCoeffs := some c }

theorem yields_equaliserAdapted_narrow (c : EqCoeffs) (h v : Nat) (i : Image) (hstep : (s.dev.ports[p]).step = .ts2)
    (hi : s.dev.img = some i) (hmin : h < (i.portCfg p.val).minEye) :
    Yields s (.equaliserAdapted p c h v) ((s.dev.measureEye p c h v).failAttempt p) :=
  yields_run s _ (equaliserAdapted p c h v) _ rfl <| by
    simp only [equaliserAdapted, hstep, if_true, hi, Nat.not_le.2 hmin, if_false]
    rfl

/-- The port as an eye with enough margin leaves it: LINK_UP goes out. -/
def Port.linkUp (x : Port) (p : PortNo) (now : Nat) (c : EqCoeffs) (h v : Nat) : Port :=
  { x with eyeH := h, eyeV := v, startCoeffs := some c, step := .linkUp, upAcked := false }.send now (.linkCfg 3 x.rate p.val)

theorem yields_equaliserAdapted_wide (c : EqCoeffs) (h v : Nat) (i : Image) (hstep : (s.dev.ports[p]).step = .ts2)
    (hi : s.dev.img = some i) (hmin : (i.portCfg p.val).minEye ≤ h) :
    Yields s (.equaliserAdapted p c h v)
      ((s.dev.onHist fun y => y.setEye p.val h v).onPort p fun x => x.linkUp p s.dev.whl.tim c h v) :=
  yields_run s _ (equaliserAdapted p c h v) _ rfl <| by
    have hrun : equaliserAdapted p c h v s.dev =
        ((s.dev.measureEye p c h v).onPort p fun x => { x with step := .linkUp, upAcked := false }).linkCfg p 3 := by
      simp only [equaliserAdapted, hstep, if_true, hi, hmin]
      rfl
    rw [hrun, Dev.linkCfg, Dev.measureEye, Dev.onPort_onPort, Dev.onPort_onPort]
    rfl

theorem exec_equaliserAdapted_wide (c : EqCoeffs) (h v : Nat) (i : Image) (hstep : (s.dev.ports[p]).step = .ts2)
    (hi : s.dev.img = some i) (hmin : (i.portCfg p.val).minEye ≤ h) :
    ∃ t, exec (.equaliserAdapted p c h v) s = .next t ∧ t.mem = s.mem ∧ (t.dev.ports[p]).step = .linkUp ∧
      (t.dev.ports[p]).startCoeffs = some c ∧ (t.dev.ports[p]).eyeH = h ∧ (t.dev.ports[p]).eyeV = v ∧
      t.dev.jnl.history.eyes = (s.dev.jnl.history.setEye p.val h v).eyes ∧
      (∀ q, q ≠ p → t.dev.ports[q] = s.dev.ports[q]) ∧
      { t.dev.unreport s.dev with ports := s.dev.ports, jnl := s.dev.jnl } = s.dev := by
  obtain ⟨t, hexec, hmem, hdev⟩ := yields_equaliserAdapted_wide s p c h v i hstep hi hmin
  have hport : t.dev.ports[p] = (s.dev.ports[p]).linkUp p s.dev.whl.tim c h v := by
    rw [hdev, Dev.settle_ports, Dev.onPort_port_same, Dev.onHist_ports]
  have hsend := Port.send_frame { s.dev.ports[p] with eyeH := h, eyeV := v, startCoeffs := some c, step := .linkUp, upAcked := false }
    s.dev.whl.tim (.linkCfg 3 (s.dev.ports[p]).rate p.val)
  refine ⟨t, hexec, hmem, ?_, ?_, ?_, ?_, ?_, fun q hq => ?_, ?_⟩
  · exact (congrArg (fun x => x.step) hport).trans (congrArg (fun x => x.step) hsend)
  · exact (congrArg (fun x => x.startCoeffs) hport).trans (congrArg (fun x => x.startCoeffs) hsend)
  · exact (congrArg (fun x => x.eyeH) hport).trans (congrArg (fun x => x.eyeH) hsend)
  · exact (congrArg (fun x => x.eyeV) hport).trans (congrArg (fun x => x.eyeV) hsend)
  · rw [hdev, Dev.settle_jnl_history_eyes]
    rfl
  · rw [hdev, Dev.settle_ports, Dev.onPort_port_other _ _ _ _ hq, Dev.onHist_ports]
  · rw [hdev, Dev.unreport_settle]
    rfl

theorem exec_laneTrained (hstep : (s.dev.ports[p]).step = .linkUp) (hacked : (s.dev.ports[p]).upAcked = true) :
    ∃ t, exec (.laneTrained p) s = .next t ∧ t.mem = s.mem ∧
      t.dev.ports = upd s.dev.ports p (fun x => { x with
        step := .trained, working := x.startCoeffs, attempts := 0, lastSeq := none, trainedSincePlan := true }) ∧
      { t.dev.unreport s.dev with ports := s.dev.ports } = s.dev := by
  have hrun : laneTrained p s.dev = { (s.dev.onPort p fun x => { x with
      step := .trained, working := x.startCoeffs, attempts := 0, lastSeq := none, trainedSincePlan := true }) with
      jnl := { s.dev.jnl with changed := true } } := if_pos ⟨hstep, hacked⟩
  refine ⟨_, rfl, rfl, ?_, ?_⟩
  · rw [State.run_dev, Dev.settle_ports, hrun]
    rfl
  · rw [State.run_dev, Dev.unreport_settle, hrun]
    rfl

end

/-- Settles O23: every step of training changes its port alone, and the three ways to fail end in `Dev.failAttempt`. -/
theorem laneTraining : Obligations.LaneTraining := by
  intro s p
  refine ⟨fun hts1 => ⟨(yields_linkCfgRepeat s p hts1).onPort, fun rate hrate => ?_⟩,
    fun c h v i hstep hi hmin => exec_equaliserAdapted_wide s p c h v i hstep hi hmin, exec_laneTrained s p, fun hwait => ?_, fun c hc => ?_⟩
  · have hport : (BitVec.ofNat 8 p.val).toNat = p.val := by
      rw [BitVec.toNat_ofNat]
      omega
    obtain ⟨t, hexec, hmem, hp, hothers, hrest⟩ := (yields_creelTs1Received_right s p _ rate hts1 ⟨hport, hrate⟩).onPort_entries
    exact ⟨t, hexec, hmem, by rw [hp, Port.sendCfg], by rw [hp, Port.sendCfg], hothers, hrest⟩
  · obtain ⟨t, hexec, hmem, hp, hothers, hrest⟩ := (yields_trainingRetry s p hwait).onPort_entries
    exact ⟨t, hexec, hmem, by rw [hp, Port.sendCfg], by rw [hp, Port.sendCfg], hothers, hrest⟩
  · show FailsAttempt s c p
    rcases hc with ⟨hts1, rfl⟩ | ⟨hts1, port, rate, hecho, rfl⟩ | ⟨hts2, k, h, v, i, hi, hmin, rfl⟩
    · exact (yields_trainingAttemptTimeout s p hts1).failsAttempt rfl rfl fun _ _ => rfl
    · exact (yields_creelTs1Received_wrong s p port rate hts1 hecho).failsAttempt rfl rfl fun _ _ => rfl
    · refine (yields_equaliserAdapted_narrow s p k h v i hts2 hi hmin).failsAttempt rfl ?_ fun q hq => ?_
      · exact congrArg (fun x => x.attempts) (s.dev.onPort_port_same p _)
      · exact s.dev.onPort_port_other p q _ hq

end Sys2Proof.Machine
end

section
/-! SUPPORT. Requests on the back channel and their replies (spec/04_creel_links.md R135 to R138, R141, R142, R147). -/

namespace Sys2Proof.Machine

/-! ### The link side of a port: everything but core 0's result queue -/

/-- Port `q` without its result queue (18 R636). -/
def Dev.linkSide (d : Dev) (q : PortNo) : Port := { d.ports[q] with results := [], resultOvf := false }

/-- A result reported to core 0 or to the sink leaves the link side of every port. -/
theorem Dev.reportTarget_linkSide (d : Dev) (n : StrandNo) (r : ExpReq) (code : Byte) (q : PortNo) :
    (d.reportTarget n r code).linkSide q = d.linkSide q := by
  unfold Dev.reportTarget Dev.reportReq Dev.linkSide
  by_cases hr : r.internal = true
  · rw [if_pos hr]
    by_cases hq : q = portOf n
    · rw [hq, Dev.onPort_port_same]
      split_ifs <;> rfl
    · rw [Dev.onPort_port_other _ _ _ _ hq]
  · rw [if_neg hr]
    rfl

/-- A discarded exposure write leaves the link side of every port. -/
theorem Dev.dropWrite_linkSide (d : Dev) (n : StrandNo) (frame : Word) (es : List Exposure) (q : PortNo) :
    (d.dropWrite n frame es).linkSide q = d.linkSide q := by
  unfold Dev.dropWrite
  extract_lets vs mine d1
  split_ifs
  · rfl
  · exact Dev.foldl_view (fun e : Dev => e.linkSide q) (fun e r => e.reportTarget n r 3) (fun e r => e.reportTarget_linkSide n r 3 q) _ d

/-! ### Answers (R136) -/

/-- The port with the request of a tag no longer unanswered. -/
def Port.forget (x : Port) (tag : Byte) : Port := { x with outstanding := x.outstanding.filter fun r => decide (r.tag ≠ tag) }

/-- With nothing queued an answered request leaves and nothing follows it. -/
theorem Dev.answered_idle (d : Dev) (p : PortNo) (tag : Byte) (hq : (d.ports[p]).queued = []) :
    d.answered p tag = d.onPort p fun x => x.forget tag := by
  have hlen : ((d.onPort p fun x => x.forget tag).ports[p]).queued.length = 0 := by
    rw [Dev.onPort_port_same]
    exact congrArg List.length hq
  show (List.range _).foldl _ (d.onPort p fun x => x.forget tag) = _
  exact (congrArg (fun k => (List.range k).foldl (fun e _ => e.drainOne p) (d.onPort p fun x => x.forget tag)) hlen).trans rfl

/-- What an ACK does to its request leaves the other unanswered requests of the port. -/
theorem Dev.takeAck_outstanding (d : Dev) (p : PortNo) (m : BcMsg) (status : Byte) :
    ((d.takeAck p m status).ports[p]).outstanding = (d.ports[p]).outstanding := by
  unfold Dev.takeAck
  split
  · split_ifs
    · rw [Dev.onPort_port_same]
    · rfl
  · split_ifs
    · rw [Dev.onPort_port_same]
    · exact congrArg (fun x => x.outstanding) (d.onPort_port_same p fun x => { x with trigBusy := satAdd x.trigBusy 1 })
    · rfl
  · split_ifs
    · rw [Dev.onPort_port_same]
    · rfl
  · split_ifs
    · rfl
    · exact congrArg (fun x => x.outstanding) (d.dropWrite_linkSide _ _ _ p)
  · rfl

theorem Dev.takeAck_linkUp (d : Dev) (p : PortNo) (rate port : Nat) :
    ((d.takeAck p (.linkCfg 3 rate port) 0).ports[p]).upAcked = true := by
  rw [show d.takeAck p (.linkCfg 3 rate port) 0 = d.onPort p fun x => { x with upAcked := true } from rfl, Dev.onPort_port_same]

theorem Dev.takeAck_syncSet (d : Dev) (p : PortNo) (step trim : Int) :
    ((d.takeAck p (.syncSet step trim) 0).ports[p]).syncAcked = true := by
  rw [show d.takeAck p (.syncSet step trim) 0 = d.onPort p fun x => { x with syncAcked := true } from rfl, Dev.onPort_port_same]

theorem Dev.takeAck_late (d : Dev) (p : PortNo) (slot slave : Nat) :
    ((d.takeAck p (.trigger slot slave) 3).ports[p]).late = satAdd (d.ports[p]).late 1 := by
  rw [show d.takeAck p (.trigger slot slave) 3 = d.onPort p fun x => { x with late := satAdd x.late 1 } from rfl, Dev.onPort_port_same]

/-- A BUSY trigger is counted on its port; that its start is dropped changes strands alone. -/
theorem Dev.takeAck_busy (d : Dev) (p : PortNo) (slot slave : Nat) :
    ((d.takeAck p (.trigger slot slave) 5).ports[p]).trigBusy = satAdd (d.ports[p]).trigBusy 1 :=
  congrArg (fun x => x.trigBusy) (d.onPort_port_same p fun x => { x with trigBusy := satAdd x.trigBusy 1 })

/-! ### The commands -/

theorem Dev.takeSeq_port (d : Dev) (p : PortNo) (seq : Byte) : (d.takeSeq p seq).ports[p] = (d.ports[p]).takeSeq seq := by
  rw [Dev.takeSeq_ports, upd_same]

theorem Dev.takeSeq_request (d : Dev) (p : PortNo) (seq tag : Byte) :
    ((d.takeSeq p seq).ports[p]).request tag = (d.ports[p]).request tag := by
  rw [Dev.takeSeq_port]
  rfl

section
variable (s : State) (p : PortNo) (seq tag : Byte)

theorem yields_controlAck_request (status : Byte) (detail : Half) (r : BcReq) (hh : s.dev.hears p = true)
    (hr : (s.dev.ports[p]).request tag = some r) :
    Yields s (.controlAck p seq tag status detail) (((s.dev.takeSeq p seq).answered p tag).takeAck p r.msg status) :=
  yields_run s _ (controlAck p seq tag status detail) _ rfl <| by
    simp only [controlAck, hh, if_true, s.dev.takeSeq_request p seq tag, hr]

theorem yields_controlAck_foreign (status : Byte) (detail : Half) (hh : s.dev.hears p = true)
    (hr : (s.dev.ports[p]).request tag = none) : Yields s (.controlAck p seq tag status detail) (s.dev.takeSeq p seq) :=
  yields_run s _ (controlAck p seq tag status detail) _ rfl <| by
    simp only [controlAck, hh, if_true, s.dev.takeSeq_request p seq tag, hr]

theorem yields_i2cData_request (data : List Byte) (r : BcReq) (addr width reg count : Nat) (hh : s.dev.hears p = true)
    (hr : (s.dev.ports[p]).request tag = some r) (hm : r.msg = .i2cRead addr width reg count) :
    Yields s (.i2cData p seq tag data)
      (((s.dev.takeSeq p seq).answered p tag).onPort p fun x => { x with i2cData := data }) :=
  yields_run s _ (i2cData p seq tag data) _ rfl <| by
    simp only [i2cData, hh, if_true, s.dev.takeSeq_request p seq tag, hr, hm]

/-- The port once the request of a tag is answered, with nothing queued. -/
theorem Dev.takeSeq_answered_port (d : Dev) (hq : (d.ports[p]).queued = []) :
    ((d.takeSeq p seq).answered p tag).ports[p] = ((d.ports[p]).takeSeq seq).forget tag := by
  have hq' : ((d.takeSeq p seq).ports[p]).queued = [] := by
    rw [Dev.takeSeq_port]
    exact hq
  rw [Dev.answered_idle _ p tag hq', Dev.onPort_port_same, Dev.takeSeq_port]

theorem exec_controlAck_request (status : Byte) (detail : Half) (r : BcReq) (hh : s.dev.hears p = true)
    (hr : (s.dev.ports[p]).request tag = some r) (hq : (s.dev.ports[p]).queued = []) :
    ∃ t, exec (.controlAck p seq tag status detail) s = .next t ∧ t.mem = s.mem ∧
      (t.dev.ports[p]).outstanding = ((s.dev.ports[p]).outstanding.filter fun r => decide (r.tag ≠ tag)) ∧
      (∀ rate port, r.msg = .linkCfg 3 rate port → status = 0 → (t.dev.ports[p]).upAcked = true) ∧
      (∀ step trim, r.msg = .syncSet step trim → status = 0 → (t.dev.ports[p]).syncAcked = true) ∧
      (∀ slot slave, r.msg = .trigger slot slave → status = 3 → (t.dev.ports[p]).late = satAdd (s.dev.ports[p]).late 1) ∧
      (∀ slot slave, r.msg = .trigger slot slave → status = 5 →
        (t.dev.ports[p]).trigBusy = satAdd (s.dev.ports[p]).trigBusy 1) := by
  obtain ⟨t, hexec, hmem, hdev⟩ := yields_controlAck_request s p seq tag status detail r hh hr
  have hport := s.dev.takeSeq_answered_port p seq tag hq
  refine ⟨t, hexec, hmem, ?_, fun rate port hm hst => ?_, fun step trim hm hst => ?_, fun slot slave hm hst => ?_,
    fun slot slave hm hst => ?_⟩
  all_goals rw [hdev, Dev.settle_ports]
  · rw [Dev.takeAck_outstanding, hport]
    rfl
  · rw [hm, hst, Dev.takeAck_linkUp]
  · rw [hm, hst, Dev.takeAck_syncSet]
  · rw [hm, hst, Dev.takeAck_late, hport]
    rfl
  · rw [hm, hst, Dev.takeAck_busy, hport]
    rfl

theorem exec_controlAck_foreign (status : Byte) (detail : Half) (hh : s.dev.hears p = true)
    (hr : (s.dev.ports[p]).request tag = none) :
    ∃ t, exec (.controlAck p seq tag status detail) s = .next t ∧ t.mem = s.mem ∧
      t.dev.unreport s.dev = (s.dev.takeSeq p seq).unreport s.dev ∧
      (t.dev.ports[p]).outstanding = (s.dev.ports[p]).outstanding := by
  obtain ⟨t, hexec, hmem, hdev⟩ := yields_controlAck_foreign s p seq tag status detail hh hr
  refine ⟨t, hexec, hmem, by rw [hdev, Dev.unreport_settle], ?_⟩
  rw [hdev, Dev.settle_ports, Dev.takeSeq_port]
  rfl

theorem exec_i2cData_request (data : List Byte) (r : BcReq) (addr width reg count : Nat) (hh : s.dev.hears p = true)
    (hr : (s.dev.ports[p]).request tag = some r) (hm : r.msg = .i2cRead addr width reg count) (hq : (s.dev.ports[p]).queued = []) :
    ∃ t, exec (.i2cData p seq tag data) s = .next t ∧ t.mem = s.mem ∧ (t.dev.ports[p]).i2cData = data ∧
      (t.dev.ports[p]).outstanding = (s.dev.ports[p]).outstanding.filter fun r => decide (r.tag ≠ tag) := by
  obtain ⟨t, hexec, hmem, hdev⟩ := yields_i2cData_request s p seq tag data r addr width reg count hh hr hm
  refine ⟨t, hexec, hmem, ?_, ?_⟩
  · rw [hdev, Dev.settle_ports, Dev.onPort_port_same]
  · rw [hdev, Dev.settle_ports, Dev.onPort_port_same, s.dev.takeSeq_answered_port p seq tag hq]
    rfl

/-- A SYNC_REQ, or a request that may not be resent, is dropped without a reply. -/
theorem yields_requestReplyTimeout_drop (r : BcReq) (hr : (s.dev.ports[p]).request tag = some r)
    (hm : r.msg = .syncReq ∨ (s.dev.ports[p]).mayResend r.msg = false) (hq : (s.dev.ports[p]).queued = []) :
    Yields s (.requestReplyTimeout p tag) (s.dev.onPort p fun x => x.forget tag) :=
  yields_runM s _ (requestReplyTimeout p tag) _ rfl <| by
    have hm' : r.msg = .syncReq ∨ (!(s.dev.ports[p]).mayResend r.msg) = true := hm.imp_right fun h => by rw [h, Bool.not_false]
    simp only [requestReplyTimeout, hr, hm', if_true, s.dev.answered_idle p tag hq]

/-- The port with a request resent. -/
def Port.resend (x : Port) (tag : Byte) (m : BcMsg) (now : Nat) : Port :=
  { x with resends := satAdd x.resends 1, sent := (tag, m) :: x.sent,
           outstanding := x.outstanding.map fun y => if y.tag = tag then { y with resends := y.resends + 1, sentAt := now } else y }

theorem yields_requestReplyTimeout_resend (r : BcReq) (hr : (s.dev.ports[p]).request tag = some r) (hm : r.msg ≠ .syncReq)
    (hmay : (s.dev.ports[p]).mayResend r.msg = true) (hcount : r.resends < 3) :
    Yields s (.requestReplyTimeout p tag) (s.dev.onPort p fun x => x.resend tag r.msg s.dev.whl.tim) :=
  yields_runM s _ (requestReplyTimeout p tag) _ rfl <| by
    simp only [requestReplyTimeout, hr, hm, hmay, hcount, Bool.not_true, Bool.false_eq_true, or_false, if_false, if_true]
    rfl

end

/-- Settles O25: an ACK and an I2C_DATA answer their request on the framed registers, and a timeout changes its port alone. -/
theorem backChannelRequests : Obligations.BackChannelRequests := by
  intro s p seq tag
  refine ⟨exec_controlAck_request s p seq tag, exec_controlAck_foreign s p seq tag, exec_i2cData_request s p seq tag,
    fun r hr => ⟨fun hm hq => ?_, fun hm hmay hcount => ?_⟩⟩
  · exact (yields_requestReplyTimeout_drop s p tag r hr hm hq).onPort
  · obtain ⟨t, hexec, hmem, hp, hothers, hrest⟩ := (yields_requestReplyTimeout_resend s p tag r hr hm hmay hcount).onPort_entries
    exact ⟨t, hexec, hmem, by rw [hp, Port.resend], by rw [hp, Port.resend], by rw [hp, Port.resend], hothers, hrest⟩

end Sys2Proof.Machine
end

section
/-! SUPPORT. The slave timer of a port: what measures and corrects it, and what leaves it alone (spec/04_creel_links.md R143 to R147). -/

namespace Sys2Proof.Machine

/-! ### The timer side of the registers -/

/-- What SYNC_RESP measures and corrects of a port (R145 to R147). -/
def Port.timer (x : Port) : Int × Int × Int × Bool × Bool := (x.offset, x.delay, x.trim, x.syncAcked, x.locked)

/-- The whorls, the ring and the pins, and the slave timer of port `p`. -/
def Dev.timerView (p : PortNo) (d : Dev) : Whl × Skn × Pins × (Int × Int × Int × Bool × Bool) := (d.whl, d.skn, d.pins, (d.ports[p]).timer)

theorem Dev.onPort_timerView (d : Dev) (q p : PortNo) (f : Port → Port) (h : ∀ x, (f x).timer = x.timer) :
    (d.onPort q f).timerView p = d.timerView p := by
  have hport : ((d.onPort q f).ports[p]).timer = (d.ports[p]).timer := by
    by_cases hp : p = q
    · rw [hp, Dev.onPort_port_same, h]
    · rw [Dev.onPort_port_other _ _ _ _ hp]
  exact congrArg (fun x => (d.whl, d.skn, d.pins, x)) hport

theorem Dev.bcSend_timerView (d : Dev) (q p : PortNo) (m : BcMsg) : (d.bcSend q m).timerView p = d.timerView p :=
  d.onPort_timerView q p _ fun x => congrArg (fun y => y.timer) (x.send_frame d.whl.tim m)

theorem Dev.sendTrigger_timerView (d : Dev) (n : StrandNo) (t : Trig) (p : PortNo) :
    (d.sendTrigger n t).timerView p = d.timerView p := d.bcSend_timerView _ p _

theorem Dev.serveQueued_timerView (d : Dev) (n : StrandNo) (p : PortNo) : (d.serveQueued n).timerView p = d.timerView p := by
  unfold Dev.serveQueued
  extract_lets g
  split
  · split_ifs
    · exact Dev.sendTrigger_timerView _ n _ p
    · rfl
  · rfl

theorem Dev.warmWrite_timerView (d : Dev) (n : StrandNo) (p : PortNo) : (d.warmWrite n).timerView p = d.timerView p := by
  unfold Dev.warmWrite
  extract_lets g s first es d1
  exact (d1.bcSend_timerView _ p _).trans (d.bcSend_timerView _ p _)

theorem Dev.initSensors_timerView (d : Dev) (q p : PortNo) : (d.initSensors q).timerView p = d.timerView p := by
  unfold Dev.initSensors
  split_ifs
  · exact (Dev.foldl_view (Dev.timerView p) _ (fun e n => e.warmWrite_timerView n p) _ _).trans
      (d.onPort_timerView q p (fun x => { x with inited := true }) fun _ => rfl)
  · rfl

/-- A message that leaves the queue, or whose start is dropped, leaves the timers. -/
theorem Dev.drainOne_timerView (d : Dev) (q p : PortNo) : (d.drainOne q).timerView p = d.timerView p := by
  unfold Dev.drainOne
  extract_lets x
  split
  case h_1 => rfl
  case h_2 m ms _ =>
    extract_lets d1
    have hd1 : d1.timerView p = d.timerView p := d.onPort_timerView q p (fun x => { x with queued := ms }) fun _ => rfl
    by_cases hroom : 8 ≤ x.outstanding.length
    · rw [if_pos hroom]
    · rw [if_neg hroom]
      split
      · extract_lets n
        split_ifs
        · exact hd1
        · exact hd1
        · exact (d1.bcSend_timerView q p _).trans hd1
      · exact (d1.bcSend_timerView q p _).trans hd1

theorem Dev.answered_timerView (d : Dev) (q : PortNo) (tag : Byte) (p : PortNo) : (d.answered q tag).timerView p = d.timerView p :=
  (Dev.foldl_view (Dev.timerView p) (fun e _ => e.drainOne q) (fun e _ => e.drainOne_timerView q p) _ _).trans
    (d.onPort_timerView q p (fun x => x.forget tag) fun _ => rfl)

theorem Dev.takeSeq_timerView (d : Dev) (q : PortNo) (seq : Byte) (p : PortNo) : (d.takeSeq q seq).timerView p = d.timerView p := by
  have hrest := congrArg (fun e => (e.whl, e.skn, e.pins)) (d.takeSeq_frame q seq)
  have hport : (d.takeSeq q seq).timerView p =
      ((d.takeSeq q seq).whl, (d.takeSeq q seq).skn, (d.takeSeq q seq).pins, ((d.onPort q fun x => x.takeSeq seq).ports[p]).timer) := by
    rw [Dev.timerView, Dev.takeSeq_ports]
    rfl
  refine hport.trans (.trans ?_ (d.onPort_timerView q p (fun x => x.takeSeq seq) fun _ => rfl))
  simp only [Prod.mk.injEq] at hrest
  rw [Dev.timerView, hrest.1, hrest.2.1, hrest.2.2]
  rfl

/-! ### SYNC_RESP (R144 to R147) -/

/-- The port's timer as its measured offset leaves it. -/
theorem Port.syncStep_timer (x : Port) (theta2 delay2 : Int) :
    (x.syncStep theta2 delay2).timer =
      (roundDiv theta2 2, roundDiv delay2 2,
        if decide (2000 < theta2.natAbs) = true then x.trim else bound trimBound (x.trim - roundDiv (theta2 * 2 ^ 40) 80000000),
        x.syncAcked, !decide (2000 < theta2.natAbs) && (x.locked || (x.syncAcked && decide (theta2.natAbs ≤ 40)))) := by
  unfold Port.syncStep Port.timer
  cases decide (2000 < theta2.natAbs) <;> rfl

/-- After the offset is taken the SYNC_SET, the sensors' initialisation and the starts that wait leave the timers. -/
theorem syncResp_timerView (d : Dev) (p : PortNo) (seq tag : Byte) (t1 t2 t3 : Nat) (r : BcReq) (ht : d.trained p = true)
    (hr : (d.ports[p]).request tag = some r) (hm : r.msg = .syncReq) (ht1 : (d.ports[p]).syncT1 = some t1) :
    (syncResp p seq tag t2 t3 d).timerView p =
      (d.whl, d.skn, d.pins, ((d.ports[p]).syncStep (((t2 : Int) - t1) - ((d.w0 : Int) - t3))
        (((t2 : Int) - t1) + ((d.w0 : Int) - t3))).timer) := by
  have hhead := d.takeSeq_timerView p seq p
  have ht1' : ((d.takeSeq p seq).ports[p]).syncT1 = some t1 := by
    rw [Dev.takeSeq_port]
    exact ht1
  have hw0 : (d.takeSeq p seq).w0 = d.w0 := congrArg (fun v => 2 * v.1.tim) hhead
  have hanswered := ((d.takeSeq p seq).answered_timerView p tag p).trans hhead
  simp only [syncResp, ht, if_true, d.takeSeq_request p seq tag, hr, ht1', hm, hw0]
  refine (Dev.foldl_view (Dev.timerView p) _ (fun e n => e.serveQueued_timerView n p) _ _).trans ?_
  refine (Dev.initSensors_timerView _ p p).trans ((Dev.bcSend_timerView _ p p _).trans ?_)
  generalize (d.takeSeq p seq).answered p tag = e at hanswered
  simp only [Dev.timerView, Port.timer, Prod.mk.injEq] at hanswered
  obtain ⟨hwhl, hskn, hpins, -, -, htrim, hacked, hlocked⟩ := hanswered
  rw [Dev.timerView, Dev.onPort_port_same, Port.syncStep_timer, Port.syncStep_timer, htrim, hacked, hlocked]
  exact congrArg₂ _ hwhl (congrArg₂ _ hskn (congrArg₂ _ hpins rfl))

/-! ### The commands -/

section
variable (s : State) (p : PortNo) (seq : Byte)

theorem exec_syncReqDue (ht : s.dev.trained p = true) (hroom : (s.dev.ports[p]).outstanding.length < 8) :
    ∃ t, exec (.syncReqDue p) s = .next t ∧ t.mem = s.mem ∧ (t.dev.ports[p]).syncT1 = some s.dev.w0 ∧
      (t.dev.ports[p]).sent = ((s.dev.ports[p]).nextTag, .syncReq) :: (s.dev.ports[p]).sent ∧
      (t.dev.ports[p]).outstanding = (s.dev.ports[p]).outstanding ++ [⟨(s.dev.ports[p]).nextTag, .syncReq, 0, s.dev.whl.tim⟩] ∧
      (∀ q, q ≠ p → t.dev.ports[q] = s.dev.ports[q]) ∧ { t.dev.unreport s.dev with ports := s.dev.ports } = s.dev := by
  have hyield : Yields s (.syncReqDue p) (s.dev.onPort p fun x => x.send s.dev.whl.tim .syncReq) :=
    yields_run s _ (syncReqDue p) _ rfl (if_pos ht)
  obtain ⟨t, hexec, hmem, hp, hothers, hrest⟩ := hyield.onPort_entries
  have hsend : t.dev.ports[p] = { s.dev.ports[p] with
      nextTag := (s.dev.ports[p]).nextTag + 1,
      outstanding := (s.dev.ports[p]).outstanding ++ [⟨(s.dev.ports[p]).nextTag, .syncReq, 0, s.dev.whl.tim⟩],
      sent := ((s.dev.ports[p]).nextTag, .syncReq) :: (s.dev.ports[p]).sent, syncT1 := some s.dev.w0 } :=
    hp.trans ((if_neg (by decide)).trans (if_pos hroom))
  exact ⟨t, hexec, hmem, by rw [hsend], by rw [hsend], by rw [hsend], hothers, hrest⟩

theorem exec_syncResp (tag : Byte) (t1 t2 t3 : Nat) (r : BcReq) (ht : s.dev.trained p = true)
    (hr : (s.dev.ports[p]).request tag = some r) (hm : r.msg = .syncReq) (ht1 : (s.dev.ports[p]).syncT1 = some t1) :
    let theta2 : Int := ((t2 : Int) - t1) - ((s.dev.w0 : Int) - t3)
    let far := decide (2000 < theta2.natAbs)
    ∃ t, exec (.syncResp p seq tag t2 t3) s = .next t ∧ t.mem = s.mem ∧
      (t.dev.ports[p]).offset = roundDiv theta2 2 ∧
      (t.dev.ports[p]).delay = roundDiv (((t2 : Int) - t1) + ((s.dev.w0 : Int) - t3)) 2 ∧
      (t.dev.ports[p]).trim = (if far then (s.dev.ports[p]).trim
        else bound trimBound ((s.dev.ports[p]).trim - roundDiv (theta2 * 2 ^ 40) 80000000)) ∧
      (t.dev.ports[p]).locked = (!far && ((s.dev.ports[p]).locked || ((s.dev.ports[p]).syncAcked && decide (theta2.natAbs ≤ 40)))) ∧
      t.dev.whl = s.dev.whl := by
  intro theta2 far
  have hview := syncResp_timerView s.dev p seq tag t1 t2 t3 r ht hr hm ht1
  rw [Port.syncStep_timer] at hview
  simp only [Dev.timerView, Port.timer, Prod.mk.injEq] at hview
  obtain ⟨hwhl, -, -, hoffset, hdelay, htrim, -, hlocked⟩ := hview
  refine ⟨s.run (syncResp p seq tag t2 t3), rfl, rfl, ?_⟩
  rw [State.run_dev, Dev.settle_ports, Dev.settle_whl]
  exact ⟨hoffset, hdelay, htrim, hlocked, hwhl⟩

/-- A message of the head changes its port on the framed registers. -/
theorem exec_headMessage (c : Instr) (f : Port → Port) (hh : s.dev.hears p = true)
    (hexec : exec c s = .next (s.run fun d => if d.hears p then (d.takeSeq p seq).onPort p f else d)) :
    ∃ t, exec c s = .next t ∧ t.mem = s.mem ∧ t.dev.ports[p] = f ((s.dev.takeSeq p seq).ports[p]) ∧
      t.dev.strands = (s.dev.takeSeq p seq).strands ∧ t.dev.ply = s.dev.ply := by
  refine ⟨_, hexec, rfl, ?_⟩
  rw [State.run_dev, if_pos hh, Dev.settle_ports, Dev.settle_strands, Dev.settle_ply, Dev.onPort_port_same]
  exact ⟨rfl, rfl, congrArg (fun e => e.ply) (s.dev.takeSeq_frame p seq)⟩

theorem exec_gpioState (levels changed : Byte) (hh : s.dev.hears p = true) :
    ∃ t, exec (.gpioState p seq levels changed) s = .next t ∧ t.mem = s.mem ∧
      (t.dev.ports[p]).gpio = (levels, changed) ∧ t.dev.strands = (s.dev.takeSeq p seq).strands ∧ t.dev.ply = s.dev.ply := by
  obtain ⟨t, hexec, hmem, hp, hrest⟩ := exec_headMessage s p seq (.gpioState p seq levels changed) (fun x => { x with gpio := (levels, changed) }) hh rfl
  exact ⟨t, hexec, hmem, by rw [hp], hrest⟩

theorem exec_headStatus (ty fw : Half) (errors : Word) (hh : s.dev.hears p = true) :
    ∃ t, exec (.headStatus p seq ty fw errors) s = .next t ∧ t.mem = s.mem ∧
      (t.dev.ports[p]).head = (ty, fw, errors) ∧ t.dev.strands = (s.dev.takeSeq p seq).strands ∧ t.dev.ply = s.dev.ply := by
  obtain ⟨t, hexec, hmem, hp, hrest⟩ := exec_headMessage s p seq (.headStatus p seq ty fw errors)
    (fun x => { x with head := (ty, fw, errors) }) hh rfl
  exact ⟨t, hexec, hmem, by rw [hp], hrest⟩

theorem yields_skipSet (n : Nat) (adjust : Int) :
    Yields s (.skipSet p n adjust) (s.dev.onPort p fun x => { x with elastic := x.elastic + adjust }) :=
  yields_run s _ (fun d => d.onPort p fun x => { x with elastic := x.elastic + adjust }) _ rfl rfl

end

/-- Settles O26: the state messages and the skip set change their port alone, and SYNC_RESP changes the timer by `Port.syncStep`. -/
theorem headStateAndTimer : Obligations.HeadStateAndTimer := by
  intro s p seq
  exact ⟨exec_syncReqDue s p, fun tag t1 t2 t3 r ht hr hm ht1 => exec_syncResp s p seq tag t1 t2 t3 r ht hr hm ht1,
    fun hh => ⟨fun levels changed => exec_gpioState s p seq levels changed hh,
      fun ty fw errors => exec_headStatus s p seq ty fw errors hh⟩, fun n adjust => (yields_skipSet s p n adjust).onPort⟩

end Sys2Proof.Machine
end

section
/-! SUPPORT. A port loses its lock (spec/04_creel_links.md R154 to R156): what each part of the loss leaves alone, said once, and what
the whole of it leaves of the port and its strands. -/

namespace Sys2Proof.Machine

/-! ### A lost source frame touches the pool and the output frames alone (07 R246 to R253) -/

/-- The registers with the pool and the output streams of `e`. -/
def Dev.withOutput (e d : Dev) : Dev := { d with bob := e.bob, streams := e.streams }

theorem Dev.trimCredits_withOutput (d e : Dev) : e.withOutput d.trimCredits = e.withOutput d := by
  unfold Dev.trimCredits
  split <;> rfl

theorem Dev.dropTilePkt_withOutput (d e : Dev) (st : StreamNo) (key t : Nat) :
    e.withOutput (d.dropTilePkt st key t) = e.withOutput d := by
  unfold Dev.dropTilePkt
  split_ifs
  · rfl
  · exact Dev.trimCredits_withOutput _ e

theorem Dev.markSubst_withOutput (d e : Dev) (st : StreamNo) (key t : Nat) : e.withOutput (d.markSubst st key t) = e.withOutput d :=
  Dev.dropTilePkt_withOutput _ e _ _ _

theorem Dev.repeatFrame_withOutput (d e : Dev) (st : StreamNo) (key : Nat) : e.withOutput (d.repeatFrame st key) = e.withOutput d := by
  unfold Dev.repeatFrame
  split
  · rfl
  · split
    · rfl
    · exact Dev.foldl_view e.withOutput (fun x t => x.markSubst st key t) (fun x t => x.markSubst_withOutput e st key t) _ _

theorem Dev.substitute_withOutput (d e : Dev) (st : StreamNo) (key t : Nat) : e.withOutput (d.substitute st key t) = e.withOutput d := by
  unfold Dev.substitute Dev.judgeRepeat
  extract_lets d1
  have hd1 : e.withOutput d1 = e.withOutput d := d.markSubst_withOutput e st key t
  split
  · split
    · split_ifs
      · exact (d1.repeatFrame_withOutput e st key).trans hd1
      · exact hd1
    · exact hd1
  · exact hd1

theorem Dev.failSource_withOutput (d e : Dev) (n : StrandNo) (num : Word) : e.withOutput (d.failSource n num) = e.withOutput d := by
  refine Dev.foldl_view e.withOutput _ (fun x st => ?_) _ _
  refine Dev.foldl_view e.withOutput _ (fun y f => ?_) _ _
  split
  · rfl
  · refine (Dev.foldl_view e.withOutput _ (fun z t => ?_) _ _).trans rfl
    split
    · split_ifs
      · rfl
      · exact z.substitute_withOutput e _ _ _
    · rfl

/-! ### The adoption of a layout touches no link (01 R20, R21) -/

/-- The whorls, the ring, the pins, the ports and the strands. -/
def Dev.linkView (d : Dev) : Whl × Skn × Pins × Vector Port 16 × Vector Strand 64 := (d.whl, d.skn, d.pins, d.ports, d.strands)

theorem Dev.timerView_of_linkView {e d : Dev} (h : e.linkView = d.linkView) (p : PortNo) : e.timerView p = d.timerView p :=
  congrArg (fun v => (v.1, v.2.1, v.2.2.1, (v.2.2.2.1[p]).timer)) h

theorem Dev.linkView_of_withOutput {d d' e : Dev} (h : e.withOutput d' = e.withOutput d) : d'.linkView = d.linkView :=
  (congrArg Dev.linkView h : (e.withOutput d').linkView = (e.withOutput d).linkView)

theorem Dev.raise_linkView (d : Dev) (b x y : Nat) : (d.raise b x y).linkView = d.linkView := by simp [Dev.linkView]

theorem Dev.abortStage_linkView (d : Dev) : d.abortStage.linkView = d.linkView := by
  unfold Dev.abortStage Dev.closeStage
  split
  · rfl
  · split_ifs
    · simp only [Dev.linkView, Dev.logStage, Dev.logAccess_whl, Dev.logAccess_skn, Dev.logAccess_pins, Dev.logAccess_ports,
        Dev.logAccess_strands]
      rfl
    · rfl

theorem Dev.setMode_linkView (d : Dev) (m : Mode) (nolive : Bool) : (d.setMode m nolive).linkView = d.linkView := by
  unfold Dev.setMode
  extract_lets d1
  have hd1 : d1.linkView = d.linkView := d.abortStage_linkView
  split_ifs
  · rfl
  · exact hd1
  · exact hd1

theorem Dev.selectShed_linkView (d : Dev) (w : Nat) : (d.selectShed w).linkView = d.linkView := by
  unfold Dev.selectShed
  split <;> rfl

theorem Dev.endTransition_linkView (d : Dev) (id : Nat) : (d.endTransition id).linkView = d.linkView := by
  unfold Dev.endTransition
  split
  · split_ifs
    · exact d.setMode_linkView _ _
    · rfl
  · rfl

theorem Dev.finishAdoption_linkView (d : Dev) : d.finishAdoption.linkView = d.linkView := by
  unfold Dev.finishAdoption
  split
  · rfl
  · split_ifs
    · exact (Dev.endTransition_linkView _ _).trans
        ((Dev.linkView_of_withOutput (Dev.trimCredits_withOutput _ d)).trans (Dev.selectShed_linkView _ _))
    · rfl

theorem Dev.adoptStrand_linkView (d : Dev) (n : StrandNo) : (d.adoptStrand n).linkView = d.linkView := by
  unfold Dev.adoptStrand
  split
  · rfl
  · exact Dev.finishAdoption_linkView _

/-! ### What is abandoned and dropped leaves the timers -/

theorem Dev.commitUnit_timerView (d : Dev) (n : Nat) (data : List Byte) (marker : Bool) (readers : List Nat) (frame unit : Nat)
    (p : PortNo) : (d.commitUnit n data marker readers frame unit).1.timerView p = d.timerView p := by
  unfold Dev.commitUnit
  by_cases h : (if marker then 1 else cellsOf data.length) ≤ (d.bob.queue n).room
  · rw [if_pos h]
    rfl
  · rw [if_neg h]
    exact Dev.timerView_of_linkView (Dev.raise_linkView _ 24 n 0) p

theorem Dev.endBusy_timerView (d : Dev) (n : StrandNo) (p : PortNo) : (d.endBusy n).timerView p = d.timerView p := by
  unfold Dev.endBusy
  extract_lets d1 d2
  split
  · exact d1.serveQueued_timerView n p
  · split_ifs
    · rfl
    · exact d2.sendTrigger_timerView n _ p
    · rfl

theorem State.abandonFrame_timerView (s : State) (n : StrandNo) (p : PortNo) :
    (s.abandonFrame n).dev.timerView p = s.dev.timerView p := by
  unfold State.abandonFrame
  split
  case h_1 f _ _ =>
    split_ifs
    · extract_lets d1 d2
      have hfail : d2.linkView = (d1.commitMarker n f).linkView :=
        Dev.linkView_of_withOutput ((d1.commitMarker n f).failSource_withOutput d1 n f.num)
      have hd2 : d2.timerView p = s.dev.timerView p :=
        (Dev.timerView_of_linkView hfail p).trans (d1.commitUnit_timerView n.val [] true (d1.lineReaders n f) f.num.toNat 0 p)
      dsimp only
      split
      · exact (d2.endBusy_timerView n p).trans hd2
      · exact hd2
    · rfl
  case h_2 => rfl

theorem Dev.reportTarget_timerView (d : Dev) (n : StrandNo) (r : ExpReq) (code : Byte) (p : PortNo) :
    (d.reportTarget n r code).timerView p = d.timerView p := by
  have htimer : ((d.reportTarget n r code).ports[p]).timer = (d.ports[p]).timer :=
    congrArg (fun x => x.timer) (d.reportTarget_linkSide n r code p)
  have hrest : ((d.reportTarget n r code).whl, (d.reportTarget n r code).skn, (d.reportTarget n r code).pins) = (d.whl, d.skn, d.pins) := by
    unfold Dev.reportTarget Dev.reportReq
    split_ifs <;> rfl
  simp only [Prod.mk.injEq] at hrest
  rw [Dev.timerView, htimer, hrest.1, hrest.2.1, hrest.2.2]
  rfl

theorem Dev.retire_timerView (d : Dev) (n : StrandNo) (num : Word) (p : PortNo) : (d.retire n num).timerView p = d.timerView p :=
  Dev.foldl_view (Dev.timerView p) (fun e r => e.reportTarget n r 3) (fun e r => e.reportTarget_timerView n r 3 p) _ d

theorem Dev.dropMsg_timerView (d : Dev) (q : PortNo) (m : BcMsg) (p : PortNo) : (d.dropMsg q m).timerView p = d.timerView p := by
  unfold Dev.dropMsg
  split
  · unfold Dev.dropWrite
    extract_lets vs mine d1
    split_ifs
    · rfl
    · exact Dev.foldl_view (Dev.timerView p) (fun e r => e.reportTarget _ r 3) (fun e r => e.reportTarget_timerView _ r 3 p) _ d
  · rfl
  · rfl

theorem Dev.sealAbandoned_timerView (d : Dev) (n : StrandNo) (p : PortNo) : (d.sealAbandoned n).timerView p = d.timerView p := by
  unfold Dev.sealAbandoned
  extract_lets g
  split
  · exact Dev.retire_timerView _ n _ p
  · rfl

/-! ### The loss as a whole (R155) -/

/-- A strand whose port has lost its lock. -/
def Strand.loseLock (g : Strand) : Strand :=
  { g with
    lost := true, inited := false, numbered := false, lostAt := match g.starts with | t :: _ => some t | [] => g.lostAt,
    live := false, windowless := true, armed := g.armed.filter fun t => decide (t.slave = 0), committed := [] }

/-- A port whose requests and synchronisation are dropped. -/
def Port.dropAll (x : Port) : Port :=
  { x with outstanding := [], queued := [], inited := false, syncAcked := false, syncT1 := none, step := .off }

/-- What a loss of lock comes to: registers `d` whose timers are as they were but for the lost one and in which every strand of the
port has lost its lock; then the port drops its requests, the loss is reported, and the port starts again where it may. -/
theorem State.loseLock_shape (s : State) (p : PortNo) (retrain : Bool) :
    ∃ d : Dev, d.timerView p = (s.dev.onPort p fun x => { x with locked := false }).timerView p ∧
      (∀ n, portOf n = p → ∃ g : Strand, d.strands[n] = g.loseLock) ∧
      (s.loseLock p retrain).dev = if retrain then ((d.onPort p Port.dropAll).raise 12 p.val 0).startPort p true
        else (d.onPort p Port.dropAll).raise 12 p.val 0 := by
  unfold State.loseLock
  extract_lets s0 cut s1 x d1 d1' d2 d3
  refine ⟨d2, ?_, fun n hn => ⟨d1'.strands[n], ?_⟩, rfl⟩
  · have hs1 : s1.dev.timerView p = s0.dev.timerView p :=
      State.foldl_view (fun t => t.dev.timerView p) _ (fun t n => t.abandonFrame_timerView n p) _ s0
    have hd1 : d1.timerView p = s1.dev.timerView p := Dev.foldl_view (Dev.timerView p) _ (fun e m => e.dropMsg_timerView p m p) _ _
    have hd1' : d1'.timerView p = d1.timerView p := Dev.foldl_view (Dev.timerView p) _ (fun e n => e.sealAbandoned_timerView n p) _ _
    have hd2 : d2.timerView p = d1'.timerView p := Dev.foldl_view (Dev.timerView p) _
      (fun e n => Dev.timerView_of_linkView ((e.onStrand n Strand.loseLock).adoptStrand_linkView n) p) _ _
    exact hd2.trans (hd1'.trans (hd1.trans hs1))
  · have hlose : ∀ (e : Dev) (n : StrandNo), ((e.onStrand n Strand.loseLock).adoptStrand n).strands = upd e.strands n Strand.loseLock :=
      fun e n => congrArg (fun v => v.2.2.2.2) ((e.onStrand n Strand.loseLock).adoptStrand_linkView n)
    exact (Dev.foldl_strands _ Strand.loseLock hlose (strandsOf p) (nodup_strandsOf p) d1' n).trans (if_pos ((mem_strandsOf p n).2 hn))

/-- A port that starts training again at rate `r`, from its working coefficients or else the seed `c`. -/
def Port.retrain (x : Port) (r : Nat) (c : Option EqCoeffs) : Port :=
  { x with
    step := .ts1, rate := r, attempts := 0, seeded := true, upAcked := false, lastSeq := none, startCoeffs := x.working.or c,
    syncAcked := false, locked := false, inited := false, syncT1 := none }

theorem Dev.startPort_retrain (d : Dev) (p : PortNo) :
    d.startPort p true = d.onPort p fun x => (x.retrain (d.creelRate p.val) (d.eqSeedFor p.val (d.creelRate p.val))).sendCfg p 4 :=
  (Dev.linkCfg_noReply _ p 4 (by decide)).trans (d.onPort_onPort p _ _)

theorem Dev.startPort_frame (d : Dev) (p : PortNo) (retrain : Bool) : { d.startPort p retrain with ports := d.ports } = d := rfl

section
variable (s : State) (p : PortNo) (retrain : Bool)

theorem State.loseLock_reported : (s.loseLock p retrain).dev.sys.fault.getLsbD 12 = true := by
  obtain ⟨d, -, -, hdev⟩ := s.loseLock_shape p retrain
  rw [hdev]
  split_ifs
  · exact (congrArg (fun e => e.sys.fault.getLsbD 12) (Dev.startPort_frame _ p true)).trans (Dev.raise_sets _ _ _ _ (by decide))
  · exact Dev.raise_sets _ _ _ _ (by decide)

theorem State.loseLock_port :
    let x := (s.loseLock p retrain).dev.ports[p]
    x.locked = false ∧ x.inited = false ∧ x.outstanding = [] ∧ x.queued = [] ∧ x.step = if retrain then .ts1 else .off := by
  obtain ⟨d, hview, -, hdev⟩ := s.loseLock_shape p retrain
  have hlocked : (d.ports[p]).locked = false := by
    refine (congrArg (fun v => v.2.2.2.2.2.2.2) hview).trans ?_
    exact congrArg (fun x => x.locked) (s.dev.onPort_port_same p _)
  have hdrop : ((d.onPort p Port.dropAll).raise 12 p.val 0).ports[p] = (d.ports[p]).dropAll := by
    rw [Dev.raise_ports, Dev.onPort_port_same]
  rw [hdev]
  by_cases hre : retrain = true
  · simp only [hre, if_true]
    rw [Dev.startPort_retrain, Dev.onPort_port_same, hdrop]
    exact ⟨rfl, rfl, rfl, rfl, rfl⟩
  · simp only [hre, Bool.false_eq_true, if_false]
    rw [hdrop]
    exact ⟨hlocked, rfl, rfl, rfl, rfl⟩

theorem State.loseLock_strand (n : StrandNo) (hn : portOf n = p) : ∃ g : Strand, (s.loseLock p retrain).dev.strands[n] = g.loseLock := by
  obtain ⟨d, -, hstrands, hdev⟩ := s.loseLock_shape p retrain
  obtain ⟨g, hg⟩ := hstrands n hn
  refine ⟨g, ?_⟩
  rw [hdev, ← hg]
  split_ifs
  · exact congrArg (fun v => v[n]) (Dev.raise_strands (d.onPort p Port.dropAll) _ _ _)
  · exact congrArg (fun v => v[n]) (Dev.raise_strands (d.onPort p Port.dropAll) _ _ _)

theorem State.loseLock_rest :
    ((s.loseLock p retrain).dev.whl, (s.loseLock p retrain).dev.skn, (s.loseLock p retrain).dev.pins) =
      (s.dev.whl, s.dev.skn, s.dev.pins) := by
  obtain ⟨d, hview, -, hdev⟩ := s.loseLock_shape p retrain
  have hraise := congrArg (fun v => (v.1, v.2.1, v.2.2.1)) ((d.onPort p Port.dropAll).raise_linkView 12 p.val 0)
  have hd := congrArg (fun v => (v.1, v.2.1, v.2.2.1)) hview
  rw [hdev]
  split_ifs
  · exact hraise.trans hd
  · exact hraise.trans hd

end

/-- The causes of R154, each with what it needs, take the lock. -/
theorem Dev.losesTo_of_held (d : Dev) (p : PortNo) (cause : LockLossCause) (hheld : (d.ports[p]).locksHeld = true)
    (htrained : cause = .ts1OnTrained ∨ cause = .unanswered → d.trained p = true)
    (hpoc : cause = .pocFell → d.pins.pocEn.getLsbD p.val = false) : d.losesTo p cause = true := by
  cases cause
  case ts1OnTrained => exact htrained (.inl rfl)
  case unanswered => exact htrained (.inr rfl)
  case pocFell => simp only [Dev.losesTo, hheld, hpoc rfl, Bool.not_false, Bool.and_self]
  all_goals exact hheld

/-- Settles O24: the command is `State.loseLock`, of which the lemmas above say each part. -/
theorem portLosesLock : Obligations.PortLosesLock := by
  intro s p cause hheld htrained hpoc
  have hrun : lossOfLock p cause s = s.loseLock p (s.dev.pins.pocEn.getLsbD p.val) :=
    if_pos (s.dev.losesTo_of_held p cause hheld htrained hpoc)
  obtain ⟨hlocked, hinit, hout, hqueue, hstep⟩ := s.loseLock_port p (s.dev.pins.pocEn.getLsbD p.val)
  have hrest := s.loseLock_rest p (s.dev.pins.pocEn.getLsbD p.val)
  simp only [Prod.mk.injEq] at hrest
  obtain ⟨hwhl, hskn, hpins⟩ := hrest
  refine ⟨s.runM (lossOfLock p cause), rfl, ?_⟩
  rw [State.runM_dev, hrun, Dev.settle_ports, Dev.settle_strands, Dev.settle_whl, Dev.settle_skn, Dev.settle_pocEn]
  refine ⟨Dev.settle_keeps _ _ (s.loseLock_reported p _), hlocked, hinit, hout, hqueue, hstep, fun n hn => ?_, hwhl, hskn,
    congrArg (fun v => v.pocEn) hpins⟩
  obtain ⟨g, hg⟩ := s.loseLock_strand p (s.dev.pins.pocEn.getLsbD p.val) n hn
  rw [hg]
  exact ⟨rfl, rfl, rfl, rfl⟩

end Sys2Proof.Machine
end

section
/-! SUPPORT. The starts of a strand (spec/05_strands_exposure.md R170 to R178): what an operation on one strand and its port can
touch, and what a start that meets a busy strand leaves. -/

namespace Sys2Proof.Machine

/-! ### Operations on one strand and the requests of its port -/

/-- `e` is `d` but for strand `n` and the messages of the ports: no other strand, no lock of a slave timer and nothing else has
changed. -/
structure Dev.StrandOnly (n : StrandNo) (d e : Dev) : Prop where
  others : ∀ m : StrandNo, m ≠ n → e.strands[m] = d.strands[m]
  locked : ∀ m : StrandNo, e.timerLocked m = d.timerLocked m
  rest : { e with strands := d.strands, ports := d.ports } = d

theorem Dev.onStrand_strand_same (d : Dev) (n : StrandNo) (f : Strand → Strand) : (d.onStrand n f).strands[n] = f d.strands[n] :=
  upd_same _ _ _

theorem Dev.onStrand_strand_other (d : Dev) (n m : StrandNo) (f : Strand → Strand) (h : m ≠ n) :
    (d.onStrand n f).strands[m] = d.strands[m] := upd_other _ _ _ _ h

theorem Dev.onStrand_onStrand (d : Dev) (n : StrandNo) (f g : Strand → Strand) :
    (d.onStrand n f).onStrand n g = d.onStrand n fun x => g (f x) := by
  simp only [Dev.onStrand, upd_upd]

/-- Two changes of a strand that agree on its present value are one. -/
theorem Dev.onStrand_congr (d : Dev) (n : StrandNo) (f g : Strand → Strand) (h : f d.strands[n] = g d.strands[n]) :
    d.onStrand n f = d.onStrand n g :=
  congrArg (fun v => { d with strands := v }) (upd_congr d.strands n f g h)

/-- A message on the back channel leaves the lock of every slave timer (R147). -/
theorem Dev.bcSend_timerLocked (d : Dev) (p : PortNo) (x : BcMsg) (m : StrandNo) : (d.bcSend p x).timerLocked m = d.timerLocked m :=
  congrArg (fun v => v.2.2.2.2.2.2.2) (d.bcSend_timerView p (portOf m) x)

/-- The message of a TRIGGER goes out, and the start takes its place on the strand (R135). -/
theorem Dev.sendTrigger_strands (d : Dev) (n : StrandNo) (t : Trig) :
    (d.sendTrigger n t).strands = upd d.strands n fun g => g.arm t := rfl

namespace Dev.StrandOnly
variable {n : StrandNo} {d e : Dev}

theorem refl (n : StrandNo) (d : Dev) : StrandOnly n d d := ⟨fun _ _ => rfl, fun _ => rfl, rfl⟩

theorem whl_eq (h : StrandOnly n d e) : e.whl = d.whl := congrArg (fun x => x.whl) h.rest
theorem capture_eq (h : StrandOnly n d e) (k : Nat) : e.capture k = d.capture k := congrArg (fun x => x.capture k) h.rest

theorem onStrand (h : StrandOnly n d e) (f : Strand → Strand) : StrandOnly n d (e.onStrand n f) :=
  ⟨fun m hm => (e.onStrand_strand_other n m f hm).trans (h.others m hm), h.locked, h.rest⟩

theorem sendTrigger (h : StrandOnly n d e) (t : Trig) : StrandOnly n d (e.sendTrigger n t) :=
  ⟨fun m hm => (upd_other _ _ _ _ hm).trans (h.others m hm), fun m => (e.bcSend_timerLocked _ _ m).trans (h.locked m), h.rest⟩

theorem withhold (h : StrandOnly n d e) : StrandOnly n d (e.withhold n) := h.onStrand _

theorem dropStart (h : StrandOnly n d e) : StrandOnly n d (e.dropStart n) := h.onStrand _

theorem deferStart (h : StrandOnly n d e) (t : Trig) : StrandOnly n d (e.deferStart n t) := by
  unfold Dev.deferStart
  split
  · exact h.onStrand _
  · exact (h.onStrand _).dropStart

theorem applyPolicy (h : StrandOnly n d e) (t : Trig) : StrandOnly n d (e.applyPolicy n t) := by
  unfold Dev.applyPolicy
  split_ifs
  · exact h.dropStart
  · exact h.deferStart t
  · exact h.dropStart

theorem fallDue (h : StrandOnly n d e) (t : Trig) : StrandOnly n d (e.fallDue n t) := by
  unfold Dev.fallDue
  split_ifs
  · exact h
  · exact h.withhold
  · exact h.applyPolicy t
  · exact h.sendTrigger _

theorem serveQueued (h : StrandOnly n d e) : StrandOnly n d (e.serveQueued n) := by
  unfold Dev.serveQueued
  extract_lets g
  split
  · split_ifs
    · exact (h.onStrand _).sendTrigger _
    · exact h
  · exact h

theorem endBusy (h : StrandOnly n d e) : StrandOnly n d (e.endBusy n) := by
  unfold Dev.endBusy
  extract_lets d1 d2
  have hd1 : StrandOnly n d d1 := h.onStrand _
  have hd2 : StrandOnly n d d2 := hd1.onStrand _
  split
  · exact hd1.serveQueued
  · split_ifs
    · exact hd2
    · exact hd2.sendTrigger _
    · exact hd2.withhold

theorem exposureStart (h : StrandOnly n d e) : StrandOnly n d (Machine.exposureStart n e) := by
  unfold Machine.exposureStart
  split
  case h_1 => exact h
  case h_2 t ts _ =>
    extract_lets d1 c waits
    have hd1 : StrandOnly n d d1 := h.onStrand _
    by_cases hs : t.slave = 0
    · rw [if_pos hs]
      exact hd1.fallDue t
    rw [if_neg hs]
    by_cases hb : (d1.strands[n]).busy.isSome = true
    · rw [if_pos hb]
      split_ifs
      · exact hd1.deferStart t
      · exact hd1.applyPolicy t
    · rw [if_neg hb]
      exact hd1.onStrand _

theorem busyTimeout (h : StrandOnly n d e) : StrandOnly n d (Machine.busyTimeout n e) := by
  unfold Machine.busyTimeout
  split
  · exact h.dropStart.endBusy
  · exact h

end Dev.StrandOnly

/-- After the settling nothing but the strand and the ports differs. -/
theorem Dev.StrandOnly.settle_rest {n : StrandNo} {d e : Dev} (h : Dev.StrandOnly n d e) :
    { e.settle.unreport d with strands := d.strands, ports := d.ports } = d := by
  rw [Dev.unreport_settle]
  exact congrArg (fun x : Dev => x.unreport d) h.rest

/-! ### A start meets a busy strand (R174, R175, R178) -/

/-- The strand with one more start dropped. -/
def Strand.dropStart (g : Strand) : Strand := { g with dropped := satAdd g.dropped 1 }

/-- The strand with a start deferred: one at most, a further one is dropped, and merged where it is a mark's. -/
def Strand.deferStart (g : Strand) (t : Trig) : Strand :=
  match g.deferred with
  | none => { g with deferred := some { t with deferred := true } }
  | some u => { g with deferred := some { u with merged := u.merged + (if t.mark.isSome then 1 else 0) } }.dropStart

/-- The strand under the policy for starts of mode 1 and 2: 0 is DEFER. -/
def Strand.applyPolicy (g : Strand) (policy : Nat) (t : Trig) : Strand :=
  if g.deferred.isSome then g.dropStart else if policy = 0 then g.deferStart t else g.dropStart

theorem Dev.deferStart_eq (d : Dev) (n : StrandNo) (t : Trig) : d.deferStart n t = d.onStrand n fun g => g.deferStart t := by
  unfold Dev.deferStart
  split
  case h_1 hnone => exact d.onStrand_congr _ _ _ (by simp only [Strand.deferStart, hnone])
  case h_2 u hsome =>
    refine (d.onStrand_onStrand n _ _).trans (d.onStrand_congr _ _ _ ?_)
    simp only [Strand.deferStart, hsome]
    rfl

theorem Dev.applyPolicy_eq (d : Dev) (n : StrandNo) (t : Trig) :
    d.applyPolicy n t = d.onStrand n fun g => g.applyPolicy (d.profile n.val).policy t := by
  unfold Dev.applyPolicy
  rw [d.deferStart_eq]
  split_ifs with hdef hpol
  · exact d.onStrand_congr _ _ _ (by rw [Strand.applyPolicy, if_pos hdef]; rfl)
  · exact d.onStrand_congr _ _ _ (by rw [Strand.applyPolicy, if_neg hdef, if_pos hpol])
  · exact d.onStrand_congr _ _ _ (by rw [Strand.applyPolicy, if_neg hdef, if_neg hpol]; rfl)

theorem Strand.deferStart_keeps (g : Strand) (t : Trig) : (g.deferStart t).armed = g.armed ∧ (g.deferStart t).busy = g.busy := by
  unfold Strand.deferStart
  split <;> exact ⟨rfl, rfl⟩

theorem Strand.deferStart_first (g : Strand) (t : Trig) (h : g.deferred = none) :
    g.deferStart t = { g with deferred := some { t with deferred := true } } := by
  simp only [Strand.deferStart, h]

theorem Strand.deferStart_merges (g : Strand) (t v : Trig) (h : g.deferred = some v) (hm : t.mark.isSome = true) :
    g.deferStart t = { g with deferred := some { v with merged := v.merged + 1 }, dropped := satAdd g.dropped 1 } := by
  simp only [Strand.deferStart, h, hm, if_true]
  rfl

theorem Strand.applyPolicy_keeps (g : Strand) (policy : Nat) (t : Trig) :
    (g.applyPolicy policy t).armed = g.armed ∧ (g.applyPolicy policy t).busy = g.busy := by
  unfold Strand.applyPolicy
  split_ifs
  · exact ⟨rfl, rfl⟩
  · exact g.deferStart_keeps t
  · exact ⟨rfl, rfl⟩

/-- A start is deferred where none is and the profile says DEFER, and dropped otherwise. -/
theorem Strand.applyPolicy_outcome (g : Strand) (policy : Nat) (t : Trig) :
    if g.deferred = none ∧ policy = 0 then
      (g.applyPolicy policy t).deferred = some { t with deferred := true } ∧ (g.applyPolicy policy t).dropped = g.dropped
    else (g.applyPolicy policy t).deferred = g.deferred ∧ (g.applyPolicy policy t).dropped = satAdd g.dropped 1 := by
  unfold Strand.applyPolicy
  by_cases hnone : g.deferred = none
  · have hsome : ¬ g.deferred.isSome = true := by rw [hnone]; decide
    rw [if_neg hsome]
    by_cases hpol : policy = 0
    · rw [if_pos hpol, if_pos ⟨hnone, hpol⟩, g.deferStart_first t hnone]
      exact ⟨rfl, rfl⟩
    · rw [if_neg hpol, if_neg fun h => hpol h.2]
      exact ⟨rfl, rfl⟩
  · have hsome : g.deferred.isSome = true := Option.isSome_iff_ne_none.2 hnone
    rw [if_pos hsome, if_neg fun h => hnone h.1]
    exact ⟨rfl, rfl⟩

/-! ### The start of a strand falls due (R167, R173 to R178) -/

/-- The strand with the starts `l` waiting. -/
def Strand.withArmed (g : Strand) (l : List Trig) : Strand := { g with armed := l }

/-- A strand that begins the start `t`, whose record data are `shot`: a mark that W6 crossed is no longer committed. -/
def Strand.begin (g : Strand) (c : CaptureCfg) (t : Trig) (shot : WhorlTime × Int × Nat) : Strand :=
  let waits := match t.mark with
    | some m => g.committed.any fun k => decide (c.markUm k = m)
    | none => false
  { g with
    busy := some ({ t with missed := t.missed && !waits }, false), shot := some shot,
    committed := match t.mark with
      | some m => g.committed.filter fun k => decide (c.markUm k ≠ m)
      | none => g.committed }

theorem Strand.begin_busy (g : Strand) (c : CaptureCfg) (t : Trig) (shot : WhorlTime × Int × Nat) (h : t.mark = none) :
    (g.begin c t shot).busy = some (t, false) := by
  obtain ⟨due, slave, deferred, mark, missed, merged⟩ := t
  subst h
  simp only [Strand.begin, Bool.not_false, Bool.and_true]

section
variable {d : Dev} {n : StrandNo} (t : Trig)

theorem Dev.fallDue_shutdown (hm : d.sys.mode = .shutdown) : d.fallDue n t = d := if_pos hm

theorem Dev.fallDue_withheld (hm : d.sys.mode ≠ .shutdown) (hl : d.timerLocked n = false) : d.fallDue n t = d.withhold n := by
  rw [Dev.fallDue, if_neg hm, if_pos (by rw [hl]; rfl)]

theorem Dev.fallDue_busy (hm : d.sys.mode ≠ .shutdown) (hl : d.timerLocked n = true) (hb : (d.strands[n]).busy.isSome = true) :
    d.fallDue n t = d.onStrand n fun g => g.applyPolicy (d.profile n.val).policy t := by
  rw [Dev.fallDue, if_neg hm, if_neg (by rw [hl]; decide), if_pos hb, Dev.applyPolicy_eq]

theorem Dev.fallDue_free (hm : d.sys.mode ≠ .shutdown) (hl : d.timerLocked n = true) (hb : (d.strands[n]).busy = none) :
    d.fallDue n t = d.sendTrigger n { t with slave := d.w0 + 100000 } := by
  rw [Dev.fallDue, if_neg hm, if_neg (by rw [hl]; decide), if_neg (by rw [hb]; decide)]

end

section
variable (d : Dev) (n : StrandNo) (t : Trig) (l : List Trig)

/-- What a start latches: the record time, the distance and the time quality (R167, R168). -/
def Dev.shotNow (d : Dev) (n : StrandNo) : WhorlTime × Int × Nat :=
  (d.whl.timeNow (d.capture n.val).whorl, if d.whl.cfg.odoEnabled then d.whl.w6.um else 0, d.whl.quality (d.capture n.val).whorl)

variable {d n t l} (harmed : (d.strands[n]).armed = t :: l)
include harmed

/-- A start whose TRIGGER was sent begins on a free strand. -/
theorem exposureStart_begins (hs : t.slave ≠ 0) (hb : (d.strands[n]).busy = none) :
    exposureStart n d = d.onStrand n fun g => (g.withArmed l).begin (d.capture n.val) t (d.shotNow n) := by
  have hfree : ¬ (d.strands[n]).busy.isSome = true := by rw [hb]; decide
  simp only [exposureStart, harmed, if_neg hs, Dev.onStrand_strand_same, if_neg hfree]
  exact (d.onStrand_onStrand n _ _).trans (d.onStrand_congr n _ _ rfl)

/-- On a busy strand a mark's start is deferred. -/
theorem exposureStart_defers (hs : t.slave ≠ 0) (hb : (d.strands[n]).busy.isSome = true) (hm : t.mark.isSome = true) :
    exposureStart n d = d.onStrand n fun g => (g.withArmed l).deferStart t := by
  simp only [exposureStart, harmed, if_neg hs, Dev.onStrand_strand_same, if_pos hb, if_pos hm, Dev.deferStart_eq]
  exact d.onStrand_onStrand n _ _

/-- Any other meets the policy of the strand. -/
theorem exposureStart_meetsBusy (hs : t.slave ≠ 0) (hb : (d.strands[n]).busy.isSome = true) (hm : t.mark = none) :
    exposureStart n d = d.onStrand n fun g => (g.withArmed l).applyPolicy (d.profile n.val).policy t := by
  have hmark : ¬ t.mark.isSome = true := by rw [hm]; decide
  simp only [exposureStart, harmed, if_neg hs, Dev.onStrand_strand_same, if_pos hb, if_neg hmark, Dev.applyPolicy_eq]
  exact d.onStrand_onStrand n _ _

/-- A start without a TRIGGER falls due. -/
theorem exposureStart_fallsDue (hs : t.slave = 0) :
    exposureStart n d = (d.onStrand n fun g => g.withArmed l).fallDue n t := by
  simp only [exposureStart, harmed, if_pos hs, Strand.withArmed]

/-- A shutdown discards it. -/
theorem exposureStart_discards (hs : t.slave = 0) (hm : d.sys.mode = .shutdown) :
    exposureStart n d = d.onStrand n fun g => g.withArmed l :=
  (exposureStart_fallsDue harmed hs).trans (Dev.fallDue_shutdown t hm)

/-- Without a locked timer it is withheld. -/
theorem exposureStart_withholds (hs : t.slave = 0) (hm : d.sys.mode ≠ .shutdown) (hl : d.timerLocked n = false) :
    exposureStart n d = d.onStrand n fun g => { g.withArmed l with withheld := satAdd g.withheld 1 } :=
  (exposureStart_fallsDue harmed hs).trans
    ((Dev.fallDue_withheld (d := d.onStrand n fun g => g.withArmed l) t hm hl).trans (d.onStrand_onStrand n _ _))

/-- On a busy strand it meets the policy. -/
theorem exposureStart_dueOnBusy (hs : t.slave = 0) (hm : d.sys.mode ≠ .shutdown) (hl : d.timerLocked n = true)
    (hb : (d.strands[n]).busy.isSome = true) :
    exposureStart n d = d.onStrand n fun g => (g.withArmed l).applyPolicy (d.profile n.val).policy t := by
  have hb1 : ((d.onStrand n fun g => g.withArmed l).strands[n]).busy.isSome = true := by
    rw [Dev.onStrand_strand_same]
    exact hb
  exact (exposureStart_fallsDue harmed hs).trans
    ((Dev.fallDue_busy (d := d.onStrand n fun g => g.withArmed l) t hm hl hb1).trans (d.onStrand_onStrand n _ _))

/-- On a free strand it gets a TRIGGER 100 us ahead (log 46). -/
theorem exposureStart_dueOnFree (hs : t.slave = 0) (hm : d.sys.mode ≠ .shutdown) (hl : d.timerLocked n = true)
    (hb : (d.strands[n]).busy = none) :
    (exposureStart n d).strands[n] = ((d.strands[n]).withArmed l).arm { t with slave := d.w0 + 100000 } := by
  have hb1 : ((d.onStrand n fun g => g.withArmed l).strands[n]).busy = none := by
    rw [Dev.onStrand_strand_same]
    exact hb
  rw [exposureStart_fallsDue harmed hs,
    Dev.fallDue_free (d := d.onStrand n fun g => g.withArmed l) t hm hl hb1, Dev.sendTrigger_strands, upd_same, Dev.onStrand_strand_same]
  rfl

end

/-! ### The busy state ends (R173, R174) -/

/-- With no start that waits for a TRIGGER none is sent. -/
theorem Dev.serveQueued_none (d : Dev) (n : StrandNo) (h : ∀ t ∈ (d.strands[n]).armed, t.slave ≠ 0) : d.serveQueued n = d := by
  have hfind : ((d.strands[n]).armed.find? fun t => decide (t.slave = 0)) = none := by
    simpa using h
  simp only [Dev.serveQueued, hfind]

/-- What the end of a busy state sets of a strand. -/
def Strand.busySide (g : Strand) : Option (Trig × Bool) × Word × Option Trig := (g.busy, g.dropped, g.deferred)

theorem Dev.sendTrigger_busySide (d : Dev) (n : StrandNo) (t : Trig) :
    ((d.sendTrigger n t).strands[n]).busySide = (d.strands[n]).busySide := by
  rw [Dev.sendTrigger_strands, upd_same]
  rfl

theorem Dev.serveQueued_busySide (d : Dev) (n : StrandNo) : ((d.serveQueued n).strands[n]).busySide = (d.strands[n]).busySide := by
  unfold Dev.serveQueued
  extract_lets g
  split
  · split_ifs
    · rw [Dev.sendTrigger_busySide, Dev.onStrand_strand_same]
      rfl
    · rfl
  · rfl

/-- The strand free of its busy state, and with no start deferred. -/
def Strand.free (g : Strand) : Strand := { g with busy := none }
def Strand.undefer (g : Strand) : Strand := { g with deferred := none }

/-- The end of a busy state with a start deferred. -/
theorem Dev.endBusy_deferred (d : Dev) (n : StrandNo) (v : Trig) (hv : (d.strands[n]).deferred = some v) :
    d.endBusy n =
      if d.sys.mode = .shutdown then d.onStrand n fun g => g.free.undefer
      else if d.timerLocked n then (d.onStrand n fun g => g.free.undefer).sendTrigger n { v with slave := d.w0 + 150000 }
      else (d.onStrand n fun g => g.free.undefer).withhold n := by
  unfold Dev.endBusy
  extract_lets d1 d2
  have hd1 : (d1.strands[n]).deferred = some v := by
    rw [d.onStrand_strand_same n]
    exact hv
  have hd2 : d2 = d.onStrand n fun g => g.free.undefer := d.onStrand_onStrand n _ _
  split
  case h_1 hnone => cases hd1.symm.trans hnone
  case h_2 t ht =>
    cases hd1.symm.trans ht
    rw [hd2]
    rfl

/-- The end of a busy state with no start deferred. -/
theorem Dev.endBusy_none (d : Dev) (n : StrandNo) (hv : (d.strands[n]).deferred = none) :
    d.endBusy n = (d.onStrand n Strand.free).serveQueued n := by
  unfold Dev.endBusy
  extract_lets d1 d2
  have hd1 : (d1.strands[n]).deferred = none := by
    rw [d.onStrand_strand_same n]
    exact hv
  split
  case h_1 => rfl
  case h_2 t ht => cases hd1.symm.trans ht

/-- After the busy state the strand is free and no start is deferred. -/
theorem Dev.endBusy_busySide (d : Dev) (n : StrandNo) :
    ((d.endBusy n).strands[n]).busySide = (none, (d.strands[n]).dropped, none) := by
  cases hv : (d.strands[n]).deferred with
  | none =>
    rw [d.endBusy_none n hv, Dev.serveQueued_busySide, Dev.onStrand_strand_same, ← hv]
    rfl
  | some v =>
    have hfree : ((d.onStrand n fun g => g.free.undefer).strands[n]).busySide = (none, (d.strands[n]).dropped, none) := by
      rw [Dev.onStrand_strand_same]
      rfl
    rw [d.endBusy_deferred n v hv]
    split_ifs
    · exact hfree
    · rw [Dev.sendTrigger_busySide, hfree]
    · rw [← hfree, Dev.withhold, Dev.onStrand_strand_same]
      rfl

/-- A deferred start is sent 150 us ahead. -/
theorem Dev.endBusy_sends (d : Dev) (n : StrandNo) (v : Trig) (hv : (d.strands[n]).deferred = some v)
    (hm : d.sys.mode ≠ .shutdown) (hl : d.timerLocked n = true) :
    ((d.endBusy n).strands[n]).armed = ((d.strands[n]).arm { v with slave := d.w0 + 150000 }).armed := by
  rw [d.endBusy_deferred n v hv, if_neg hm, if_pos hl, Dev.sendTrigger_strands, upd_same, Dev.onStrand_strand_same]
  rfl

/-- With no start deferred and none waiting for a TRIGGER the strand is free, and nothing follows. -/
theorem Dev.endBusy_idle (d : Dev) (n : StrandNo) (hv : (d.strands[n]).deferred = none)
    (h : ∀ t ∈ (d.strands[n]).armed, t.slave ≠ 0) : d.endBusy n = d.onStrand n Strand.free := by
  rw [d.endBusy_none n hv]
  refine Dev.serveQueued_none _ n ?_
  rw [Dev.onStrand_strand_same]
  exact h

theorem busyTimeout_of_busy (d : Dev) (n : StrandNo) (t : Trig) (h : (d.strands[n]).busy = some (t, false)) :
    busyTimeout n d = (d.dropStart n).endBusy n := by
  simp only [busyTimeout, h]

/-! ### The commands -/

/-- An effect on one strand alone leaves the rest of the registers. -/
theorem Dev.onStrand_unreport (d : Dev) (n : StrandNo) (f : Strand → Strand) :
    { (d.onStrand n f).unreport d with strands := d.strands } = d := by
  dsimp only [Dev.unreport, Dev.onStrand]

theorem Dev.onStrand_rest (d : Dev) (n : StrandNo) (f : Strand → Strand) :
    { (d.onStrand n f).settle.unreport d with strands := d.strands } = d := by
  rw [Dev.unreport_settle, Dev.onStrand_unreport]

/-- Settles O35: what a start and the end of a busy state leave of the strand is said case by case above, and neither touches another
strand. -/
theorem exposureStarts : Obligations.ExposureStarts := by
  intro s n g policy
  refine ⟨fun t l harmed => ?_, fun t hbusy => ?_⟩
  · have honly := (Dev.StrandOnly.refl n s.dev).exposureStart
    refine ⟨s.run (exposureStart n), rfl, rfl, ?_⟩
    rw [State.run_dev, Dev.settle_strands]
    refine ⟨honly.others, fun hs hb => ?_, fun hs hb => ?_, fun hs => ?_⟩
    · rw [exposureStart_begins harmed hs hb, Dev.onStrand_strand_same]
      exact ⟨rfl, Strand.begin_busy _ _ _ _, rfl, rfl, s.dev.onStrand_rest n _⟩
    · by_cases hm : t.mark = none
      · have hkeeps := (g.withArmed l).applyPolicy_keeps (s.dev.profile n.val).policy t
        rw [exposureStart_meetsBusy harmed hs hb hm, Dev.onStrand_strand_same, hm]
        exact ⟨hkeeps.1, hkeeps.2, fun _ => (g.withArmed l).applyPolicy_outcome _ t, nofun, nofun,
          s.dev.onStrand_rest n _⟩
      · have hmark : t.mark.isSome = true := Option.isSome_iff_ne_none.2 hm
        have hkeeps := (g.withArmed l).deferStart_keeps t
        rw [exposureStart_defers harmed hs hb hmark, Dev.onStrand_strand_same]
        refine ⟨hkeeps.1, hkeeps.2, fun hnone => absurd hnone hm, fun _ hnone => ?_, fun v _ hv => ?_, s.dev.onStrand_rest n _⟩
        · rw [(g.withArmed l).deferStart_first t hnone]
        · rw [(g.withArmed l).deferStart_merges t v hv hmark]
          exact ⟨rfl, rfl⟩
    · refine ⟨fun hm => ?_, fun hm hl => ?_, fun hm hl hb => ?_, exposureStart_dueOnFree harmed hs, honly.settle_rest⟩
      · rw [exposureStart_discards harmed hs hm, Dev.onStrand_strand_same]
        rfl
      · rw [exposureStart_withholds harmed hs hm hl, Dev.onStrand_strand_same]
        exact ⟨rfl, rfl⟩
      · rw [exposureStart_dueOnBusy harmed hs hm hl hb, Dev.onStrand_strand_same]
        exact ⟨((g.withArmed l).applyPolicy_keeps _ t).1, (g.withArmed l).applyPolicy_outcome _ t⟩
  · have honly := (Dev.StrandOnly.refl n s.dev).busyTimeout
    have hside := (s.dev.dropStart n).endBusy_busySide n
    refine ⟨s.run (busyTimeout n), rfl, rfl, ?_⟩
    have hrest := honly.settle_rest
    have hothers := honly.others
    rw [busyTimeout_of_busy _ _ t hbusy] at hrest hothers
    rw [State.run_dev, Dev.settle_strands, Dev.settle_ports, busyTimeout_of_busy _ _ t hbusy]
    have hdrop : (s.dev.dropStart n).strands[n] = g.dropStart := s.dev.onStrand_strand_same n _
    simp only [Strand.busySide, hdrop, Prod.mk.injEq] at hside
    obtain ⟨hfree, hdropped, hdeferred⟩ := hside
    refine ⟨hfree, hdropped, hdeferred, fun v hv hm hl => ?_, fun hv harmed => ?_, hothers, hrest⟩
    · rw [(s.dev.dropStart n).endBusy_sends n v (by rw [hdrop]; exact hv) hm hl, hdrop]
      rfl
    · rw [(s.dev.dropStart n).endBusy_idle n (by rw [hdrop]; exact hv) (by rw [hdrop]; exact harmed), Dev.onStrand_strand_same, hdrop]
      exact ⟨rfl, rfl⟩

end Sys2Proof.Machine
end

section
/-! SUPPORT. Trigger inputs, the odometer and distance marks (spec/05_strands_exposure.md R170, R176 to R178; 12 R445 to R450). -/

namespace Sys2Proof.Machine

/-! ### Operations on many strands, each on its own -/

/-- What an operation on strand `n` reads is the same in `e` as in `d`: the strand, the lock of its slave timer, and everything but
strands and ports. -/
structure Dev.SameFor (n : StrandNo) (d e : Dev) : Prop where
  strand : e.strands[n] = d.strands[n]
  locked : e.timerLocked n = d.timerLocked n
  rest : { e with strands := d.strands, ports := d.ports } = d

namespace Dev.SameFor
variable {n : StrandNo} {d e : Dev}

theorem refl (n : StrandNo) (d : Dev) : SameFor n d d := ⟨rfl, rfl, rfl⟩

theorem after {m : StrandNo} {x : Dev} (h : SameFor n x e) (hx : StrandOnly m d x) (hm : n ≠ m) : SameFor n d e :=
  ⟨h.strand.trans (hx.others n hm), h.locked.trans (hx.locked n),
    (congrArg (fun y : Dev => { y with strands := d.strands, ports := d.ports }) h.rest).trans hx.rest⟩

theorem whl_eq (h : SameFor n d e) : e.whl = d.whl := congrArg (fun x => x.whl) h.rest
theorem w0_eq (h : SameFor n d e) : e.w0 = d.w0 := congrArg (fun x => x.w0) h.rest
theorem mode_eq (h : SameFor n d e) : e.sys.mode = d.sys.mode := congrArg (fun x => x.sys.mode) h.rest
theorem capture_eq (h : SameFor n d e) (k : Nat) : e.capture k = d.capture k := congrArg (fun x => x.capture k) h.rest

end Dev.SameFor

section
variable (g : Dev → StrandNo → Dev) (hg : ∀ e m, Dev.StrandOnly m e (g e m)) (l : List StrandNo)
include hg

/-- A walk over different strands, each step of which touches its strand alone, does to each strand what one step does. -/
theorem Dev.foldl_strandOnly (hl : l.Nodup) (n : StrandNo) (d : Dev) :
    ∃ e, Dev.SameFor n d e ∧ (l.foldl g d).strands[n] = if n ∈ l then (g e n).strands[n] else d.strands[n] := by
  induction l generalizing d with
  | nil => exact ⟨d, .refl n d, rfl⟩
  | cons m l ih =>
    obtain ⟨hm, hl⟩ := List.nodup_cons.1 hl
    obtain ⟨e, he, hstrand⟩ := ih hl (g d m)
    by_cases hn : n = m
    · subst hn
      rw [if_neg hm] at hstrand
      exact ⟨d, .refl n d, by rw [if_pos List.mem_cons_self, List.foldl_cons, hstrand]⟩
    · refine ⟨e, he.after (hg d m) hn, ?_⟩
      rw [List.foldl_cons, hstrand, (hg d m).others n hn]
      simp only [List.mem_cons, hn, false_or]

/-- Such a walk leaves everything but the strands and the ports. -/
theorem Dev.foldl_strandOnly_rest (d : Dev) : { l.foldl g d with strands := d.strands, ports := d.ports } = d :=
  Dev.foldl_view (fun e : Dev => { e with strands := d.strands, ports := d.ports }) g
    (fun e m => congrArg (fun x : Dev => { x with strands := d.strands, ports := d.ports }) (hg e m).rest) l d

end

theorem Dev.nodup_modeStrands (d : Dev) (mode : Nat) : (d.modeStrands mode).Nodup := (List.nodup_finRange 64).filter _

theorem Dev.mem_modeStrands (d : Dev) (mode : Nat) (n : StrandNo) :
    n ∈ d.modeStrands mode ↔ (d.capture n.val).mode = mode ∧ d.active n = true := by
  simp [Dev.modeStrands, allStrands]

/-- An effect on the whorls alone leaves the rest of the registers. -/
theorem Dev.onWhl_unreport (d : Dev) (f : Whl → Whl) : { (d.onWhl f).unreport d with whl := d.whl } = d := by
  dsimp only [Dev.unreport, Dev.onWhl]

/-! ### TRIG_IN (R170, R450) -/

/-- A source event of W7 changes W7 alone, and reports a loss of lock. -/
theorem Dev.w7Event_eq (d : Dev) (e : Int) :
    ∃ x, d.w7Event e = (d.onWhl fun w => { w with w7 := x }) ∨ d.w7Event e = (d.onWhl fun w => { w with w7 := x }).raise 19 7 0 := by
  unfold Dev.w7Event
  extract_lets r d1
  refine ⟨r.1, ?_⟩
  split_ifs
  · exact .inr rfl
  · exact .inl rfl

theorem Dev.w7Input_whl (d : Dev) (source input : Nat) : ∃ x, (d.w7Input source input).whl = { d.whl with w7 := x } := by
  unfold Dev.w7Input
  split_ifs
  · obtain ⟨x, h | h⟩ := d.w7Event_eq d.whl.w7.error
    · exact ⟨x, by rw [h, Dev.onWhl_whl]⟩
    · exact ⟨x, by rw [h, Dev.raise_whl, Dev.onWhl_whl]⟩
  · exact ⟨d.whl.w7, rfl⟩

theorem Dev.w7Input_rest (d : Dev) (source input : Nat) : { (d.w7Input source input).unreport d with whl := d.whl } = d := by
  unfold Dev.w7Input
  split_ifs
  · obtain ⟨x, h | h⟩ := d.w7Event_eq d.whl.w7.error
    · rw [h, Dev.onWhl_unreport]
    · rw [h, Dev.unreport_raise, Dev.onWhl_unreport]
  · rfl

/-- The edge of a trigger input starts strand `n`. -/
def Dev.trigStrand (e : Dev) (n : StrandNo) : Dev :=
  let due := (e.w0 + (e.capture n.val).phase).toNat
  if e.sys.mode = .shutdown then e
  else if e.timerLocked n && !(e.strands[n]).occupied then e.sendTrigger n ⟨due, due, false, none, false, 0⟩
  else e.onStrand n fun g => g.arm ⟨due, 0, false, none, false, 0⟩

theorem Dev.trigStrand_only (e : Dev) (n : StrandNo) : Dev.StrandOnly n e (e.trigStrand n) := by
  unfold Dev.trigStrand
  extract_lets due
  split_ifs
  · exact .refl n e
  · exact (Dev.StrandOnly.refl n e).sendTrigger _
  · exact (Dev.StrandOnly.refl n e).onStrand _

theorem Dev.trigStrand_strand (e : Dev) (n : StrandNo) (hm : e.sys.mode ≠ .shutdown) :
    (e.trigStrand n).strands[n] =
      let due := (e.w0 + (e.capture n.val).phase).toNat
      (e.strands[n]).arm ⟨due, if e.timerLocked n && !(e.strands[n]).occupied then due else 0, false, none, false, 0⟩ := by
  unfold Dev.trigStrand
  extract_lets due
  rw [if_neg hm]
  by_cases hsent : (e.timerLocked n && !(e.strands[n]).occupied) = true
  · rw [if_pos hsent, if_pos hsent, Dev.sendTrigger_strands, upd_same]
  · rw [if_neg hsent, if_neg hsent, Dev.onStrand_strand_same]

/-- The registers with the edge timestamped and taken as a source event of W7. -/
def Dev.stampEdge (d : Dev) (i : Fin 4) : Dev := (d.onWhl fun w => { w with trigIn := upd w.trigIn i fun _ => some w.tim }).w7Input 2 i.val

theorem trigInEdge_eq (i : Fin 4) (d : Dev) :
    trigInEdge i d = (((d.stampEdge i).modeStrands 2).filter fun n =>
      decide (((d.stampEdge i).capture n.val).trigIn = i.val)).foldl Dev.trigStrand (d.stampEdge i) := rfl

theorem Dev.stampEdge_whl (d : Dev) (i : Fin 4) :
    (d.stampEdge i).whl.trigIn = upd d.whl.trigIn i (fun _ => some d.whl.tim) ∧ (d.stampEdge i).whl.tim = d.whl.tim := by
  obtain ⟨x, hx⟩ := (d.onWhl fun w => { w with trigIn := upd w.trigIn i fun _ => some w.tim }).w7Input_whl 2 i.val
  rw [Dev.stampEdge, hx]
  exact ⟨rfl, rfl⟩

theorem Dev.stampEdge_rest (d : Dev) (i : Fin 4) : { (d.stampEdge i).unreport d with whl := d.whl } = d :=
  congrArg (fun e : Dev => { e.unreport d with whl := d.whl })
    ((d.onWhl fun w => { w with trigIn := upd w.trigIn i fun _ => some w.tim }).w7Input_rest 2 i.val)

theorem exec_trigInEdge (s : State) (i : Fin 4) (hmode : s.dev.sys.mode ≠ .shutdown) :
    ∃ t, exec (.trigInEdge i) s = .next t ∧ t.mem = s.mem ∧ t.dev.whl.trigIn = upd s.dev.whl.trigIn i (fun _ => some s.dev.whl.tim) ∧
      ∀ n : StrandNo,
        (if (s.dev.capture n.val).mode = 2 ∧ s.dev.active n = true ∧ (s.dev.capture n.val).trigIn = i.val then
          let due := (s.dev.w0 + (s.dev.capture n.val).phase).toNat
          let sent := s.dev.timerLocked n && !(s.dev.strands[n]).occupied
          t.dev.strands[n] = (s.dev.strands[n]).arm ⟨due, if sent then due else 0, false, none, false, 0⟩
        else t.dev.strands[n] = s.dev.strands[n]) := by
  obtain ⟨htrigIn, htim⟩ := s.dev.stampEdge_whl i
  have hrest := s.dev.stampEdge_rest i
  refine ⟨s.run (trigInEdge i), rfl, rfl, ?_, fun n => ?_⟩
  · rw [State.run_dev, Dev.settle_whl, trigInEdge_eq, ← htrigIn]
    exact congrArg (fun e => e.whl.trigIn) (Dev.foldl_strandOnly_rest _ Dev.trigStrand_only _ (s.dev.stampEdge i))
  · have hcapture : (s.dev.stampEdge i).capture n.val = s.dev.capture n.val := congrArg (fun e => e.capture n.val) hrest
    have hactive : (s.dev.stampEdge i).active n = s.dev.active n := congrArg (fun e => e.active n) hrest
    have hstrand : (s.dev.stampEdge i).strands[n] = s.dev.strands[n] := congrArg (fun e => e.strands[n]) hrest
    have hlocked : (s.dev.stampEdge i).timerLocked n = s.dev.timerLocked n := congrArg (fun e => e.timerLocked n) hrest
    have hstamp : (s.dev.stampEdge i).sys.mode = s.dev.sys.mode := congrArg (fun e => e.sys.mode) hrest
    have hw0 : (s.dev.stampEdge i).w0 = s.dev.w0 := congrArg (fun x => 2 * x) htim
    obtain ⟨e, he, hwalk⟩ := Dev.foldl_strandOnly _ Dev.trigStrand_only _
      (((s.dev.stampEdge i).nodup_modeStrands 2).filter fun n => decide (((s.dev.stampEdge i).capture n.val).trigIn = i.val)) n
      (s.dev.stampEdge i)
    rw [State.run_dev, Dev.settle_strands, trigInEdge_eq, hwalk]
    have hmem : (n ∈ ((s.dev.stampEdge i).modeStrands 2).filter fun n => decide (((s.dev.stampEdge i).capture n.val).trigIn = i.val)) ↔
        (s.dev.capture n.val).mode = 2 ∧ s.dev.active n = true ∧ (s.dev.capture n.val).trigIn = i.val := by
      rw [List.mem_filter, Dev.mem_modeStrands, hcapture, hactive, decide_eq_true_eq, and_assoc]
    by_cases hstarts : (s.dev.capture n.val).mode = 2 ∧ s.dev.active n = true ∧ (s.dev.capture n.val).trigIn = i.val
    · rw [if_pos hstarts, if_pos (hmem.2 hstarts), e.trigStrand_strand n (by rw [he.mode_eq, hstamp]; exact hmode), he.w0_eq,
        he.capture_eq, he.strand, he.locked, hw0, hcapture, hstrand, hlocked]
    · rw [if_neg hstarts, if_neg (mt hmem.1 hstarts), hstrand]

/-! ### The odometer (R445, R446, R449) -/

theorem W6.error_errTimes_length (w : W6) (now : Nat) (a b : Bool)
    (h : 15 ≤ (w.errTimes.filter fun x => decide (now < x + 500000000)).length) : 16 ≤ (w.error now a b).errTimes.length := by
  simp only [W6.error, List.length_take, List.length_cons]
  omega

/-- A change of both inputs is an error. -/
theorem exec_odometerEdge_error (s : State) (a b : Bool) (hodo : s.dev.whl.cfg.odoEnabled = true) (ha : a ≠ s.dev.whl.w6.a)
    (hb : b ≠ s.dev.whl.w6.b) :
    ∃ t, exec (.odometerEdge a b) s = .next t ∧ t.mem = s.mem ∧ t.dev.whl.w6 = s.dev.whl.w6.error s.dev.whl.tim a b ∧
      (15 ≤ (s.dev.whl.w6.errTimes.filter fun x => decide (s.dev.whl.tim < x + 500000000)).length →
        t.dev.sys.fault.getLsbD 20 = true) ∧
      { t.dev.unreport s.dev with whl := s.dev.whl } = s.dev := by
  have herr : odometerEdge a b s.dev =
      if 16 ≤ (s.dev.whl.w6.error s.dev.whl.tim a b).errTimes.length then
        (s.dev.onWhl fun w => { w with w6 := w.w6.error w.tim a b }).report 20
      else s.dev.onWhl fun w => { w with w6 := w.w6.error w.tim a b } := by
    unfold odometerEdge
    extract_lets w d1 d2
    rw [if_neg (by rw [hodo]; decide), if_pos ⟨ha, hb⟩]
    rfl
  refine ⟨s.run (odometerEdge a b), rfl, rfl, ?_⟩
  rw [State.run_dev, Dev.settle_whl, Dev.unreport_settle, herr]
  split_ifs with hmany
  · rw [Dev.report_whl, Dev.unreport_report]
    exact ⟨rfl, fun _ => Dev.raise_shown _ 20 _ _ (by decide), s.dev.onWhl_unreport _⟩
  · exact ⟨rfl, fun h15 => absurd (W6.error_errTimes_length _ _ a b h15) hmany, s.dev.onWhl_unreport _⟩

namespace Dev.StrandOnly
variable {n : StrandNo} {d e : Dev}

theorem fireMark (h : StrandOnly n d e) (k : Int) : StrandOnly n d (e.fireMark n k) := by
  unfold Dev.fireMark
  extract_lets c had d1 t
  have hd1 : StrandOnly n d d1 := h.onStrand _
  split_ifs
  · exact hd1
  · exact hd1.withhold
  · exact hd1.deferStart t
  · exact hd1.sendTrigger t

theorem fireMarks (h : StrandOnly n d e) (ks : List Int) :
    StrandOnly n d (ks.foldl (fun x k => if (x.strands[n]).disarmed.contains k then x else x.fireMark n k) e) := by
  induction ks generalizing e with
  | nil => exact h
  | cons k ks ih =>
    rw [List.foldl_cons]
    refine ih ?_
    split_ifs
    · exact h
    · exact h.fireMark k

theorem crossMarks (h : StrandOnly n d e) (x : Int) : StrandOnly n d (e.crossMarks x n) := by
  unfold Dev.crossMarks
  extract_lets c y ks d1
  have hd1 : StrandOnly n d d1 := h.fireMarks ks
  split_ifs
  · exact hd1
  · exact hd1.onStrand _

end Dev.StrandOnly

/-- A strand on which mark `k` fires. -/
def Strand.fire (g : Strand) (c : CaptureCfg) (k : Int) : Strand :=
  { g with disarmed := k :: g.disarmed, fired := if c.markRepeat = 0 then k :: g.fired else g.fired,
           committed := g.committed.filter fun x => decide (x ≠ k) }

/-- An ARMED mark that a free strand has not committed fires with a TRIGGER 100 us ahead. -/
theorem Dev.fireMark_free (d : Dev) (n : StrandNo) (k : Int) (hnew : (d.strands[n]).committed.contains k = false)
    (hm : d.sys.mode ≠ .shutdown) (hl : d.timerLocked n = true) (hfree : (d.strands[n]).busy = none) :
    (d.fireMark n k).strands[n] = ((d.strands[n]).fire (d.capture n.val) k).arm
      ⟨d.w0, d.w0 + 100000, false, some ((d.capture n.val).markUm k), true, 0⟩ := by
  unfold Dev.fireMark
  extract_lets c had d1 t
  have hd1 : d1.strands[n] = (d.strands[n]).fire c k := d.onStrand_strand_same n _
  have hlocked : ¬ (!d1.timerLocked n) = true := by
    rw [show d1.timerLocked n = true from hl]
    decide
  have hbusy : ¬ (d1.strands[n]).busy.isSome = true := by
    rw [hd1, show ((d.strands[n]).fire c k).busy = none from hfree]
    decide
  have hgo : ¬ (had = true ∨ d1.sys.mode = .shutdown) := not_or.2 ⟨ne_true_of_eq_false hnew, hm⟩
  rw [if_neg hgo, if_neg hlocked, if_neg hbusy, Dev.sendTrigger_strands, upd_same, hd1]
  rfl

/-- The one ARMED mark that W6 crosses fires; a ONCE mark does not arm again. -/
theorem Dev.crossMarks_one (d : Dev) (n : StrandNo) (x k : Int) (honce : (d.capture n.val).markRepeat = 0)
    (hdir : (d.capture n.val).qualifies (decide (x ≤ d.whl.w6.pos)) = true)
    (hcross : (d.capture n.val).crossed x d.whl.w6.pos = [k]) (harmed : (d.strands[n]).disarmed.contains k = false) :
    d.crossMarks x n = d.fireMark n k := by
  unfold Dev.crossMarks
  extract_lets c y ks d1
  have hks : ks = [k] := (if_pos hdir).trans hcross
  have hd1 : d1 = [k].foldl (fun e k => if (e.strands[n]).disarmed.contains k then e else e.fireMark n k) d := by rw [← hks]
  rw [if_pos honce, hd1, List.foldl_cons, List.foldl_nil, if_neg (ne_true_of_eq_false harmed)]

/-- The registers with W6 moved by one edge. -/
def Dev.moveW6 (d : Dev) (a b : Bool) : Dev :=
  d.onWhl fun w => { w with w6 := w.w6.edge w.tim w.cfg.edgeSize w.cfg.invert a b }

/-- A change of one input moves W6, and every active mode 3 strand sees its marks crossed. -/
theorem odometerEdge_moves (d : Dev) (a b : Bool) (hodo : d.whl.cfg.odoEnabled = true)
    (hone : (a = d.whl.w6.a ∧ b ≠ d.whl.w6.b) ∨ (a ≠ d.whl.w6.a ∧ b = d.whl.w6.b)) :
    odometerEdge a b d = ((d.moveW6 a b).modeStrands 3).foldl (fun e n => e.crossMarks d.whl.w6.pos n) (d.moveW6 a b) := by
  have hboth : ¬ (a ≠ d.whl.w6.a ∧ b ≠ d.whl.w6.b) := by tauto
  have hnone : ¬ (a = d.whl.w6.a ∧ b = d.whl.w6.b) := by tauto
  unfold odometerEdge
  extract_lets w d1 d2
  rw [if_neg (by rw [hodo]; decide), if_neg hboth, if_neg hnone]
  rfl

theorem Strand.arm_free (g : Strand) (t : Trig) (h : g.armed = []) : (g.arm t).armed = g.armed ++ [t] := by
  simp only [Strand.arm, h, List.filter_nil, List.nil_append]

theorem Strand.occupied_eq_false (g : Strand) : g.occupied = false ↔ g.busy = none ∧ g.armed = [] := by
  simp [Strand.occupied]

/-- A change of one input moves W6 by one edge and fires the armed mark it crosses. -/
theorem exec_odometerEdge_moves (s : State) (a b : Bool) (hodo : s.dev.whl.cfg.odoEnabled = true)
    (hone : (a = s.dev.whl.w6.a ∧ b ≠ s.dev.whl.w6.b) ∨ (a ≠ s.dev.whl.w6.a ∧ b = s.dev.whl.w6.b)) :
    let w := s.dev.whl.w6
    let w1 := w.edge s.dev.whl.tim s.dev.whl.cfg.edgeSize s.dev.whl.cfg.invert a b
    ∃ t, exec (.odometerEdge a b) s = .next t ∧ t.mem = s.mem ∧ t.dev.whl = { s.dev.whl with w6 := w1 } ∧
      ∀ (n : StrandNo) (k : Int), let c := s.dev.capture n.val
        c.mode = 3 → s.dev.active n = true → c.markRepeat = 0 → c.qualifies (decide (w.pos ≤ w1.pos)) = true →
        c.crossed w.pos w1.pos = [k] → (s.dev.strands[n]).disarmed.contains k = false →
        (s.dev.strands[n]).committed.contains k = false → s.dev.sys.mode ≠ .shutdown → s.dev.timerLocked n = true →
        (s.dev.strands[n]).occupied = false →
        (t.dev.strands[n]).disarmed = k :: (s.dev.strands[n]).disarmed ∧ (t.dev.strands[n]).fired = k :: (s.dev.strands[n]).fired ∧
        (t.dev.strands[n]).armed = (s.dev.strands[n]).armed ++
          [⟨s.dev.w0, s.dev.w0 + 100000, false, some (c.markUm k), true, 0⟩] := by
  intro w w1
  have honly : ∀ (e : Dev) (m : StrandNo), Dev.StrandOnly m e (e.crossMarks w.pos m) := fun e m => (Dev.StrandOnly.refl m e).crossMarks _
  refine ⟨s.run (odometerEdge a b), rfl, rfl, ?_, fun n k => ?_⟩
  · rw [State.run_dev, Dev.settle_whl, odometerEdge_moves s.dev a b hodo hone]
    exact congrArg (fun e => e.whl) (Dev.foldl_strandOnly_rest _ honly _ (s.dev.moveW6 a b))
  · intro c hmode hact honce hdir hcross harmed hnew hm hl hocc
    obtain ⟨hbusy, hidle⟩ := (Strand.occupied_eq_false _).1 hocc
    obtain ⟨e, he, hwalk⟩ := Dev.foldl_strandOnly _ honly _ ((s.dev.moveW6 a b).nodup_modeStrands 3) n (s.dev.moveW6 a b)
    have hstrand : e.strands[n] = s.dev.strands[n] := he.strand
    have hcapture : e.capture n.val = s.dev.capture n.val := he.capture_eq n.val
    have hpos : e.whl.w6.pos = w1.pos := congrArg (fun x => x.w6.pos) he.whl_eq
    have hw0 : e.w0 = s.dev.w0 := he.w0_eq
    have hfire : (e.crossMarks w.pos n).strands[n] = ((s.dev.strands[n]).fire c k).arm
        ⟨s.dev.w0, s.dev.w0 + 100000, false, some (c.markUm k), true, 0⟩ := by
      rw [e.crossMarks_one n w.pos k (by rw [hcapture]; exact honce) (by rw [hcapture, hpos]; exact hdir)
        (by rw [hcapture, hpos]; exact hcross) (by rw [hstrand]; exact harmed),
        e.fireMark_free n k (by rw [hstrand]; exact hnew) (by rw [he.mode_eq]; exact hm) (by rw [he.locked]; exact hl)
          (by rw [hstrand]; exact hbusy), hstrand, hcapture, hw0]
    rw [State.run_dev, Dev.settle_strands, odometerEdge_moves s.dev a b hodo hone, hwalk,
      if_pos (((s.dev.moveW6 a b).mem_modeStrands 3 n).2 ⟨hmode, hact⟩), hfire]
    exact ⟨rfl, if_pos honce, Strand.arm_free _ _ hidle⟩

/-! ### ODO_Z and the commit of a predicted mark (R177, R446) -/

theorem exec_odoZEdge (s : State) (hodo : s.dev.whl.cfg.odoEnabled = true) :
    ∃ t, exec .odoZEdge s = .next t ∧ t.mem = s.mem ∧
      t.dev.whl = { s.dev.whl with w6 := { s.dev.whl.w6 with z := s.dev.whl.w6.pos, index := satAdd s.dev.whl.w6.index 1 } } ∧
      { t.dev.unreport s.dev with whl := s.dev.whl } = s.dev := by
  refine ⟨s.run odoZEdge, rfl, rfl, ?_⟩
  rw [State.run_dev, Dev.settle_whl, Dev.unreport_settle, odoZEdge, if_pos hodo]
  exact ⟨rfl, s.dev.onWhl_unreport _⟩

/-- A mark whose predicted time is below 1 ms gets its TRIGGER for that time, or 100 us ahead where it is nearer. -/
theorem markCommit_near (d : Dev) (n : StrandNo) (k dist : Int) (hmode : (d.capture n.val).mode = 3) (hact : d.active n = true)
    (hm : d.sys.mode ≠ .shutdown) (hl : d.timerLocked n = true) (hnext : d.nextMark n = some (k, dist)) :
    let dt := (dist * 1000000000 / (d.whl.w6.velocity d.whl.tim).natAbs).toNat
    let slave := d.w0 + (if dt < 100000 then 100000 else dt)
    dt < 1000000 →
    markCommit n d = (d.sendTrigger n ⟨slave, slave, false, some ((d.capture n.val).markUm k), decide (dt < 100000), 0⟩).onStrand n
      fun g => { g with committed := k :: g.committed } := by
  intro dt slave hdt
  have hready : ¬ ((d.capture n.val).mode ≠ 3 ∨ !d.active n ∨ d.sys.mode = .shutdown ∨ !d.timerLocked n) := by
    simp [hmode, hact, hm, hl]
  simp only [markCommit, if_neg hready, hnext, decide_eq_true_eq]
  exact if_neg (Nat.not_le.2 hdt)

/-- Settles O36: each kind of edge and the commit of a mark is one of the lemmas above. -/
theorem triggersAndMarks : Obligations.TriggersAndMarks := by
  intro s
  refine ⟨exec_trigInEdge s, fun a b hodo => ⟨exec_odometerEdge_error s a b hodo, exec_odometerEdge_moves s a b hodo⟩,
    exec_odoZEdge s, fun n k dist hmode hact hm hl hnext => ?_⟩
  intro dt slave hdt
  have hrun := markCommit_near s.dev n k dist hmode hact hm hl hnext hdt
  have honly : Dev.StrandOnly n s.dev (markCommit n s.dev) := by
    rw [hrun]
    exact ((Dev.StrandOnly.refl n s.dev).sendTrigger _).onStrand _
  refine ⟨s.run (markCommit n), rfl, rfl, ?_⟩
  rw [State.run_dev, Dev.settle_strands]
  refine ⟨?_, ?_, honly.others, honly.settle_rest⟩
  all_goals rw [hrun, Dev.onStrand_strand_same, Dev.sendTrigger_strands, upd_same]
  all_goals rfl

end Sys2Proof.Machine
end

section
/-! SUPPORT. Exposure requests of the sink (spec/05_strands_exposure.md R180 to R187, R633): how a request is judged, and what an
accepted one leaves. -/

namespace Sys2Proof.Machine

/-! ### Reports (R189) -/

section
variable (d : Dev) (n : StrandNo) (r : ExpReq) (code : Byte)

theorem Dev.reportTarget_rest : { d.reportTarget n r code with ports := d.ports, ply := d.ply } = d := by
  unfold Dev.reportTarget Dev.reportReq
  split_ifs <;> rfl

/-- The results that a report adds for the sink: core 0's go to its own queue. -/
def ExpReq.sinkResults (r : ExpReq) (n : StrandNo) (code : Byte) : List (Nat × Byte × Word × Word) :=
  if r.internal then [] else [(n.val, code, r.named, r.target)]

theorem Dev.reportTarget_results : (d.reportTarget n r code).ply.results = d.ply.results ++ r.sinkResults n code := by
  unfold Dev.reportTarget Dev.reportReq ExpReq.sinkResults
  split_ifs
  · exact (List.append_nil _).symm
  · rfl

end

/-- A request that another one replaces is reported (R187). -/
theorem Dev.foldl_reportTarget_results (d : Dev) (n : StrandNo) (code : Byte) (rs : List ExpReq) :
    (rs.foldl (fun e x => e.reportTarget n x code) d).ply.results =
      d.ply.results ++ (rs.filter fun x => !x.internal).map fun x => (n.val, code, x.named, x.target) := by
  induction rs generalizing d with
  | nil => exact (List.append_nil _).symm
  | cons r rs ih =>
    rw [List.foldl_cons, ih, Dev.reportTarget_results, List.append_assoc, ExpReq.sinkResults]
    cases hr : r.internal
    · simp only [Bool.false_eq_true, if_false, List.filter_cons, hr, Bool.not_false, if_true, List.map_cons, List.cons_append,
        List.nil_append]
    · simp only [if_true, List.filter_cons, hr, Bool.not_true, Bool.false_eq_true, if_false, List.nil_append]

theorem Dev.foldl_reportTarget_rest (d : Dev) (n : StrandNo) (code : Byte) (rs : List ExpReq) :
    { rs.foldl (fun e x => e.reportTarget n x code) d with ports := d.ports, ply := d.ply } = d :=
  Dev.foldl_view (fun e : Dev => { e with ports := d.ports, ply := d.ply }) (fun e x => e.reportTarget n x code)
    (fun e x => congrArg (fun y : Dev => { y with ports := d.ports, ply := d.ply }) (e.reportTarget_rest n x code)) rs d

/-! ### The write window (R182 to R184) -/

/-- What the write windows of strand `n` depend on. -/
def Dev.windowView (n : StrandNo) (d : Dev) : Option Image × Whl × List Frame × List Nat × Word × Nat :=
  (d.img, d.whl, (d.strands[n]).frames, (d.strands[n]).starts, (d.strands[n]).frameNo, (d.strands[n]).rowSpan)

theorem Dev.window_congr {n : StrandNo} {d e : Dev} (h : e.windowView n = d.windowView n) :
    e.targetFor n = d.targetFor n ∧ e.windowOpens n = d.windowOpens n ∧ e.latency n = d.latency n ∧ e.w0 = d.w0 := by
  simp only [Dev.windowView, Prod.mk.injEq] at h
  obtain ⟨himg, hwhl, hframes, hstarts, hframeNo, hrowSpan⟩ := h
  have hprofile : e.profile n.val = d.profile n.val := by rw [Dev.profile, himg, Dev.profile]
  have hperiod : e.periodOf n = d.periodOf n := by simp only [Dev.periodOf, hstarts, hprofile]
  have hrow : e.rowTime n = d.rowTime n := by simp only [Dev.rowTime, hrowSpan, hprofile]
  have hw0 : e.w0 = d.w0 := by rw [Dev.w0, hwhl, Dev.w0]
  have hlatency : e.latency n = d.latency n := by rw [Dev.latency, hprofile, Dev.latency]
  have hstart : e.startOf n = d.startOf n := by
    funext f
    simp only [Dev.startOf, hframes, hstarts, hframeNo, hperiod, hw0]
  have hcloses : e.windowCloses n = d.windowCloses n := by
    funext f
    rw [Dev.windowCloses, hstart, hprofile, hrow, Dev.windowCloses]
  refine ⟨?_, ?_, hlatency, hw0⟩
  · funext f
    simp only [Dev.targetFor, hcloses, hlatency, hw0, hframeNo, hperiod]
  · funext f
    rw [Dev.windowOpens, hstart, hprofile, hrow, Dev.windowOpens]

/-! ### Writes (R188) -/

/-- The newest frame alone is refreshed. -/
theorem Strand.refreshOpen_frame (g : Strand) (e : Nat) : { g.refreshOpen e with frames := g.frames } = g := by
  unfold Strand.refreshOpen
  split
  · split_ifs <;> rfl
  · rfl

/-- The strand with the write sequence of a request sent: its values are in the write log. -/
def Strand.logWrite (g : Strand) (id e : Nat) (r : ExpReq) : Strand :=
  ({ g with
    writeLog := ⟨r.target, r.entries.map (Config.sensorRound id), r.retargeted, !r.internal, true⟩ :: g.writeLog,
    pending := g.pending.map fun x => if x = r then { x with sent := true } else x }).refreshOpen e

theorem Dev.sendWrite_eq (d : Dev) (n : StrandNo) (r : ExpReq) :
    d.sendWrite n r = (d.bcSend (portOf n) (.expWrite (slotOf n) r.target r.entries)).onStrand n fun g =>
      g.logWrite (d.profile n.val).id (d.expCount n) r := rfl

theorem Strand.logWrite_pending (g : Strand) (id e : Nat) (r : ExpReq) :
    (g.logWrite id e r).pending = g.pending.map fun x => if x = r then { x with sent := true } else x :=
  congrArg (fun x => x.pending) (Strand.refreshOpen_frame _ e)

theorem Strand.logWrite_requested (g : Strand) (id e : Nat) (r : ExpReq) : (g.logWrite id e r).requested = g.requested :=
  congrArg (fun x => x.requested) (Strand.refreshOpen_frame _ e)

/-! ### A new request is judged (R184, R186, R187) -/

/-- The request as it is judged: with the frame it targets. -/
def Dev.judged (d : Dev) (n : StrandNo) (r : ExpReq) : ExpReq :=
  { r with target := (d.targetFor n r.target).1, retargeted := r.retargeted || (d.targetFor n r.target).2, sent := false, judged := true }

/-- The report of a judged request: RETARGETED, CLAMPED. -/
def Dev.judgedCode (d : Dev) (n : StrandNo) (r : ExpReq) : Byte :=
  (if (d.targetFor n r.target).2 then 1 else 0) + (if r.clamped then 0x80 else 0)

/-- The strand with a judged request pending in place of the earlier ones of its target. -/
def Strand.addPending (g : Strand) (r : ExpReq) : Strand :=
  { g with pending := (g.pending.filter fun x => decide (x.target ≠ r.target)) ++ [r] }

/-- The registers in which a new request is judged, before its writes go out. -/
def Dev.enlist (d : Dev) (n : StrandNo) (r : ExpReq) : Dev :=
  let old := (d.strands[n]).pending.filter fun x => decide (x.target = (d.judged n r).target)
  ((old.foldl (fun e x => e.reportTarget n x 2) d).onStrand n fun g => g.addPending (d.judged n r)).reportTarget n (d.judged n r)
    (d.judgedCode n r)

theorem Dev.enlist_results (d : Dev) (n : StrandNo) (r : ExpReq) :
    (d.enlist n r).ply.results = d.ply.results ++
      ((d.strands[n]).pending.filter fun y => decide (y.target = (d.judged n r).target) && !y.internal).map
        (fun y => (n.val, 2, y.named, y.target)) ++ (d.judged n r).sinkResults n (d.judgedCode n r) := by
  rw [Dev.enlist, Dev.reportTarget_results, Dev.onStrand_ply, Dev.foldl_reportTarget_results, List.filter_filter]
  simp only [Bool.and_comm]

/-- Judging a request changes the pending list of its strand, and what is reported. -/
theorem Dev.enlist_rest (d : Dev) (n : StrandNo) (r : ExpReq) :
    { d.enlist n r with ports := d.ports, ply := d.ply } = d.onStrand n fun g => g.addPending (d.judged n r) := by
  have hold := d.foldl_reportTarget_rest n 2 ((d.strands[n]).pending.filter fun x => decide (x.target = (d.judged n r).target))
  rw [Dev.enlist]
  refine .trans ?_ (congrArg (fun e : Dev => e.onStrand n fun g => g.addPending (d.judged n r)) hold)
  exact congrArg (fun e : Dev => { e with ports := d.ports, ply := d.ply }) (Dev.reportTarget_rest _ n (d.judged n r) (d.judgedCode n r))

theorem Dev.enlist_strands (d : Dev) (n : StrandNo) (r : ExpReq) :
    (d.enlist n r).strands = upd d.strands n fun g => g.addPending (d.judged n r) :=
  congrArg (fun e => e.strands) (d.enlist_rest n r)

theorem Dev.enlist_windowView (d : Dev) (n : StrandNo) (r : ExpReq) : (d.enlist n r).windowView n = d.windowView n := by
  have hrest := congrArg (Dev.windowView n) (d.enlist_rest n r)
  refine Eq.trans (show (d.enlist n r).windowView n = _ from hrest) ?_
  simp only [Dev.windowView, Dev.onStrand_strand_same]
  rfl

/-- A new request is judged and reported, and its writes go out where the window of its target is open. -/
theorem Dev.judgeReq_new (d : Dev) (n : StrandNo) (r : ExpReq) (hnew : r.judged = false) :
    d.judgeReq n r =
      if d.windowOpens n ((d.judged n r).target - d.latency n) ≤ (d.w0 : Int) then (d.enlist n r).sendWrite n (d.judged n r)
      else d.enlist n r := by
  obtain ⟨-, hopens, hlatency, hw0⟩ := Dev.window_congr (d.enlist_windowView n r)
  unfold Dev.judgeReq
  extract_lets t r1 code old d1 d1' d2
  have hd2 : d2 = d.enlist n r := by
    simp only [d2, hnew, Bool.false_and, Bool.false_eq_true, if_false]
    rfl
  rw [hd2, hopens, hlatency, hw0]
  rfl

/-- The writes of a pending request go out: it alone is marked. -/
theorem Strand.addPending_logWrite (g : Strand) (id e : Nat) (r : ExpReq) :
    ((g.addPending r).logWrite id e r).pending = (g.pending.filter fun x => decide (x.target ≠ r.target)) ++ [{ r with sent := true }] := by
  have hothers : ∀ x ∈ g.pending.filter (fun x => decide (x.target ≠ r.target)), (if x = r then { x with sent := true } else x) = x := by
    intro x hx
    have hne : x.target ≠ r.target := by simpa using (List.mem_filter.1 hx).2
    exact if_neg fun heq => hne (congrArg (fun y => y.target) heq)
  rw [Strand.logWrite_pending, Strand.addPending, List.map_append, List.map_congr_left hothers, List.map_id', List.map_singleton,
    if_pos rfl]

/-- The request as it waits once it is judged: sent where the window of its target is open. -/
def Dev.pendingReq (d : Dev) (n : StrandNo) (r : ExpReq) : ExpReq :=
  { d.judged n r with sent := decide (d.windowOpens n ((d.judged n r).target - d.latency n) ≤ (d.w0 : Int)) }

section
variable (d : Dev) (n : StrandNo) (r : ExpReq) (hnew : r.judged = false)
include hnew

theorem Dev.judgeReq_pending :
    ((d.judgeReq n r).strands[n]).pending =
      ((d.strands[n]).pending.filter fun x => decide (x.target ≠ (d.judged n r).target)) ++ [d.pendingReq n r] := by
  have henlist : (d.enlist n r).strands[n] = (d.strands[n]).addPending (d.judged n r) := by rw [d.enlist_strands n r, upd_same]
  rw [d.judgeReq_new n r hnew, Dev.pendingReq]
  split_ifs with hopen
  · have hsend : ((d.enlist n r).bcSend (portOf n) (.expWrite (slotOf n) (d.judged n r).target (d.judged n r).entries)).strands[n] =
        (d.strands[n]).addPending (d.judged n r) := henlist
    rw [Dev.sendWrite_eq, Dev.onStrand_strand_same, hsend, Strand.addPending_logWrite, decide_eq_true hopen]
  · rw [henlist, decide_eq_false hopen]
    rfl

theorem Dev.judgeReq_requested : ((d.judgeReq n r).strands[n]).requested = (d.strands[n]).requested := by
  have henlist : ((d.enlist n r).strands[n]).requested = (d.strands[n]).requested := by
    rw [d.enlist_strands n r, upd_same]
    rfl
  rw [d.judgeReq_new n r hnew]
  split_ifs
  · rw [Dev.sendWrite_eq, Dev.onStrand_strand_same, Strand.logWrite_requested]
    exact henlist
  · exact henlist

theorem Dev.judgeReq_results :
    (d.judgeReq n r).ply.results = d.ply.results ++
      ((d.strands[n]).pending.filter fun y => decide (y.target = (d.judged n r).target) && !y.internal).map
        (fun y => (n.val, 2, y.named, y.target)) ++ (d.judged n r).sinkResults n (d.judgedCode n r) := by
  rw [← d.enlist_results n r, d.judgeReq_new n r hnew]
  split_ifs
  · rfl
  · rfl

end

/-! ### An arriving request (R181, R185, R186, R633) -/

section
variable {d : Dev} {n : StrandNo} {internal : Bool} (tag : Half) {f : Word} {named : List (Nat × Exposure)} {i : Image} (hi : d.img = some i)
include hi

/-- The owner of the exposure is the other one. -/
theorem Dev.arrive_owner (ho : i.sinkOwner = internal) : d.arrive n internal tag f named = d.reportReq n internal tag 4 f f := by
  simp only [Dev.arrive, hi, if_pos ho]

/-- The request that is accepted. -/
def Dev.expRequest (d : Dev) (n : StrandNo) (internal : Bool) (tag : Half) (f : Word) (named : List (Nat × Exposure)) : ExpReq :=
  ⟨internal, tag, f, f, (d.namedValues n named).1, (d.namedValues n named).2, false, false, false⟩

/-- What becomes of it: before the first frame it is held, else it is judged. -/
def Dev.acceptReq (d : Dev) (n : StrandNo) (r : ExpReq) : Dev :=
  let e := d.onStrand n fun g => { g with requested := r.entries }
  if (d.strands[n]).windowless then e.onStrand n fun g => { g with heldReqs := g.heldReqs ++ [r] } else e.judgeReq n r

/-- The owner's request that names a value is rejected for an inactive strand, a far frame or one target too many. -/
theorem Dev.arrive_owned (ho : i.sinkOwner = !internal) (hnamed : named ≠ []) :
    d.arrive n internal tag f named =
      if d.active n = false then d.reportReq n internal tag 8 f f
      else if later f (d.strands[n]).frameNo = true ∧ 64 < (f - (d.strands[n]).frameNo).toNat then d.reportReq n internal tag 5 f f
      else if 8 ≤ (d.strands[n]).targets then d.reportReq n internal tag 6 f f
      else d.acceptReq n (d.expRequest n internal tag f named) := by
  have ho' : ¬ i.sinkOwner = internal := by rw [ho]; cases internal <;> decide
  have hnamed' : ¬ named.isEmpty = true := by simpa using hnamed
  simp only [Dev.arrive, hi, if_neg ho', if_neg hnamed', Bool.not_eq_true']
  rfl

end

/-! ### EXPOSURE_REQ -/

/-- The strand with no assembly of frame `frame` (R181). -/
def Strand.closeAssembly (g : Strand) (frame : Word) : Strand := { g with assembly := g.assembly.filter fun x => decide (x.1 ≠ frame) }

section
variable {d : Dev} {n : StrandNo} {index : Fin 4} {frame : Word} {e : Exposure} (hcheck : d.tst.rlCheck = none)
include hcheck

theorem exposureReq_waits :
    exposureReq n index false frame e d = d.onStrand n fun g =>
      { g with assembly := assocSet g.assembly frame (assocGet (d.strands[n]).assembly frame [] ++ [(index.val, e)]) } := by
  simp only [exposureReq, hcheck, Option.isSome_none, Bool.false_eq_true, if_false]

theorem exposureReq_arrives :
    exposureReq n index true frame e d = (d.onStrand n fun g => g.closeAssembly frame).arrive n false 0 frame
      (assocGet (d.strands[n]).assembly frame [] ++ [(index.val, e)]) := by
  simp only [exposureReq, hcheck, Option.isSome_none, Bool.false_eq_true, if_false, if_true]
  rfl

end

/-- The values that a request names depend on those requested last (R181, R186). -/
theorem Dev.namedValues_closeAssembly (d : Dev) (n : StrandNo) (frame : Word) (named : List (Nat × Exposure)) :
    (d.onStrand n fun g => g.closeAssembly frame).namedValues n named = d.namedValues n named := by
  have hreq : ((d.onStrand n fun g => g.closeAssembly frame).strands[n]).requested = (d.strands[n]).requested := by
    rw [Dev.onStrand_strand_same]
    rfl
  rw [Dev.namedValues, hreq]
  rfl

/-- An effect on one strand and the ply link leaves the rest of the registers. -/
theorem Dev.onStrand_onPly_unreport (d : Dev) (n : StrandNo) (f : Strand → Strand) (g : Ply → Ply) :
    { ((d.onStrand n f).onPly g).unreport d with strands := d.strands, ply := d.ply } = d := by
  dsimp only [Dev.unreport, Dev.onStrand, Dev.onPly]

/-- A rejected request is reported with its code, and its assembly is closed. -/
theorem rejects_exposureReq (s : State) (n : StrandNo) (index : Fin 4) (frame : Word) (e : Exposure) (code : Byte)
    (h : exposureReq n index true frame e s.dev =
      (s.dev.onStrand n fun g => g.closeAssembly frame).reportReq n false 0 code frame frame) :
    ∃ t, exec (.exposureReq n index true frame e) s = .next t ∧ t.mem = s.mem ∧
      t.dev.ply = { s.dev.ply with results := s.dev.ply.results ++ [(n.val, code, frame, frame)] } ∧
      t.dev.strands = upd s.dev.strands n (fun g => g.closeAssembly frame) ∧
      { t.dev.unreport s.dev with strands := s.dev.strands, ply := s.dev.ply } = s.dev := by
  refine ⟨s.run (exposureReq n index true frame e), rfl, rfl, ?_⟩
  rw [State.run_dev, Dev.settle_ply, Dev.settle_strands, Dev.unreport_settle, h]
  exact ⟨rfl, rfl, s.dev.onStrand_onPly_unreport n _ _⟩

/-- A request of the sink that is judged at once: it waits alone in its target, and is reported after those that it replaces. -/
theorem Dev.judgeReq_ofSink (d : Dev) (n : StrandNo) (frame : Word) (es : List Exposure) (clamped : Bool) :
    let r : ExpReq := ⟨false, 0, frame, frame, es, clamped, false, false, false⟩
    let x := d.targetFor n frame
    ∃ r' : ExpReq, r' ∈ ((d.judgeReq n r).strands[n]).pending ∧ r'.target = x.1 ∧ r'.retargeted = x.2 ∧ r'.entries = es ∧
      (∀ y ∈ ((d.judgeReq n r).strands[n]).pending, y.target = x.1 → y = r') ∧
      r'.sent = decide (d.windowOpens n (x.1 - d.latency n) ≤ (d.w0 : Int)) ∧
      (d.judgeReq n r).ply.results = d.ply.results ++
        (((d.strands[n]).pending.filter fun y => decide (y.target = x.1) && !y.internal).map fun y => (n.val, 2, y.named, y.target)) ++
        [(n.val, (if x.2 then 1 else 0) + (if clamped then 0x80 else 0), frame, x.1)] := by
  intro r x
  have hpending := d.judgeReq_pending n r rfl
  refine ⟨d.pendingReq n r, ?_, rfl, Bool.false_or _, rfl, fun y hy htarget => ?_, rfl, d.judgeReq_results n r rfl⟩
  · rw [hpending]
    exact List.mem_append_right _ (List.mem_singleton_self _)
  · rw [hpending] at hy
    rcases List.mem_append.1 hy with hother | hsame
    · have hne : y.target ≠ (d.judged n r).target := by simpa using (List.mem_filter.1 hother).2
      exact absurd htarget hne
    · exact List.mem_singleton.1 hsame

/-- The registers in which an accepted request of the sink is judged or held. -/
def Dev.takeNamed (d : Dev) (n : StrandNo) (frame : Word) (es : List Exposure) : Dev :=
  d.onStrand n fun g => { g.closeAssembly frame with requested := es }

theorem Dev.takeNamed_window (d : Dev) (n : StrandNo) (frame : Word) (es : List Exposure) :
    (d.takeNamed n frame es).windowView n = d.windowView n := by
  simp only [Dev.windowView, Dev.takeNamed, Dev.onStrand_strand_same]
  rfl

theorem Dev.acceptReq_ofSink (d : Dev) (n : StrandNo) (frame : Word) (all : List (Nat × Exposure)) :
    (d.onStrand n fun g => g.closeAssembly frame).acceptReq n
        ((d.onStrand n fun g => g.closeAssembly frame).expRequest n false 0 frame all) =
      let v := d.namedValues n all
      let r : ExpReq := ⟨false, 0, frame, frame, v.1, v.2, false, false, false⟩
      if (d.strands[n]).windowless then (d.takeNamed n frame v.1).onStrand n fun g => { g with heldReqs := g.heldReqs ++ [r] }
      else (d.takeNamed n frame v.1).judgeReq n r := by
  have hnamed : (d.onStrand n fun g => g.closeAssembly frame).onStrand n
      (fun g => { g with requested := (d.namedValues n all).1 }) = d.takeNamed n frame (d.namedValues n all).1 :=
    d.onStrand_onStrand n _ _
  rw [Dev.acceptReq, Dev.expRequest, Dev.namedValues_closeAssembly, Dev.onStrand_strand_same]
  dsimp only
  rw [hnamed]
  rfl

/-- Settles O33: a request is judged by `Dev.arrive_owner` and `Dev.arrive_owned`, and what an accepted one leaves is said above. -/
theorem sinkExposureRequests : Obligations.SinkExposureRequests := by
  intro s n index frame e i hcheck hi g all rest far
  have harrives := exposureReq_arrives (n := n) (index := index) (frame := frame) (e := e) hcheck
  have hclosed : (s.dev.onStrand n fun g => g.closeAssembly frame).strands[n] = g.closeAssembly frame :=
    s.dev.onStrand_strand_same n _
  have hall : all ≠ [] := by simp [all]
  have howned := fun ho : i.sinkOwner = true =>
    harrives.trans (Dev.arrive_owned (d := s.dev.onStrand n fun g => g.closeAssembly frame) (internal := false) 0 (f := frame) hi ho hall)
  rw [hclosed] at howned
  refine ⟨?_, fun code hcode => ?_, fun ho ha hnear hroom => ?_⟩
  · refine ⟨s.run (exposureReq n index false frame e), rfl, rfl, ?_⟩
    rw [State.run_dev, Dev.settle_strands, Dev.unreport_settle, exposureReq_waits hcheck]
    exact ⟨rfl, s.dev.onStrand_unreport n _⟩
  · refine rejects_exposureReq s n index frame e code ?_
    rcases hcode with ⟨ho, rfl⟩ | ⟨ho, ha, rfl⟩ | ⟨ho, ha, hfar, rfl⟩ | ⟨ho, ha, hnear, hfull, rfl⟩
    · exact harrives.trans (Dev.arrive_owner 0 hi ho)
    · exact (howned ho).trans (if_pos ha)
    · exact (howned ho).trans ((if_neg (ne_false_of_eq_true ha)).trans (if_pos hfar))
    · exact (howned ho).trans ((if_neg (ne_false_of_eq_true ha)).trans ((if_neg hnear).trans (if_pos hfull)))
  · have hrun : exposureReq n index true frame e s.dev = _ :=
      (howned ho).trans ((if_neg (ne_false_of_eq_true ha)).trans ((if_neg hnear).trans ((if_neg (Nat.not_le.2 hroom)).trans
        (s.dev.acceptReq_ofSink n frame all))))
    intro v
    refine ⟨fun hwindow => ?_, fun hwindow => ?_⟩
    · rw [if_pos hwindow] at hrun
      refine ⟨s.run (exposureReq n index true frame e), rfl, rfl, ?_⟩
      rw [State.run_dev, Dev.settle_strands, Dev.unreport_settle, hrun, Dev.takeNamed, Dev.onStrand_onStrand]
      exact ⟨rfl, s.dev.onStrand_unreport n _⟩
    · intro x code
      rw [if_neg (ne_true_of_eq_false hwindow)] at hrun
      obtain ⟨htarget, hopens, hlatency, hw0⟩ := Dev.window_congr (s.dev.takeNamed_window n frame v.1)
      have hstrand : (s.dev.takeNamed n frame v.1).strands[n] = { g.closeAssembly frame with requested := v.1 } :=
        s.dev.onStrand_strand_same n _
      have hrequested := (s.dev.takeNamed n frame v.1).judgeReq_requested n ⟨false, 0, frame, frame, v.1, v.2, false, false, false⟩ rfl
      obtain ⟨r, hjudged⟩ := (s.dev.takeNamed n frame v.1).judgeReq_ofSink n frame v.1 v.2
      rw [hstrand] at hrequested hjudged
      rw [htarget, hopens, hlatency, hw0] at hjudged
      obtain ⟨hmem, htarget, hretargeted, hentries, halone, hsent, hresults⟩ := hjudged
      refine ⟨s.run (exposureReq n index true frame e), r, rfl, rfl, ?_⟩
      rw [State.run_dev, Dev.settle_strands, Dev.settle_ply, hrun]
      exact ⟨hrequested, hmem, htarget, hretargeted, hentries, halone, hsent, hresults⟩

end Sys2Proof.Machine
end

section
/-! SUPPORT. Requests of core 0, the write window and the assembly timeout (spec/05_strands_exposure.md R181, R188, R189; 18 R636). -/

namespace Sys2Proof.Machine

/-! ### EXPOSURE_REQUEST_GO (R636) -/

theorem portOf_strandOf (p : PortNo) (k : Nat) (h : k < 4) : portOf (strandOf (4 * p.val + k)) = p := by
  have hp := p.isLt
  apply Fin.ext
  simp only [portOf, strandOf, Fin.ofNat_eq_cast, Fin.val_natCast]
  omega

/-- A result goes to core 0's queue while it holds fewer than 32. -/
theorem Dev.reportReq_core (d : Dev) (p : PortNo) (n : StrandNo) (tag : Half) (code : Byte) (named frame : Word) (hp : portOf n = p)
    (hroom : (d.ports[p]).results.length < 32) :
    d.reportReq n true tag code named frame = d.onPort p fun x => { x with results := x.results ++ [⟨tag, code, frame⟩] } := by
  subst hp
  exact d.onPort_congr _ _ _ (if_pos hroom)

/-- Before the first frame an accepted request is held (R633). -/
theorem Dev.acceptReq_held (d : Dev) (n : StrandNo) (r : ExpReq) (h : (d.strands[n]).windowless = true) :
    d.acceptReq n r = d.onStrand n fun g => { g with requested := r.entries, heldReqs := g.heldReqs ++ [r] } :=
  (if_pos h).trans (d.onStrand_onStrand n _ _)

/-- An effect on one port, on one strand, leaves the rest behind an access. -/
theorem Dev.onPort_unaccess (d : Dev) (p : PortNo) (f : Port → Port) : { (d.onPort p f).unaccess d with ports := d.ports } = d := by
  dsimp only [Dev.unaccess, Dev.unreport, Dev.onPort]

theorem Dev.onStrand_unaccess (d : Dev) (n : StrandNo) (f : Strand → Strand) :
    { (d.onStrand n f).unaccess d with strands := d.strands } = d := by
  dsimp only [Dev.unaccess, Dev.unreport, Dev.onStrand]

section
variable (s : State) (a : Access) (p : PortNo) (v : Word)

/-- The access of core 0 that posts the request. -/
def Posts (s : State) (a : Access) (p : PortNo) (v : Word) (e : Dev) : Prop :=
  ∃ t, exec (.exposureRequestGo a p v) s = .next t ∧ t.mem = s.mem ∧ t.dev.ports = e.ports ∧ t.dev.strands = e.strands ∧
    t.dev.unaccess s.dev = e.unaccess s.dev

/-- The strand that the request registers of a port name. -/
def Dev.goStrand (d : Dev) (p : PortNo) : StrandNo := strandOf (4 * p.val + (d.ports[p]).reqCtl.toNat % 4)

/-- GO of core 0 posts the request that the registers hold. -/
theorem posts_exposureRequestGo (hacc : s.dev.accepts a (regAddr (0x100068 + 0x10000 * p.val)) v = true) (hcore : a.master = .core 0)
    (hgo : v.getLsbD 0 = true) :
    Posts s a p v (s.dev.arrive (s.dev.goStrand p) true (BitVec.ofNat 16 ((s.dev.ports[p]).reqCtl.toNat / 65536))
      (s.dev.ports[p]).reqTarget (s.dev.ports[p]).regEntries) := by
  refine ⟨s.run (exposureRequestGo a p v), rfl, rfl, ?_⟩
  rw [State.run_dev, Dev.settle_ports, Dev.settle_strands, Dev.unaccess_settle, exposureRequestGo, Dev.write_ports, Dev.write_strands,
    Dev.write_accepted _ _ _ _ _ _ _ _ hacc, if_pos hacc, if_pos hacc, if_pos hcore, if_pos hgo]
  exact ⟨rfl, rfl, rfl⟩

/-- Another master's write is refused. -/
theorem exec_exposureRequestGo_foreign (hmaster : a.master ≠ .core 0) :
    ∃ t, exec (.exposureRequestGo a p v) s = .next t ∧ t.mem = s.mem ∧ t.dev.unaccess s.dev = s.dev ∧
      t.dev.bus.answer = some ⟨a.master, 2, 0, 0⟩ := by
  have hrefuse : exposureRequestGo a p v s.dev =
      s.dev.write a (regAddr (0x100068 + 0x10000 * p.val)) 4 v true fun e => (e, Res.addrErr) := by
    simp only [exposureRequestGo, if_neg hmaster]
  obtain ⟨hanswer, hrest⟩ := Dev.refusedBy_settle a s.dev _
    (Dev.write_addrErr s.dev a (regAddr (0x100068 + 0x10000 * p.val)) 4 v true)
  refine ⟨s.run (exposureRequestGo a p v), rfl, rfl, ?_⟩
  rw [State.run_dev, hrefuse]
  exact ⟨hrest, hanswer⟩

end

/-! ### Results, write windows and assemblies (R181, R188, R189) -/

/-- The oldest result is popped, and its frame latched for the master. -/
theorem Dev.popExpRes_cons (d : Dev) (m : Master) (p : PortNo) (r : ExpResult) (l : List ExpResult) (h : (d.ports[p]).results = r :: l) :
    d.popExpRes m p =
      ((d.onPort p fun x => { x with results := l, resultOvf := false }).onBus fun b =>
        { b with expFrame := (m, p.val, r.frame) :: b.expFrame.filter fun y => !(decide (y.1 = m) && decide (y.2.1 = p.val)) },
       0x80000000 ||| (if (d.ports[p]).resultOvf then 0x40000000 else 0) ||| BitVec.ofNat 32 (r.code.toNat * 65536 + r.tag.toNat)) := by
  simp only [Dev.popExpRes, h]

theorem Dev.onPort_onBus_rest (d : Dev) (p : PortNo) (f : Port → Port) (g : Bus → Bus) :
    { ((d.onPort p f).onBus g).unaccess d with ports := d.ports, bus := d.bus } = d := by
  dsimp only [Dev.unaccess, Dev.unreport, Dev.onPort, Dev.onBus]

theorem exec_crlExpresPop (s : State) (a : Access) (p : PortNo) (r : ExpResult) (l : List ExpResult) (hr : s.dev.released = true)
    (hresults : (s.dev.ports[p]).results = r :: l) :
    ∃ t, exec (.crlExpresPop a p) s = .next t ∧ t.mem = s.mem ∧
      t.dev.ports = upd s.dev.ports p (fun y => { y with results := l, resultOvf := false }) ∧
      t.dev.bus.expFrame.head? = some (a.master, p.val, r.frame) ∧
      t.dev.bus.answer = some ⟨a.master, 0, 0, ((0x80000000 ||| (if (s.dev.ports[p]).resultOvf then 0x40000000 else 0) |||
        BitVec.ofNat 32 (r.code.toNat * 65536 + r.tag.toNat) : Word)).zeroExtend 64⟩ ∧
      { t.dev.unaccess s.dev with ports := s.dev.ports, bus := s.dev.bus } = s.dev := by
  refine ⟨s.run (crlExpresPop a p), rfl, rfl, ?_⟩
  rw [State.run_dev, Dev.settle_ports, Dev.settle_bus, Dev.unaccess_settle, crlExpresPop, if_pos hr,
    s.dev.popExpRes_cons a.master p r l hresults, Dev.unaccess_answer, Dev.answer_answer, Dev.answer_ports]
  exact ⟨rfl, rfl, rfl, s.dev.onPort_onBus_rest p _ _⟩

theorem exec_writeWindowOpen (s : State) (n : StrandNo) (frame : Word) (r : ExpReq)
    (hr : ((s.dev.strands[n]).pending.find? fun y => decide (y.target = frame) && !y.sent) = some r) :
    ∃ t, exec (.writeWindowOpen n frame) s = .next t ∧ t.mem = s.mem ∧
      t.dev.strands = upd s.dev.strands n (fun g => g.logWrite (s.dev.profile n.val).id (s.dev.expCount n) r) ∧
      t.dev.ports = upd s.dev.ports (portOf n) (fun y => y.send s.dev.whl.tim (.expWrite (slotOf n) r.target r.entries)) ∧
      { t.dev.unreport s.dev with strands := s.dev.strands, ports := s.dev.ports } = s.dev := by
  have hopen : writeWindowOpen n frame s.dev = s.dev.sendWrite n r := by simp only [writeWindowOpen, hr]
  refine ⟨s.run (writeWindowOpen n frame), rfl, rfl, ?_⟩
  rw [State.run_dev, Dev.settle_strands, Dev.settle_ports, Dev.unreport_settle, hopen, Dev.sendWrite_eq]
  refine ⟨rfl, rfl, ?_⟩
  dsimp only [Dev.unreport, Dev.onStrand, Dev.bcSend, Dev.onPort]

theorem exec_exposureAssemblyTimeout (s : State) (n : StrandNo) (frame : Word)
    (hopen : ((s.dev.strands[n]).assembly.any fun y => decide (y.1 = frame)) = true) :
    ∃ t, exec (.exposureAssemblyTimeout n frame) s = .next t ∧ t.mem = s.mem ∧
      t.dev.strands = upd s.dev.strands n (fun g => g.closeAssembly frame) ∧
      t.dev.ply = { s.dev.ply with results := s.dev.ply.results ++ [(n.val, 7, frame, frame)] } ∧
      { t.dev.unreport s.dev with strands := s.dev.strands, ply := s.dev.ply } = s.dev := by
  refine ⟨s.run (exposureAssemblyTimeout n frame), rfl, rfl, ?_⟩
  rw [State.run_dev, Dev.settle_strands, Dev.settle_ply, Dev.unreport_settle, exposureAssemblyTimeout, if_pos hopen]
  exact ⟨rfl, rfl, s.dev.onStrand_onPly_unreport n _ _⟩

/-- Settles O34: GO goes through `Dev.arrive` as a request of the sink does, and the other commands are the lemmas above. -/
theorem coreRequestsAndWrites : Obligations.CoreRequestsAndWrites := by
  intro s hr
  refine ⟨fun a p v hacc => ?_, fun a p r l hresults => exec_crlExpresPop s a p r l hr hresults,
    fun n frame r hpending => exec_writeWindowOpen s n frame r hpending,
    fun n frame hopen => exec_exposureAssemblyTimeout s n frame hopen⟩
  intro x n
  have hport : portOf n = p := portOf_strandOf p _ (Nat.mod_lt _ (by decide))
  refine ⟨exec_exposureRequestGo_foreign s a p v, fun i hcore hgo hi => ?_⟩
  obtain ⟨t, hexec, hmem, hports, hstrands, hrest⟩ := posts_exposureRequestGo s a p v hacc hcore hgo
  refine ⟨fun ho hroom => ⟨t, hexec, hmem, ?_⟩, fun ho ha hwindow hnear hroom hnamed => ⟨t, hexec, hmem, ?_⟩⟩
  · have hreject := (Dev.arrive_owner (n := n) (internal := true) (BitVec.ofNat 16 (x.reqCtl.toNat / 65536))
      (f := x.reqTarget) (named := x.regEntries) hi ho).trans (s.dev.reportReq_core p n _ 4 _ _ hport hroom)
    rw [hports, hrest]
    exact ⟨congrArg (fun e => e.ports) hreject,
      (congrArg (fun e : Dev => { e.unaccess s.dev with ports := s.dev.ports }) hreject).trans (s.dev.onPort_unaccess p _)⟩
  · have haccept := (Dev.arrive_owned (n := n) (internal := true) (BitVec.ofNat 16 (x.reqCtl.toNat / 65536))
      (f := x.reqTarget) (named := x.regEntries) hi ho hnamed).trans ((if_neg (ne_false_of_eq_true ha)).trans ((if_neg hnear).trans
        ((if_neg (Nat.not_le.2 hroom)).trans (s.dev.acceptReq_held n _ hwindow))))
    rw [hstrands, hrest]
    exact ⟨congrArg (fun e => e.strands) haccept,
      (congrArg (fun e : Dev => { e.unaccess s.dev with strands := s.dev.strands }) haccept).trans (s.dev.onStrand_unaccess n _)⟩

end Sys2Proof.Machine
end

section
/-! SUPPORT. A frame opens (spec/05_strands_exposure.md R163 to R168; 09 R331, R333): what its strand, its number and its slot are, and
what the opening leaves alone. -/

namespace Sys2Proof.Machine

/-! ### A slot that is taken touches no link (09 R331, R333) -/

theorem Dev.abandonHank_linkView (d : Dev) (k : Fin 4) : (d.abandonHank k).linkView = d.linkView := by
  unfold Dev.abandonHank
  split
  · exact Dev.raise_linkView _ _ _ _
  · rfl

theorem Dev.hankLoses_linkView (d : Dev) (n : StrandNo) (num : Word) : (d.hankLoses n num).linkView = d.linkView := by
  unfold Dev.hankLoses
  extract_lets d1 d2
  have hd1 : d1.linkView = d.linkView := by
    refine Dev.foldl_view Dev.linkView _ (fun e k => ?_) _ _
    split_ifs
    · exact e.abandonHank_linkView k
    · rfl
  clear_value d1
  have hd2 : d2.linkView = d.linkView := hd1
  split_ifs
  · exact hd2
  · split
    · exact (Dev.raise_linkView _ _ _ _).trans hd2
    · exact (Dev.raise_linkView _ _ _ _).trans hd2
  · exact hd1

theorem Dev.takeSlot_linkView (d : Dev) (n : StrandNo) (f : Frame) : (d.takeSlot n f).linkView = d.linkView := by
  unfold Dev.takeSlot
  split_ifs
  · exact (Dev.hankLoses_linkView _ n f.num).trans (Dev.linkView_of_withOutput (d.failSource_withOutput d n f.num))
  · rfl

/-! ### What an opening frame leaves of links, whorls and earlier frames -/

/-- The whorls, the ring and the pins, the frames of strand `n` and the counters of its port. -/
def Dev.frameView (n : StrandNo) (d : Dev) : Whl × Skn × Pins × List Frame × CrlErrs :=
  (d.whl, d.skn, d.pins, (d.strands[n]).frames, (d.ports[portOf n]).errs)

theorem Dev.frameView_of_linkView {n : StrandNo} {d e : Dev} (h : e.linkView = d.linkView) : e.frameView n = d.frameView n :=
  congrArg (fun v => (v.1, v.2.1, v.2.2.1, (v.2.2.2.2[n]).frames, (v.2.2.2.1[portOf n]).errs)) h

theorem Dev.onStrand_frameView (d : Dev) (n : StrandNo) (f : Strand → Strand) (h : ∀ g, (f g).frames = g.frames) :
    (d.onStrand n f).frameView n = d.frameView n := by
  simp only [Dev.frameView, Dev.onStrand_strand_same, h]
  rfl

theorem Dev.reportTarget_frameView (d : Dev) (n : StrandNo) (r : ExpReq) (code : Byte) :
    (d.reportTarget n r code).frameView n = d.frameView n := by
  have hrest := congrArg (fun e => (e.whl, e.skn, e.pins, (e.strands[n]).frames)) (d.reportTarget_rest n r code)
  have herrs : ((d.reportTarget n r code).ports[portOf n]).errs = (d.ports[portOf n]).errs :=
    congrArg (fun x => x.errs) (d.reportTarget_linkSide n r code (portOf n))
  simp only [Prod.mk.injEq] at hrest
  obtain ⟨hwhl, hskn, hpins, hframes⟩ := hrest
  simp only [Dev.frameView, hwhl, hskn, hpins, hframes, herrs]

theorem Dev.passOver_frameView (d : Dev) (n : StrandNo) (num : Word) : (d.passOver n num).frameView n = d.frameView n := by
  unfold Dev.passOver
  extract_lets ps last gone d1
  refine Eq.trans (d1.onStrand_frameView n _ ?_) ?_
  · exact fun g => rfl
  exact Dev.foldl_view (Dev.frameView n) (fun e r => e.reportTarget n r 3) (fun e r => e.reportTarget_frameView n r 3) gone d

theorem Dev.placeWarm_frameView (d : Dev) (n : StrandNo) (num : Word) : (d.placeWarm n num).frameView n = d.frameView n := by
  unfold Dev.placeWarm
  split
  · exact d.onStrand_frameView n _ fun g => rfl
  · rfl

/-! ### The number of a frame (R163 to R165) -/

/-- What the number of a frame depends on. -/
def Dev.numberView (n : StrandNo) (d : Dev) : Option Image × Whl × Bool × Option Nat × Word × List Frame × List Nat :=
  let g := d.strands[n]
  (d.img, d.whl, g.numbered, g.lostAt, g.frameNo, g.frames, g.starts)

theorem Dev.numberOf_congr {n : StrandNo} {d e : Dev} (h : e.numberView n = d.numberView n) : e.numberOf n = d.numberOf n := by
  simp only [Dev.numberView, Prod.mk.injEq] at h
  obtain ⟨himg, hwhl, hnumbered, hlost, hframeNo, hframes, hstarts⟩ := h
  have hperiod : e.periodOf n = d.periodOf n := by simp only [Dev.periodOf, Dev.profile, hstarts, himg]
  funext wc
  simp only [Dev.numberOf, hwhl, hnumbered, hlost, hframeNo, hframes, hperiod]

/-- The sensor frame number of the newest frame, 0 before the first. -/
def Strand.sensorNo (g : Strand) : Half := match g.frames with | f :: _ => f.sensorNo | [] => 0

section
variable (d : Dev) (n : StrandNo) (wc : Half)

theorem Dev.numberOf_lost (hnum : (d.strands[n]).numbered = false) :
    d.numberOf n wc = (if (d.strands[n]).lostAt.isSome then (d.strands[n]).frameNo + BitVec.ofNat 32
      (max 1 ((2 * (2 * (d.whl.tim - (d.strands[n]).lostAt.getD 0)) + d.periodOf n) / (2 * d.periodOf n))) else 1, false) := by
  unfold Dev.numberOf
  extract_lets g
  rw [if_pos (by rw [hnum]; rfl)]
  cases (d.strands[n]).lostAt with
  | none => rfl
  | some t => rfl

theorem Dev.numberOf_follows (hnum : (d.strands[n]).numbered = true) :
    let old := (d.strands[n]).sensorNo
    let k := (wc - old).toNat
    d.numberOf n wc =
      (if old = 0 ∨ wc = 0 ∨ wc = 1 ∨ k = 0 ∨ 8 < k then (d.strands[n]).frameNo + 1 else (d.strands[n]).frameNo + BitVec.ofNat 32 k,
        decide (¬ (old = 0 ∨ wc = 0 ∨ wc = 1) ∧ (k = 0 ∨ 8 < k))) := by
  intro old k
  unfold Dev.numberOf
  extract_lets g p old' k'
  have hold : old' = old := rfl
  have hk : k' = k := rfl
  rw [if_neg (by rw [hnum]; decide), hold, hk]
  by_cases hrestart : old = 0 ∨ wc = 0 ∨ wc = 1
  · have hone : old = 0 ∨ wc = 0 ∨ wc = 1 ∨ k = 0 ∨ 8 < k := by tauto
    rw [if_pos hrestart, if_pos hone, decide_eq_false fun h => h.1 hrestart]
  · rw [if_neg hrestart]
    by_cases hnear : 1 ≤ k ∧ k ≤ 8
    · have hnot : ¬ (old = 0 ∨ wc = 0 ∨ wc = 1 ∨ k = 0 ∨ 8 < k) := by
        have : ¬ (k = 0 ∨ 8 < k) := by omega
        tauto
      rw [if_pos hnear, if_neg hnot, decide_eq_false fun h => absurd h.2 (by omega)]
    · have hfar : k = 0 ∨ 8 < k := by omega
      have hone : old = 0 ∨ wc = 0 ∨ wc = 1 ∨ k = 0 ∨ 8 < k := by tauto
      rw [if_neg hnear, if_pos hone, decide_eq_true ⟨hrestart, hfar⟩]

end

/-! ### The opening -/

section
variable (d : Dev) (n : StrandNo) (wc : Half)

/-- The strand locks again after a loss. -/
def Strand.relocks (g : Strand) : Bool := !g.numbered && g.lostAt.isSome

/-- The registers with the number of the new frame counted, earlier requests passed over and the warm-up write placed. -/
def Dev.preparedFor : Dev :=
  let r := d.numberOf n wc
  let d1 := if r.2 then d.onErrs (portOf n) fun e => { e with frameNumber := satAdd e.frameNumber 1 } else d
  (if (d.strands[n]).relocks then d1.passOver n r.1 else d1).placeWarm n r.1

/-- The same with the slot of the oldest frame taken. -/
def Dev.slotFreed : Dev :=
  let d2 := d.preparedFor n wc
  let d3 := if (d.strands[n]).relocks then d2.onHankStrand n fun x => { x with entryAt := some (d.numberOf n wc).1 } else d2
  match (d2.strands[n]).frames[3]? with
  | some o => d3.takeSlot n o
  | none => d3

/-- The strand with frame `f` open, started at `now`. -/
def Strand.openWith (g : Strand) (f : Frame) (now : Nat) (relock : Bool) : Strand :=
  { g with
    frameNo := f.num, numbered := true, starts := (now :: (if relock then [] else g.starts)).take 8,
    frames := (f :: g.frames).take 4, lastEpoch := f.capture.epoch, presetFlag := false,
    busy := match g.busy with | some (t, _) => some (t, true) | none => none }

/-- The next of four input slots after the frames `l` (09 R331). -/
def nextSlot (l : List Frame) : Nat := match l with | o :: _ => (o.slot + 1) % 4 | [] => 0

/-- Number of the newest frame, 0 before the first. -/
def Strand.newestNum (g : Strand) : Word := match g.frames with | f :: _ => f.num | [] => 0

/-- The counters of a port with a frame-number fault counted if there is one. -/
def CrlErrs.countNumber (e : CrlErrs) (fault : Bool) : CrlErrs :=
  if fault then { e with frameNumber := satAdd e.frameNumber 1 } else e

theorem Dev.openFrame_shape :
    let d2 := d.preparedFor n wc
    let g2 := d2.strands[n]
    ∃ f : Frame, d.openFrame n wc = (d.slotFreed n wc).onStrand n (fun g => g.openWith f d2.whl.tim (d.strands[n]).relocks) ∧
      f.num = (d.numberOf n wc).1 ∧ f.sensorNo = wc ∧ f.isOpen = true ∧ f.start = d2.whl.tim ∧ f.packets = 0 ∧ f.rowsDone = 0 ∧
      f.slot = nextSlot g2.frames ∧ f.valid = g2.live ∧ f.readback = none ∧ f.lines = [] ∧
      f.opening = (g2.logAt g2.newestNum (d.numberOf n wc).1).take (d2.expCount n) := by
  intro d2 g2
  unfold Dev.openFrame
  extract_lets g c r num relock d1 d2' now trig live shot cap um q g2' prev x deferred missed gap f d2r d3
  exact ⟨f, rfl, rfl, rfl, rfl, rfl, rfl, rfl, rfl, rfl, rfl, rfl, rfl⟩

theorem Dev.countNumber_frameView (b : Bool) :
    (if b then d.onErrs (portOf n) (fun e => { e with frameNumber := satAdd e.frameNumber 1 }) else d).frameView n =
      (d.whl, d.skn, d.pins, (d.strands[n]).frames, (d.ports[portOf n]).errs.countNumber b) := by
  cases b with
  | false => rfl
  | true =>
    rw [if_pos rfl]
    simp only [Dev.frameView, Dev.onErrs_ports, upd_same]
    rfl

theorem Dev.preparedFor_frameView :
    (d.preparedFor n wc).frameView n =
      (d.whl, d.skn, d.pins, (d.strands[n]).frames, (d.ports[portOf n]).errs.countNumber (d.numberOf n wc).2) := by
  unfold Dev.preparedFor
  extract_lets r d1
  have hd1 : d1.frameView n = _ := d.countNumber_frameView n r.2
  rw [Dev.placeWarm_frameView, ← hd1]
  clear_value d1
  split_ifs
  · exact d1.passOver_frameView n r.1
  · rfl

theorem Dev.slotFreed_frameView : (d.slotFreed n wc).frameView n = (d.preparedFor n wc).frameView n := by
  unfold Dev.slotFreed
  extract_lets d2 d3
  have hd3 : d3.frameView n = d2.frameView n := by
    simp only [d3]
    split_ifs <;> rfl
  split
  · exact (Dev.frameView_of_linkView (d3.takeSlot_linkView n _)).trans hd3
  · exact hd3

end

/-! ### The frame start (R163) -/

theorem Strand.nonConform_of_closed (g : Strand) (h : ∀ f ∈ g.frames, f.isOpen = false) : g.nonConform = g := by
  have hframes : (g.frames.map fun f => if f.isOpen then { f with nonConforming := true } else f) = g.frames := by
    refine (List.map_congr_left fun f hf => ?_).trans (List.map_id _)
    rw [h f hf]
    rfl
  simp only [Strand.nonConform, hframes]

theorem Dev.takeHead_closed (d : Dev) (p : PortNo) (h : PacketHead) (n : StrandNo)
    (hclosed : ∀ f ∈ (d.strands[n]).frames, f.isOpen = false) : (d.takeHead p h).strands[n] = d.strands[n] := by
  have hstrand : (d.takeHead p h).strands[n] = (d.takeSeq p h.seq).strands[n] :=
    congrArg (fun v : Vector Strand 64 => v[n]) (d.takeHead_strands p h)
  rw [hstrand, Dev.takeSeq_strand, Strand.nonConform_of_closed _ hclosed, ite_self]

theorem State.closeFrame_closed (s : State) (n : StrandNo) (byEnd : Bool)
    (hclosed : ∀ f ∈ (s.dev.strands[n]).frames, f.isOpen = false) : s.closeFrame n byEnd = s := by
  unfold State.closeFrame
  split
  case h_1 f0 fs i hframes himg =>
    rw [hclosed f0 (by rw [hframes]; exact List.mem_cons_self)]
    rfl
  case h_2 => rfl

theorem Dev.takeReport_frameView (d : Dev) (n : StrandNo) (report : Bool) : (d.takeReport n report).frameView n = d.frameView n := by
  unfold Dev.takeReport
  extract_lets internal
  split_ifs
  · exact d.onStrand_frameView n _ fun g => rfl
  · rfl

theorem Dev.takeReport_numberView (d : Dev) (n : StrandNo) (report : Bool) : (d.takeReport n report).numberView n = d.numberView n := by
  unfold Dev.takeReport
  extract_lets internal
  split_ifs
  · simp only [Dev.numberView, Dev.onStrand_strand_same]
    rfl
  · rfl

theorem Dev.portOf_of_strandAt {d : Dev} {p : PortNo} {vc : Nat} {n : StrandNo} (h : d.strandAt p vc = some n) : portOf n = p :=
  (mem_strandsOf p n).1 (List.mem_of_find?_eq_some h)

theorem Port.takeHead_frameNumber (x : Port) (h : PacketHead) : (x.takeHead h).errs.frameNumber = x.errs.frameNumber := by
  unfold Port.takeHead Port.takeSeq
  cases h.corrected <;> cases x.skips h.seq <;> rfl

theorem CrlErrs.countNumber_frameNumber (e : CrlErrs) (fault : Bool) :
    (e.countNumber fault).frameNumber = if fault then satAdd e.frameNumber 1 else e.frameNumber := by
  cases fault <;> rfl

section
variable (d : Dev) (p : PortNo) (h : PacketHead) (n : StrandNo) (report : Bool)

/-- The registers that the frame of strand `n` opens in. -/
def Dev.atStart : Dev := (d.takeHead p h).takeReport n report

theorem Dev.atStart_frameView :
    (d.atStart p h n report).frameView n = (d.whl, d.skn, d.pins, ((d.takeHead p h).strands[n]).frames,
      ((d.takeHead p h).ports[portOf n]).errs) := by
  have hrest := congrArg
    (fun e : Dev => (e.whl, e.skn, e.pins, ((d.takeHead p h).strands[n]).frames, ((d.takeHead p h).ports[portOf n]).errs))
    (d.takeHead_rest p h)
  exact ((d.takeHead p h).takeReport_frameView n report).trans hrest

theorem Dev.atStart_numberView (hclosed : ∀ f ∈ (d.strands[n]).frames, f.isOpen = false) :
    (d.atStart p h n report).numberView n = d.numberView n := by
  refine ((d.takeHead p h).takeReport_numberView n report).trans ?_
  have hrest := congrArg (fun e : Dev => (e.img, e.whl)) (d.takeHead_rest p h)
  obtain ⟨himg, hwhl⟩ := Prod.mk.inj (show ((d.takeHead p h).img, (d.takeHead p h).whl) = (d.img, d.whl) from hrest)
  simp only [Dev.numberView, himg, hwhl, d.takeHead_closed p h n hclosed]

end

/-- The frame start of an active strand whose frames are closed. -/
theorem exec_frameStart_opens (s : State) (p : PortNo) (h : PacketHead) (vc : Fin 16) (wc : Half) (report : Bool) (n : StrandNo)
    (htrained : s.dev.trained p = true) (hat : s.dev.strandAt p vc.val = some n) (hactive : s.dev.active n = true)
    (hpending : s.dev.lay.pending = none) (hclosed : ∀ f ∈ (s.dev.strands[n]).frames, f.isOpen = false) :
    exec (.frameStart p h vc wc report) s =
      .next { s with dev := ((s.dev.atStart p h n report).openFrame n wc).settle } := by
  have hpending' : (s.dev.takeHead p h).lay.pending = none := (congrArg (fun e : Dev => e.lay.pending) (s.dev.takeHead_rest p h)).trans hpending
  have hclosed' : ∀ f ∈ ((s.dev.takeHead p h).strands[n]).frames, f.isOpen = false := by
    rw [s.dev.takeHead_closed p h n hclosed]
    exact hclosed
  have hstep : frameStart p h vc wc report s = { s with dev := (s.dev.atStart p h n report).openFrame n wc } := by
    unfold frameStart
    rw [if_pos htrained]
    simp only [s.dev.takeHead_strandAt p p h vc.val, hat]
    rw [({ s with dev := s.dev.takeHead p h } : State).closeFrame_closed n false hclosed']
    simp only [(s.dev.takeHead p h).adoptStrand_none n hpending', s.dev.takeHead_active p h n, hactive, if_true]
    rfl
  have hexec : exec (.frameStart p h vc wc report) s = .next (s.runM (frameStart p h vc wc report)) := rfl
  rw [hexec, State.runM, hstep]

/-- Settles O29: the framing of the packet leaves a strand whose frames are closed, and the opening numbers the frame from that
strand and leaves links, whorls and earlier frames alone. -/
theorem frameOpens : Obligations.FrameOpens := by
  unfold Obligations.FrameOpens
  intro s p h vc wc report n htrained hat hactive hpending hclosed g old k e
  obtain rfl : portOf n = p := Dev.portOf_of_strandAt hat
  have hnumber := congrFun (Dev.numberOf_congr (s.dev.atStart_numberView (portOf n) h n report hclosed)) wc
  have hstart := s.dev.atStart_frameView (portOf n) h n report
  have herrs : ((s.dev.takeHead (portOf n) h).ports[portOf n]).errs.frameNumber = (s.dev.ports[portOf n]).errs.frameNumber := by
    rw [Dev.takeHead_ports, upd_same, Port.takeHead_frameNumber]
  rw [s.dev.takeHead_closed (portOf n) h n hclosed] at hstart
  rw [exec_frameStart_opens s (portOf n) h vc wc report n htrained hat hactive hpending hclosed]
  generalize s.dev.atStart (portOf n) h n report = a at hnumber hstart ⊢
  obtain ⟨f, hopen, hnum, hsensor, hisOpen, hnow, hpackets, hrows, hslot, -, -, -, -⟩ := a.openFrame_shape n wc
  have hprepared := a.preparedFor_frameView n wc
  have hfreed := (a.slotFreed_frameView n wc).trans hprepared
  simp only [Dev.frameView, Prod.mk.injEq] at hstart hprepared hfreed
  obtain ⟨hwhl, hskn, hpins, hframes, hcounters⟩ := hstart
  obtain ⟨pwhl, -, -, pframes, -⟩ := hprepared
  obtain ⟨fwhl, fskn, fpins, fframes, fcounters⟩ := hfreed
  rw [hnumber] at hnum fcounters
  generalize a.slotFreed n wc = c at hopen fwhl fskn fpins fframes fcounters
  refine ⟨_, f, rfl, rfl, ?_, hsensor, hisOpen, hnow.trans (congrArg (fun w : Whl => w.tim) (pwhl.trans hwhl)), hpackets, hrows, ?_, ?_,
    ?_, ?_, ?_, ?_, ?_, ?_⟩
  · rw [Dev.settle_strands, hopen, Dev.onStrand_strand_same]
    exact congrArg (fun l => (f :: l).take 4) (fframes.trans hframes)
  · exact hslot.trans (congrArg nextSlot (pframes.trans hframes))
  · rw [Dev.settle_strands, hopen, Dev.onStrand_strand_same]
    rfl
  · rw [Dev.settle_strands, hopen, Dev.onStrand_strand_same]
    rfl
  · rw [hnum]
    cases hg : g.numbered with
    | true => exact congrArg Prod.fst (s.dev.numberOf_follows n wc hg)
    | false => exact congrArg Prod.fst (s.dev.numberOf_lost n wc hg)
  · rw [Dev.settle_ports, hopen, Dev.onStrand_ports, fcounters, CrlErrs.countNumber_frameNumber, hcounters, herrs]
    cases hg : g.numbered with
    | true =>
      rw [s.dev.numberOf_follows n wc hg]
      simp only [decide_eq_true_eq, true_and]
      rfl
    | false =>
      rw [s.dev.numberOf_lost n wc hg, if_neg Bool.false_ne_true, if_neg fun hx => Bool.false_ne_true hx.1]
  · rw [Dev.settle_whl, hopen]
    exact fwhl.trans hwhl
  · rw [Dev.settle_skn, hopen]
    exact fskn.trans hskn
  · rw [Dev.settle_pocEn, hopen]
    exact congrArg (fun x : Pins => x.pocEn) (fpins.trans hpins)

end Sys2Proof.Machine
end

section
/-! SUPPORT. Test patterns and self-test, the registers (spec/18_test_modes.md R579, R581, R582): what a write of TST_PAT_CTRL and of
TST_BIST_CTRL does and leaves alone. -/

namespace Sys2Proof.Machine

/-! ### The adoption of a layout keeps what each strand runs under (01 R20) -/

/-- The layouts that the strands run under. -/
def Dev.runsUnder (d : Dev) : Vector (Option Nat) 64 := d.lay.strand

theorem Dev.abortStage_runsUnder (d : Dev) : d.abortStage.runsUnder = d.runsUnder := by
  unfold Dev.abortStage Dev.closeStage
  split
  · rfl
  · split_ifs
    · simp only [Dev.runsUnder, Dev.logStage, Dev.logAccess_lay]
      rfl
    · rfl

theorem Dev.setMode_runsUnder (d : Dev) (m : Mode) (nolive : Bool) : (d.setMode m nolive).runsUnder = d.runsUnder := by
  unfold Dev.setMode
  extract_lets d1
  have hd1 : d1.runsUnder = d.runsUnder := d.abortStage_runsUnder
  split_ifs
  · rfl
  · exact hd1
  · exact hd1

theorem Dev.finishAdoption_runsUnder (d : Dev) : d.finishAdoption.runsUnder = d.runsUnder := by
  have hshed (e : Dev) (w : Nat) : (e.selectShed w).runsUnder = e.runsUnder := by
    unfold Dev.selectShed
    split <;> rfl
  have htrim (e : Dev) : e.trimCredits.runsUnder = e.runsUnder := by
    have hout := congrArg Dev.runsUnder (e.trimCredits_withOutput e)
    exact hout
  have hend (e : Dev) (id : Nat) : (e.endTransition id).runsUnder = e.runsUnder := by
    unfold Dev.endTransition
    split
    · split_ifs
      · exact e.setMode_runsUnder _ _
      · rfl
    · rfl
  unfold Dev.finishAdoption
  split
  · rfl
  · split_ifs
    · exact (hend _ _).trans ((htrim _).trans (hshed _ _))
    · rfl

theorem Dev.assignHank_runsUnder (d : Dev) (id : Nat) (ns : List Nat) : (d.assignHank id ns).runsUnder = d.runsUnder := by
  unfold Dev.assignHank
  split
  · rfl
  · exact Dev.foldl_view Dev.runsUnder _ (fun e n => by simp [Dev.runsUnder]) _ _

theorem Dev.assignHank_linkView (d : Dev) (id : Nat) (ns : List Nat) : (d.assignHank id ns).linkView = d.linkView := by
  unfold Dev.assignHank
  split
  · rfl
  · exact Dev.foldl_view Dev.linkView _ (fun e n => e.raise_linkView 15 n 0) _ _

/-! ### A switch raised (01 R20 to R23) -/

/-- The strand as a raised switch to layout `id` leaves it at TIM count `now`. -/
def Strand.switched (g : Strand) (id now : Nat) : Strand := if g.heldBack now then g else g.retake id

theorem Strand.heldBack_of_boundary (g : Strand) (now : Nat) (h : g.inFrame = false) : g.heldBack now = false := by
  simp only [Strand.inFrame, List.any_eq_false] at h
  simp only [Strand.heldBack, List.any_eq_false]
  intro f hf
  simp [h f hf]

theorem Strand.switched_of_boundary (g : Strand) (id now : Nat) (h : g.inFrame = false) : g.switched id now = g := by
  have hclosed : ∀ f ∈ g.frames, f.isOpen = false := by simpa [Strand.inFrame, List.any_eq_false] using h
  have hframes : (g.frames.map fun f => if f.isOpen then { f with layout := id } else f) = g.frames := by
    refine (List.map_congr_left fun f hf => ?_).trans (List.map_id _)
    rw [hclosed f hf]
    rfl
  rw [Strand.switched, g.heldBack_of_boundary now h, if_neg Bool.false_ne_true]
  simp only [Strand.retake, hframes]

theorem Strand.switched_rest (g : Strand) (id now : Nat) : { g.switched id now with frames := g.frames } = g := by
  unfold Strand.switched
  split_ifs <;> rfl

section
variable (d : Dev) (l : LayoutCfg)

theorem Dev.raiseSwitch_linkView :
    (d.raiseSwitch l).linkView = (d.whl, d.skn, d.pins, d.ports, d.strands.map fun g => g.switched l.id d.whl.tim) :=
  (Dev.finishAdoption_linkView _).trans ((Dev.assignHank_linkView _ _ _).trans rfl)

theorem Dev.raiseSwitch_runsUnder (n : StrandNo) :
    (d.raiseSwitch l).runsUnder[n] = if (d.strands[n]).heldBack d.whl.tim then d.lay.strand[n] else some l.id := by
  have hview : (d.raiseSwitch l).runsUnder =
      Vector.ofFn fun n : StrandNo => if (d.strands[n]).heldBack d.whl.tim then d.lay.strand[n] else some l.id :=
    (Dev.finishAdoption_runsUnder _).trans ((Dev.assignHank_runsUnder _ _ _).trans rfl)
  rw [hview]
  simp

theorem Dev.trainPly_rest : { d.trainPly with ply := d.ply } = d := by
  unfold Dev.trainPly
  split
  · split_ifs <;> rfl
  · rfl

end

/-! ### TST_PAT_CTRL (R579) -/

/-- The word of TST_PAT_CTRL that starts a pattern. -/
def runWord (layout : BitVec 4) (pattern : BitVec 2) : Word := BitVec.ofNat 32 (256 + pattern.toNat * 16 + layout.toNat)

section
variable (layout : BitVec 4) (pattern : BitVec 2)

theorem runWord_toNat : (runWord layout pattern).toNat = 256 + pattern.toNat * 16 + layout.toNat := by
  rw [runWord, BitVec.toNat_ofNat, Nat.mod_eq_of_lt (by have := layout.isLt; have := pattern.isLt; omega)]

theorem runWord_layout : (runWord layout pattern).toNat % 16 = layout.toNat := by
  rw [runWord_toNat]
  have := layout.isLt
  omega

theorem runWord_pattern : (runWord layout pattern).toNat / 16 % 4 = pattern.toNat := by
  rw [runWord_toNat]
  have := layout.isLt
  have := pattern.isLt
  omega

theorem runWord_fields : runWord layout pattern &&& 0x13F = runWord layout pattern ∧ (runWord layout pattern).getLsbD 8 = true := by
  revert layout pattern
  decide

end

section
variable (d : Dev) (layout : BitVec 4) (pattern : BitVec 2)

/-- RUN without the layout that it names, or after a self-test. -/
theorem Dev.controlPattern_ignored (h : d.layoutCfg layout.toNat = none ∨ d.tst.bistRan = true) :
    d.controlPattern (runWord layout pattern) =
      { d with tst := { d.tst with patCtrl := runWord layout pattern, ignored := satAdd d.tst.ignored 1 } } := by
  obtain ⟨hmask, hrun⟩ := runWord_fields layout pattern
  unfold Dev.controlPattern
  extract_lets id d1
  have hid : d1.layoutCfg id = d.layoutCfg layout.toNat := congrArg d.layoutCfg (runWord_layout layout pattern)
  have hd1 : d1 = { d with tst := { d.tst with patCtrl := runWord layout pattern } } := by
    simp only [d1, hmask]
    rfl
  rw [if_pos hrun, hid]
  clear_value d1
  subst hd1
  cases hl : d.layoutCfg layout.toNat with
  | none => rfl
  | some l =>
    have hran : d.tst.bistRan = true := h.resolve_left (by rw [hl]; exact Option.some_ne_none l)
    exact (if_pos hran).trans rfl

/-- The registers as RUN of a held layout leaves them before the switch is raised. -/
def Dev.patternSet : Dev :=
  { d with tst := { d.tst with patCtrl := runWord layout pattern, run := some (layout.toNat, pattern.toNat) } }

theorem Dev.controlPattern_runs (l : LayoutCfg) (hl : d.layoutCfg layout.toNat = some l) (hran : d.tst.bistRan = false) :
    d.controlPattern (runWord layout pattern) = ((d.patternSet layout pattern).raiseSwitch l).trainPly := by
  obtain ⟨hmask, hrun⟩ := runWord_fields layout pattern
  unfold Dev.controlPattern
  extract_lets id d1
  have hid : id = layout.toNat := runWord_layout layout pattern
  have hpat : (runWord layout pattern).toNat / 16 % 4 = pattern.toNat := runWord_pattern layout pattern
  have hd1 : d1 = { d with tst := { d.tst with patCtrl := runWord layout pattern } } := by
    simp only [d1, hmask]
    rfl
  have hl' : d1.layoutCfg id = some l := by
    rw [hid]
    exact hl
  rw [if_pos hrun, hl', hpat, hid]
  clear_value d1
  subst hd1
  exact (if_neg (ne_true_of_eq_false hran)).trans rfl

/-- RUN written as 0. -/
theorem Dev.controlPattern_stop :
    d.controlPattern (d.tst.patCtrl &&& 0x3F) = { d with tst := { d.tst with patCtrl := d.tst.patCtrl &&& 0x3F, run := none } } := by
  have hmask : d.tst.patCtrl &&& 0x3F &&& 0x13F = d.tst.patCtrl &&& 0x3F := by
    rw [BitVec.and_assoc]
    rfl
  have hrun : (d.tst.patCtrl &&& 0x3F).getLsbD 8 = false := by simp
  unfold Dev.controlPattern
  extract_lets id d1
  rw [if_neg (by rw [hrun]; exact Bool.false_ne_true)]
  simp only [d1, hmask]
  rfl

end

/-! ### Writes to the test block (R559, R570) -/

section
variable (a : Access) (off : Nat) (v : Word)

theorem Dev.accepts_test (d : Dev) (hr : d.released = true) (hmode : d.sys.mode = .production)
    (h : 0x700000 ≤ off ∧ off < 0x701000) : d.accepts a (regAddr off) v = true := by
  have hprod : d.acceptsReg off v = decide (d.sys.mode = .production) := by
    unfold Dev.acceptsReg
    rw [if_neg (by omega), if_neg (by omega), if_neg (by omega), if_neg (by omega), if_neg (by omega), if_neg (by omega),
      if_neg (by omega), if_neg (by omega), if_neg (by omega)]
  rw [Dev.accepts_reg d a off v (by omega) hr, hprod, decide_eq_true hmode, Bool.or_true]

theorem Dev.writeTst_refused (d : Dev) (f : Dev → Dev) (hmode : d.sys.mode ≠ .production) :
    Dev.refusedBy a d (d.writeTst a off v f) := by
  have hrefuses : d.writeTst a off v f = d.write a (regAddr (0x700000 + off)) 4 v true fun e => (e, Res.addrErr) := by
    simp only [Dev.writeTst, Dev.write, if_neg hmode]
  rw [hrefuses]
  exact d.write_addrErr a _ 4 v true

theorem Dev.writeTst_taken (d d0 : Dev) (f : Dev → Dev) (hr : d.released = true) (hmode : d.sys.mode = .production) (h : off < 0x1000) :
    (d.writeTst a off v f).unaccess d0 = (f d).unaccess d0 ∧
      (d.writeTst a off v f).bus.answer = some ⟨a.master, 0, 0, 0⟩ := by
  have htaken := d.accepts_test a (0x700000 + off) v hr hmode (by omega)
  have htakes : (if d.sys.mode = .production then (f d, Res.ok) else (d, Res.addrErr)) = (f d, Res.ok) := if_pos hmode
  constructor
  · rw [Dev.writeTst, Dev.write_accepted _ _ _ _ _ _ _ _ htaken, htakes]
  · rw [Dev.writeTst, Dev.write_answer _ _ _ _ _ _ _ htaken, htakes]
    rfl

end

/-! ### PATTERN_RUN and PATTERN_STOP (R579) -/

/-- The test block, the layouts the strands run under, the strands, the link supplies and the whorls. -/
def Dev.patternView (d : Dev) : Tst × Vector (Option Nat) 64 × Vector Strand 64 × BitVec 16 × Whl :=
  (d.tst, d.lay.strand, d.strands, d.pins.pocEn, d.whl)

theorem Dev.patternView_of_unaccess {d e x : Dev} (h : e.unaccess d = x.unaccess d) : e.patternView = x.patternView :=
  (congrArg Dev.patternView h : (e.unaccess d).patternView = (x.unaccess d).patternView)

theorem Dev.tst_of_unaccess {d e x : Dev} (h : e.unaccess d = x.unaccess d) : e.tst = x.tst :=
  (congrArg (fun y : Dev => y.tst) h : (e.unaccess d).tst = (x.unaccess d).tst)

theorem Dev.onTst_unaccess {d e : Dev} {x : Tst} (h : e.unaccess d = ({ d with tst := x } : Dev).unaccess d) :
    { e.unaccess d with tst := d.tst } = d := by
  rw [h]
  dsimp only [Dev.unaccess, Dev.unreport]

theorem Dev.raiseSwitch_patternView (d : Dev) (l : LayoutCfg) :
    (d.raiseSwitch l).patternView =
      (d.tst, (d.raiseSwitch l).runsUnder, d.strands.map fun g => g.switched l.id d.whl.tim, d.pins.pocEn, d.whl) := by
  have htst : (d.raiseSwitch l).tst = d.tst := congrArg (fun v => v.2.2.2.1) (d.raiseSwitch_fixtures l)
  have hlink := d.raiseSwitch_linkView l
  simp only [Dev.linkView, Prod.mk.injEq] at hlink
  obtain ⟨hwhl, -, hpins, -, hstrands⟩ := hlink
  simp only [Dev.patternView, htst, hwhl, hpins, hstrands]
  rfl

section
variable (s : State) (a : Access) (layout : BitVec 4) (pattern : BitVec 2)

/-- The state after a write of `v` to TST_PAT_CTRL. -/
def State.patternStep (s : State) (a : Access) (v : Word) : State := s.run fun d => d.writeTst a 0x10 v fun e => e.controlPattern v

theorem exec_patternRun : exec (.patternRun a layout pattern) s = .next (s.patternStep a (runWord layout pattern)) := rfl

theorem exec_patternStop : exec (.patternStop a) s = .next (s.patternStep a (s.dev.tst.patCtrl &&& 0x3F)) := by
  have hexec : exec (.patternStop a) s = .next (s.run fun d => d.writeTst a 0x10 (d.tst.patCtrl &&& 0x3F) fun e =>
    e.controlPattern (d.tst.patCtrl &&& 0x3F)) := rfl
  rw [hexec, State.patternStep, State.run, State.run]

theorem State.patternStep_refused (v : Word) (hmode : s.dev.sys.mode ≠ .production) :
    (s.patternStep a v).mem = s.mem ∧ (s.patternStep a v).dev.bus.answer = some ⟨a.master, 2, 0, 0⟩ ∧
      (s.patternStep a v).dev.unaccess s.dev = s.dev :=
  ⟨rfl, Dev.refusedBy_settle a s.dev _ (s.dev.writeTst_refused a 0x10 v _ hmode)⟩

theorem State.patternStep_taken (v : Word) (hr : s.dev.released = true) (hmode : s.dev.sys.mode = .production) :
    (s.patternStep a v).mem = s.mem ∧ (s.patternStep a v).dev.bus.answer = some ⟨a.master, 0, 0, 0⟩ ∧
      (s.patternStep a v).dev.unaccess s.dev = (s.dev.controlPattern v).unaccess s.dev := by
  obtain ⟨htraces, hanswer⟩ := s.dev.writeTst_taken a 0x10 v s.dev (fun e => e.controlPattern v) hr hmode (by decide)
  refine ⟨rfl, ?_, ?_⟩
  · rw [State.patternStep, State.run_dev, Dev.settle_bus, hanswer]
  · rw [State.patternStep, State.run_dev, Dev.unaccess_settle, htraces]

theorem exec_patternRun_runs (l : LayoutCfg) (hr : s.dev.released = true) (hmode : s.dev.sys.mode = .production)
    (hl : s.dev.layoutCfg layout.toNat = some l) (hran : s.dev.tst.bistRan = false) :
    ∃ t, exec (.patternRun a layout pattern) s = .next t ∧ t.mem = s.mem ∧ t.dev.bus.answer = some ⟨a.master, 0, 0, 0⟩ ∧
      t.dev.tst = { s.dev.tst with patCtrl := runWord layout pattern, run := some (layout.toNat, pattern.toNat) } ∧
      (∀ n : StrandNo, (s.dev.strands[n]).inFrame = false → t.dev.lay.strand[n] = some l.id ∧ t.dev.strands[n] = s.dev.strands[n]) ∧
      (∀ n : StrandNo, { t.dev.strands[n] with frames := (s.dev.strands[n]).frames } = s.dev.strands[n]) ∧
      t.dev.pins.pocEn = s.dev.pins.pocEn ∧ t.dev.whl = s.dev.whl := by
  rw [exec_patternRun]
  obtain ⟨hmem, hanswer, htraces⟩ := s.patternStep_taken a (runWord layout pattern) hr hmode
  generalize s.patternStep a (runWord layout pattern) = t at hmem hanswer htraces ⊢
  have hview := Dev.patternView_of_unaccess htraces
  rw [Dev.controlPattern_runs s.dev layout pattern l hl hran] at hview
  have htrain : ((s.dev.patternSet layout pattern).raiseSwitch l).trainPly.patternView =
      ((s.dev.patternSet layout pattern).raiseSwitch l).patternView := by
    have hply := congrArg Dev.patternView ((s.dev.patternSet layout pattern).raiseSwitch l).trainPly_rest
    exact hply
  have hunder := (s.dev.patternSet layout pattern).raiseSwitch_runsUnder l
  rw [htrain, Dev.raiseSwitch_patternView] at hview
  generalize ((s.dev.patternSet layout pattern).raiseSwitch l).runsUnder = under at hview hunder
  simp only [Dev.patternView, Prod.mk.injEq] at hview
  obtain ⟨htst, hlay, hstrands, hpoc, hwhl⟩ := hview
  have hstrand (n : StrandNo) : t.dev.strands[n] = (s.dev.strands[n]).switched l.id s.dev.whl.tim := by
    rw [hstrands]
    exact Vector.getElem_map ..
  refine ⟨_, rfl, hmem, hanswer, htst, fun n hclosed => ⟨?_, ?_⟩, fun n => ?_, hpoc, hwhl⟩
  · rw [hlay, hunder n]
    exact if_neg (ne_true_of_eq_false ((s.dev.strands[n]).heldBack_of_boundary _ hclosed))
  · rw [hstrand n, Strand.switched_of_boundary _ _ _ hclosed]
  · rw [hstrand n]
    exact Strand.switched_rest _ _ _

theorem exec_patternRun_ignored (hr : s.dev.released = true) (hmode : s.dev.sys.mode = .production)
    (h : s.dev.layoutCfg layout.toNat = none ∨ s.dev.tst.bistRan = true) :
    ∃ t, exec (.patternRun a layout pattern) s = .next t ∧ t.mem = s.mem ∧
      t.dev.tst = { s.dev.tst with patCtrl := runWord layout pattern, ignored := satAdd s.dev.tst.ignored 1 } ∧
      { t.dev.unaccess s.dev with tst := s.dev.tst } = s.dev := by
  obtain ⟨hmem, -, htraces⟩ := s.patternStep_taken a (runWord layout pattern) hr hmode
  rw [Dev.controlPattern_ignored s.dev layout pattern h] at htraces
  exact ⟨_, exec_patternRun s a layout pattern, hmem, (Dev.tst_of_unaccess htraces).trans rfl, Dev.onTst_unaccess htraces⟩

theorem exec_patternStop_ends (hr : s.dev.released = true) (hmode : s.dev.sys.mode = .production) :
    ∃ t, exec (.patternStop a) s = .next t ∧ t.mem = s.mem ∧
      t.dev.tst = { s.dev.tst with patCtrl := s.dev.tst.patCtrl &&& 0x3F, run := none } ∧
      { t.dev.unaccess s.dev with tst := s.dev.tst } = s.dev := by
  obtain ⟨hmem, -, htraces⟩ := s.patternStep_taken a (s.dev.tst.patCtrl &&& 0x3F) hr hmode
  rw [Dev.controlPattern_stop] at htraces
  exact ⟨_, exec_patternStop s a, hmem, (Dev.tst_of_unaccess htraces).trans rfl, Dev.onTst_unaccess htraces⟩

end

/-! ### Self-test (R582) -/

section
variable (s : State) (a : Access) (groups : BitVec 4)

theorem State.write_addrErr (addr : Word) (n : Nat) (v : Word) (lg : Bool) :
    let t := s.write a addr n v lg fun u => (u, Res.addrErr)
    t.mem = s.mem ∧ t.dev.bus.answer = some ⟨a.master, 2, 0, 0⟩ ∧ t.dev.unaccess s.dev = s.dev := by
  intro t
  cases hacc : s.dev.accepts a addr v with
  | true =>
    obtain ⟨htraces, hmem⟩ := s.write_accepted s.dev a addr n v lg (fun u => (u, Res.addrErr)) hacc
    exact ⟨hmem, s.write_answer a addr n v lg _ hacc, htraces.trans s.dev.unaccess_self⟩
  | false =>
    obtain ⟨htraces, hmem, hanswer⟩ := s.write_refused s.dev a addr n v lg (fun u => (u, Res.addrErr)) hacc
    exact ⟨hmem, hanswer, htraces.trans s.dev.unaccess_self⟩

theorem State.scramble_mem_rest :
    { (s.scramble groups).mem with sram := s.mem.sram, stage := s.mem.stage, stores := s.mem.stores } = s.mem := by
  dsimp only [State.scramble]

theorem State.scramble_sram (h : groups.getLsbD 0 = false) :
    (s.scramble groups).mem.sram = s.mem.sram ∧ (s.scramble groups).mem.stage = s.mem.stage ∧ (s.scramble groups).dev.bob = s.dev.bob := by
  simp only [State.scramble, h, Bool.false_eq_true, if_false]
  exact ⟨trivial, trivial, trivial⟩

theorem State.scramble_mem (h0 : groups.getLsbD 0 = false) (h1 : groups.getLsbD 1 = false) : (s.scramble groups).mem = s.mem := by
  simp only [State.scramble, h0, h1, Bool.or_self, Bool.false_eq_true, if_false]

/-- The registers as a self-test of `groups` leaves its own block. -/
def Tst.selfTest (x : Tst) (groups : BitVec 4) : Tst :=
  { x with bistRan := true, run := none, bist := Vector.ofFn fun g => if groups.getLsbD g.val then 3 else x.bist[g] }

/-- The state with the memories that `groups` test scrambled, and test registers `x`. -/
def State.afterTest (x : Tst) : State := { s.scramble groups with dev := { (s.scramble groups).dev with tst := x } }

theorem State.afterTest_unreport (x : Tst) :
    { (s.afterTest groups x).dev.unreport s.dev with tst := s.dev.tst, bob := s.dev.bob, freeIdx := s.dev.freeIdx } = s.dev := by
  dsimp only [State.afterTest, State.scramble, Dev.unreport]

theorem State.afterTest_unaccess (x : Tst) :
    { (s.afterTest groups x).dev.unaccess s.dev with tst := s.dev.tst, bob := s.dev.bob, freeIdx := s.dev.freeIdx } = s.dev := by
  dsimp only [State.afterTest, State.scramble, Dev.unaccess, Dev.unreport]

theorem exec_bistStart_refused (hmode : s.dev.sys.mode ≠ .production) :
    ∃ t, exec (.bistStart a groups) s = .next t ∧ t.mem = s.mem ∧ t.dev.bus.answer = some ⟨a.master, 2, 0, 0⟩ ∧
      t.dev.unaccess s.dev = s.dev := by
  have hrefuses : (s.write a (regAddr 0x700020) 4 (groups.zeroExtend 32) true fun u =>
      if u.dev.sys.mode = .production then (u.startBist groups, Res.ok) else (u, Res.addrErr)) =
        s.write a (regAddr 0x700020) 4 (groups.zeroExtend 32) true fun u => (u, Res.addrErr) := by
    simp only [State.write, State.writeN, if_neg hmode]
  obtain ⟨hmem, hanswer, htraces⟩ := s.write_addrErr a (regAddr 0x700020) 4 (groups.zeroExtend 32) true
  rw [← hrefuses] at hmem hanswer htraces
  refine ⟨_, rfl, hmem, ?_, ?_⟩
  · rw [State.runM_dev, Dev.settle_bus, hanswer]
  · rw [State.runM_dev, Dev.unaccess_settle, htraces]

theorem exec_bistStart_runs (hr : s.dev.released = true) (hmode : s.dev.sys.mode = .production) (hgroups : groups ≠ 0) :
    ∃ t, exec (.bistStart a groups) s = .next t ∧ t.mem = (s.scramble groups).mem ∧
      t.dev.unaccess s.dev = (s.afterTest groups (s.dev.tst.selfTest groups)).dev.unaccess s.dev := by
  have htaken := s.dev.accepts_test a 0x700020 (groups.zeroExtend 32) hr hmode (by decide)
  have heffect : (if s.dev.sys.mode = .production then (s.startBist groups, Res.ok) else (s, Res.addrErr)) =
      (s.afterTest groups (s.dev.tst.selfTest groups), Res.ok) := by
    rw [if_pos hmode, State.startBist, if_neg hgroups]
    rfl
  obtain ⟨htraces, hmem⟩ := s.write_accepted s.dev a (regAddr 0x700020) 4 (groups.zeroExtend 32) true
    (fun u => if u.dev.sys.mode = .production then (u.startBist groups, Res.ok) else (u, Res.addrErr)) htaken
  rw [heffect] at htraces hmem
  refine ⟨_, rfl, hmem, ?_⟩
  rw [State.runM_dev, Dev.unaccess_settle, htraces]

theorem exec_bistDone (g : Fin 4) (pass : Bool) (h : s.dev.tst.bist[g] = 3) :
    exec (.bistDone g pass) s = .next { s with
      dev := (s.afterTest (1#4 <<< g.val) { s.dev.tst with bist := upd s.dev.tst.bist g fun _ => if pass then 1 else 2 }).dev.settle,
      mem := (s.scramble (1#4 <<< g.val)).mem } := by
  have hstep : bistDone g pass s =
      s.afterTest (1#4 <<< g.val) { s.dev.tst with bist := upd s.dev.tst.bist g fun _ => if pass then 1 else 2 } := by
    rw [bistDone, if_pos h]
    rfl
  have hexec : exec (.bistDone g pass) s = .next (s.runM (bistDone g pass)) := rfl
  rw [hexec, State.runM, hstep]
  rfl

end

/-- A write to the test block outside Production Test is refused. -/
theorem exec_testWrite_refused (s : State) (a : Access) (layout : BitVec 4) (pattern : BitVec 2) (groups : BitVec 4)
    (hmode : s.dev.sys.mode ≠ .production) :
    ∀ c ∈ [Instr.patternRun a layout pattern, .patternStop a, .bistStart a groups],
      ∃ t, exec c s = .next t ∧ t.mem = s.mem ∧ t.dev.bus.answer = some ⟨a.master, 2, 0, 0⟩ ∧ t.dev.unaccess s.dev = s.dev := by
  simp only [List.forall_mem_cons, List.not_mem_nil, false_imp_iff, implies_true, and_true]
  exact ⟨⟨_, exec_patternRun s a layout pattern, s.patternStep_refused a _ hmode⟩,
    ⟨_, exec_patternStop s a, s.patternStep_refused a _ hmode⟩, exec_bistStart_refused s a groups hmode⟩

/-- What a self-test of `groups` does. -/
theorem exec_bistStart_tests (s : State) (a : Access) (groups : BitVec 4) (hr : s.dev.released = true)
    (hmode : s.dev.sys.mode = .production) (hgroups : groups ≠ 0) :
    ∃ t, exec (.bistStart a groups) s = .next t ∧ { t.mem with sram := s.mem.sram, stage := s.mem.stage, stores := s.mem.stores } = s.mem ∧
      (groups.getLsbD 0 = false → t.mem.sram = s.mem.sram ∧ t.mem.stage = s.mem.stage ∧ t.dev.bob = s.dev.bob) ∧
      (groups.getLsbD 0 = false → groups.getLsbD 1 = false → t.mem = s.mem) ∧ t.dev.tst.bistRan = true ∧ t.dev.tst.run = none ∧
      (∀ g : Fin 4, t.dev.tst.bist[g] = if groups.getLsbD g.val then 3 else s.dev.tst.bist[g]) ∧
      { t.dev.unaccess s.dev with tst := s.dev.tst, bob := s.dev.bob, freeIdx := s.dev.freeIdx } = s.dev := by
  obtain ⟨t, hstep, hmem, htraces⟩ := exec_bistStart_runs s a groups hr hmode hgroups
  have htst : t.dev.tst = s.dev.tst.selfTest groups := Dev.tst_of_unaccess htraces
  have hbob : t.dev.bob = (s.scramble groups).dev.bob := by
    have hview := congrArg (fun e : Dev => e.bob) htraces
    exact hview
  refine ⟨t, hstep, ?_, fun h0 => ?_, fun h0 h1 => ?_, ?_, ?_, fun g => ?_, ?_⟩
  · rw [hmem]
    exact s.scramble_mem_rest groups
  · rw [hmem, hbob]
    exact s.scramble_sram groups h0
  · rw [hmem, s.scramble_mem groups h0 h1]
  · rw [htst, Tst.selfTest]
  · rw [htst, Tst.selfTest]
  · rw [htst, Tst.selfTest]
    simp
  · rw [htraces]
    exact s.afterTest_unaccess groups _

theorem exec_bistDone_reads (s : State) (g : Fin 4) (pass : Bool) (h : s.dev.tst.bist[g] = 3) :
    ∃ t, exec (.bistDone g pass) s = .next t ∧
      t.dev.tst = { s.dev.tst with bist := upd s.dev.tst.bist g fun _ => if pass then 1 else 2 } ∧
      t.mem.fs = s.mem.fs ∧ t.mem.nvm = s.mem.nvm ∧ (2 ≤ g.val → t.mem = s.mem ∧ t.dev.bob = s.dev.bob) ∧
      { t.dev.unreport s.dev with tst := s.dev.tst, bob := s.dev.bob, freeIdx := s.dev.freeIdx } = s.dev := by
  refine ⟨_, exec_bistDone s g pass h, ?_, rfl, rfl, fun hg => ?_, ?_⟩
  · rw [Dev.settle_tst, State.afterTest]
  · have hbits : (1#4 <<< g.val).getLsbD 0 = false ∧ (1#4 <<< g.val).getLsbD 1 = false := by
      clear h
      revert g
      decide
    obtain ⟨-, -, hbob⟩ := s.scramble_sram _ hbits.1
    rw [Dev.settle_bob]
    exact ⟨s.scramble_mem _ hbits.1 hbits.2, hbob⟩
  · rw [Dev.unreport_settle]
    exact s.afterTest_unreport _ _

end Sys2Proof.Machine
end

section
/-! SUPPORT. A synthetic frame (spec/18_test_modes.md R578, R580): it opens, its rows are committed and it closes; what each of the three
leaves alone. -/

namespace Sys2Proof.Machine

/-! ### What the close of a frame leaves alone (06 R219; 05 R189 to R195) -/

/-- The frames of a strand, whether it is live, the number of its newest frame, and its busy state. -/
def Strand.frameCore (g : Strand) : List Frame × Bool × Word × Option (Trig × Bool) := (g.frames, g.live, g.frameNo, g.busy)

/-- The image, the whorls, the ring and the pins, and the frames of strand `n`. -/
def Dev.closeView (n : StrandNo) (d : Dev) : Option Image × Whl × Skn × Pins × (List Frame × Bool × Word × Option (Trig × Bool)) :=
  (d.img, d.whl, d.skn, d.pins, (d.strands[n]).frameCore)

theorem Dev.onStrand_closeView (d : Dev) (n : StrandNo) (f : Strand → Strand) (h : (f (d.strands[n])).frameCore = (d.strands[n]).frameCore) :
    (d.onStrand n f).closeView n = d.closeView n := by
  simp only [Dev.closeView, Dev.onStrand_strand_same, h]
  rfl

theorem Dev.reportTarget_closeView (d : Dev) (n : StrandNo) (r : ExpReq) (code : Byte) :
    (d.reportTarget n r code).closeView n = d.closeView n := by
  have hrest := congrArg (Dev.closeView n) (d.reportTarget_rest n r code)
  exact hrest

theorem Dev.retire_closeView (d : Dev) (n : StrandNo) (num : Word) : (d.retire n num).closeView n = d.closeView n := by
  unfold Dev.retire
  extract_lets gone d1
  have hd1 : d1.closeView n = d.closeView n :=
    Dev.foldl_view (Dev.closeView n) (fun e r => e.reportTarget n r 3) (fun e r => e.reportTarget_closeView n r 3) _ d
  rw [Dev.onStrand_closeView, hd1]
  rfl

theorem Dev.raise_closeView (d : Dev) (n : StrandNo) (b x y : Nat) : (d.raise b x y).closeView n = d.closeView n := by
  simp [Dev.closeView]

theorem Dev.commitUnit_closeView (d : Dev) (n : StrandNo) (k : Nat) (data : List Byte) (marker : Bool) (readers : List Nat)
    (frame unit : Nat) : (d.commitUnit k data marker readers frame unit).1.closeView n = d.closeView n := by
  unfold Dev.commitUnit
  by_cases hroom : (if marker then 1 else cellsOf data.length) ≤ (d.bob.queue k).room
  · rw [if_pos hroom]
    rfl
  · rw [if_neg hroom]
    exact Dev.raise_closeView _ n 24 k 0

theorem Dev.offerHank_closeView (d : Dev) (n : StrandNo) (f : Frame) : (d.offerHank n f).closeView n = d.closeView n := by
  unfold Dev.offerHank
  split
  · split_ifs <;> rfl
  · rfl

theorem Dev.keepSeed_closeView (d : Dev) (n : StrandNo) (es : List Exposure) : (d.keepSeed n es).closeView n = d.closeView n := by
  unfold Dev.keepSeed
  split_ifs <;> rfl

theorem Dev.checkWarm_closeView (d : Dev) (n : StrandNo) : d.checkWarm.closeView n = d.closeView n := by
  have himg : d.checkWarm.img = d.img := congrArg (fun v => v.2.1) d.checkWarm_fixtures
  have hlink : d.checkWarm.linkView = d.linkView := by
    unfold Dev.checkWarm
    split
    · split
      · split_ifs
        · exact d.setMode_linkView _ _
        · rfl
      · rfl
    · rfl
  exact congrArg₂ (fun (i : Option Image) (v : Whl × Skn × Pins × Vector Port 16 × Vector Strand 64) =>
    (i, v.1, v.2.1, v.2.2.1, (v.2.2.2.2[n]).frameCore)) himg hlink

/-! ### Held requests judged when no frame is open -/

theorem Strand.refreshOpen_closed (g : Strand) (e : Nat) (h : ∀ f ∈ g.frames, f.isOpen = false) : g.refreshOpen e = g := by
  unfold Strand.refreshOpen
  split
  case h_1 f fs hframes => rw [if_neg fun hx => ne_true_of_eq_false (h f (by rw [hframes]; exact List.mem_cons_self)) hx.1]
  case h_2 => rfl

theorem Strand.logWrite_frameCore (g : Strand) (id e : Nat) (r : ExpReq) (h : ∀ f ∈ g.frames, f.isOpen = false) :
    (g.logWrite id e r).frameCore = g.frameCore := by
  rw [Strand.logWrite, Strand.refreshOpen_closed]
  · rfl
  · exact h

section
variable (d : Dev) (n : StrandNo)

theorem Dev.sendWrite_closeView (r : ExpReq) (h : ∀ f ∈ (d.strands[n]).frames, f.isOpen = false) :
    (d.sendWrite n r).closeView n = d.closeView n := by
  rw [Dev.sendWrite_eq, Dev.onStrand_closeView]
  · rfl
  · exact Strand.logWrite_frameCore _ _ _ r h

theorem Dev.judgeReq_closeView (r : ExpReq) (h : ∀ f ∈ (d.strands[n]).frames, f.isOpen = false) :
    (d.judgeReq n r).closeView n = d.closeView n := by
  unfold Dev.judgeReq
  extract_lets t r1 code old d1 d1' d2
  have hd1 : d1.closeView n = d.closeView n :=
    Dev.foldl_view (Dev.closeView n) (fun e x => e.reportTarget n x 2) (fun e x => e.reportTarget_closeView n x 2) old d
  have hd1' : d1'.closeView n = d.closeView n := (d1.onStrand_closeView n _ rfl).trans hd1
  clear_value d1'
  have hd2 : d2.closeView n = d.closeView n := by
    simp only [d2]
    split_ifs
    · exact hd1'
    · exact (d1'.reportTarget_closeView n r1 code).trans hd1'
  clear_value d2
  split_ifs
  · refine (d2.sendWrite_closeView n r1 ?_).trans hd2
    have hframes : (d2.strands[n]).frames = (d.strands[n]).frames := congrArg (fun v => v.2.2.2.2.1) hd2
    rw [hframes]
    exact h
  · exact hd2

theorem Dev.judgeHeld_closeView (h : ∀ f ∈ (d.strands[n]).frames, f.isOpen = false) :
    (d.judgeHeld n).closeView n = d.closeView n := by
  have hfold (rs : List ExpReq) : ∀ e : Dev, e.closeView n = d.closeView n →
      (rs.foldl (fun x r => x.judgeReq n r) e).closeView n = d.closeView n := by
    induction rs with
    | nil => exact fun e he => he
    | cons r rs ih =>
      intro e he
      refine ih (e.judgeReq n r) ((e.judgeReq_closeView n r ?_).trans he)
      have hframes : (e.strands[n]).frames = (d.strands[n]).frames := congrArg (fun v => v.2.2.2.2.1) he
      rw [hframes]
      exact h
  exact hfold (d.strands[n]).heldReqs _ (d.onStrand_closeView n _ rfl)

end

/-! ### Rows (R219, R578) -/

/-- The view of the close, and every memory but the frame store, for which `fs` stands. -/
def State.closeView (n : StrandNo) (fs : List Host.Cell) (s : State) :
    (Option Image × Whl × Skn × Pins × (List Frame × Bool × Word × Option (Trig × Bool))) × Mem :=
  (s.dev.closeView n, { s.mem with fs := fs })

section
variable (s : State) (i : Image) (n : StrandNo) (fs : List Host.Cell) (f : Frame)

theorem Dev.commitLine_closeView (d : Dev) (row : Nat) (data : List Byte) :
    (d.commitLine n f row data).1.closeView n = d.closeView n := by
  have hsweep := congrArg (Dev.closeView n) (d.sweepLines_frame n)
  exact (Dev.commitUnit_closeView _ n _ _ _ _ _ _).trans hsweep

theorem State.padRow_closeView (row : Nat) : (s.padRow i n f row).1.closeView n fs = s.closeView n fs := by
  have hline := Dev.commitLine_closeView n f s.dev row (i.padRow n.val)
  unfold State.padRow
  extract_lets bs
  split
  case h_1 d heq => exact congrArg (fun v => (v, { s.mem with fs := fs })) ((congrArg (fun r => r.1.closeView n) heq.symm).trans hline)
  case h_2 d heq => exact congrArg (fun v => (v, { s.mem with fs := fs })) ((congrArg (fun r => r.1.closeView n) heq.symm).trans hline)

theorem State.padFrame_closeView : (s.padFrame i n f).1.closeView n fs = s.closeView n fs := by
  unfold State.padFrame
  extract_lets q missing r
  have hfold (l : List Nat) : ∀ t : State × Bool,
      (l.foldl (fun (t : State × Bool) k => ((t.1.padRow i n f (f.rowsDone + k)).1, t.2 && (t.1.padRow i n f (f.rowsDone + k)).2)) t).1.closeView
        n fs = t.1.closeView n fs := by
    induction l with
    | nil => exact fun t => rfl
    | cons k l ih => exact fun t => (ih _).trans (t.1.padRow_closeView i n fs f _)
  exact hfold _ (s, true)

theorem State.padFrame_frame :
    (s.padFrame i n f).2.num = f.num ∧ (s.padFrame i n f).2.isOpen = f.isOpen ∧ (s.padFrame i n f).2.byEnd = f.byEnd ∧
      (s.padFrame i n f).2.valid = f.valid ∧ (s.padFrame i n f).2.rowsDone = max f.rowsDone (i.prof n.val).height ∧
      (s.padFrame i n f).2.opening = f.opening ∧ (s.padFrame i n f).2.readback = f.readback ∧ (s.padFrame i n f).2.start = f.start :=
  ⟨rfl, rfl, rfl, rfl, rfl, rfl, rfl, rfl⟩

end

/-! ### The close (06 R219, R220, R225) -/

/-- The frame as its close seals it. -/
def Dev.sealed (d : Dev) (n : StrandNo) (f : Frame) : Frame :=
  let f2 := (d.sealFrame n f).1
  let first := (d.strands[n]).isFirstValid f2
  { f2 with valid := f2.valid || first, firstValid := f2.firstValid || first }

/-- The frame stays what it was but for its closing entries, its flags and its validity. -/
theorem Dev.sealed_frame (d : Dev) (n : StrandNo) (f : Frame) (hread : f.readback = none) (hvalid : f.valid = true) :
    (d.sealed n f).num = f.num ∧ (d.sealed n f).isOpen = f.isOpen ∧ (d.sealed n f).byEnd = f.byEnd ∧ (d.sealed n f).valid = true ∧
      (d.sealed n f).rowsDone = f.rowsDone ∧ (d.sealed n f).opening = f.opening ∧ (d.sealed n f).closing = f.opening := by
  unfold Dev.sealed Dev.sealFrame
  extract_lets g es f2 first
  have hes : es = f.opening := by
    simp only [es, hread]
  clear_value es
  subst hes
  simp only [f2, Frame.fault]
  split_ifs
  · exact ⟨rfl, rfl, rfl, congrArg (· || first) hvalid, rfl, rfl, rfl⟩
  · exact ⟨rfl, rfl, rfl, congrArg (· || first) hvalid, rfl, rfl, rfl⟩

/-- The strand with frame `num` closed as `f`. -/
def Strand.closeWith (g : Strand) (num : Word) (f : Frame) (span : Nat) (done first : Bool) : Strand :=
  { (g.onFrame num fun _ => f) with
    rowSpan := span, applied := f.closing, unconverged := !done, live := g.live || first, lost := g.lost && !(g.live || first) }

/-- What follows the close of frame `f`. -/
def Dev.afterClose (d : Dev) (n : StrandNo) (stats : List Byte) (f : Frame) : Dev :=
  let d2 := (d.commitStats n stats f.valid).offerHank n f
  let d3 := if f.valid ∧ !d2.patternOn n then d2.keepSeed n f.closing else d2
  let d4 := d3.retire n f.num
  let d5 := if (d4.strands[n]).windowless then d4.judgeHeld n else d4
  let d6 := match (d5.strands[n]).busy with | some (_, true) => d5.endBusy n | _ => d5
  (d6.advanceStreams n).checkWarm

theorem Dev.afterClose_closeView (d : Dev) (n : StrandNo) (stats : List Byte) (f : Frame)
    (hclosed : ∀ x ∈ (d.strands[n]).frames, x.isOpen = false) (hbusy : (d.strands[n]).busy = none) :
    (d.afterClose n stats f).closeView n = d.closeView n := by
  unfold Dev.afterClose
  extract_lets d2 d3 d4 d5 d6
  have hd2 : d2.closeView n = d.closeView n := (Dev.offerHank_closeView _ n f).trans (d.commitUnit_closeView n _ _ _ _ _ _)
  clear_value d2
  have hd3 : d3.closeView n = d.closeView n := by
    simp only [d3]
    split_ifs
    · exact (d2.keepSeed_closeView n _).trans hd2
    · exact hd2
  clear_value d3
  have hd4 : d4.closeView n = d.closeView n := (d3.retire_closeView n _).trans hd3
  clear_value d4
  have hframes : (d4.strands[n]).frames = (d.strands[n]).frames := congrArg (fun v => v.2.2.2.2.1) hd4
  have hd5 : d5.closeView n = d.closeView n := by
    simp only [d5]
    split_ifs
    · exact (d4.judgeHeld_closeView n (hframes ▸ hclosed)).trans hd4
    · exact hd4
  clear_value d5
  have hbusy5 : (d5.strands[n]).busy = none := (congrArg (fun v => v.2.2.2.2.2.2.2) hd5).trans hbusy
  have hd6 : d6 = d5 := by
    simp only [d6, hbusy5]
  have hadvance := congrArg (Dev.closeView n) (d6.advanceStreams_frame n)
  rw [Dev.checkWarm_closeView]
  refine Eq.trans hadvance ?_
  rw [hd6, hd5]

section
variable (s : State) (n : StrandNo) (i : Image) (f0 : Frame) (fs : List Host.Cell)

/-- The frame as its close pads it. -/
def Frame.ending (f0 : Frame) (now : Nat) (byEnd : Bool) : Frame :=
  { f0 with isOpen := false, close := now, byEnd := byEnd, nonConforming := f0.nonConforming || !byEnd }

theorem State.closeFrame_open (l : List Frame) (byEnd : Bool) (hframes : (s.dev.strands[n]).frames = f0 :: l) (himg : s.dev.img = some i)
    (hopen : f0.isOpen = true) :
    let p := s.padFrame i n (f0.ending s.dev.whl.tim byEnd)
    let f := p.1.dev.sealed n p.2
    s.closeFrame n byEnd = { p.1 with
      dev := (p.1.dev.onStrand n fun g => g.closeWith f0.num f (s.dev.whl.tim - f.start) (p.1.dev.sealFrame n p.2).2
        ((p.1.dev.strands[n]).isFirstValid (p.1.dev.sealFrame n p.2).1)).afterClose n (i.statsPacket n.val f) f } := by
  intro p f
  unfold State.closeFrame
  rw [hframes, himg]
  refine (if_pos hopen).trans ?_
  have hp : s.padFrame i n { f0 with isOpen := false, close := s.dev.whl.tim, byEnd := byEnd,
                                     nonConforming := f0.nonConforming || !byEnd } = p := rfl
  extract_lets now
  rw [hp]
  clear_value p
  rfl

/-- The close of the one frame of a strand. -/
theorem State.closeFrame_single (hframes : (s.dev.strands[n]).frames = [f0]) (himg : s.dev.img = some i) (hopen : f0.isOpen = true)
    (hread : f0.readback = none) (hvalid : f0.valid = true) (hlive : (s.dev.strands[n]).live = true)
    (hbusy : (s.dev.strands[n]).busy = none) :
    ∃ f, (s.closeFrame n true).closeView n fs =
        ((s.dev.img, s.dev.whl, s.dev.skn, s.dev.pins, ([f], true, (s.dev.strands[n]).frameNo, none)), { s.mem with fs := fs }) ∧
      f.num = f0.num ∧ f.isOpen = false ∧ f.byEnd = true ∧ f.valid = true ∧ f.rowsDone = max f0.rowsDone (i.prof n.val).height ∧
      f.opening = f0.opening ∧ f.closing = f0.opening := by
  have hclose := s.closeFrame_open n i f0 [] true hframes himg hopen
  have hpad := s.padFrame_closeView i n fs (f0.ending s.dev.whl.tim true)
  obtain ⟨pnum, popen, pend, pvalid, prows, popening, pread, -⟩ := s.padFrame_frame i n (f0.ending s.dev.whl.tim true)
  generalize s.padFrame i n (f0.ending s.dev.whl.tim true) = p at hclose hpad pnum popen pend pvalid prows popening pread
  obtain ⟨snum, sopen, send, svalid, srows, sopening, sclosing⟩ := p.1.dev.sealed_frame n p.2 (pread.trans hread) (pvalid.trans hvalid)
  dsimp only at hclose
  generalize p.1.dev.sealed n p.2 = f at hclose snum sopen send svalid srows sopening sclosing
  refine ⟨f, ?_, snum.trans pnum, sopen.trans popen, send.trans pend, svalid, srows.trans prows, sopening.trans popening,
    sclosing.trans popening⟩
  simp only [State.closeView, Dev.closeView, Strand.frameCore, hframes, hlive, hbusy, Prod.mk.injEq] at hpad
  obtain ⟨⟨pimg, pwhl, pskn, ppins, pframes, plive, pframeNo, pbusy⟩, pmem⟩ := hpad
  have hframes' : (p.1.dev.strands[n].onFrame f0.num fun _ => f).frames = [f] :=
    Strand.onFrame_newest _ f0 [] (fun _ => f) pframes fun x hx => absurd hx List.not_mem_nil
  rw [hclose, State.closeView, Dev.afterClose_closeView]
  · simp only [Dev.closeView, Dev.onStrand_strand_same, Strand.frameCore, Strand.closeWith, hframes', plive, Bool.true_or]
    exact congrArg₂ Prod.mk (congrArg₂ Prod.mk pimg (congrArg₂ Prod.mk pwhl (congrArg₂ Prod.mk pskn (congrArg₂ Prod.mk ppins
      (congrArg₂ (fun k b => ([f], true, k, b)) pframeNo pbusy))))) pmem
  · rw [Dev.onStrand_strand_same, Strand.closeWith, hframes']
    exact fun x hx => (List.mem_singleton.1 hx) ▸ sopen.trans popen
  · rw [Dev.onStrand_strand_same]
    exact pbusy

end

/-! ### The rows of a pattern (R578) -/

/-- What the rows of a pattern leave of a frame: its number, that it is open, its entries and its validity. -/
def Frame.patternCore (f : Frame) : Word × Bool × Option (List Exposure) × List Exposure × Bool :=
  (f.num, f.isOpen, f.readback, f.opening, f.valid)

section
variable (s : State) (i : Image) (n : StrandNo) (fs : List Host.Cell) (f : Frame)

theorem State.patternRow_leaves (codes : List Nat) :
    (s.patternRow i n f codes).1.closeView n fs = s.closeView n fs ∧ (s.patternRow i n f codes).2.patternCore = f.patternCore ∧
      (s.patternRow i n f codes).2.rowsDone ≤ f.rowsDone + 1 := by
  have hline := Dev.commitLine_closeView n f s.dev f.rowsDone (codeBytes codes)
  have hview := congrArg (fun v => (v, ({ s.mem with fs := fs } : Mem))) hline
  unfold State.patternRow
  extract_lets r c
  split_ifs
  · exact ⟨hview, rfl, le_refl _⟩
  · exact ⟨hview, rfl, Nat.le_succ _⟩

theorem State.patternRows_leave (row : Nat → List Nat) (l : List Nat) :
    let r := l.foldl (fun (t : State × Frame) y => t.1.patternRow i n t.2 (row y)) (s, f)
    r.1.closeView n fs = s.closeView n fs ∧ r.2.patternCore = f.patternCore ∧ r.2.rowsDone ≤ f.rowsDone + l.length := by
  induction l generalizing s f with
  | nil => exact ⟨rfl, rfl, le_refl _⟩
  | cons y l ih =>
    obtain ⟨hview, hcore, hrows⟩ := s.patternRow_leaves i n fs f (row y)
    obtain ⟨hview', hcore', hrows'⟩ := ih (s.patternRow i n f (row y)).1 (s.patternRow i n f (row y)).2
    refine ⟨hview'.trans hview, hcore'.trans hcore, hrows'.trans ?_⟩
    rw [List.length_cons]
    omega

end

/-! ### A first frame that opens (R163) -/

section
variable (d : Dev) (n : StrandNo)

theorem Dev.preparedFor_first (wc : Half) (hnum : (d.strands[n]).numbered = false) (hlost : (d.strands[n]).lostAt = none)
    (hwarm : (d.strands[n]).warm = none) : d.numberOf n wc = (1, false) ∧ d.preparedFor n wc = d := by
  have hnumber : d.numberOf n wc = (1, false) := by
    rw [d.numberOf_lost n wc hnum, hlost]
    rfl
  refine ⟨hnumber, ?_⟩
  have hrelocks : (d.strands[n]).relocks = false := by rw [Strand.relocks, hlost, Option.isSome_none, Bool.and_false]
  have hplace : d.placeWarm n 1 = d := by
    unfold Dev.placeWarm
    rw [hwarm]
  unfold Dev.preparedFor
  rw [hnumber, hrelocks]
  exact hplace

theorem Dev.slotFreed_first (wc : Half) (hprep : d.preparedFor n wc = d) (hlost : (d.strands[n]).lostAt = none)
    (hframes : (d.strands[n]).frames = []) : d.slotFreed n wc = d := by
  have hrelocks : (d.strands[n]).relocks = false := by rw [Strand.relocks, hlost, Option.isSome_none, Bool.and_false]
  unfold Dev.slotFreed
  simp only [hprep, hrelocks, hframes, Bool.false_eq_true, if_false]
  rfl

end

/-- The strand with zero entries written, as a synthetic frame finds it (R580). -/
def Strand.primed (g : Strand) (z : List Exposure) : Strand := { g with writeLog := [], warm := none, applied := z, live := true }

/-- The zero entries of a strand. -/
def Image.zeroEntries (i : Image) (n : StrandNo) : List Exposure := List.replicate (i.prof n.val).exposures ⟨0, 0, 0⟩

/-- The first synthetic frame of a strand opens. -/
theorem Dev.openFrame_primed (d : Dev) (n : StrandNo) (i : Image) (himg : d.img = some i) (hnum : (d.strands[n]).numbered = false)
    (hlost : (d.strands[n]).lostAt = none) (hframes : (d.strands[n]).frames = []) :
    ∃ f : Frame, (d.onStrand n fun g => g.primed (i.zeroEntries n)).openFrame n 0 =
        d.onStrand n (fun g => (g.primed (i.zeroEntries n)).openWith f d.whl.tim false) ∧
      f.patternCore = (1, true, none, i.zeroEntries n, true) ∧ f.rowsDone = 0 := by
  have hstrand := d.onStrand_strand_same n fun g => g.primed (i.zeroEntries n)
  have hfirst := (d.onStrand n fun g => g.primed (i.zeroEntries n)).preparedFor_first n 0 (by rw [hstrand]; exact hnum)
    (by rw [hstrand]; exact hlost) (by rw [hstrand]; rfl)
  obtain ⟨hnumber, hprep⟩ := hfirst
  have hfreed := (d.onStrand n fun g => g.primed (i.zeroEntries n)).slotFreed_first n 0 hprep (by rw [hstrand]; exact hlost)
    (by rw [hstrand]; exact hframes)
  have hrelocks : (d.strands[n]).relocks = false := by rw [Strand.relocks, hlost, Option.isSome_none, Bool.and_false]
  have hcount : d.expCount n = (i.prof n.val).exposures := by
    rw [Dev.expCount, Dev.profile, himg]
    rfl
  obtain ⟨f, hopen, hfnum, -, hisOpen, -, -, hrows, -, hvalid, hread, -, hopening⟩ :=
    (d.onStrand n fun g => g.primed (i.zeroEntries n)).openFrame_shape n 0
  rw [hfreed, hstrand, hprep] at hopen
  rw [hprep, hstrand] at hvalid hopening
  rw [hnumber] at hfnum
  refine ⟨f, ?_, ?_, hrows⟩
  · rw [hopen, Dev.onStrand_onStrand]
    exact d.onStrand_congr n _ _ (congrArg ((d.strands[n]).primed (i.zeroEntries n) |>.openWith f d.whl.tim) hrelocks)
  · have hentries : f.opening = i.zeroEntries n := by
      refine hopening.trans ((congrArg (fun k => (i.zeroEntries n).take k) hcount).trans (List.take_of_length_le ?_))
      rw [Image.zeroEntries, List.length_replicate]
    rw [Frame.patternCore, hfnum, hisOpen, hread, hentries, hvalid]
    rfl

section
variable (s : State) (n : StrandNo) (i : Image) (l pat : Nat)

/-- The rows of frame `num` committed, the frame `f` with them entered in its strand, and closed. -/
def State.deliver (num : Word) (f : Frame) (row : Nat → List Nat) : State :=
  let r := (List.range (i.prof n.val).height).foldl (fun (t : State × Frame) y => t.1.patternRow i n t.2 (row y)) (s, f)
  ({ r.1 with dev := (r.1.dev.onStrand n fun g => g.onFrame num fun _ => r.2).advanceStreams n } : State).closeFrame n true

/-- A selected strand delivers its frame (R578, R580). -/
theorem syntheticFrame_selected (f : Frame) (fs : List Frame) (himg : s.dev.img = some i) (hrun : s.dev.tst.run = some (l, pat))
    (hpending : s.dev.lay.pending = none) (hselected : s.dev.patternOn n = true) (hactive : s.dev.active n = true)
    (hran : s.dev.tst.bistRan = false) (d2 : Dev) (hd2 : (s.dev.onStrand n fun g => g.primed (i.zeroEntries n)).openFrame n 0 = d2)
    (hframes : (d2.strands[n]).frames = f :: fs) :
    ∃ (row : Nat → List Nat) (fresh : Bool),
      syntheticFrame n s = ({ s with dev := d2 } : State).deliver n i f.num { f with firstValid := fresh } row := by
  refine ⟨syntheticRow pat d2.tst.patValue (if pat = 3 then prbs31Words ((i.prof n.val).width * (i.prof n.val).height) (2 ^ 31 - 1) else [])
    f.num n.val (i.prof n.val).width, !(s.dev.strands[n]).live, ?_⟩
  unfold syntheticFrame
  extract_lets d d1 fresh
  have hfresh : fresh = !(s.dev.strands[n]).live := congrArg (fun e : Dev => !(e.strands[n]).live) (s.dev.adoptStrand_none n hpending)
  have hd1 : d1 = s.dev := s.dev.adoptStrand_none n hpending
  clear_value fresh d1
  subst hfresh
  subst hd1
  rw [show d.img = some i from himg, show d.tst.run = some (l, pat) from hrun]
  refine (if_pos ⟨hselected, hactive, by rw [hran]; rfl⟩).trans ?_
  extract_lets q z d2'
  have hd2' : d2' = d2 := hd2
  clear_value d2'
  subst hd2'
  rw [hframes]
  rfl

theorem syntheticFrame_unselected (hpending : s.dev.lay.pending = none) (hselected : s.dev.patternOn n = false) :
    syntheticFrame n s = s := by
  unfold syntheticFrame
  simp only [s.dev.adoptStrand_none n hpending]
  split
  · exact if_neg fun h => ne_true_of_eq_false hselected h.1
  · rfl

/-- Rows and close of the one frame `f0` of a strand. -/
theorem State.deliver_leaves (f0 f : Frame) (row : Nat → List Nat) (fs : List Host.Cell) (z : List Exposure) (himg : s.dev.img = some i)
    (hframes : (s.dev.strands[n]).frames = [f0]) (hcore : f.patternCore = (f0.num, true, none, z, true)) (hrows : f.rowsDone = 0)
    (hlive : (s.dev.strands[n]).live = true) (hbusy : (s.dev.strands[n]).busy = none) :
    ∃ x, (s.deliver n i f0.num f row).closeView n fs =
        ((s.dev.img, s.dev.whl, s.dev.skn, s.dev.pins, ([x], true, (s.dev.strands[n]).frameNo, none)), { s.mem with fs := fs }) ∧
      x.num = f0.num ∧ x.isOpen = false ∧ x.byEnd = true ∧ x.valid = true ∧ x.rowsDone = (i.prof n.val).height ∧
      x.opening = z ∧ x.closing = z := by
  obtain ⟨rview, rcore, rrows⟩ := s.patternRows_leave i n fs f row (List.range (i.prof n.val).height)
  unfold State.deliver
  generalize (List.range (i.prof n.val).height).foldl (fun (t : State × Frame) y => t.1.patternRow i n t.2 (row y)) (s, f) = r
    at rview rcore rrows ⊢
  dsimp only
  rw [hcore] at rcore
  simp only [Frame.patternCore, Prod.mk.injEq] at rcore
  obtain ⟨rnum, ropen, rread, ropening, rvalid⟩ := rcore
  simp only [State.closeView, Dev.closeView, Strand.frameCore, hframes, hlive, hbusy, Prod.mk.injEq] at rview
  obtain ⟨⟨rimg, rwhl, rskn, rpins, rframes, rlive, rframeNo, rbusy⟩, rmem⟩ := rview
  have hdone : max r.2.rowsDone (i.prof n.val).height = (i.prof n.val).height := by
    rw [hrows, List.length_range] at rrows
    omega
  have hentered : ((r.1.dev.strands[n]).onFrame f0.num fun _ => r.2).frames = [r.2] :=
    Strand.onFrame_newest _ f0 [] (fun _ => r.2) rframes fun x hx => absurd hx List.not_mem_nil
  have hview : ((r.1.dev.onStrand n fun g => g.onFrame f0.num fun _ => r.2).advanceStreams n).closeView n =
      (s.dev.img, s.dev.whl, s.dev.skn, s.dev.pins, ([r.2], true, (s.dev.strands[n]).frameNo, none)) := by
    have hadvance := congrArg (Dev.closeView n) ((r.1.dev.onStrand n fun g => g.onFrame f0.num fun _ => r.2).advanceStreams_frame n)
    refine Eq.trans hadvance ?_
    simp only [Dev.closeView, Dev.onStrand_strand_same, Strand.frameCore, hentered]
    exact congrArg₂ Prod.mk rimg (congrArg₂ Prod.mk rwhl (congrArg₂ Prod.mk rskn (congrArg₂ Prod.mk rpins
      (congrArg₂ Prod.mk rfl (congrArg₂ Prod.mk rlive (congrArg₂ Prod.mk rframeNo rbusy))))))
  generalize (r.1.dev.onStrand n fun g => g.onFrame f0.num fun _ => r.2).advanceStreams n = d3 at hview ⊢
  simp only [Dev.closeView, Strand.frameCore, Prod.mk.injEq] at hview
  obtain ⟨dimg, dwhl, dskn, dpins, dframes, dlive, dframeNo, dbusy⟩ := hview
  obtain ⟨x, xview, xnum, xopen, xend, xvalid, xrows, xopening, xclosing⟩ := State.closeFrame_single { r.1 with dev := d3 } n i r.2 fs
    dframes (dimg.trans himg) ropen rread rvalid dlive dbusy
  refine ⟨x, ?_, xnum.trans rnum, xopen, xend, xvalid, xrows.trans hdone, xopening.trans ropening, xclosing.trans ropening⟩
  refine xview.trans ?_
  rw [dimg, dwhl, dskn, dpins, dframeNo, rmem]

end

/-- The first synthetic frame of a selected strand. -/
theorem exec_syntheticFrame_first (s : State) (n : StrandNo) (i : Image) (l pat : Nat) (himg : s.dev.img = some i)
    (hrun : s.dev.tst.run = some (l, pat)) (hpending : s.dev.lay.pending = none) (hran : s.dev.tst.bistRan = false)
    (hactive : s.dev.active n = true) (hselected : s.dev.patternOn n = true) (hnum : (s.dev.strands[n]).numbered = false)
    (hlost : (s.dev.strands[n]).lostAt = none) (hframes : (s.dev.strands[n]).frames = []) (hbusy : (s.dev.strands[n]).busy = none) :
    ∃ t f, exec (.syntheticFrame n) s = .next t ∧ (t.dev.strands[n]).frames = [f] ∧ f.num = 1 ∧ f.isOpen = false ∧ f.byEnd = true ∧
      f.valid = true ∧ f.rowsDone = (i.prof n.val).height ∧ f.opening = i.zeroEntries n ∧ f.closing = i.zeroEntries n ∧
      (t.dev.strands[n]).live = true ∧ (t.dev.strands[n]).frameNo = 1 ∧ { t.mem with fs := s.mem.fs } = s.mem ∧
      t.dev.whl = s.dev.whl ∧ t.dev.skn = s.dev.skn ∧ t.dev.pins.pocEn = s.dev.pins.pocEn := by
  obtain ⟨f0, hopen, hcore, hrows⟩ := s.dev.openFrame_primed n i himg hnum hlost hframes
  have hstrand := s.dev.onStrand_strand_same n fun g => (g.primed (i.zeroEntries n)).openWith f0 s.dev.whl.tim false
  have hopened : ((s.dev.strands[n].primed (i.zeroEntries n)).openWith f0 s.dev.whl.tim false).frames = [f0] :=
    congrArg (fun l => (f0 :: l).take 4) hframes
  have hfree : ((s.dev.strands[n].primed (i.zeroEntries n)).openWith f0 s.dev.whl.tim false).busy = none := by
    simp only [Strand.openWith, Strand.primed, hbusy]
  obtain ⟨row, fresh, hstep⟩ := syntheticFrame_selected s n i l pat f0 [] himg hrun hpending hselected hactive hran _ hopen
    (by rw [hstrand, hopened])
  have hnum0 : f0.num = 1 := congrArg (fun v => v.1) hcore
  obtain ⟨x, hview, xnum, xopen, xend, xvalid, xrows, xopening, xclosing⟩ := State.deliver_leaves
    { s with dev := s.dev.onStrand n fun g => (g.primed (i.zeroEntries n)).openWith f0 s.dev.whl.tim false } n i f0
    { f0 with firstValid := fresh } row s.mem.fs (i.zeroEntries n) himg (by rw [hstrand, hopened])
    (show f0.patternCore = _ from hcore.trans (by rw [hnum0])) hrows (by rw [hstrand]; rfl) (by rw [hstrand, hfree])
  rw [← hstep] at hview
  have hexec : exec (.syntheticFrame n) s = .next (s.runM (syntheticFrame n)) := rfl
  simp only [State.closeView, Dev.closeView, Strand.frameCore, Prod.mk.injEq] at hview
  obtain ⟨⟨-, uwhl, uskn, upins, uframes, ulive, uframeNo, -⟩, umem⟩ := hview
  refine ⟨_, x, hexec, ?_, xnum.trans hnum0, xopen, xend, xvalid, xrows, xopening, xclosing, ?_, ?_, umem, ?_, ?_, ?_⟩
  · rw [State.runM_dev, Dev.settle_strands, uframes]
  · rw [State.runM_dev, Dev.settle_strands, ulive]
  · rw [State.runM_dev, Dev.settle_strands, uframeNo, hstrand]
    exact hnum0
  · rw [State.runM_dev, Dev.settle_whl, uwhl]
    rfl
  · rw [State.runM_dev, Dev.settle_skn, uskn]
    rfl
  · rw [State.runM_dev, Dev.settle_pocEn, upins]
    rfl

/-- Settles O59: a write of TST_PAT_CTRL is the switch it raises, a self-test scrambles the memories of its groups alone, and a
synthetic frame is opened, filled and closed in one step. -/
theorem patternsAndSelfTest : Obligations.PatternsAndSelfTest := by
  unfold Obligations.PatternsAndSelfTest
  intro s x
  refine ⟨fun a layout pattern groups hr => ?_, fun g pass hg => exec_bistDone_reads s g pass hg,
    fun n i l pat himg hrun hpending hran hactive hmode => ?_⟩
  · intro w
    refine ⟨fun hmode => exec_testWrite_refused s a layout pattern groups hmode, fun hmode => ⟨fun l hl hran => ?_, fun h => ?_, ?_,
      fun hgroups => ?_⟩⟩
    · exact exec_patternRun_runs s a layout pattern l hr hmode hl hran
    · exact exec_patternRun_ignored s a layout pattern hr hmode h
    · exact exec_patternStop_ends s a hr hmode
    · exact exec_bistStart_tests s a groups hr hmode hgroups
  · intro g q
    have hpattern : s.dev.patternOn n = s.dev.tst.patMask.getLsbD n.val := by
      rw [Dev.patternOn, decide_eq_true hmode, Bool.true_and]
    refine ⟨fun hmask hnum hlost hframes _ hbusy => ?_, fun hmask => ?_⟩
    · exact exec_syntheticFrame_first s n i l pat himg hrun hpending hran hactive (hpattern.trans hmask) hnum hlost hframes hbusy
    · obtain ⟨hmem, htraces⟩ := s.runM_same (syntheticFrame n) (syntheticFrame_unselected s n hpending (hpattern.trans hmask))
      exact ⟨_, rfl, hmem, htraces⟩

end Sys2Proof.Machine
end

section
/-! SUPPORT. A frame closes (spec/06_carding.md R219, R220): what its repairs and its seal leave of it, and what follows the close. -/

namespace Sys2Proof.Machine

/-! ### The marks of an open frame (04 R128, R131) -/

/-- The frame, non-conforming also where `b` holds. -/
def Frame.mark (f : Frame) (b : Bool) : Frame := { f with nonConforming := f.nonConforming || b }

theorem Frame.mark_false (f : Frame) : f.mark false = f := by rw [Frame.mark, Bool.or_false]

theorem Frame.mark_mark (f : Frame) (b c : Bool) : (f.mark b).mark c = f.mark (b || c) := by simp only [Frame.mark, Bool.or_assoc]

/-- Of a strand whose newest frame alone is open that frame is marked. -/
theorem Strand.nonConform_newest (g : Strand) (f : Frame) (l : List Frame) (hframes : g.frames = f :: l) (hopen : f.isOpen = true)
    (hclosed : ∀ x ∈ l, x.isOpen = false) : g.nonConform.frames = f.mark true :: l := by
  have hl : (l.map fun x => if x.isOpen then { x with nonConforming := true } else x) = l :=
    (List.map_congr_left fun x hx => if_neg (ne_true_of_eq_false (hclosed x hx))).trans (List.map_id' l)
  rw [Strand.nonConform, hframes, List.map_cons, hl, if_pos hopen, Frame.mark, Bool.or_true]

/-! ### What of a strand its close sets and nothing after it changes -/

/-- The whorls, the ring, and the frames and the row span of strand `n`. -/
def Dev.closedView (n : StrandNo) (d : Dev) : Whl × Skn × List Frame × Nat :=
  (d.whl, d.skn, (d.strands[n]).frames, (d.strands[n]).rowSpan)

theorem Dev.closedView_of_closeView {n : StrandNo} {d e : Dev} (hview : e.closeView n = d.closeView n)
    (hspan : (e.strands[n]).rowSpan = (d.strands[n]).rowSpan) : e.closedView n = d.closedView n := by
  simp only [Dev.closeView, Strand.frameCore, Prod.mk.injEq] at hview
  obtain ⟨-, hwhl, hskn, -, hframes, -⟩ := hview
  rw [Dev.closedView, hwhl, hskn, hframes, hspan, Dev.closedView]

section
variable (d : Dev) (n : StrandNo)

theorem Dev.onStrand_rowSpan (f : Strand → Strand) (h : (f d.strands[n]).rowSpan = (d.strands[n]).rowSpan) :
    ((d.onStrand n f).strands[n]).rowSpan = (d.strands[n]).rowSpan := by
  rw [Dev.onStrand_strand_same, h]

theorem Dev.onStrand_closedView (f : Strand → Strand) (hframes : (f d.strands[n]).frames = (d.strands[n]).frames)
    (hspan : (f d.strands[n]).rowSpan = (d.strands[n]).rowSpan) : (d.onStrand n f).closedView n = d.closedView n := by
  simp only [Dev.closedView, Dev.onStrand_strand_same, hframes, hspan]
  rfl

/-! ### Packets, seed and requests after the close (R225; 05 R189, R195, R633) -/

theorem Dev.commitUnit_strands (k : Nat) (data : List Byte) (marker : Bool) (readers : List Nat) (frame unit : Nat) :
    (d.commitUnit k data marker readers frame unit).1.strands = d.strands := by
  unfold Dev.commitUnit
  by_cases hroom : (if marker then 1 else cellsOf data.length) ≤ (d.bob.queue k).room
  · rw [if_pos hroom]
    rfl
  · rw [if_neg hroom]
    exact d.exhausted_strands k

theorem Dev.commitStats_strands (bs : List Byte) (toSink : Bool) : (d.commitStats n bs toSink).strands = d.strands :=
  d.commitUnit_strands _ _ _ _ _ _

theorem Dev.offerHank_strands (f : Frame) : (d.offerHank n f).strands = d.strands := by
  unfold Dev.offerHank
  split
  · split_ifs <;> rfl
  · rfl

theorem Dev.keepSeed_strands (es : List Exposure) : (d.keepSeed n es).strands = d.strands := by
  unfold Dev.keepSeed
  split_ifs <;> rfl

theorem Dev.checkWarm_strands : d.checkWarm.strands = d.strands := by
  unfold Dev.checkWarm
  split
  · split
    · split_ifs
      · exact congrArg (fun v => v.2.2.2.2) (d.setMode_linkView _ _)
      · rfl
    · rfl
  · rfl

theorem Dev.reportTarget_strands (r : ExpReq) (code : Byte) : (d.reportTarget n r code).strands = d.strands :=
  congrArg (fun e => e.strands) (d.reportTarget_rest n r code)

theorem Dev.foldl_reportTarget_strands (code : Byte) (rs : List ExpReq) :
    (rs.foldl (fun e r => e.reportTarget n r code) d).strands = d.strands :=
  congrArg (fun e => e.strands) (d.foldl_reportTarget_rest n code rs)

theorem Dev.retire_rowSpan (num : Word) : ((d.retire n num).strands[n]).rowSpan = (d.strands[n]).rowSpan := by
  unfold Dev.retire
  extract_lets gone d1
  have hd1 : d1.strands = d.strands := d.foldl_reportTarget_strands n 3 _
  rw [Dev.onStrand_strand_same, hd1]

theorem Dev.sendWrite_rowSpan (r : ExpReq) : ((d.sendWrite n r).strands[n]).rowSpan = (d.strands[n]).rowSpan := by
  rw [Dev.sendWrite_eq, Dev.onStrand_strand_same]
  exact congrArg (fun g => g.rowSpan) (Strand.refreshOpen_frame _ _)

theorem Dev.judgeReq_rowSpan (r : ExpReq) : ((d.judgeReq n r).strands[n]).rowSpan = (d.strands[n]).rowSpan := by
  unfold Dev.judgeReq
  extract_lets t r1 code old d1 d1' d2
  have hd1 : d1.strands = d.strands := d.foldl_reportTarget_strands n 2 old
  have hd1' : (d1'.strands[n]).rowSpan = (d.strands[n]).rowSpan := by
    rw [show d1'.strands[n] = _ from d1.onStrand_strand_same n _, hd1]
  clear_value d1'
  have hd2 : (d2.strands[n]).rowSpan = (d.strands[n]).rowSpan := by
    simp only [d2]
    split_ifs
    · exact hd1'
    · exact (congrArg (fun v : Vector Strand 64 => (v[n]).rowSpan) (d1'.reportTarget_strands n r1 code)).trans hd1'
  clear_value d2
  split_ifs
  · exact (d2.sendWrite_rowSpan n r1).trans hd2
  · exact hd2

theorem Dev.judgeHeld_rowSpan : ((d.judgeHeld n).strands[n]).rowSpan = (d.strands[n]).rowSpan :=
  (Dev.foldl_view (fun e : Dev => (e.strands[n]).rowSpan) (fun e r => e.judgeReq n r) (fun e r => e.judgeReq_rowSpan n r) _ _).trans
    (d.onStrand_rowSpan n _ rfl)

/-! ### The end of the busy state (05 R173, R174) -/

theorem Dev.sendTrigger_closedView (t : Trig) : (d.sendTrigger n t).closedView n = d.closedView n := by
  simp only [Dev.closedView, Dev.sendTrigger_strands, upd_same]
  rfl

theorem Dev.serveQueued_closedView : (d.serveQueued n).closedView n = d.closedView n := by
  unfold Dev.serveQueued
  extract_lets g
  split
  · split_ifs
    · exact (Dev.sendTrigger_closedView _ n _).trans (d.onStrand_closedView n _ rfl rfl)
    · rfl
  · rfl

theorem Dev.endBusy_closedView : (d.endBusy n).closedView n = d.closedView n := by
  cases hv : (d.strands[n]).deferred with
  | none =>
    rw [d.endBusy_none n hv, Dev.serveQueued_closedView]
    exact d.onStrand_closedView n _ rfl rfl
  | some v =>
    have hfree : (d.onStrand n fun g => g.free.undefer).closedView n = d.closedView n := d.onStrand_closedView n _ rfl rfl
    rw [d.endBusy_deferred n v hv]
    split_ifs
    · exact hfree
    · exact (Dev.sendTrigger_closedView _ n _).trans hfree
    · exact (Dev.onStrand_closedView _ n _ rfl rfl).trans hfree

/-- What follows the close of a frame leaves the whorls, the ring, and the frames and the row span of its strand. -/
theorem Dev.afterClose_closedView (stats : List Byte) (f : Frame) (hclosed : ∀ x ∈ (d.strands[n]).frames, x.isOpen = false) :
    (d.afterClose n stats f).closedView n = d.closedView n := by
  unfold Dev.afterClose
  extract_lets d2 d3 d4 d5 d6
  have hd2 : d2.closedView n = d.closedView n :=
    Dev.closedView_of_closeView ((Dev.offerHank_closeView _ n f).trans (d.commitUnit_closeView n _ _ _ _ _ _))
      (by rw [Dev.offerHank_strands, Dev.commitStats_strands])
  clear_value d2
  have hd3 : d3.closedView n = d.closedView n := by
    simp only [d3]
    split_ifs
    · exact (Dev.closedView_of_closeView (d2.keepSeed_closeView n _) (by rw [Dev.keepSeed_strands])).trans hd2
    · exact hd2
  clear_value d3
  have hd4 : d4.closedView n = d.closedView n :=
    (Dev.closedView_of_closeView (d3.retire_closeView n _) (d3.retire_rowSpan n _)).trans hd3
  clear_value d4
  have hframes : (d4.strands[n]).frames = (d.strands[n]).frames := congrArg (fun v => v.2.2.1) hd4
  have hd5 : d5.closedView n = d.closedView n := by
    simp only [d5]
    split_ifs
    · exact (Dev.closedView_of_closeView (d4.judgeHeld_closeView n (hframes ▸ hclosed)) (d4.judgeHeld_rowSpan n)).trans hd4
    · exact hd4
  clear_value d5
  have hd6 : d6.closedView n = d.closedView n := by
    simp only [d6]
    split
    · exact (d5.endBusy_closedView n).trans hd5
    · exact hd5
  clear_value d6
  have hadvance := congrArg (Dev.closedView n) (d6.advanceStreams_frame n)
  refine (Dev.closedView_of_closeView (Dev.checkWarm_closeView _ n) (by rw [Dev.checkWarm_strands])).trans (Eq.trans ?_ hd6)
  exact hadvance

end

/-! ### The repairs and the seal (R219; 05 R190) -/

/-- `x` is the frame `f` closed at `now` with the `height` rows of its profile; `marked`: a mark or the close itself makes it
non-conforming. -/
structure Frame.ClosedAs (f x : Frame) (now height : Nat) (byEnd marked : Bool) : Prop where
  num : x.num = f.num
  isOpen : x.isOpen = false
  close : x.close = now
  byEnd : x.byEnd = byEnd
  nonConforming : marked = true → x.nonConforming = true
  complete : height ≤ f.rowsDone → x.nonConforming = marked
  missing : x.missing = height - f.rowsDone
  rowsDone : x.rowsDone = max f.rowsDone height
  fault : x.departs = true → x.flags.getLsbD 9 = true

/-- A pool that refuses a padded row makes the frame non-conforming too; a frame with all its rows has none to pad. -/
theorem State.padFrame_repairs (s : State) (i : Image) (n : StrandNo) (f : Frame) :
    (s.padFrame i n f).2.close = f.close ∧ (s.padFrame i n f).2.missing = (i.prof n.val).height - f.rowsDone ∧
      (f.nonConforming = true → (s.padFrame i n f).2.nonConforming = true) ∧
      ((i.prof n.val).height ≤ f.rowsDone → (s.padFrame i n f).2.nonConforming = f.nonConforming) := by
  unfold State.padFrame
  extract_lets q missing r
  refine ⟨rfl, rfl, fun h => ?_, fun h => ?_⟩
  · exact (congrArg (· || !r.2) h).trans (Bool.true_or _)
  · have hnone : missing = 0 := Nat.sub_eq_zero_of_le h
    have hr : r.2 = true := by simp only [r, hnone, List.range_zero, List.foldl_nil]
    exact (congrArg (fun b => f.nonConforming || !b) hr).trans (Bool.or_false _)

theorem Frame.fault_rest (f : Frame) : { f.fault with flags := f.flags } = f := by
  rw [Frame.fault]
  split_ifs <;> rfl

/-- FORMAT_FAULT stands in a frame that departs from its format. -/
theorem Frame.fault_flag (f : Frame) (h : f.departs = true) : f.fault.flags.getLsbD 9 = true := by
  have hbit : flagFormatFault.getLsbD 9 = true := rfl
  rw [Frame.fault, if_pos h, BitVec.getLsbD_or, hbit, Bool.or_true]

section
variable (d : Dev) (n : StrandNo) (f : Frame)

/-- The seal sets the closing entries, the flags and the validity of a frame. -/
theorem Dev.sealed_rest :
    { d.sealed n f with closing := f.closing, flags := f.flags, valid := f.valid, firstValid := f.firstValid } = f := by
  unfold Dev.sealed Dev.sealFrame
  extract_lets g es f2 first
  exact congrArg (fun x : Frame => { x with closing := f.closing, flags := f.flags, valid := f.valid, firstValid := f.firstValid })
    (Frame.fault_rest _)

theorem Dev.sealed_fault (h : (d.sealed n f).departs = true) : (d.sealed n f).flags.getLsbD 9 = true := by
  have hdeparts : f.departs = true := (congrArg Frame.departs (d.sealed_rest n f)).symm.trans h
  unfold Dev.sealed Dev.sealFrame
  extract_lets g es f2 first
  exact Frame.fault_flag _ hdeparts

end

/-- The frame that the close of `f` leaves. -/
theorem State.padFrame_sealed_closedAs (s : State) (d : Dev) (n : StrandNo) (i : Image) (f : Frame) (now : Nat) (byEnd : Bool) :
    f.ClosedAs (d.sealed n (s.padFrame i n (f.ending now byEnd)).2) now (i.prof n.val).height byEnd (f.nonConforming || !byEnd) := by
  obtain ⟨pnum, popen, pend, -, prows, -, -, -⟩ := s.padFrame_frame i n (f.ending now byEnd)
  obtain ⟨pclose, pmissing, pmarked, pcomplete⟩ := s.padFrame_repairs i n (f.ending now byEnd)
  generalize (s.padFrame i n (f.ending now byEnd)).2 = y at *
  have hrest := congrArg (fun x : Frame => (x.num, x.isOpen, x.close, x.byEnd, x.nonConforming, x.missing, x.rowsDone)) (d.sealed_rest n y)
  simp only [Prod.mk.injEq] at hrest
  obtain ⟨xnum, xopen, xclose, xend, xmarked, xmissing, xrows⟩ := hrest
  exact
    { num := xnum.trans pnum
      isOpen := xopen.trans popen
      close := xclose.trans pclose
      byEnd := xend.trans pend
      nonConforming := fun h => xmarked.trans (pmarked h)
      complete := fun h => xmarked.trans (pcomplete h)
      missing := xmissing.trans pmissing
      rowsDone := xrows.trans prows
      fault := d.sealed_fault n y }

/-! ### The close of the open frame (R220) -/

/-- The state `t` is `s` with the frame `f` of strand `n`, the newest of its frames `f :: l`, closed as `x`. -/
structure State.Closes (s t : State) (n : StrandNo) (i : Image) (f x : Frame) (l : List Frame) (byEnd marked : Bool) : Prop where
  frame : f.ClosedAs x s.dev.whl.tim (i.prof n.val).height byEnd marked
  view : t.dev.closedView n = (s.dev.whl, s.dev.skn, x :: l, s.dev.whl.tim - f.start)
  mem : { t.mem with fs := s.mem.fs } = s.mem

theorem State.closeFrame_closes (s : State) (n : StrandNo) (i : Image) (f : Frame) (l : List Frame) (byEnd : Bool)
    (himg : s.dev.img = some i) (hframes : (s.dev.strands[n]).frames = f :: l) (hopen : f.isOpen = true)
    (hl : ∀ x ∈ l, x.num ≠ f.num ∧ x.isOpen = false) :
    ∃ x, s.Closes (s.closeFrame n byEnd) n i f x l byEnd (f.nonConforming || !byEnd) := by
  have hclose := s.closeFrame_open n i f l byEnd hframes himg hopen
  have hpad := s.padFrame_closeView i n s.mem.fs (f.ending s.dev.whl.tim byEnd)
  obtain ⟨-, -, -, -, -, -, -, pstart⟩ := s.padFrame_frame i n (f.ending s.dev.whl.tim byEnd)
  have hx := fun d => s.padFrame_sealed_closedAs d n i f s.dev.whl.tim byEnd
  generalize s.padFrame i n (f.ending s.dev.whl.tim byEnd) = p at hclose hpad pstart hx
  have hstart := (congrArg (fun y => y.start) (p.1.dev.sealed_rest n p.2)).trans pstart
  replace hx := hx p.1.dev
  dsimp only at hclose
  generalize p.1.dev.sealed n p.2 = x at hclose hstart hx
  simp only [State.closeView, Dev.closeView, Strand.frameCore, Prod.mk.injEq] at hpad
  obtain ⟨⟨-, pwhl, pskn, -, pframes, -⟩, pmem⟩ := hpad
  have hentered : (p.1.dev.strands[n].onFrame f.num fun _ => x).frames = x :: l :=
    Strand.onFrame_newest _ f l (fun _ => x) (pframes.trans hframes) fun y hy => (hl y hy).1
  rw [hclose]
  refine ⟨x, hx, ?_, pmem⟩
  rw [Dev.afterClose_closedView]
  · simp only [Dev.closedView, Dev.onStrand_strand_same, Strand.closeWith, hentered]
    exact congrArg₂ Prod.mk pwhl (congrArg₂ Prod.mk pskn (congrArg (fun k => (x :: l, s.dev.whl.tim - k)) hstart))
  · rw [Dev.onStrand_strand_same, Strand.closeWith, hentered]
    exact List.forall_mem_cons.2 ⟨hx.isOpen, fun y hy => (hl y hy).2⟩

/-! ### The two events (04 R131; 06 R220) -/

/-- The registers in which the frame end of strand `n` closes its frame `f`. -/
def Dev.atEnd (d : Dev) (p : PortNo) (h : PacketHead) (n : StrandNo) (f : Frame) (wc : Half) : Dev :=
  if f.sensorNo = wc then d.takeHead p h else (d.takeHead p h).nonConform n

/-- The frame end makes a frame non-conforming: a sequence gap comes before it, or its word count is not the start's. -/
def Dev.endsBadly (d : Dev) (p : PortNo) (h : PacketHead) (f : Frame) (wc : Half) : Bool :=
  (d.ports[p]).skips h.seq || decide (wc ≠ f.sensorNo)

section
variable (d : Dev) (p : PortNo) (h : PacketHead) (n : StrandNo) (f : Frame) (l : List Frame) (wc : Half)

theorem Dev.atEnd_rest : { d.atEnd p h n f wc with ports := d.ports, strands := d.strands } = d := by
  unfold Dev.atEnd
  split_ifs
  · exact d.takeHead_rest p h
  · exact d.takeHead_rest p h

variable (hport : portOf n = p) (hframes : (d.strands[n]).frames = f :: l) (hopen : f.isOpen = true)
  (hclosed : ∀ x ∈ l, x.isOpen = false)
include hport hframes hopen hclosed

theorem Dev.takeHead_frames : ((d.takeHead p h).strands[n]).frames = f.mark ((d.ports[p]).skips h.seq) :: l := by
  have hstrand : (d.takeHead p h).strands[n] = (d.takeSeq p h.seq).strands[n] :=
    congrArg (fun v : Vector Strand 64 => v[n]) (d.takeHead_strands p h)
  rw [hstrand, Dev.takeSeq_strand]
  cases hskip : (d.ports[p]).skips h.seq with
  | true => rw [if_pos ⟨rfl, hport⟩, Strand.nonConform_newest _ f l hframes hopen hclosed]
  | false => rw [if_neg fun hx => Bool.false_ne_true hx.1, hframes, Frame.mark_false]

theorem Dev.atEnd_frames : ((d.atEnd p h n f wc).strands[n]).frames = f.mark (d.endsBadly p h f wc) :: l := by
  have hhead := d.takeHead_frames p h n f l hport hframes hopen hclosed
  unfold Dev.atEnd Dev.endsBadly
  split_ifs with hwc
  · rw [hhead, decide_eq_false fun hne => hne hwc.symm, Bool.or_false]
  · rw [Dev.nonConform_strand, if_pos rfl, Strand.nonConform_newest _ _ l hhead hopen hclosed, Frame.mark_mark,
      decide_eq_true (Ne.symm hwc)]

end

section
variable (s : State) (p : PortNo) (h : PacketHead) (vc : Fin 16) (n : StrandNo) (f : Frame) (l : List Frame) (wc : Half)
  (htrained : s.dev.trained p = true) (hat : s.dev.strandAt p vc.val = some n) (hactive : s.dev.active n = true)
  (hframes : (s.dev.strands[n]).frames = f :: l) (hopen : f.isOpen = true)
include htrained hat hactive hframes hopen

/-- The frame end of an active strand closes its open frame. -/
theorem frameEnd_open (hclosed : ∀ x ∈ l, x.isOpen = false) :
    frameEnd p h vc wc s = ({ s with dev := s.dev.atEnd p h n f wc } : State).closeFrame n true := by
  have haccept : s.dev.accept p h vc.val = (s.dev.takeHead p h, some n) :=
    s.dev.accept_known p h vc.val n htrained ((s.dev.takeHead_strandAt p p h vc.val).trans hat)
      ((s.dev.takeHead_active p h n).trans hactive)
  have hhead := s.dev.takeHead_frames p h n f l (Dev.portOf_of_strandAt hat) hframes hopen hclosed
  simp only [frameEnd, haccept, hhead]
  rfl

theorem frameEnd_closes (i : Image) (himg : s.dev.img = some i) (hl : ∀ x ∈ l, x.num ≠ f.num ∧ x.isOpen = false) :
    ∃ x, s.Closes (frameEnd p h vc wc s) n i f x l true (f.nonConforming || s.dev.endsBadly p h f wc) := by
  have hclosed : ∀ x ∈ l, x.isOpen = false := fun x hx => (hl x hx).2
  have hmarked := s.dev.atEnd_frames p h n f l wc (Dev.portOf_of_strandAt hat) hframes hopen hclosed
  have hrest := congrArg (fun e : Dev => (e.img, e.whl, e.skn)) (s.dev.atEnd_rest p h n f wc)
  simp only [Prod.mk.injEq] at hrest
  obtain ⟨eimg, ewhl, eskn⟩ := hrest
  obtain ⟨x, hx, hview, hmem⟩ := State.closeFrame_closes { s with dev := s.dev.atEnd p h n f wc } n i _ l true (eimg.trans himg) hmarked
    hopen hl
  have hbad : ((f.mark (s.dev.endsBadly p h f wc)).nonConforming || !true) = (f.nonConforming || s.dev.endsBadly p h f wc) :=
    Bool.or_false _
  dsimp only at hx hview
  rw [hbad, ewhl] at hx
  rw [ewhl, eskn] at hview
  rw [frameEnd_open s p h vc n f l wc htrained hat hactive hframes hopen hclosed]
  exact ⟨x, { hx with }, hview, hmem⟩

end

/-- Settles O30: both events are the close of the open frame, the frame end with its marks on the frame before it. -/
theorem frameCloses : Obligations.FrameCloses := by
  unfold Obligations.FrameCloses
  intro s n f l i himg hframes hopen hl c byEnd bad hevent
  have hcloses : ∃ (g : State → State) (x : Frame), exec c s = .next (s.runM g) ∧
      s.Closes (g s) n i f x l byEnd (f.nonConforming || bad) := by
    rcases hevent with ⟨rfl, rfl, rfl⟩ | ⟨rfl, p, h, vc, wc, htrained, hat, hactive, rfl, rfl⟩
    · obtain ⟨x, hx⟩ := s.closeFrame_closes n i f l false himg hframes hopen hl
      exact ⟨fun t => t.closeFrame n false, x, rfl, hx⟩
    · obtain ⟨x, hx⟩ := frameEnd_closes s p h vc n f l wc htrained hat hactive hframes hopen i himg hl
      exact ⟨frameEnd p h vc wc, x, rfl, hx⟩
  obtain ⟨g, x, hexec, hx, hview, hmem⟩ := hcloses
  simp only [Dev.closedView, Prod.mk.injEq] at hview
  obtain ⟨hwhl, hskn, hnow, hspan⟩ := hview
  refine ⟨_, x, hexec, ?_, hx.num, hx.isOpen, hx.close, hx.byEnd, hx.nonConforming, hx.complete, hx.missing, hx.rowsDone, hx.fault, ?_,
    hmem, ?_, ?_⟩
  · rw [State.runM_dev, Dev.settle_strands, hnow]
  · rw [State.runM_dev, Dev.settle_strands, hspan]
  · rw [State.runM_dev, Dev.settle_whl, hwhl]
  · rw [State.runM_dev, Dev.settle_skn, hskn]

end Sys2Proof.Machine
end

section
/-! SUPPORT. Tiles, spindles and output frames: what every operation of the scheduler leaves alone, and what it does to the frame of a
key (spec/07_spindle_array.md R231 to R260; 09 R310). -/

namespace Sys2Proof.Machine

/-! ### What the scheduler leaves alone -/

/-- The registers with the spindles, the streams, the pool, SYS and what a report changes as `x` has them. -/
def Dev.besideArray (x d : Dev) : Dev := { d.unreport x with spn := x.spn, streams := x.streams, bob := x.bob, sys := x.sys }

section
variable (x d : Dev)

theorem Dev.raise_besideArray (b y z : Nat) : x.besideArray (d.raise b y z) = x.besideArray d :=
  congrArg (fun e : Dev => { e with spn := x.spn, streams := x.streams, bob := x.bob, sys := x.sys }) (d.unreport_raise x b y z)

theorem Dev.settle_besideArray : x.besideArray d.settle = x.besideArray d :=
  congrArg (fun e : Dev => { e with spn := x.spn, streams := x.streams, bob := x.bob, sys := x.sys }) (d.unreport_settle x)

theorem Dev.onSpn_besideArray (f : Spn → Spn) : x.besideArray (d.onSpn f) = x.besideArray d := rfl

theorem Dev.countCorrected_besideArray (store : Fin 2) (n : Nat) : x.besideArray (d.countCorrected store n) = x.besideArray d := by
  unfold Dev.countCorrected
  split_ifs
  · rfl
  · exact Dev.raise_besideArray x _ 16 store.val n

theorem Dev.dropTilePkt_besideArray (st : StreamNo) (key t : Nat) : x.besideArray (d.dropTilePkt st key t) = x.besideArray d :=
  (congrArg x.besideArray (d.dropTilePkt_withOutput x st key t) : x.besideArray (x.withOutput _) = x.besideArray (x.withOutput d))

theorem Dev.substitute_besideArray (st : StreamNo) (key t : Nat) : x.besideArray (d.substitute st key t) = x.besideArray d :=
  (congrArg x.besideArray (d.substitute_withOutput x st key t) : x.besideArray (x.withOutput _) = x.besideArray (x.withOutput d))

theorem Dev.markSpareLow_besideArray : x.besideArray d.markSpareLow = x.besideArray d := by
  unfold Dev.markSpareLow
  split_ifs
  · exact Dev.foldl_view x.besideArray _ (fun e st => by split_ifs <;> rfl) _ _
  · rfl

theorem Dev.payOwed_besideArray (n : SpindleNo) : x.besideArray (d.payOwed n) = x.besideArray d := by
  unfold Dev.payOwed
  split_ifs
  · exact Dev.markSpareLow_besideArray x _
  · rfl

theorem Dev.freeSpindle_besideArray (n : SpindleNo) : x.besideArray (d.freeSpindle n) = x.besideArray d :=
  Dev.payOwed_besideArray x _ n

theorem Dev.stopJobs_besideArray (st : StreamNo) (key t : Nat) : x.besideArray (d.stopJobs st key t) = x.besideArray d := by
  refine Dev.foldl_view x.besideArray _ (fun e n => ?_) _ _
  split
  · split_ifs
    · exact Dev.freeSpindle_besideArray x e n
    · rfl
  · rfl

theorem Dev.quarantine_besideArray (n : SpindleNo) (trap : Nat) : x.besideArray (d.quarantine n trap).1 = x.besideArray d := by
  unfold Dev.quarantine
  extract_lets y q d1
  split_ifs
  · exact Dev.raise_besideArray x _ 8 n.val trap
  · exact Dev.raise_besideArray x _ 8 n.val trap

theorem Dev.afterQuarantine_besideArray (n : SpindleNo) (worked : Bool) : x.besideArray (d.afterQuarantine n worked) = x.besideArray d := by
  have hp : x.besideArray (d.promote n) = x.besideArray d := by
    unfold Dev.promote
    split <;> rfl
  unfold Dev.afterQuarantine
  rw [Dev.markSpareLow_besideArray]
  split_ifs
  · exact hp
  · rfl

end

/-! ### What becomes of a tile, case by case -/

/-- The device with a tile of an output frame under way again on spindle `m` (R246, R247). -/
def Dev.rerunTile (d : Dev) (m : SpindleNo) (st : StreamNo) (key t : Nat) : Dev :=
  (d.startJob m st key t false).onOut st key fun g => g.onTile t fun y =>
    { y with st := .running, rerun := true, shadowed := false, first := none, firstBy := none, otherTrapped := false }

/-- A tile that fails is run again where R247 finds a spindle, and else substituted; one that does not run stays (R246). -/
theorem State.failTile_cases (s : State) (n : SpindleNo) (st : StreamNo) (key t : Nat) :
    s.failTile n st key t = s ∨
      (∃ m left cyc, s.dev.rerunOn n left cyc = some m ∧ s.failTile n st key t = { s with dev := s.dev.rerunTile m st key t }) ∨
      s.failTile n st key t = { s with dev := s.dev.substitute st key t } := by
  unfold State.failTile
  split
  · exact .inl rfl
  · split
    · split_ifs
      · exact .inl rfl
      · exact .inr (.inr rfl)
      · dsimp only
        split
        · next m hm => exact .inr (.inl ⟨m, _, _, hm, rfl⟩)
        · exact .inr (.inr rfl)
    · exact .inl rfl

/-- A trapped copy: the other copy's bytes are taken, or it is waited for, or the tile fails (R245). -/
theorem State.copyTrapped_cases (s : State) (n : SpindleNo) (j : Job) :
    s.copyTrapped n j = s ∨ (∃ f l e bs, s.copyTrapped n j = s.commitTile j.stream f l e j.tile bs) ∨
      (∃ h, s.copyTrapped n j = { s with dev := s.dev.onOut j.stream j.key h }) ∨
      s.copyTrapped n j = s.failTile n j.stream j.key j.tile := by
  unfold State.copyTrapped
  split
  · exact .inl rfl
  · split
    · split_ifs
      · exact .inl rfl
      · split
        · exact .inr (.inl ⟨_, _, _, _, rfl⟩)
        · exact .inr (.inr (.inl ⟨_, rfl⟩))
        · exact .inr (.inr (.inr rfl))
    · exact .inl rfl

/-- The device after what still ran for a tile was stopped and DEADLINE counted and reported (R241). -/
def Dev.missDeadline (d : Dev) (st : StreamNo) (key t : Nat) : Dev :=
  ((d.stopJobs st key t).onSpn fun p => { p with deadlines := satAdd p.deadlines 1 }).raise 11 st.val t

/-- The device after what still ran for a tile was stopped and its shadow copy counted as skipped (R245). -/
def Dev.skipShadow (d : Dev) (st : StreamNo) (key t : Nat) : Dev :=
  (d.stopJobs st key t).onSpn fun p => { p with skipped := satAdd p.skipped 1 }

/-- A tile at its H: nothing more runs for one that has ended, a held original is taken, any other is late and is substituted
(R241, R245). -/
theorem State.expireTile_cases (s : State) (st : StreamNo) (key t : Nat) :
    (s.expireTile st key t = s ∧
        ∀ f c, (s.dev.streams[st]).out key = some f → s.dev.cfgOf st f = some c → f.tiles[t]? = none) ∨
      ∃ f l e x, (s.dev.streams[st]).out key = some f ∧ s.dev.cfgOf st f = some (l, e) ∧ f.tiles[t]? = some x ∧
        (x.ended = true ∧ s.expireTile st key t = { s with dev := s.dev.stopJobs st key t } ∨
          (∃ bs, s.expireTile st key t = ({ s with dev := s.dev.skipShadow st key t } : State).commitTile st f l e t bs) ∨
          s.expireTile st key t = { s with dev := (s.dev.missDeadline st key t).substitute st key t }) := by
  unfold State.expireTile
  split
  · next hout => exact .inl ⟨rfl, fun f c hf => absurd (hout.symm.trans hf) (by simp)⟩
  · next f hout =>
    split
    · next l e x hcfg htile =>
      refine .inr ⟨f, l, e, x, hout, hcfg, htile, ?_⟩
      dsimp only
      split
      · exact .inr (.inl ⟨_, rfl⟩)
      · next hst => exact .inl ⟨by simp [Tile.ended, hst], rfl⟩
      · next hst => exact .inl ⟨by simp [Tile.ended, Tile.replaced, hst], rfl⟩
      · next hst => exact .inl ⟨by simp [Tile.ended, Tile.replaced, hst], rfl⟩
      · exact .inr (.inr rfl)
    · next hnone =>
      refine .inl ⟨rfl, fun g c hg hc => ?_⟩
      obtain rfl : f = g := Option.some.inj (hout.symm.trans hg)
      exact Option.eq_none_iff_forall_ne_some.2 fun x hx => hnone c.1 c.2 x hc hx

section
variable (x : Dev) (s : State)

theorem State.commitTile_besideArray (st : StreamNo) (f : OutFrame) (l : LayoutCfg) (e : StreamCfg) (t : Nat) (bs : List Byte) :
    x.besideArray (s.commitTile st f l e t bs).dev = x.besideArray s.dev := rfl

theorem State.failTile_besideArray (n : SpindleNo) (st : StreamNo) (key t : Nat) :
    x.besideArray (s.failTile n st key t).dev = x.besideArray s.dev := by
  rcases s.failTile_cases n st key t with h | ⟨m, _, _, _, h⟩ | h
  · rw [h]
  · rw [h]; rfl
  · rw [h]; exact Dev.substitute_besideArray x _ st key t

theorem State.copyTrapped_besideArray (n : SpindleNo) (j : Job) :
    x.besideArray (s.copyTrapped n j).dev = x.besideArray s.dev := by
  rcases s.copyTrapped_cases n j with h | ⟨f, l, e, bs, h⟩ | ⟨g, h⟩ | h
  · rw [h]
  · rw [h]; rfl
  · rw [h]; rfl
  · rw [h]; exact State.failTile_besideArray x s n _ _ _

theorem State.trap_besideArray (n : SpindleNo) (code : Nat) : x.besideArray (s.trap n code).dev = x.besideArray s.dev := by
  unfold State.trap
  split
  · rfl
  · exact (Dev.afterQuarantine_besideArray x _ _ _).trans
      ((State.copyTrapped_besideArray x _ _ _).trans (Dev.quarantine_besideArray x _ _ _))

theorem State.inputFailure_besideArray (n : SpindleNo) : x.besideArray (s.inputFailure n).dev = x.besideArray s.dev := by
  unfold State.inputFailure
  split
  · rfl
  · exact (State.copyTrapped_besideArray x _ _ _).trans (Dev.freeSpindle_besideArray x _ _)

theorem State.inputLost_besideArray (n : SpindleNo) : x.besideArray (s.inputLost n).dev = x.besideArray s.dev := by
  have hfree := Dev.freeSpindle_besideArray x s.dev n
  unfold State.inputLost
  split
  · rfl
  · dsimp only
    split
    · split_ifs
      · exact hfree
      · exact (Dev.substitute_besideArray x _ _ _ _).trans hfree
    · exact hfree

theorem State.expireTile_besideArray (st : StreamNo) (key t : Nat) :
    x.besideArray (s.expireTile st key t).dev = x.besideArray s.dev := by
  have hstop := Dev.stopJobs_besideArray x s.dev st key t
  have hmiss : x.besideArray (s.dev.missDeadline st key t) = x.besideArray s.dev := by
    rw [Dev.missDeadline, Dev.raise_besideArray, Dev.onSpn_besideArray, hstop]
  rcases s.expireTile_cases st key t with ⟨h, _⟩ | ⟨f, l, e, y, _, _, _, ⟨_, h⟩ | ⟨bs, h⟩ | h⟩
  · rw [h]
  · rw [h, hstop]
  · rw [h, State.commitTile_besideArray, Dev.skipShadow, Dev.onSpn_besideArray, hstop]
  · rw [h, Dev.substitute_besideArray, hmiss]

end

/-! ### Output frames by key -/

theorem Stream.key_of_out {g : Stream} {key : Nat} {f : OutFrame} (h : g.out key = some f) : f.key = key := by
  simpa using List.find?_some h

/-- A change of every frame that leaves the keys alone. -/
theorem Stream.out_map (g : Stream) (key : Nat) (h : OutFrame → OutFrame) (hkey : ∀ f, (h f).key = f.key) :
    ({ g with frames := g.frames.map h } : Stream).out key = (g.out key).map h := by
  simp only [Stream.out, List.find?_map, Function.comp_def, hkey]

/-- A change of the frame of a key. -/
theorem Stream.out_onOut (g : Stream) (key : Nat) (h : OutFrame → OutFrame) (hkey : ∀ f, (h f).key = f.key) :
    (g.onOut key h).out key = (g.out key).map h := by
  rw [Stream.onOut, Stream.out_map _ _ _ fun f => by split_ifs <;> simp [hkey]]
  cases hf : g.out key with
  | none => rfl
  | some f => exact congrArg some (if_pos (Stream.key_of_out hf))

theorem Dev.onOut_out (d : Dev) (st : StreamNo) (key : Nat) (h : OutFrame → OutFrame) (hkey : ∀ f, (h f).key = f.key) :
    ((d.onOut st key h).streams[st]).out key = ((d.streams[st]).out key).map h := by
  rw [Dev.onOut, Dev.onStream_get, Stream.out_onOut _ _ _ hkey]

/-- A tile of a frame of which one tile was changed. -/
theorem OutFrame.onTile_get (f : OutFrame) (t i : Nat) (h : Tile → Tile) :
    (f.onTile t h).tiles[i]? = (f.tiles[i]?).map fun x => if i = t then h x else x := by
  simp [OutFrame.onTile, List.getElem?_mapIdx]

theorem Dev.cfgOf_congr {d e : Dev} {st : StreamNo} {f g : OutFrame} (himg : e.img = d.img) (hl : g.layout = f.layout) :
    e.cfgOf st g = d.cfgOf st f := by
  simp only [Dev.cfgOf, Dev.layoutCfg, himg, hl]

/-! ### Output frames only go forward -/

/-- `g` is `f` later on: the same frame with as many bands handed over, in which no tile that has ended is taken up again. -/
structure OutFrame.Advances (f g : OutFrame) : Prop where
  layout : g.layout = f.layout
  handed : g.handed = f.handed
  ended : ∀ (t : Nat) (y : Tile), g.tiles[t]? = some y → ∃ x : Tile, f.tiles[t]? = some x ∧ (x.ended = true → y.ended = true)

namespace OutFrame.Advances

theorem refl (f : OutFrame) : f.Advances f := ⟨rfl, rfl, fun _ y hy => ⟨y, hy, id⟩⟩

theorem trans {f g h : OutFrame} (hfg : f.Advances g) (hgh : g.Advances h) : f.Advances h where
  layout := hgh.layout.trans hfg.layout
  handed := hgh.handed.trans hfg.handed
  ended t z hz := by
    obtain ⟨y, hy, hyz⟩ := hgh.ended t z hz
    obtain ⟨x, hx, hxy⟩ := hfg.ended t y hy
    exact ⟨x, hx, hyz ∘ hxy⟩

/-- Fields beside the tiles may change. -/
theorem of_tiles {f g : OutFrame} (hl : g.layout = f.layout) (hh : g.handed = f.handed) (ht : g.tiles = f.tiles) : f.Advances g :=
  ⟨hl, hh, fun _ y hy => ⟨y, ht ▸ hy, id⟩⟩

/-- A tile may end. -/
theorem onTile (f : OutFrame) (t : Nat) (h : Tile → Tile) (hh : ∀ x, (h x).ended = true) : f.Advances (f.onTile t h) where
  layout := rfl
  handed := rfl
  ended i y hy := by
    rw [OutFrame.onTile_get, Option.map_eq_some_iff] at hy
    obtain ⟨x, hx, rfl⟩ := hy
    refine ⟨x, hx, fun hend => ?_⟩
    split_ifs
    · exact hh x
    · exact hend

end OutFrame.Advances

/-- From `d` to `e` the frame of a key goes forward. -/
def Dev.Advances (st : StreamNo) (key : Nat) (d e : Dev) : Prop :=
  ∀ f, (d.streams[st]).out key = some f → ∃ g, (e.streams[st]).out key = some g ∧ f.Advances g

namespace Dev.Advances

variable {st : StreamNo} {key : Nat} {d e : Dev}

theorem trans {x : Dev} (hde : Advances st key d e) (hex : Advances st key e x) : Advances st key d x := fun f hf => by
  obtain ⟨g, hg, hfg⟩ := hde f hf
  obtain ⟨h, hh, hgh⟩ := hex g hg
  exact ⟨h, hh, hfg.trans hgh⟩

theorem of_frames (h : (e.streams[st]).frames = (d.streams[st]).frames) : Advances st key d e := fun f hf =>
  ⟨f, by rw [← hf, Stream.out, Stream.out, h], .refl f⟩

theorem of_streams (h : e.streams = d.streams) : Advances st key d e := of_frames (by rw [h])

theorem foldl {α : Type} (g : Dev → α → Dev) (h : ∀ e a, Advances st key e (g e a)) (l : List α) (d : Dev) :
    Advances st key d (l.foldl g d) :=
  List.foldlRecOn (motive := Advances st key d) l g (of_streams rfl) fun e he a _ => he.trans (h e a)

theorem onOut (d : Dev) (h : OutFrame → OutFrame) (hkey : ∀ f, (h f).key = f.key) (hadv : ∀ f : OutFrame, f.Advances (h f)) :
    Advances st key d (d.onOut st key h) := fun f hf =>
  ⟨h f, by rw [Dev.onOut_out _ _ _ _ hkey, hf, Option.map_some], hadv f⟩

end Dev.Advances

/-- From `d` to `e` the frame of a key changes in its SPARE_LOW mark alone (R263). -/
def Dev.MarksOut (st : StreamNo) (key : Nat) (d e : Dev) : Prop :=
  ∀ f, (d.streams[st]).out key = some f → ∃ b, (e.streams[st]).out key = some { f with spareLow := b }

theorem Dev.MarksOut.of_streams {st : StreamNo} {key : Nat} {d e : Dev} (h : e.streams = d.streams) : Dev.MarksOut st key d e :=
  fun f hf => ⟨f.spareLow, h ▸ hf⟩

theorem Dev.MarksOut.trans {st : StreamNo} {key : Nat} {d e x : Dev} (hde : Dev.MarksOut st key d e) (hex : Dev.MarksOut st key e x) :
    Dev.MarksOut st key d x := fun f hf => by
  obtain ⟨b, hb⟩ := hde f hf
  obtain ⟨c, hc⟩ := hex _ hb
  exact ⟨c, hc⟩

theorem Dev.MarksOut.advances {st : StreamNo} {key : Nat} {d e : Dev} (h : Dev.MarksOut st key d e) : Dev.Advances st key d e :=
  fun f hf => by
    obtain ⟨b, hb⟩ := h f hf
    exact ⟨_, hb, .of_tiles rfl rfl rfl⟩

theorem Dev.markSpareLow_marks (st : StreamNo) (key : Nat) (d : Dev) : Dev.MarksOut st key d d.markSpareLow := by
  unfold Dev.markSpareLow
  split_ifs
  · refine List.foldlRecOn (motive := Dev.MarksOut st key d) _ _ (.of_streams rfl) fun e he st' _ => he.trans ?_
    split_ifs
    · exact .of_streams rfl
    · intro f hf
      by_cases hst : st = st'
      · subst hst
        refine ⟨f.spareLow || d.bandsLeft st f, ?_⟩
        rw [Dev.onStream_get, Stream.out_map _ _ (fun f => { f with spareLow := f.spareLow || d.bandsLeft st f }) fun _ => rfl, hf]
        rfl
      · refine ⟨f.spareLow, ?_⟩
        rw [Dev.onStream, upd_other _ _ _ _ hst]
        exact hf
  · exact .of_streams rfl

theorem Dev.freeSpindle_marks (st : StreamNo) (key : Nat) (d : Dev) (n : SpindleNo) : Dev.MarksOut st key d (d.freeSpindle n) := by
  unfold Dev.freeSpindle Dev.payOwed
  split_ifs
  · refine Dev.MarksOut.trans ?_ (Dev.markSpareLow_marks st key _)
    exact .of_streams rfl
  · exact .of_streams rfl

theorem Dev.stopJobs_advances (st st' : StreamNo) (key key' t : Nat) (d : Dev) : Dev.Advances st key d (d.stopJobs st' key' t) := by
  refine Dev.Advances.foldl _ (fun e n => ?_) _ _
  split
  · split_ifs
    · exact (Dev.freeSpindle_marks st key e n).advances
    · exact .of_streams rfl
  · exact .of_streams rfl

theorem Dev.trimCredits_streams (d : Dev) : d.trimCredits.streams = d.streams := by
  unfold Dev.trimCredits
  split <;> rfl

theorem Dev.dropTilePkt_streams (d : Dev) (st : StreamNo) (key t : Nat) : (d.dropTilePkt st key t).streams = d.streams := by
  unfold Dev.dropTilePkt
  split_ifs
  · rfl
  · exact Dev.trimCredits_streams _

theorem Dev.markSubst_advances (st : StreamNo) (key t : Nat) (d : Dev) : Dev.Advances st key d (d.markSubst st key t) :=
  Dev.Advances.trans (e := d.onOut st key fun f => f.onTile t fun y => { y with st := .substituted, first := none })
    (.onOut d _ (fun _ => rfl) fun f => .onTile f t _ fun _ => rfl) (.of_streams (Dev.dropTilePkt_streams _ st key t))

theorem Dev.judgeRepeat_advances (st : StreamNo) (key : Nat) (d : Dev) : Dev.Advances st key d (d.judgeRepeat st key) := by
  have hrepeat (e : Dev) : Dev.Advances st key e (e.repeatFrame st key) := by
    unfold Dev.repeatFrame
    split
    · exact .of_streams rfl
    · split
      · exact .of_streams rfl
      · refine Dev.Advances.trans ?_ (Dev.Advances.foldl _ (fun x t => Dev.markSubst_advances st key t x) _ _)
        exact Dev.Advances.onOut e _ (fun _ => rfl) fun _ => .of_tiles rfl rfl rfl
  unfold Dev.judgeRepeat
  extract_lets d1
  have hd1 : Dev.Advances st key d d1 := Dev.Advances.onOut d _ (fun _ => rfl) fun _ => .of_tiles rfl rfl rfl
  split
  · split
    · split_ifs
      · exact hd1.trans (hrepeat d1)
      · exact hd1
    · exact hd1
  · exact hd1

theorem Dev.substitute_advances (st : StreamNo) (key t : Nat) (d : Dev) : Dev.Advances st key d (d.substitute st key t) :=
  (Dev.markSubst_advances st key t d).trans (Dev.judgeRepeat_advances st key _)

/-- The frame with a tile complete and the sums of its tone map as `acc` (R241; 08 R287). -/
def OutFrame.complete (f : OutFrame) (t : Nat) (acc : List (Nat × Nat)) : OutFrame :=
  { (f.onTile t fun x => { x with st := .complete, first := none }) with ltmAcc := acc }

/-- A committed tile is complete in its frame. -/
theorem State.commitTile_streams (s : State) (st : StreamNo) (f : OutFrame) (l : LayoutCfg) (e : StreamCfg) (t : Nat) (bs : List Byte) :
    ∃ acc, (s.commitTile st f l e t bs).dev.streams = (s.dev.onOut st f.key fun g => g.complete t acc).streams := ⟨_, rfl⟩

theorem State.commitTile_advances (s : State) (st : StreamNo) (f : OutFrame) (l : LayoutCfg) (e : StreamCfg) (t : Nat) (bs : List Byte) :
    Dev.Advances st f.key s.dev (s.commitTile st f l e t bs).dev := by
  obtain ⟨acc, h⟩ := s.commitTile_streams st f l e t bs
  refine Dev.Advances.trans (.onOut s.dev (fun g => g.complete t acc) (fun _ => rfl) fun g => ?_) (.of_streams h)
  exact OutFrame.Advances.trans (.onTile g t _ fun _ => rfl) (.of_tiles rfl rfl rfl)

theorem Dev.missDeadline_advances (st : StreamNo) (key t : Nat) (d : Dev) : Dev.Advances st key d (d.missDeadline st key t) :=
  (Dev.stopJobs_advances st st key key t d).trans (.of_streams (by rw [Dev.missDeadline, Dev.raise_streams, Dev.onSpn_streams]))

theorem Dev.skipShadow_advances (st : StreamNo) (key t : Nat) (d : Dev) : Dev.Advances st key d (d.skipShadow st key t) :=
  (Dev.stopJobs_advances st st key key t d).trans (.of_streams (by rw [Dev.skipShadow, Dev.onSpn_streams]))

theorem State.expireTile_advances (s : State) (st : StreamNo) (key t : Nat) :
    Dev.Advances st key s.dev (s.expireTile st key t).dev := by
  rcases s.expireTile_cases st key t with ⟨h, _⟩ | ⟨f, l, e, x, hf, _, _, ⟨_, h⟩ | ⟨bs, h⟩ | h⟩
  · rw [h]; exact .of_streams rfl
  · rw [h]; dsimp only; exact Dev.stopJobs_advances st st key key t s.dev
  · rw [h]
    obtain rfl := Stream.key_of_out hf
    exact Dev.Advances.trans (Dev.skipShadow_advances st f.key t s.dev)
      (State.commitTile_advances { s with dev := s.dev.skipShadow st f.key t } st f l e t bs)
  · rw [h]
    dsimp only
    exact Dev.Advances.trans (Dev.missDeadline_advances st key t s.dev) (Dev.substitute_advances st key t (s.dev.missDeadline st key t))

/-! ### At its H a tile ends (R241) -/

/-- Tile `t` of the frame of a key has ended, where the frame has such a tile. -/
def Dev.TileEnded (st : StreamNo) (key t : Nat) (d : Dev) : Prop :=
  ∀ g y, (d.streams[st]).out key = some g → g.tiles[t]? = some y → y.ended = true

/-- A tile that has ended stays so while its frame goes forward. -/
theorem Dev.TileEnded.later {st : StreamNo} {key t : Nat} {d e : Dev} (h : Dev.TileEnded st key t d)
    (hf : ((d.streams[st]).out key).isSome = true)
    (hadv : Dev.Advances st key d e) : Dev.TileEnded st key t e := by
  intro g' y hg' hy
  obtain ⟨f, hf⟩ := Option.isSome_iff_exists.1 hf
  obtain ⟨g, hg, hfg⟩ := hadv f hf
  obtain rfl : g = g' := Option.some.inj (hg.symm.trans hg')
  obtain ⟨x, hx, hxy⟩ := hfg.ended t y hy
  exact hxy (h f x hf hx)

/-- A tile changed to one that has ended. -/
theorem Dev.onOut_tileEnded (d : Dev) (st : StreamNo) (key t : Nat) (h : OutFrame → OutFrame) (hkey : ∀ f, (h f).key = f.key)
    (g : Tile → Tile) (htiles : ∀ f, (h f).tiles = (f.onTile t g).tiles) (hg : ∀ x, (g x).ended = true) :
    Dev.TileEnded st key t (d.onOut st key h) := by
  intro f' y hf' hy
  rw [Dev.onOut_out _ _ _ _ hkey, Option.map_eq_some_iff] at hf'
  obtain ⟨f, _, rfl⟩ := hf'
  rw [htiles, OutFrame.onTile_get, Option.map_eq_some_iff] at hy
  obtain ⟨x, _, rfl⟩ := hy
  rw [if_pos rfl]
  exact hg x

/-- At its H a tile of a frame whose layout is known ends. -/
theorem State.expireTile_ended (s : State) (st : StreamNo) (key t : Nat) (f : OutFrame) (c : LayoutCfg × StreamCfg)
    (hf : (s.dev.streams[st]).out key = some f) (hc : s.dev.cfgOf st f = some c) :
    Dev.TileEnded st key t (s.expireTile st key t).dev := by
  have hsome : ((s.dev.streams[st]).out key).isSome = true := by rw [hf]; rfl
  rcases s.expireTile_cases st key t with ⟨h, hnone⟩ | ⟨f', l, e, x, hf', _, hx, ⟨hend, h⟩ | ⟨bs, h⟩ | h⟩
  · rw [h]
    intro g y hg hy
    obtain rfl : f = g := Option.some.inj (hf.symm.trans hg)
    exact absurd (hy.symm.trans (hnone f c hf hc)) (by simp)
  · rw [h]
    dsimp only
    refine Dev.TileEnded.later (fun g y hg hy => ?_) hsome (Dev.stopJobs_advances st st key key t s.dev)
    obtain rfl : f' = g := Option.some.inj (hf'.symm.trans hg)
    obtain rfl : x = y := Option.some.inj (hx.symm.trans hy)
    exact hend
  · rw [h]
    obtain rfl := Stream.key_of_out hf'
    obtain ⟨acc, hstreams⟩ := State.commitTile_streams { s with dev := s.dev.skipShadow st f'.key t } st f' l e t bs
    rw [Dev.TileEnded, hstreams]
    exact Dev.onOut_tileEnded _ st f'.key t _ (fun _ => rfl) (fun x => { x with st := .complete, first := none }) (fun _ => rfl)
      fun _ => rfl
  · rw [h]
    dsimp only
    obtain ⟨f1, hf1, _⟩ := Dev.missDeadline_advances st key t s.dev f hf
    obtain ⟨f2, hf2, _⟩ := Dev.markSubst_advances st key t _ f1 hf1
    refine Dev.TileEnded.later ?_ (by rw [hf2]; rfl) (Dev.judgeRepeat_advances st key _)
    rw [Dev.markSubst, Dev.TileEnded, Dev.dropTilePkt_streams]
    exact Dev.onOut_tileEnded _ st key t _ (fun _ => rfl) (fun y => { y with st := .substituted, first := none }) (fun _ => rfl)
      fun _ => rfl

end Sys2Proof.Machine
end

section
/-! SUPPORT. Dispatch, completion, traps and self-tests of the spindles (spec/07_spindle_array.md R238 to R248, R258, R260, R635; 01 R30,
R38). -/

namespace Sys2Proof.Machine

/-! ### Dispatch (R238, R239, R244) -/

theorem Stream.onOut_onOut (g : Stream) (key : Nat) (f h : OutFrame → OutFrame) (hkey : ∀ x, (f x).key = x.key) :
    (g.onOut key f).onOut key h = g.onOut key fun x => h (f x) := by
  simp only [Stream.onOut, List.map_map]
  congr 2
  funext x
  by_cases hx : x.key = key
  · simp only [Function.comp_apply, if_pos hx, hkey]
  · simp only [Function.comp_apply, if_neg hx]

theorem Dev.onOut_onOut (d : Dev) (st : StreamNo) (key : Nat) (f h : OutFrame → OutFrame) (hkey : ∀ x, (f x).key = x.key) :
    (d.onOut st key f).onOut st key h = d.onOut st key fun x => h (f x) := by
  simp only [Dev.onOut, Dev.onStream_onStream, Stream.onOut_onOut _ _ _ _ hkey]

/-- The longest idle spindle is one of those asked for. -/
theorem Dev.longestIdle_mem (d : Dev) (ns : List SpindleNo) (m : SpindleNo) (h : d.longestIdle ns = some m) : m ∈ ns := by
  refine List.foldlRecOn (motive := fun b : Option SpindleNo => ∀ m, b = some m → m ∈ ns) ns _ (fun m hm => absurd hm (by simp))
    (fun b hb k hk m hm => ?_) m h
  split at hm
  · exact Option.some.inj hm ▸ hk
  · next j =>
    split_ifs at hm
    · exact Option.some.inj hm ▸ hk
    · exact hb m hm

theorem Dev.jobless_of_idles {d : Dev} {st : SpinState} {b : Bool} {m : SpindleNo} (h : m ∈ d.idlesIn st b) :
    (d.spn.spindles[m]).job = none := by
  simp only [Dev.idlesIn, Dev.idleIn, List.mem_filter, Bool.and_eq_true, decide_eq_true_eq] at h
  obtain ⟨_, ⟨_, hjob⟩, _⟩ := h
  exact Option.isNone_iff_eq_none.1 hjob

/-- A shadow copy goes to a spindle without a job. -/
theorem Dev.jobless_of_shadowFor {d : Dev} {n m : SpindleNo} (h : d.shadowFor n = some m) : (d.spn.spindles[m]).job = none := by
  unfold Dev.shadowFor at h
  split at h
  · next k l hl =>
    obtain rfl : k = m := Option.some.inj h
    have hmem : k ∈ d.idlesIn .spare (!inB n) ++ d.idlesIn .spare (inB n) := hl ▸ List.mem_cons_self
    exact (List.mem_append.1 hmem).elim Dev.jobless_of_idles Dev.jobless_of_idles
  · exact Dev.jobless_of_idles (d.longestIdle_mem _ m h)

/-- The ready tile under way on a spindle, without a shadow copy. -/
def Dev.dispatchTile (d : Dev) (n : SpindleNo) (r : Ready) : Dev :=
  ((d.startJob n r.st r.key r.tile false).onSpn fun p => { p with dispatched := p.dispatched + 1 }).onOut r.st r.key
    fun f => f.onTile r.tile fun x => { x with st := .running }

/-- The first ready tile goes to the longest idle spindle; the 64th gets a shadow copy, or its want is counted. -/
theorem tileDispatch_cases (d : Dev) (n : SpindleNo) (r : Ready)
    (hn : d.longestIdle (allSpindles.filter fun n => d.idleIn .working n) = some n) (hr : firstReady d.readyTiles = some r) :
    tileDispatch d = d.dispatchTile n r ∨
      (d.dispatchTile n r).spn.dispatched % 64 = 0 ∧
        ((∃ m, ((d.dispatchTile n r).spn.spindles[m]).job = none ∧
            tileDispatch d = ((d.dispatchTile n r).startJob m r.st r.key r.tile true).onOut r.st r.key
              fun f => f.onTile r.tile fun x => { x with shadowed := true }) ∨
          tileDispatch d = (d.dispatchTile n r).onSpn fun p => { p with skipped := satAdd p.skipped 1 }) := by
  have heq : tileDispatch d = if (d.dispatchTile n r).spn.dispatched % 64 = 0 then
      match (d.dispatchTile n r).shadowFor n with
      | some m => ((d.dispatchTile n r).startJob m r.st r.key r.tile true).onOut r.st r.key
          fun f => f.onTile r.tile fun x => { x with shadowed := true }
      | none => (d.dispatchTile n r).onSpn fun p => { p with skipped := satAdd p.skipped 1 }
      else d.dispatchTile n r := by
    rw [tileDispatch, hn, hr]
    rfl
  by_cases h64 : (d.dispatchTile n r).spn.dispatched % 64 = 0
  · rw [heq, if_pos h64]
    refine .inr ⟨h64, ?_⟩
    cases hm : (d.dispatchTile n r).shadowFor n with
    | some m => exact .inl ⟨m, Dev.jobless_of_shadowFor hm, rfl⟩
    | none => exact .inr rfl
  · rw [heq, if_neg h64]
    exact .inl rfl

/-- What a dispatch does: the scheduler as `p`, and `h` done to the frame of the tile. -/
structure Dispatched (d : Dev) (n : SpindleNo) (r : Ready) (p : Spn) (h : OutFrame → OutFrame) : Prop where
  result : tileDispatch d = ({ d with spn := p } : Dev).onOut r.st r.key h
  key : ∀ f, (h f).key = f.key
  running : ∀ f, (h f).tiles[r.tile]?.map Tile.st = (f.tiles[r.tile]?).map fun _ => .running
  count : p.dispatched = d.spn.dispatched + 1
  job : (p.spindles[n]).job = some ⟨r.st, r.key, r.tile, false, d.whl.tim⟩
  others : p.dispatched % 64 ≠ 0 → ∀ m, m ≠ n → p.spindles[m] = d.spn.spindles[m]

theorem tileDispatch_dispatched (d : Dev) (n : SpindleNo) (r : Ready)
    (hn : d.longestIdle (allSpindles.filter fun n => d.idleIn .working n) = some n) (hr : firstReady d.readyTiles = some r) :
    ∃ p h, Dispatched d n r p h := by
  have hjob : ((d.dispatchTile n r).spn.spindles[n]).job = some ⟨r.st, r.key, r.tile, false, d.whl.tim⟩ :=
    congrArg Spindle.job (upd_same d.spn.spindles n _)
  have hothers : ∀ m, m ≠ n → (d.dispatchTile n r).spn.spindles[m] = d.spn.spindles[m] := fun m hm => upd_other _ _ _ _ hm
  have hrunning (f : OutFrame) (g : Tile → Tile) (hg : ∀ x, (g x).st = .running) :
      (f.onTile r.tile g).tiles[r.tile]?.map Tile.st = (f.tiles[r.tile]?).map fun _ => .running := by
    rw [OutFrame.onTile_get, Option.map_map]
    exact congrArg (fun k => (f.tiles[r.tile]?).map k) (funext fun x => by simp [hg])
  rcases tileDispatch_cases d n r hn hr with h | ⟨h64, ⟨m, hm, h⟩ | h⟩
  · exact ⟨(d.dispatchTile n r).spn, _, h, fun _ => rfl, fun f => hrunning f _ fun _ => rfl, rfl, hjob, fun _ => hothers⟩
  · have hne : n ≠ m := fun hnm => by
      rw [← hnm, hjob] at hm
      exact nomatch hm
    refine ⟨((d.dispatchTile n r).startJob m r.st r.key r.tile true).spn,
      fun f => (f.onTile r.tile fun x => { x with st := .running }).onTile r.tile fun x => { x with shadowed := true },
      h.trans ?_, fun _ => rfl, fun f => ?_, rfl, ?_, fun hno => absurd h64 hno⟩
    · exact Dev.onOut_onOut { d with spn := ((d.dispatchTile n r).startJob m r.st r.key r.tile true).spn } r.st r.key
        (fun f => f.onTile r.tile fun x => { x with st := .running }) (fun f => f.onTile r.tile fun x => { x with shadowed := true })
        fun _ => rfl
    · rw [OutFrame.onTile_get, Option.map_map, ← hrunning f (fun x => { x with st := .running }) fun _ => rfl]
      exact congrArg (fun k => Option.map k _) (funext fun x => by simp)
    · exact (congrArg Spindle.job (upd_other _ _ _ _ hne)).trans hjob
  · exact ⟨((d.dispatchTile n r).onSpn fun p => { p with skipped := satAdd p.skipped 1 }).spn, _, h, fun _ => rfl,
      fun f => hrunning f _ fun _ => rfl, rfl, hjob, fun _ => hothers⟩

/-- The dispatch of a tile of a frame (R238, R239, R244). -/
theorem exec_tileDispatch (s : State) (n : SpindleNo) (r : Ready) (p : Spn) (h : OutFrame → OutFrame) (hd : Dispatched s.dev n r p h)
    (f : OutFrame) (x : Tile) (hf : (s.dev.streams[r.st]).out r.key = some f) (hx : f.tiles[r.tile]? = some x) :
    ∃ (t : State) (g : OutFrame), exec .tileDispatch s = .next t ∧ (t.dev.streams[r.st]).out r.key = some g ∧
      (g.tiles[r.tile]?.map fun y => y.st) = some .running ∧ t.mem = s.mem ∧ t.dev.spn.dispatched = s.dev.spn.dispatched + 1 ∧
      (t.dev.spn.spindles[n]).job = some ⟨r.st, r.key, r.tile, false, s.dev.whl.tim⟩ ∧
      (t.dev.spn.dispatched % 64 ≠ 0 → ∀ m, m ≠ n → t.dev.spn.spindles[m] = s.dev.spn.spindles[m]) ∧
      (∀ st, st ≠ r.st → t.dev.streams[st] = s.dev.streams[st]) ∧
      { t.dev.unreport s.dev with spn := s.dev.spn, streams := s.dev.streams } = s.dev := by
  have hspn : (s.run tileDispatch).dev.spn = p := by rw [State.run_dev, Dev.settle_spn, hd.result]; rfl
  refine ⟨s.run tileDispatch, h f, rfl, ?_, ?_, rfl, ?_, ?_, ?_, fun st hst => ?_, ?_⟩
  · rw [State.run_dev, Dev.settle_streams, hd.result, Dev.onOut_out _ _ _ _ hd.key, hf, Option.map_some]
  · rw [hd.running, hx]; rfl
  · rw [hspn, hd.count]
  · rw [hspn, hd.job]
  · rw [hspn]; exact hd.others
  · rw [State.run_dev, Dev.settle_streams, hd.result]
    exact upd_other _ _ _ _ hst
  · rw [State.run_dev, Dev.unreport_settle, hd.result]
    rfl

/-! ### A spindle becomes idle (R239, R260) -/

/-- The marks of R263 are in the streams alone. -/
theorem Dev.markSpareLow_frame (d : Dev) : { d.markSpareLow with streams := d.streams } = d := by
  unfold Dev.markSpareLow
  split_ifs
  · refine Dev.foldl_view (fun e : Dev => { e with streams := d.streams }) _ (fun e st => ?_) _ d
    split_ifs <;> rfl
  · rfl

@[simp] theorem Dev.markSpareLow_spn (d : Dev) : d.markSpareLow.spn = d.spn := (congrArg Dev.spn d.markSpareLow_frame :)
@[simp] theorem Dev.markSpareLow_sys (d : Dev) : d.markSpareLow.sys = d.sys := (congrArg Dev.sys d.markSpareLow_frame :)
@[simp] theorem Dev.markSpareLow_bob (d : Dev) : d.markSpareLow.bob = d.bob := (congrArg Dev.bob d.markSpareLow_frame :)

/-- A spindle without a job: it keeps its state, or a spare that pays an owed promotion works. -/
theorem Dev.freeSpindle_cases (d : Dev) (n : SpindleNo) :
    d.freeSpindle n = d.onSpindle n (fun s => { s with job := none, idleSince := d.whl.tim }) ∨
      ∃ e : Dev, d.freeSpindle n = e.markSpareLow ∧ e.bob = d.bob ∧
        e.spn.spindles = upd d.spn.spindles n (fun s => { s with st := .working, job := none, idleSince := d.whl.tim }) ∧
        { e.sys with decision := d.sys.decision, applied := d.sys.applied } = d.sys := by
  unfold Dev.freeSpindle Dev.payOwed
  split_ifs
  · refine .inr ⟨_, rfl, rfl, ?_, rfl⟩
    exact (upd_upd d.spn.spindles n (fun s => { s with job := none, idleSince := d.whl.tim }) fun s => { s with st := .working } :)
  · exact .inl rfl

theorem Dev.freeSpindle_bob (d : Dev) (n : SpindleNo) : (d.freeSpindle n).bob = d.bob := by
  rcases d.freeSpindle_cases n with h | ⟨e, h, hbob, _, _⟩
  · rw [h]; rfl
  · rw [h, Dev.markSpareLow_bob, hbob]

/-- A spindle that becomes idle keeps its trap and its quarantines; the others stay as they are. -/
theorem Dev.freeSpindle_spindles (d : Dev) (n : SpindleNo) :
    ∃ st, (d.freeSpindle n).spn.spindles = upd d.spn.spindles n fun s => { s with st := st, job := none, idleSince := d.whl.tim } := by
  rcases d.freeSpindle_cases n with h | ⟨e, h, _, hspn, _⟩
  · exact ⟨(d.spn.spindles[n]).st, by
      rw [h]; exact upd_congr d.spn.spindles n (fun s => { s with job := none, idleSince := d.whl.tim }) _ rfl⟩
  · exact ⟨.working, by rw [h, Dev.markSpareLow_spn, hspn]⟩

/-- SYS with what a report, a decision and a corrected error change as `y` has it. -/
def Sys.besideReports (y x : Sys) : Sys :=
  { x with fault := y.fault, decision := y.decision, applied := y.applied, corrected := y.corrected }

theorem Dev.freeSpindle_besideReports (d : Dev) (n : SpindleNo) (y : Sys) :
    y.besideReports (d.freeSpindle n).sys = y.besideReports d.sys ∧ (d.freeSpindle n).sys.corrected = d.sys.corrected := by
  rcases d.freeSpindle_cases n with h | ⟨e, h, _, _, hsys⟩
  · rw [h]; exact ⟨rfl, rfl⟩
  · rw [h, Dev.markSpareLow_sys]
    exact ⟨(congrArg y.besideReports hsys :), (congrArg Sys.corrected hsys :)⟩

theorem Dev.settle_besideReports (d : Dev) (y : Sys) : y.besideReports d.settle.sys = y.besideReports d.sys :=
  (congrArg (fun e : Dev => y.besideReports e.sys) (d.unreport_settle d) :)

/-! ### Corrected errors (01 R38) -/

theorem satAdd_zero {w : Nat} (x : BitVec w) : satAdd x 0 = x := by
  rw [satAdd, if_pos (by simpa using x.isLt), BitVec.add_zero]

theorem Dev.countCorrected_spn (d : Dev) (k : Fin 2) (n : Nat) : (d.countCorrected k n).spn = d.spn := by
  unfold Dev.countCorrected; split_ifs <;> simp

theorem Dev.countCorrected_bob (d : Dev) (k : Fin 2) (n : Nat) : (d.countCorrected k n).bob = d.bob := by
  unfold Dev.countCorrected; split_ifs <;> simp

theorem Dev.countCorrected_corrected (d : Dev) (k : Fin 2) (n : Nat) :
    (d.countCorrected k n).sys.corrected = d.sys.corrected.set k (satAdd d.sys.corrected[k] n) := by
  unfold Dev.countCorrected
  split_ifs with hn
  · subst hn
    rw [satAdd_zero]
    simp
  · simp

theorem Dev.countCorrected_reported (d : Dev) (k : Fin 2) (n : Nat) (hn : 0 < n) : (d.countCorrected k n).sys.fault.getLsbD 16 = true := by
  rw [Dev.countCorrected, if_neg (by omega)]
  exact Dev.raise_sets _ 16 k.val n (by decide)

theorem Dev.countCorrected_besideReports (d : Dev) (k : Fin 2) (n : Nat) (y : Sys) :
    y.besideReports (d.countCorrected k n).sys = y.besideReports d.sys := by
  unfold Dev.countCorrected
  split_ifs
  · rfl
  · exact (congrArg (fun e : Dev => y.besideReports e.sys) (Dev.unreport_raise _ d 16 k.val n) :)

/-! ### A tile completes (R241, R245; 01 R30) -/

/-- The state once the spindle of a completed tile is idle and the errors corrected in its store are counted. -/
def State.tileLeft (s : State) (n : SpindleNo) (corrected : Nat) : State :=
  { s with dev := (s.dev.freeSpindle n).countCorrected 1 corrected }

section
variable (s : State) (n : SpindleNo) (corrected : Nat)

theorem State.tileLeft_besideArray (x : Dev) : x.besideArray (s.tileLeft n corrected).dev = x.besideArray s.dev :=
  (Dev.countCorrected_besideArray x _ 1 corrected).trans (Dev.freeSpindle_besideArray x _ n)

theorem State.tileLeft_bob : (s.tileLeft n corrected).dev.bob = s.dev.bob :=
  (Dev.countCorrected_bob _ 1 corrected).trans (Dev.freeSpindle_bob _ n)

theorem State.tileLeft_marks (st : StreamNo) (key : Nat) : Dev.MarksOut st key s.dev (s.tileLeft n corrected).dev :=
  (Dev.freeSpindle_marks st key s.dev n).trans (.of_streams (Dev.countCorrected_streams _ 1 corrected))

theorem State.tileLeft_spindles : ((s.tileLeft n corrected).dev.spn.spindles[n]).job = none ∧
    ∀ m, m ≠ n → (s.tileLeft n corrected).dev.spn.spindles[m] = s.dev.spn.spindles[m] := by
  obtain ⟨st, h⟩ := s.dev.freeSpindle_spindles n
  have hspn : (s.tileLeft n corrected).dev.spn.spindles = _ := (congrArg Spn.spindles (Dev.countCorrected_spn _ 1 corrected)).trans h
  rw [hspn]
  exact ⟨congrArg Spindle.job (upd_same ..), fun m hm => upd_other _ _ _ _ hm⟩

theorem State.tileLeft_besideReports (y : Sys) : y.besideReports (s.tileLeft n corrected).dev.sys = y.besideReports s.dev.sys :=
  (Dev.countCorrected_besideReports _ 1 corrected y).trans (s.dev.freeSpindle_besideReports n y).1

theorem State.tileLeft_corrected :
    (s.tileLeft n corrected).dev.sys.corrected = s.dev.sys.corrected.set 1 (satAdd s.dev.sys.corrected[1] corrected) := by
  have h : (s.dev.freeSpindle n).sys.corrected = s.dev.sys.corrected := (s.dev.freeSpindle_besideReports n s.dev.sys).2
  exact (Dev.countCorrected_corrected _ 1 corrected).trans (by rw [h]; rfl)

end

/-- The bytes of a completed tile: the kernels', unless a hardware fault altered them (R241). -/
def State.tileBytes (s : State) (altered : Option (List Byte)) (i : Image) (j : Job) (f : OutFrame) (l : LayoutCfg) (e : StreamCfg) :
    List Byte :=
  altered.getD ((s.kernelView i j.stream f l e j.tile).tileBytes (l.tileRect e j.tile))

/-- A shadowed tile of which one copy, the shadow or the original, is complete with its bytes on spindle `n` (R245). -/
def Tile.keepFirst (x : Tile) (shadow : Bool) (bs : List Byte) (n : SpindleNo) : Tile :=
  { x with st := if shadow then .running else .heldForShadow, first := some bs, firstBy := some n }

section
variable (s : State) (n : SpindleNo) (altered : Option (List Byte)) (corrected : Nat) (j : Job) (i : Image) (f : OutFrame) (l : LayoutCfg)
  (e : StreamCfg) (x : Tile) (hj : (s.dev.spn.spindles[n]).job = some j) (himg : s.dev.img = some i)
  (hf : (s.dev.streams[j.stream]).out j.key = some f) (hcfg : s.dev.cfgOf j.stream f = some (l, e)) (hx : f.tiles[j.tile]? = some x)
  (hst : x.st = .running ∨ x.st = .heldForShadow) (htime : s.dev.whl.tim ≤ f.h (l.cols e) j.tile)
include hj himg hf hcfg hx hst htime

/-- A tile completed in time is a copy done. -/
theorem tileComplete_copyDone :
    tileComplete n altered corrected s = (s.tileLeft n corrected).copyDone n j (s.tileBytes altered i j f l e) f l e x := by
  have hrun : ¬(x.st ≠ .running ∧ x.st ≠ .heldForShadow) := fun h => hst.elim h.1 h.2
  rw [tileComplete, hj, himg]
  dsimp only
  rw [hf]
  dsimp only
  rw [hcfg, hx]
  dsimp only
  rw [if_neg hrun, if_neg (Nat.not_lt.2 htime)]
  rfl

/-- Without a shadow copy it is committed. -/
theorem tileComplete_unshadowed (hshadow : x.shadowed = false) :
    tileComplete n altered corrected s = (s.tileLeft n corrected).commitTile j.stream f l e j.tile (s.tileBytes altered i j f l e) := by
  rw [tileComplete_copyDone s n altered corrected j i f l e x hj himg hf hcfg hx hst htime, State.copyDone, if_pos (by simp [hshadow])]

/-- The first copy of a shadowed tile is kept until the other is complete. -/
theorem tileComplete_first (hshadow : x.shadowed = true) (hother : x.otherTrapped = false) (hfirst : x.first = none) :
    tileComplete n altered corrected s =
      { s.tileLeft n corrected with
        dev := (s.tileLeft n corrected).dev.onOut j.stream j.key fun g => g.onTile j.tile fun y =>
          y.keepFirst j.shadow (s.tileBytes altered i j f l e) n } := by
  rw [tileComplete_copyDone s n altered corrected j i f l e x hj himg hf hcfg hx hst htime, State.copyDone,
    if_neg (by simp [hshadow, hother]), hfirst]
  rfl

end

/-- Every copy done leaves alone what a completed tile does not touch: the spindle is free, the errors are counted, and only the
streams, the pool and the frame store are still to be told. -/
structure State.TileDone (s t : State) (n : SpindleNo) (corrected : Nat) : Prop where
  free : (t.dev.spn.spindles[n]).job = none
  others : ∀ m, m ≠ n → t.dev.spn.spindles[m] = s.dev.spn.spindles[m]
  counted : t.dev.sys.corrected = s.dev.sys.corrected.set 1 (satAdd s.dev.sys.corrected[1] corrected)
  reported : 0 < corrected → t.dev.sys.fault.getLsbD 16 = true
  sys : s.dev.sys.besideReports t.dev.sys = s.dev.sys
  rest : s.dev.besideArray t.dev = s.dev

/-- What changes the streams, the pool and the memories alone, after the spindle was left. -/
theorem State.TileDone.of_tileLeft (s u : State) (g : State → State) (n : SpindleNo) (corrected : Nat) (hg : g s = u)
    (hspn : u.dev.spn = (s.tileLeft n corrected).dev.spn)
    (hsys : u.dev.sys = (s.tileLeft n corrected).dev.sys)
    (hrest : s.dev.besideArray u.dev = s.dev.besideArray (s.tileLeft n corrected).dev) : s.TileDone (s.runM g) n corrected where
  free := by rw [State.runM_dev, hg, Dev.settle_spn, hspn]; exact (s.tileLeft_spindles n corrected).1
  others := by rw [State.runM_dev, hg, Dev.settle_spn, hspn]; exact (s.tileLeft_spindles n corrected).2
  counted := by rw [State.runM_dev, hg, Dev.settle_sys_corrected, hsys]; exact s.tileLeft_corrected n corrected
  reported hpos := by
    rw [State.runM_dev, hg]
    refine Dev.settle_keeps _ 16 ?_
    rw [hsys]
    exact Dev.countCorrected_reported _ 1 corrected hpos
  sys := by rw [State.runM_dev, hg, Dev.settle_besideReports, hsys]; exact s.tileLeft_besideReports n corrected s.dev.sys
  rest := by rw [State.runM_dev, hg, Dev.settle_besideArray, hrest]; exact s.tileLeft_besideArray n corrected s.dev

/-- A packet put depends on the pool alone. -/
theorem Dev.putPkt_bob_congr {d e : Dev} (h : e.bob = d.bob) (n : Nat) (data : List Byte) (m : Bool) (rs : List Nat) (fr u : Nat) :
    (e.putPkt n data m rs fr u).bob = (d.putPkt n data m rs fr u).bob := by
  simp only [Dev.putPkt, Dev.onQueue, Dev.onBob, h]

theorem Dev.outBase_besideArray (x d : Dev) (st slot : Nat) : (x.besideArray d).outBase st slot = d.outBase st slot := rfl

/-! What a completed tile writes, and what it leaves to `State.tileLeft`. -/

section
variable (s : State) (st : StreamNo) (f : OutFrame) (l : LayoutCfg) (e : StreamCfg) (t : Nat) (bs : List Byte)

theorem State.commitTile_writes :
    (s.commitTile st f l e t bs).mem = s.mem.writeTile e (s.dev.outBase st.val f.ringSlot) (l.tileRect e t) bs := rfl

theorem State.commitTile_bob :
    (s.commitTile st f l e t bs).dev.bob = (s.dev.putPkt (128 + st.val) (e.packTile (l.tileRect e t) bs) false [1] f.key t).bob := rfl

theorem State.commitTile_spn : (s.commitTile st f l e t bs).dev.spn = s.dev.spn := rfl
theorem State.commitTile_sys : (s.commitTile st f l e t bs).dev.sys = s.dev.sys := rfl

end

section
variable (s : State) (n : SpindleNo) (altered : Option (List Byte)) (corrected : Nat) (j : Job) (i : Image) (f : OutFrame) (l : LayoutCfg)
  (e : StreamCfg) (x : Tile) (hj : (s.dev.spn.spindles[n]).job = some j) (himg : s.dev.img = some i)
  (hf : (s.dev.streams[j.stream]).out j.key = some f) (hcfg : s.dev.cfgOf j.stream f = some (l, e)) (hx : f.tiles[j.tile]? = some x)
  (hst : x.st = .running ∨ x.st = .heldForShadow) (htime : s.dev.whl.tim ≤ f.h (l.cols e) j.tile)
include hj himg hf hcfg hx hst htime

/-- A tile without a shadow copy is complete in its frame ring, and packed in its stream's tile queue (R241; 01 R30). -/
theorem exec_tileComplete_unshadowed (hshadow : x.shadowed = false) :
    ∃ (t : State) (g : OutFrame), exec (.tileComplete n altered corrected) s = .next t ∧ s.TileDone t n corrected ∧
      (t.dev.streams[j.stream]).out j.key = some g ∧
      t.mem = s.mem.writeTile e (s.dev.outBase j.stream.val f.ringSlot) (l.tileRect e j.tile) (s.tileBytes altered i j f l e) ∧
      (g.tiles[j.tile]?.map fun y => y.st) = some .complete ∧
      t.dev.bob = (s.dev.putPkt (128 + j.stream.val) (e.packTile (l.tileRect e j.tile) (s.tileBytes altered i j f l e)) false [1] f.key
        j.tile).bob ∧
      ∀ k, k ≠ j.tile → g.tiles[k]? = f.tiles[k]? := by
  have heq := tileComplete_unshadowed s n altered corrected j i f l e x hj himg hf hcfg hx hst htime hshadow
  have hkey : f.key = j.key := Stream.key_of_out hf
  have hbase : (s.tileLeft n corrected).dev.outBase j.stream.val f.ringSlot = s.dev.outBase j.stream.val f.ringSlot := by
    rw [← Dev.outBase_besideArray s.dev, s.tileLeft_besideArray, Dev.outBase_besideArray]
  obtain ⟨b, hleft⟩ := s.tileLeft_marks n corrected j.stream j.key f hf
  obtain ⟨acc, hstreams⟩ := (s.tileLeft n corrected).commitTile_streams j.stream f l e j.tile (s.tileBytes altered i j f l e)
  let g : OutFrame := OutFrame.complete { f with spareLow := b } j.tile acc
  refine ⟨s.runM (tileComplete n altered corrected), g, rfl, ?_, ?_, ?_, ?_, ?_, fun k hk => ?_⟩
  · exact .of_tileLeft s _ _ n corrected heq (State.commitTile_spn ..) (State.commitTile_sys ..) (State.commitTile_besideArray ..)
  · rw [State.runM_dev, heq, Dev.settle_streams, hstreams, hkey, Dev.onOut_out _ _ _ (fun g => g.complete j.tile acc) fun _ => rfl, hleft]
    rfl
  · rw [State.runM_mem, heq, State.commitTile_writes, hbase]
    rfl
  · show (((OutFrame.onTile _ j.tile _).tiles[j.tile]?).map fun y : Tile => y.st) = _
    rw [OutFrame.onTile_get, hx]
    simp
  · rw [State.runM_dev, heq, Dev.settle_bob, State.commitTile_bob]
    exact Dev.putPkt_bob_congr (s.tileLeft_bob n corrected) ..
  · show (OutFrame.onTile _ j.tile _).tiles[k]? = _
    rw [OutFrame.onTile_get]
    simp [hk]

/-- The first copy of a shadowed tile is kept (R245). -/
theorem exec_tileComplete_first (hshadow : x.shadowed = true) (hother : x.otherTrapped = false) (hfirst : x.first = none) :
    ∃ (t : State) (g : OutFrame), exec (.tileComplete n altered corrected) s = .next t ∧ s.TileDone t n corrected ∧
      (t.dev.streams[j.stream]).out j.key = some g ∧ t.mem = s.mem ∧ t.dev.bob = s.dev.bob ∧
      g.tiles[j.tile]? = some (x.keepFirst j.shadow (s.tileBytes altered i j f l e) n) ∧ ∀ k, k ≠ j.tile → g.tiles[k]? = f.tiles[k]? := by
  have heq := tileComplete_first s n altered corrected j i f l e x hj himg hf hcfg hx hst htime hshadow hother hfirst
  let kept : Tile → Tile := fun y => y.keepFirst j.shadow (s.tileBytes altered i j f l e) n
  obtain ⟨b, hleft⟩ := s.tileLeft_marks n corrected j.stream j.key f hf
  refine ⟨s.runM (tileComplete n altered corrected), ({ f with spareLow := b } : OutFrame).onTile j.tile kept, rfl, ?_, ?_, ?_, ?_, ?_,
    fun k hk => ?_⟩
  · exact .of_tileLeft s _ _ n corrected heq rfl rfl rfl
  · rw [State.runM_dev, heq, Dev.settle_streams, Dev.onOut_out _ _ _ (fun g => g.onTile j.tile kept) fun _ => rfl, hleft]
    rfl
  · rw [State.runM_mem, heq]
    rfl
  · rw [State.runM_dev, heq, Dev.settle_bob]
    exact s.tileLeft_bob n corrected
  · rw [OutFrame.onTile_get]
    simp [hx, kept]
  · rw [OutFrame.onTile_get]
    simp [hk]

end

/-! ### Traps and failures of the input (R242, R243, R258, R635) -/

/-- A re-run of a tile elsewhere leaves a spindle that has trapped alone. -/
theorem State.failTile_spindle (s : State) (n k : SpindleNo) (st : StreamNo) (key t code : Nat) (h : s.dev.HasTrapped n code) :
    (s.failTile k st key t).dev.spn.spindles[n] = s.dev.spn.spindles[n] := by
  rcases s.failTile_cases k st key t with heq | ⟨m, left, cyc, hm, heq⟩ | heq
  · rw [heq]
  · rw [heq]
    exact upd_other _ _ _ _ (h.ne_of_rerun hm).symm
  · rw [heq]
    exact congrArg (fun v : Word × Spn => v.2.spindles[n]) (Dev.substitute_trapView s.dev st key t)

theorem State.copyTrapped_spindle (s : State) (n k : SpindleNo) (j : Job) (code : Nat) (h : s.dev.HasTrapped n code) :
    (s.copyTrapped k j).dev.spn.spindles[n] = s.dev.spn.spindles[n] := by
  rcases s.copyTrapped_cases k j with heq | ⟨f, l, e, bs, heq⟩ | ⟨g, heq⟩ | heq
  · rw [heq]
  · rw [heq]; rfl
  · rw [heq]; rfl
  · rw [heq]; exact s.failTile_spindle n k j.stream j.key j.tile code h

theorem Dev.afterQuarantine_spindle (d : Dev) (n k : SpindleNo) (worked : Bool) (code : Nat) (h : d.HasTrapped n code) :
    (d.afterQuarantine k worked).spn.spindles[n] = d.spn.spindles[n] := by
  have hp : (d.promote k).spn.spindles[n] = d.spn.spindles[n] := by
    unfold Dev.promote
    split
    · next m l hm =>
      have hmem : m ∈ d.idlesIn .spare (inB k) ++ d.idlesIn .spare (!inB k) := hm ▸ List.mem_cons_self
      exact upd_other _ _ _ _ ((List.mem_append.1 hmem).elim (h.ne_of_idle (.inr rfl)) (h.ne_of_idle (.inr rfl))).symm
    · rfl
  unfold Dev.afterQuarantine
  rw [Dev.markSpareLow_spn]
  split_ifs
  · exact hp
  · rfl

/-- The quarantines of a spindle after one more. -/
def Spindle.nextQuarantine (x : Spindle) : Nat := satNat 255 (x.quarantines + 1)

/-- A spindle that traps: quarantined, at the third quarantine held (R243, R258). -/
def Spindle.trapped (x : Spindle) (code now : Nat) : Spindle :=
  { st := if 3 ≤ x.nextQuarantine then .held else .quarantined, lastTrap := code, quarantines := x.nextQuarantine, job := none,
    idleSince := now }

theorem State.trap_spindle (s : State) (n : SpindleNo) (code : Nat) (hjob : (s.dev.spn.spindles[n]).job.isSome = true) :
    (s.trap n code).dev.spn.spindles[n] = (s.dev.spn.spindles[n]).trapped code s.dev.whl.tim := by
  obtain ⟨j, hj⟩ := Option.isSome_iff_exists.1 hjob
  let d1 := s.dev.onSpindle n fun x => { x with job := none, idleSince := s.dev.whl.tim }
  have hd1 : d1.spn.spindles[n] = { s.dev.spn.spindles[n] with job := none, idleSince := s.dev.whl.tim } := upd_same ..
  have htrapped : (d1.quarantine n code).1.HasTrapped n code := d1.quarantine_hasTrapped n code (by rw [hd1])
  have hquarantine : (d1.quarantine n code).1.spn.spindles[n] = (s.dev.spn.spindles[n]).trapped code s.dev.whl.tim := by
    simp only [Dev.quarantine, apply_ite Dev.spn, Dev.numberDecision_spn, Dev.raise_spn, ite_self]
    refine (upd_same ..).trans ?_
    rw [hd1]
    rfl
  rw [State.trap, hj]
  dsimp only
  rw [Dev.afterQuarantine_spindle _ n n _ code (State.copyTrapped_hasTrapped _ n n j code htrapped),
    State.copyTrapped_spindle _ n n j code htrapped]
  exact hquarantine

/-- A trap leaves the links, the whorls and the camera supplies alone, also with the report of an uncorrectable error. -/
theorem State.trap_rest (s : State) (n : SpindleNo) (code : Nat) (e : Dev) (h : s.dev.besideArray e = s.dev.besideArray (s.trap n code).dev) :
    e.settle.ports = s.dev.ports ∧ e.settle.whl = s.dev.whl ∧ e.settle.ply = s.dev.ply ∧ e.settle.pins.pocEn = s.dev.pins.pocEn := by
  have hall : s.dev.besideArray e.settle = s.dev :=
    (Dev.settle_besideArray s.dev e).trans (h.trans (s.trap_besideArray s.dev n code))
  exact ⟨(congrArg Dev.ports hall :), (congrArg Dev.whl hall :), (congrArg Dev.ply hall :), (congrArg (fun d => d.pins.pocEn) hall :)⟩

/-- The failures attributed to a spindle are traps with the codes of R635; those of its store and of its output are reported as
uncorrectable (R242; 01 R39). -/
theorem exec_trap (s : State) (n : SpindleNo) (c : Instr) (code : Nat) (hjob : (s.dev.spn.spindles[n]).job.isSome = true)
    (hc : (c, code) ∈ [(.tileFailure n .localStore, 1), (.tileFailure n .illegalOp, 2), (.tileFailure n .fetchOutside, 3),
      (.tileWatchdog n, 4), (.tileFailure n .outputParity, 5)]) :
    ∃ g : State → State, exec c s = .next (s.runM g) ∧
      (g s = s.trap n code ∧ ¬(code = 1 ∨ code = 5) ∨
        g s = { s.trap n code with dev := (s.trap n code).dev.raise 17 n.val 0 }) := by
  have hsome : ¬((s.dev.spn.spindles[n]).job.isNone = true) := by rw [← Option.not_isSome, hjob]; decide
  simp only [List.mem_cons, Prod.mk.injEq, List.not_mem_nil, or_false] at hc
  rcases hc with ⟨rfl, rfl⟩ | ⟨rfl, rfl⟩ | ⟨rfl, rfl⟩ | ⟨rfl, rfl⟩ | ⟨rfl, rfl⟩
  · exact ⟨tileFailure n .localStore, rfl, .inr (if_neg hsome)⟩
  · exact ⟨tileFailure n .illegalOp, rfl, .inl ⟨if_neg hsome, by decide⟩⟩
  · exact ⟨tileFailure n .fetchOutside, rfl, .inl ⟨if_neg hsome, by decide⟩⟩
  · exact ⟨fun t => t.trap n 4, rfl, .inl ⟨rfl, by decide⟩⟩
  · exact ⟨tileFailure n .outputParity, rfl, .inr (if_neg hsome)⟩

/-- The spindle of such a failure is quarantined, at the third quarantine held, and reported (R242, R243, R258, R635). -/
theorem exec_spindleFailure (s : State) (n : SpindleNo) (c : Instr) (code : Nat) (hjob : (s.dev.spn.spindles[n]).job.isSome = true)
    (hc : (c, code) ∈ [(.tileFailure n .localStore, 1), (.tileFailure n .illegalOp, 2), (.tileFailure n .fetchOutside, 3),
      (.tileWatchdog n, 4), (.tileFailure n .outputParity, 5)]) :
    ∃ t, exec c s = .next t ∧ t.dev.spn.spindles[n] = (s.dev.spn.spindles[n]).trapped code s.dev.whl.tim ∧
      t.dev.sys.fault.getLsbD 8 = true ∧ (code = 1 ∨ code = 5 → t.dev.sys.fault.getLsbD 17 = true) ∧
      t.dev.ports = s.dev.ports ∧ t.dev.whl = s.dev.whl ∧ t.dev.ply = s.dev.ply ∧ t.dev.pins.pocEn = s.dev.pins.pocEn := by
  have hspindle := s.trap_spindle n code hjob
  have hreported := (s.trap_hasTrapped n code hjob).reported
  obtain ⟨g, hexec, ⟨hg, hcode⟩ | hg⟩ := exec_trap s n c code hjob hc
  · refine ⟨s.runM g, hexec, ?_, ?_, fun h => absurd h hcode, ?_⟩
    · rw [State.runM_dev, hg, Dev.settle_spn, hspindle]
    · rw [State.runM_dev, hg]
      exact Dev.settle_keeps _ 8 hreported
    · rw [State.runM_dev, hg]
      exact s.trap_rest n code _ rfl
  · refine ⟨s.runM g, hexec, ?_, ?_, fun _ => ?_, ?_⟩
    · rw [State.runM_dev, hg, Dev.settle_spn, Dev.raise_spn, hspindle]
    · rw [State.runM_dev, hg]
      exact Dev.settle_keeps _ 8 (Dev.raise_keeps _ 17 n.val 0 8 hreported)
    · rw [State.runM_dev, hg]
      exact Dev.raise_shown _ 17 n.val 0 (by decide)
    · rw [State.runM_dev, hg]
      exact s.trap_rest n code _ (Dev.raise_besideArray ..)

/-- The trap and the quarantines that a spindle records (R635). -/
def Dev.trapRecord (d : Dev) (n : SpindleNo) : Nat × Nat := ((d.spn.spindles[n]).lastTrap, (d.spn.spindles[n]).quarantines)

theorem Dev.trapRecord_of_upd (d e : Dev) (n m : SpindleNo) (f : Spindle → Spindle)
    (h : e.spn.spindles = upd d.spn.spindles m f) (hf : ∀ x, (f x).lastTrap = x.lastTrap ∧ (f x).quarantines = x.quarantines) :
    e.trapRecord n = d.trapRecord n := by
  unfold Dev.trapRecord
  rw [h]
  by_cases hnm : n = m
  · subst hnm
    rw [upd_same, (hf _).1, (hf _).2]
  · rw [upd_other _ _ _ _ hnm]

theorem Dev.freeSpindle_trapRecord (d : Dev) (n m : SpindleNo) : (d.freeSpindle m).trapRecord n = d.trapRecord n := by
  obtain ⟨st, h⟩ := d.freeSpindle_spindles m
  exact Dev.trapRecord_of_upd d _ n m _ h fun _ => ⟨rfl, rfl⟩

theorem Dev.substitute_trapRecord (d : Dev) (n : SpindleNo) (st : StreamNo) (key t : Nat) :
    (d.substitute st key t).trapRecord n = d.trapRecord n :=
  (congrArg (fun v : Word × Spn => ((v.2.spindles[n]).lastTrap, (v.2.spindles[n]).quarantines)) (d.substitute_trapView st key t) :)

theorem State.copyTrapped_trapRecord (s : State) (n m : SpindleNo) (j : Job) :
    (s.copyTrapped m j).dev.trapRecord n = s.dev.trapRecord n := by
  rcases s.copyTrapped_cases m j with heq | ⟨f, l, e, bs, heq⟩ | ⟨g, heq⟩ | heq
  · rw [heq]
  · rw [heq]; rfl
  · rw [heq]; rfl
  · rw [heq]
    rcases s.failTile_cases m j.stream j.key j.tile with hfail | ⟨k, _, _, _, hfail⟩ | hfail
    · rw [hfail]
    · rw [hfail]
      exact Dev.trapRecord_of_upd s.dev _ n k (fun x => { x with job := some ⟨j.stream, j.key, j.tile, false, s.dev.whl.tim⟩ }) rfl
        fun _ => ⟨rfl, rfl⟩
    · rw [hfail, Dev.substitute_trapRecord]

/-- A failure attributed to the input records no trap (R242). -/
theorem State.inputFailure_trapRecord (s : State) (n : SpindleNo) : (s.inputFailure n).dev.trapRecord n = s.dev.trapRecord n := by
  unfold State.inputFailure
  split
  · rfl
  · rw [State.copyTrapped_trapRecord, Dev.freeSpindle_trapRecord]

theorem State.inputLost_trapRecord (s : State) (n : SpindleNo) : (s.inputLost n).dev.trapRecord n = s.dev.trapRecord n := by
  have hfree := s.dev.freeSpindle_trapRecord n n
  unfold State.inputLost
  split
  · rfl
  · dsimp only
    split
    · split_ifs
      · rw [hfree]
      · rw [Dev.substitute_trapRecord, hfree]
    · rw [hfree]

/-- A failure of the input leaves the spindle's record, the links and the ports as they are; an uncorrectable one is reported (R242; 01
R39). -/
theorem exec_inputFailure (s : State) (n : SpindleNo) (c : TileCause) (hc : c = .inputUncorrectable ∨ c = .inputRewound ∨ c = .inputSlotTaken)
    (hjob : (s.dev.spn.spindles[n]).job.isSome = true) :
    ∃ t, exec (.tileFailure n c) s = .next t ∧ t.dev.trapRecord n = s.dev.trapRecord n ∧
      (c = .inputUncorrectable → t.dev.sys.fault.getLsbD 17 = true) ∧ t.dev.ports = s.dev.ports ∧ t.dev.ply = s.dev.ply := by
  have hsome : ¬((s.dev.spn.spindles[n]).job.isNone = true) := by rw [← Option.not_isSome, hjob]; decide
  obtain ⟨e, he, hrecord, hreport, hrest⟩ : ∃ e : Dev, (tileFailure n c s).dev = e ∧ e.trapRecord n = s.dev.trapRecord n ∧
      (c = .inputUncorrectable → e.sys.fault.getLsbD 17 = true) ∧ s.dev.besideArray e = s.dev := by
    rcases hc with rfl | rfl | rfl
    · refine ⟨(s.inputFailure n).dev.raise 17 n.val 0, congrArg State.dev (if_neg hsome), ?_,
        fun _ => Dev.raise_sets _ 17 n.val 0 (by decide), ?_⟩
      · rw [Dev.trapRecord, Dev.raise_spn]
        exact s.inputFailure_trapRecord n
      · rw [Dev.raise_besideArray, State.inputFailure_besideArray]
        rfl
    · exact ⟨(s.inputFailure n).dev, congrArg State.dev (if_neg hsome), s.inputFailure_trapRecord n, nofun,
        s.inputFailure_besideArray s.dev n⟩
    · exact ⟨(s.inputLost n).dev, congrArg State.dev (if_neg hsome), s.inputLost_trapRecord n, nofun, s.inputLost_besideArray s.dev n⟩
  have hsettled : s.dev.besideArray e.settle = s.dev := (Dev.settle_besideArray s.dev e).trans hrest
  refine ⟨s.runM (tileFailure n c), rfl, ?_, fun hue => ?_, ?_⟩
  · rw [State.runM_dev, he, Dev.trapRecord, Dev.settle_spn]
    exact hrecord
  · rw [State.runM_dev, he]
    exact Dev.settle_keeps _ 17 (hreport hue)
  · rw [State.runM_dev, he]
    exact ⟨(congrArg Dev.ports hsettled :), (congrArg Dev.ply hsettled :)⟩

/-! ### Self-tests (R258, R260) -/

/-- A passed self-test makes the spindle a spare, or working where a promotion is owed. -/
theorem exec_selfTestDone_passed (s : State) (n : SpindleNo) (hst : (s.dev.spn.spindles[n]).st = .quarantined)
    (hjob : (s.dev.spn.spindles[n]).job = none) :
    ∃ t, exec (.selfTestDone n true) s = .next t ∧ t.mem = s.mem ∧
      t.dev.sys.decision = s.dev.sys.decision + (if 0 < s.dev.spn.owed then 2 else 1) ∧ t.dev.sys.applied = t.dev.sys.decision ∧
      (t.dev.spn.spindles[n]).st = (if 0 < s.dev.spn.owed then .working else .spare) ∧
      t.dev.spn.owed = s.dev.spn.owed - 1 ∧ (∀ m, m ≠ n → t.dev.spn.spindles[m] = s.dev.spn.spindles[m]) := by
  let tested : Dev := s.dev.numberDecision.onSpindle n fun x => { x with st := .spare, idleSince := s.dev.whl.tim }
  have htested : tested.spn.spindles[n] = { s.dev.spn.spindles[n] with st := .spare, idleSince := s.dev.whl.tim } := upd_same ..
  have hidle : tested.idleIn .spare n = true := by simp only [Dev.idleIn, htested, hjob]; rfl
  have heq : selfTestDone n true s.dev = (tested.payOwed n).markSpareLow := (if_pos hst).trans (if_pos rfl)
  by_cases howed : 0 < s.dev.spn.owed
  · have hpay : tested.payOwed n = (((tested.onSpindle n fun s => { s with st := .working }).onSpn
        fun p => { p with owed := p.owed - 1 }).numberDecision).markSpareLow := if_pos ⟨howed, hidle⟩
    refine ⟨s.run (selfTestDone n true), rfl, rfl, ?_, ?_, ?_, ?_, fun m hm => ?_⟩
    · rw [State.run_dev, Dev.settle_sys_decision, heq, Dev.markSpareLow_sys, hpay, Dev.markSpareLow_sys, if_pos howed]
      exact BitVec.add_assoc s.dev.sys.decision 1 1
    · rw [State.run_dev, Dev.settle_sys_decision, Dev.settle_sys_applied, heq, Dev.markSpareLow_sys, hpay, Dev.markSpareLow_sys]
      rfl
    · rw [State.run_dev, Dev.settle_spn, heq, Dev.markSpareLow_spn, hpay, Dev.markSpareLow_spn, if_pos howed]
      exact congrArg Spindle.st (upd_same ..)
    · rw [State.run_dev, Dev.settle_spn, heq, Dev.markSpareLow_spn, hpay, Dev.markSpareLow_spn]
      rfl
    · rw [State.run_dev, Dev.settle_spn, heq, Dev.markSpareLow_spn, hpay, Dev.markSpareLow_spn]
      exact (upd_other _ _ _ _ hm).trans (upd_other _ _ _ _ hm)
  · have hpay : tested.payOwed n = tested := if_neg fun h => howed h.1
    refine ⟨s.run (selfTestDone n true), rfl, rfl, ?_, ?_, ?_, ?_, fun m hm => ?_⟩
    · rw [State.run_dev, Dev.settle_sys_decision, heq, Dev.markSpareLow_sys, hpay, if_neg howed]
      rfl
    · rw [State.run_dev, Dev.settle_sys_decision, Dev.settle_sys_applied, heq, Dev.markSpareLow_sys, hpay]
      rfl
    · rw [State.run_dev, Dev.settle_spn, heq, Dev.markSpareLow_spn, hpay, if_neg howed, htested]
    · rw [State.run_dev, Dev.settle_spn, heq, Dev.markSpareLow_spn, hpay]
      exact (Nat.eq_zero_of_not_pos howed).trans (by rw [Nat.eq_zero_of_not_pos howed])
    · rw [State.run_dev, Dev.settle_spn, heq, Dev.markSpareLow_spn, hpay]
      exact upd_other _ _ _ _ hm

/-- A failed one holds it, a decision of its own, and nothing else changes on the spindles and the streams. -/
theorem exec_selfTestDone_held (s : State) (n : SpindleNo) (hst : (s.dev.spn.spindles[n]).st = .quarantined) :
    ∃ t, exec (.selfTestDone n false) s = .next t ∧ t.mem = s.mem ∧ t.dev.sys.decision = s.dev.sys.decision + 1 ∧
      (t.dev.spn.spindles[n]).st = .held ∧ t.dev.sys.fault.getLsbD 8 = true ∧ t.dev.spn.owed = s.dev.spn.owed ∧
      (∀ m, m ≠ n → t.dev.spn.spindles[m] = s.dev.spn.spindles[m]) ∧ t.dev.streams = s.dev.streams := by
  have heq : selfTestDone n false s.dev = (s.dev.numberDecision.onSpindle n fun x => { x with st := .held }).raise 8 n.val 0 :=
    if_pos hst
  refine ⟨s.run (selfTestDone n false), rfl, rfl, ?_, ?_, ?_, ?_, fun m hm => ?_, ?_⟩
  · rw [State.run_dev, Dev.settle_sys_decision, heq, Dev.raise_sys_decision]
    rfl
  · rw [State.run_dev, Dev.settle_spn, heq, Dev.raise_spn]
    exact congrArg Spindle.st (upd_same ..)
  · rw [State.run_dev, heq]
    exact Dev.raise_shown _ 8 n.val 0 (by decide)
  · rw [State.run_dev, Dev.settle_spn, heq, Dev.raise_spn]
    rfl
  · rw [State.run_dev, Dev.settle_spn, heq, Dev.raise_spn]
    exact upd_other _ _ _ _ hm
  · rw [State.run_dev, Dev.settle_streams, heq, Dev.raise_streams]
    rfl

/-- Settles O37: a dispatch, a copy done by either way of its tile, the traps, the failures of the input and the two ends of a
self-test are the lemmas above. -/
theorem spindleScheduling : Obligations.SpindleScheduling := by
  unfold Obligations.SpindleScheduling
  intro s
  refine ⟨fun n r hn hr f x hf hx => ?_, fun n altered corrected j i f l e x hj himg hf hcfg hx hst htime hcopy => ?_,
    fun n c code hjob hc => ?_, fun n c hc hjob => ?_, fun n hst => ⟨exec_selfTestDone_passed s n hst, exec_selfTestDone_held s n hst⟩⟩
  · obtain ⟨p, h, hd⟩ := tileDispatch_dispatched s.dev n r hn hr
    exact exec_tileDispatch s n r p h hd f x hf hx
  · by_cases hshadow : x.shadowed = true
    · obtain ⟨hother, hfirst⟩ := hcopy hshadow
      obtain ⟨t, g, hexec, hdone, hg, hmem, hbob, htile, htiles⟩ :=
        exec_tileComplete_first s n altered corrected j i f l e x hj himg hf hcfg hx hst htime hshadow hother hfirst
      exact ⟨t, g, hexec, hdone.free, hg, fun hno => absurd (hshadow.symm.trans hno) (by decide), fun _ => ⟨hmem, hbob, htile⟩, htiles,
        hdone.others, hdone.counted, hdone.reported, hdone.sys, hdone.rest⟩
    · obtain ⟨t, g, hexec, hdone, hg, hmem, hcomplete, hbob, htiles⟩ :=
        exec_tileComplete_unshadowed s n altered corrected j i f l e x hj himg hf hcfg hx hst htime (Bool.eq_false_of_not_eq_true hshadow)
      exact ⟨t, g, hexec, hdone.free, hg, fun _ => ⟨hmem, hcomplete, hbob⟩, fun hyes => absurd hyes hshadow, htiles,
        hdone.others, hdone.counted, hdone.reported, hdone.sys, hdone.rest⟩
  · obtain ⟨t, hexec, hspindle, hreported, hue, hrest⟩ := exec_spindleFailure s n c code hjob hc
    exact ⟨t, hexec, by rw [hspindle]; rfl, by rw [hspindle]; rfl, by rw [hspindle]; rfl, by rw [hspindle]; rfl, hreported, hue, hrest⟩
  · obtain ⟨t, hexec, hrecord, hue, hrest⟩ := exec_inputFailure s n c hc hjob
    obtain ⟨htrap, hquarantines⟩ := Prod.mk.inj hrecord
    exact ⟨t, hexec, htrap, hquarantines, hue, hrest⟩

end Sys2Proof.Machine
end

section
/-! SUPPORT. The commands on the bobbin pool and the hand-over of a band (spec/07_spindle_array.md R233, R241; 09 R310, R312, R319 to R325, R336;
11 R390). -/

namespace Sys2Proof.Machine

/-! ### Queues of the pool -/

/-- The other entries of a changed association list. -/
theorem assocGet_assocSet_other {κ α : Type} [DecidableEq κ] (l : List (κ × α)) (k m : κ) (v x : α) (h : m ≠ k) :
    assocGet (assocSet l k v) m x = assocGet l m x := by
  have hmap : ∀ l : List (κ × α), (l.map fun p => if p.1 = k then (k, v) else p).find? (fun p => decide (p.1 = m)) =
      l.find? fun p => decide (p.1 = m) := by
    intro l
    induction l with
    | nil => rfl
    | cons p l ih =>
      rw [List.map_cons]
      by_cases hp : p.1 = k
      · rw [if_pos hp, List.find?_cons_of_neg (by simpa using Ne.symm h), List.find?_cons_of_neg (by simpa [hp] using Ne.symm h), ih]
      · rw [if_neg hp, List.find?_cons, List.find?_cons, ih]
  unfold assocGet assocSet
  split_ifs
  · rw [hmap]
  · rw [List.find?_append, List.find?_cons_of_neg (by simpa using Ne.symm h), List.find?_nil, Option.or_none]

/-- The other queues of a changed pool. -/
theorem Bob.onQueue_queue_other (b : Bob) (n m : Nat) (f : PoolQ → PoolQ) (h : m ≠ n) : (b.onQueue n f).queue m = b.queue m :=
  assocGet_assocSet_other _ _ _ _ _ h

/-- An entry of a list whose entries were changed under their keys. -/
theorem assocGet_map {κ α : Type} [DecidableEq κ] (l : List (κ × α)) (g : κ × α → κ × α) (hg : ∀ p, (g p).1 = p.1) (k : κ)
    (x : α) :
    assocGet (l.map g) k x = match l.find? (fun p => p.1 = k) with | some p => (g p).2 | none => x := by
  simp only [assocGet, List.find?_map, Function.comp_def, hg]
  cases l.find? fun p => decide (p.1 = k) <;> rfl

/-- Trimming credits changes no more of the pool than credits (R312). -/
theorem Dev.trimCredits_pool (d : Dev) :
    (∀ n, (d.trimCredits.bob.queue n).pkts = (d.bob.queue n).pkts) ∧ { d.trimCredits.bob with queues := d.bob.queues } = d.bob := by
  unfold Dev.trimCredits
  split
  · refine ⟨fun n => ?_, rfl⟩
    refine (congrArg PoolQ.pkts (assocGet_map d.bob.queues _ (fun p => by split_ifs <;> rfl) n PoolQ.empty)).trans ?_
    unfold Bob.queue assocGet
    cases d.bob.queues.find? fun p => decide (p.1 = n) with
    | none => rfl
    | some p => dsimp only; split_ifs <;> rfl
  · exact ⟨fun _ => rfl, rfl⟩

theorem Dev.trimCredits_frame (d : Dev) : { d.trimCredits with bob := d.bob } = d := by
  unfold Dev.trimCredits
  split <;> rfl

@[simp] theorem Dev.trimCredits_pkts (d : Dev) (n : Nat) : (d.trimCredits.bob.queue n).pkts = (d.bob.queue n).pkts := d.trimCredits_pool.1 n
@[simp] theorem Dev.trimCredits_sel (d : Dev) : d.trimCredits.bob.sel = d.bob.sel := (congrArg Bob.sel d.trimCredits_pool.2 :)
@[simp] theorem Dev.trimCredits_leaked (d : Dev) : d.trimCredits.bob.leaked = d.bob.leaked := (congrArg Bob.leaked d.trimCredits_pool.2 :)
@[simp] theorem Dev.trimCredits_sys (d : Dev) : d.trimCredits.sys = d.sys := (congrArg Dev.sys d.trimCredits_frame :)

/-- The registers but for the pool and what a report changes, which are those of `x`. -/
def Dev.besidePool (x d : Dev) : Dev := { d.unreport x with bob := x.bob }

theorem Dev.trimCredits_besidePool (x d : Dev) : x.besidePool d.trimCredits = x.besidePool d :=
  (congrArg x.besidePool d.trimCredits_frame :)

theorem Dev.raise_besidePool (x d : Dev) (b y z : Nat) : x.besidePool (d.raise b y z) = x.besidePool d :=
  congrArg (fun e : Dev => { e with bob := x.bob }) (d.unreport_raise x b y z)

theorem Dev.settle_besidePool (x d : Dev) : x.besidePool d.settle = x.besidePool d :=
  congrArg (fun e : Dev => { e with bob := x.bob }) (d.unreport_settle x)

theorem Dev.onBob_besidePool (x d : Dev) (f : Bob → Bob) : x.besidePool (d.onBob f) = x.besidePool d := rfl

/-- What the frame of an access says beyond that, where the bus is answered alone. -/
theorem Dev.unaccess_of_besidePool {d e : Dev} (h : d.besidePool e = d) (hbus : e.bus = d.bus) : { e.unaccess d with bob := d.bob } = d := by
  have hjnl : (e.unreport d).jnl = d.jnl := (congrArg Dev.jnl h :)
  have hframe := congrArg (fun x : Dev => { x with jnl := d.jnl, bus := d.bus }) h
  simp only [Dev.unaccess, hjnl, hbus]
  exact hframe

/-! ### BOB_POP and BOB_DROP (R319, R322, R324) -/

section
variable (d : Dev) (a : Access) (damaged : Bool) (hr : d.released = true)
include hr

/-- A pop of a sound word, or of an empty queue. -/
theorem bobPop_sound (h : damaged = false ∨ d.selQueue.front 0 = none) :
    bobPop a damaged d = ((d.setSelQueue d.selQueue.pop.2).trimCredits).answer a 0 0 (d.selQueue.pop.1.zeroExtend 64) := by
  have hno : (damaged && (d.selQueue.front 0).isSome) = false := by
    rcases h with h | h <;> simp [h]
  simp only [bobPop, d.answersAt_of_released _ hr, if_true, hno, Bool.false_eq_true, if_false]

/-- A pop of a damaged word is flagged and reported. -/
theorem bobPop_damaged (h : (d.selQueue.front 0).isSome = true) :
    bobPop a true d = ((((d.setSelQueue d.selQueue.pop.2).trimCredits).onBob fun b => { b with err := Config.bobErr b.sel }).raise 17
      d.bob.sel 0).answer a 0 0 (d.selQueue.pop.1.zeroExtend 64) := by
  simp only [bobPop, d.answersAt_of_released _ hr, if_true, h, Bool.and_self]

end

section
variable (s : State) (a : Access) (hr : s.dev.released = true)
include hr

/-- A pop that meets no damage: the word, the queue after it, and nothing else. -/
theorem exec_bobPop_sound (damaged : Bool) (h : damaged = false ∨ s.dev.selQueue.front 0 = none) :
    ∃ t, exec (.bobPop a damaged) s = .next t ∧ t.mem = s.mem ∧
      t.dev.bus.answer = some ⟨a.master, 0, 0, s.dev.selQueue.pop.1.zeroExtend 64⟩ ∧
      t.dev.bob = (s.dev.onQueue s.dev.bob.sel fun _ => s.dev.selQueue.pop.2).trimCredits.bob ∧
      { t.dev.unaccess s.dev with bob := s.dev.bob } = s.dev := by
  have heq := bobPop_sound s.dev a damaged hr h
  refine ⟨s.run (bobPop a damaged), rfl, rfl, ?_, ?_, ?_⟩
  · rw [State.run_dev, Dev.settle_bus, heq, Dev.answer_answer]
  · rw [State.run_dev, Dev.settle_bob, heq]
    rfl
  · rw [State.run_dev, Dev.unaccess_settle, heq, Dev.unaccess_answer]
    refine Dev.unaccess_of_besidePool (Dev.trimCredits_besidePool s.dev _) ?_
    exact (congrArg Dev.bus (Dev.trimCredits_frame (s.dev.setSelQueue s.dev.selQueue.pop.2)) :)

/-- A pop of a damaged word (R324; 01 R39). -/
theorem exec_bobPop_damaged (h : (s.dev.selQueue.front 0).isSome = true) :
    ∃ t, exec (.bobPop a true) s = .next t ∧ t.mem = s.mem ∧
      t.dev.bus.answer = some ⟨a.master, 0, 0, s.dev.selQueue.pop.1.zeroExtend 64⟩ ∧
      t.dev.bob = { (s.dev.onQueue s.dev.bob.sel fun _ => s.dev.selQueue.pop.2).trimCredits.bob with err := Config.bobErr s.dev.bob.sel } ∧
      t.dev.sys.fault.getLsbD 17 = true ∧ { t.dev.unaccess s.dev with bob := s.dev.bob } = s.dev := by
  have heq := bobPop_damaged s.dev a hr h
  have hsel : (s.dev.setSelQueue s.dev.selQueue.pop.2).trimCredits.bob.sel = s.dev.bob.sel := Dev.trimCredits_sel _
  refine ⟨s.run (bobPop a true), rfl, rfl, ?_, ?_, ?_, ?_⟩
  · rw [State.run_dev, Dev.settle_bus, heq, Dev.answer_answer]
  · rw [State.run_dev, Dev.settle_bob, heq, Dev.answer_bob, Dev.raise_bob, Dev.onBob_bob, hsel]
    rfl
  · rw [State.run_dev, heq]
    refine Dev.settle_keeps _ 17 ?_
    rw [Dev.answer_sys]
    exact Dev.raise_sets _ 17 _ 0 (by decide)
  · rw [State.run_dev, Dev.unaccess_settle, heq, Dev.unaccess_answer, Dev.unaccess_raise]
    refine Dev.unaccess_of_besidePool (Dev.trimCredits_besidePool s.dev _) ?_
    exact (congrArg Dev.bus (Dev.trimCredits_frame (s.dev.setSelQueue s.dev.selQueue.pop.2)) :)

end

/-- What a pop of a queue with a word answers and leaves (R322). -/
theorem PoolQ.pop_of_popWord {q q' : PoolQ} {w : Word} (h : q.popWord = some (w, q')) : q.pop = (w, q') ∧ (q.front 0).isSome = true := by
  refine ⟨by rw [PoolQ.pop, h], ?_⟩
  rw [PoolQ.popWord, Option.map_eq_some_iff] at h
  obtain ⟨p, hp, _⟩ := h
  rw [hp]; rfl

theorem PoolQ.pop_of_empty {q : PoolQ} (h : q.front 0 = none) : q.pop = (q.lastPop, { q with underrun := true }) := by
  rw [PoolQ.pop, PoolQ.popWord, h]
  rfl

/-- A drop passes the first packet, or counts on an empty queue (R319). -/
theorem exec_bobDrop (s : State) (a : Access) (h : s.dev.accepts a (regAddr 0x400010) 1 = true) :
    ∃ t, exec (.bobDrop a) s = .next t ∧ t.mem = s.mem ∧
      t.dev.bob = (s.dev.onQueue s.dev.bob.sel fun x => x.drop).trimCredits.bob ∧
      { t.dev.unaccess s.dev with bob := s.dev.bob } = s.dev := by
  let dropped (e : Dev) : Dev × Res := ((e.setSelQueue e.selQueue.drop).trimCredits, Res.ok)
  refine ⟨s.run fun d => d.write a (regAddr 0x400010) 4 1 true dropped, rfl, rfl, ?_, ?_⟩
  · rw [State.run_dev, Dev.settle_bob, Dev.write_bob, if_pos h]
    rfl
  · rw [State.run_dev, Dev.unaccess_settle, Dev.write_accepted _ _ _ _ _ _ _ _ h]
    refine Dev.unaccess_of_besidePool (Dev.trimCredits_besidePool s.dev _) ?_
    exact (congrArg Dev.bus (Dev.trimCredits_frame (s.dev.setSelQueue s.dev.selQueue.drop)) :)

/-! ### The audit (R325) -/

/-- The audit returns leaked cells. -/
theorem exec_ownershipAudit_sound (s : State) :
    ∃ t, exec (.ownershipAudit none) s = .next t ∧ t.mem = s.mem ∧ t.dev.bob = { s.dev.bob with leaked := 0 } ∧
      { t.dev.unreport s.dev with bob := s.dev.bob } = s.dev := by
  refine ⟨s.run (ownershipAudit none), rfl, rfl, ?_, ?_⟩
  · rw [State.run_dev, Dev.settle_bob]
    rfl
  · rw [State.run_dev, Dev.unreport_settle]
    rfl

/-- The pool with a queue cut before its packet `k`, and the cells of the rest leaked. -/
def Dev.cutQueue (d : Dev) (n k : Nat) : Dev :=
  (d.onQueue n fun x => { x with pkts := x.pkts.take k }).onBob fun b =>
    { b with leaked := b.leaked + ({ d.bob.queue n with pkts := (d.bob.queue n).pkts.drop k } : PoolQ).cells }

/-- A cut, its report and the trimming of credits change the pool and what a report changes. -/
theorem Dev.cutQueue_frame (d : Dev) (n k : Nat) :
    { ((d.ownershipAudit.cutQueue n k).raise 17 n 0).trimCredits.settle.unreport d with bob := d.bob } = d := by
  have h : d.besidePool ((d.ownershipAudit.cutQueue n k).raise 17 n 0).trimCredits.settle = d := by
    rw [Dev.settle_besidePool, Dev.trimCredits_besidePool, Dev.raise_besidePool, Dev.cutQueue, Dev.onBob_besidePool, Dev.onQueue,
      Dev.onBob_besidePool, Dev.ownershipAudit, Dev.onBob_besidePool]
    rfl
  exact h

/-- A damaged entry discards its queue from there on, and its cells are leaked. -/
theorem exec_ownershipAudit_damaged (s : State) (n : Fin 512) (k : Nat) (hk : k < (s.dev.bob.queue n.val).pkts.length) :
    ∃ t, exec (.ownershipAudit (some (n, k))) s = .next t ∧ t.mem = s.mem ∧
      (t.dev.bob.queue n.val).pkts = (s.dev.bob.queue n.val).pkts.take k ∧
      t.dev.bob.leaked = ({ s.dev.bob.queue n.val with pkts := (s.dev.bob.queue n.val).pkts.drop k }).cells ∧
      (∀ m, m ≠ n.val → (t.dev.bob.queue m).pkts = (s.dev.bob.queue m).pkts) ∧
      t.dev.sys.fault.getLsbD 17 = true ∧ { t.dev.unreport s.dev with bob := s.dev.bob } = s.dev := by
  let cut := s.dev.ownershipAudit.cutQueue n.val k
  have hcut (m : Nat) : cut.bob.queue m = (s.dev.bob.onQueue n.val fun x => { x with pkts := x.pkts.take k }).queue m := rfl
  have heq : ownershipAudit (some (n, k)) s.dev = (cut.raise 17 n.val 0).trimCredits := congrArg Dev.trimCredits (if_pos hk)
  refine ⟨s.run (ownershipAudit (some (n, k))), rfl, rfl, ?_, ?_, fun m hm => ?_, ?_, ?_⟩
  · rw [State.run_dev, Dev.settle_bob, heq, Dev.trimCredits_pkts, Dev.raise_bob, hcut, Bob.onQueue_queue_same]
  · rw [State.run_dev, Dev.settle_bob, heq, Dev.trimCredits_leaked, Dev.raise_bob]
    exact Nat.zero_add _
  · rw [State.run_dev, Dev.settle_bob, heq, Dev.trimCredits_pkts, Dev.raise_bob, hcut, Bob.onQueue_queue_other _ _ _ _ hm]
  · rw [State.run_dev, heq]
    refine Dev.settle_keeps _ 17 ?_
    rw [Dev.trimCredits_sys]
    exact Dev.raise_sets _ 17 n.val 0 (by decide)
  · rw [State.run_dev, heq]
    exact Dev.cutQueue_frame s.dev n.val k

/-! ### The patrol scrubber (R336; 01 R38, R39) -/

/-- The words of a channel counted (R335). -/
def Fst.counted (f : Fst) (i j : Fin 4) (ce ue : Nat) : Fst :=
  { f with ecc := upd (upd f.ecc i fun x => satAdd x ce) j fun x => satAdd x ue }

/-- The registers but for the frame store and what a report changes, which are those of `x`. -/
def Dev.besideStore (x d : Dev) : Dev := { d.unreport x with fst := x.fst }

/-- A bit that is reported where a count is not zero. -/
def Dev.reportCount (d : Dev) (b n : Nat) : Dev := if 0 < n then d.report b else d

section
variable (x d : Dev) (b n : Nat)

theorem Dev.reportCount_fst : (d.reportCount b n).fst = d.fst := by
  unfold Dev.reportCount
  split_ifs <;> simp

theorem Dev.reportCount_besideStore : x.besideStore (d.reportCount b n) = x.besideStore d := by
  unfold Dev.reportCount
  split_ifs
  · exact congrArg (fun e : Dev => { e with fst := x.fst }) (d.unreport_report x b)
  · rfl

theorem Dev.reportCount_sets (hn : 0 < n) (hb : b < 32) : (d.reportCount b n).sys.fault.getLsbD b = true := by
  rw [Dev.reportCount, if_pos hn]
  exact Dev.raise_sets d b _ 0 hb

theorem Dev.reportCount_keeps (i : Nat) (h : d.sys.fault.getLsbD i = true) : (d.reportCount b n).sys.fault.getLsbD i = true := by
  unfold Dev.reportCount
  split_ifs
  · exact Dev.raise_keeps d b _ 0 i h
  · exact h

end

section
variable (x d : Dev) (c : Fin 2) (ce ue : Nat)

/-- The words found in a channel are counted, and each kind that was found is reported. -/
theorem Dev.countEcc_eq : d.countEcc c ce ue =
    (({ d with fst := d.fst.counted (Fin.ofNat 4 (2 * c.val)) (Fin.ofNat 4 (2 * c.val + 1)) ce ue } : Dev).reportCount 16 ce).reportCount
      17 ue := rfl

theorem Dev.countEcc_fst : (d.countEcc c ce ue).fst = d.fst.counted (Fin.ofNat 4 (2 * c.val)) (Fin.ofNat 4 (2 * c.val + 1)) ce ue := by
  rw [Dev.countEcc_eq, Dev.reportCount_fst, Dev.reportCount_fst]

theorem Dev.countEcc_besideStore : x.besideStore (d.countEcc c ce ue) = x.besideStore d := by
  rw [Dev.countEcc_eq, Dev.reportCount_besideStore, Dev.reportCount_besideStore]
  rfl

theorem Dev.countEcc_reports : (0 < ce → (d.countEcc c ce ue).sys.fault.getLsbD 16 = true) ∧
    (0 < ue → (d.countEcc c ce ue).sys.fault.getLsbD 17 = true) ∧
    ∀ b, d.sys.fault.getLsbD b = true → (d.countEcc c ce ue).sys.fault.getLsbD b = true := by
  rw [Dev.countEcc_eq]
  exact ⟨fun h => Dev.reportCount_keeps _ 17 ue 16 (Dev.reportCount_sets _ 16 ce h (by decide)),
    fun h => Dev.reportCount_sets _ 17 ue h (by decide), fun b h => Dev.reportCount_keeps _ 17 ue b (Dev.reportCount_keeps _ 16 ce b h)⟩

end

/-- A pass is counted, and what it found is counted and reported. -/
theorem exec_patrolScrub (s : State) (ce0 ue0 ce1 ue1 : Nat) (htrained : s.dev.fst.trained = true) :
    ∃ t, exec (.patrolScrub ce0 ue0 ce1 ue1) s = .next t ∧ t.mem = s.mem ∧
      t.dev.fst = { s.dev.fst with
        passes := satAdd s.dev.fst.passes 1,
        ecc := #v[satAdd s.dev.fst.ecc[0] ce0, satAdd s.dev.fst.ecc[1] ue0, satAdd s.dev.fst.ecc[2] ce1, satAdd s.dev.fst.ecc[3] ue1] } ∧
      (0 < ce0 + ce1 → t.dev.sys.fault.getLsbD 16 = true) ∧ (0 < ue0 + ue1 → t.dev.sys.fault.getLsbD 17 = true) ∧
      { t.dev.unreport s.dev with fst := s.dev.fst } = s.dev := by
  let passed : Dev := { s.dev with fst := { s.dev.fst with passes := satAdd s.dev.fst.passes 1 } }
  have heq : patrolScrub ce0 ue0 ce1 ue1 s.dev = (passed.countEcc 0 ce0 ue0).countEcc 1 ce1 ue1 := if_pos htrained
  obtain ⟨hce0, hue0, _⟩ := passed.countEcc_reports 0 ce0 ue0
  obtain ⟨hce1, hue1, hkeep⟩ := (passed.countEcc 0 ce0 ue0).countEcc_reports 1 ce1 ue1
  refine ⟨s.run (patrolScrub ce0 ue0 ce1 ue1), rfl, rfl, ?_, fun h => ?_, fun h => ?_, ?_⟩
  · rw [State.run_dev, Dev.settle_fst, heq, Dev.countEcc_fst, Dev.countEcc_fst]
    have hecc : ((passed.fst.counted 0 1 ce0 ue0).counted 2 3 ce1 ue1).ecc =
        #v[satAdd s.dev.fst.ecc[0] ce0, satAdd s.dev.fst.ecc[1] ue0, satAdd s.dev.fst.ecc[2] ce1, satAdd s.dev.fst.ecc[3] ue1] := by
      ext i hi
      interval_cases i <;> simp [Fst.counted, passed]
    exact congrArg (fun v => { passed.fst with ecc := v }) hecc
  · rw [State.run_dev, heq]
    refine Dev.settle_keeps _ 16 ?_
    rcases Nat.add_pos_iff_pos_or_pos.1 h with h0 | h1
    · exact hkeep 16 (hce0 h0)
    · exact hce1 h1
  · rw [State.run_dev, heq]
    refine Dev.settle_keeps _ 17 ?_
    rcases Nat.add_pos_iff_pos_or_pos.1 h with h0 | h1
    · exact hkeep 17 (hue0 h0)
    · exact hue1 h1
  · rw [State.run_dev, Dev.unreport_settle, heq]
    exact (Dev.countEcc_besideStore s.dev _ 1 ce1 ue1).trans (Dev.countEcc_besideStore s.dev passed 0 ce0 ue0)

/-! ### The tiles of a band at its H (R233, R241, R249, R324) -/

/-- A tile of the frame of a key takes the previous frame's bytes or mid-grey, or nothing happens (R249). -/
theorem State.pourTile_cases (s : State) (st : StreamNo) (key t : Nat) (unreadable : Bool) :
    s.pourTile st key t unreadable = s ∨
      ∃ g p m, (∀ x : Tile, (g x).ended = true) ∧ s.pourTile st key t unreadable =
        { s with dev := (s.dev.onOut st key fun f => f.onTile t g).onSpn p, mem := { s.mem with fs := m } } := by
  unfold State.pourTile
  split
  · exact .inl rfl
  · split
    · exact .inl rfl
    · extract_lets r prev bs
      refine .inr ⟨fun y => { y with st := if prev.isSome then TileSt.substituted else .filled }, _, _, fun y => ?_, rfl⟩
      cases prev <;> rfl

/-- What happens to the tiles of a band at its H: the frame of a key goes forward, and nothing changes but the streams, the spindles,
the pool, SYS, what a report changes and the frame store. -/
structure State.Settles (st : StreamNo) (key : Nat) (s t : State) : Prop where
  adv : Dev.Advances st key s.dev t.dev
  rest : ∀ x : Dev, x.besideArray t.dev = x.besideArray s.dev
  mem : { t.mem with fs := s.mem.fs } = s.mem

namespace State.Settles

variable {st : StreamNo} {key : Nat} {s t u : State}

theorem refl (s : State) : Settles st key s s := ⟨.of_streams rfl, fun _ => rfl, rfl⟩

theorem trans (hst : Settles st key s t) (htu : Settles st key t u) : Settles st key s u where
  adv := hst.adv.trans htu.adv
  rest x := (htu.rest x).trans (hst.rest x)
  mem := (congrArg (fun m : Mem => { m with fs := s.mem.fs }) htu.mem).trans hst.mem

theorem foldl {α : Type} (g : State → α → State) (h : ∀ t a, Settles st key t (g t a)) (l : List α) (s : State) :
    Settles st key s (l.foldl g s) :=
  List.foldlRecOn (motive := Settles st key s) l g (.refl s) fun t ht a _ => ht.trans (h t a)

/-- The configuration of a frame is known after it as before. -/
theorem cfgOf (h : Settles st key s t) {f g : OutFrame} (hfg : f.Advances g) : t.dev.cfgOf st g = s.dev.cfgOf st f :=
  Dev.cfgOf_congr (congrArg Dev.img (h.rest s.dev) :) hfg.layout

end State.Settles

section
variable (s : State) (st : StreamNo) (key : Nat)

theorem State.commitTile_mem (f : OutFrame) (l : LayoutCfg) (e : StreamCfg) (t : Nat) (bs : List Byte) :
    { (s.commitTile st f l e t bs).mem with fs := s.mem.fs } = s.mem := rfl

theorem State.expireTile_settles (t : Nat) : State.Settles st key s (s.expireTile st key t) where
  adv := s.expireTile_advances st key t
  rest x := s.expireTile_besideArray x st key t
  mem := by
    rcases s.expireTile_cases st key t with ⟨h, _⟩ | ⟨f, l, e, x, _, _, _, ⟨_, h⟩ | ⟨bs, h⟩ | h⟩
    · rw [h]
    · rw [h]
    · rw [h]; exact State.commitTile_mem { s with dev := s.dev.skipShadow st key t } st f l e t bs
    · rw [h]

theorem Dev.badRead_besideArray (x d : Dev) (t : Nat) (k : TileRead) : x.besideArray (d.badRead st key t k) = x.besideArray d := by
  unfold Dev.badRead
  split
  · rw [Dev.raise_besideArray, Dev.dropTilePkt_besideArray]
  · rw [Dev.raise_besideArray, Dev.substitute_besideArray]
  · rw [Dev.raise_besideArray]
  · rfl

theorem Dev.badRead_advances (d : Dev) (t : Nat) (k : TileRead) : Dev.Advances st key d (d.badRead st key t k) := by
  unfold Dev.badRead
  split
  · exact .of_streams (by rw [Dev.raise_streams, Dev.dropTilePkt_streams])
  · exact (Dev.substitute_advances st key t d).trans (.of_streams (Dev.raise_streams ..))
  · exact .of_streams (Dev.raise_streams ..)
  · exact .of_streams rfl

theorem State.badRead_settles (t : Nat) (k : TileRead) : State.Settles st key s { s with dev := s.dev.badRead st key t k } :=
  ⟨Dev.badRead_advances st key s.dev t k, fun x => Dev.badRead_besideArray st key x s.dev t k, rfl⟩

theorem State.pourTile_settles (t : Nat) (unreadable : Bool) : State.Settles st key s (s.pourTile st key t unreadable) := by
  rcases s.pourTile_cases st key t unreadable with h | ⟨g, p, m, hg, h⟩
  · rw [h]; exact .refl s
  · rw [h]
    exact ⟨.trans (.onOut s.dev (fun f => f.onTile t g) (fun _ => rfl) fun f => .onTile f t g hg) (.of_streams rfl), fun _ => rfl, rfl⟩

/-- Each tile of a list ends at its H, the frame's layout being known. -/
theorem State.expireTiles_ended (tile : Nat → Nat) (is : List Nat) (f : OutFrame) (c : LayoutCfg × StreamCfg)
    (hf : (s.dev.streams[st]).out key = some f) (hc : s.dev.cfgOf st f = some c) :
    ∀ i ∈ is, Dev.TileEnded st key (tile i) (is.foldl (fun t i => t.expireTile st key (tile i)) s).dev := by
  induction is generalizing s f with
  | nil => exact fun i hi => nomatch hi
  | cons a is ih =>
    have hstep := s.expireTile_settles st key (tile a)
    obtain ⟨g, hg, hfg⟩ := hstep.adv f hf
    intro i hi
    rw [List.foldl_cons]
    rcases List.mem_cons.1 hi with rfl | hi
    · exact (s.expireTile_ended st key (tile i) f c hf hc).later (by rw [hg]; rfl)
        (State.Settles.foldl _ (fun t j => t.expireTile_settles st key (tile j)) is _).adv
    · exact ih (s.expireTile st key (tile a)) g hg ((hstep.cfgOf hfg).trans hc) i hi

/-- After its H every tile of a band has ended. -/
theorem State.settleBand_settles (cols b : Nat) (errs : List (Nat × TileRead)) (f : OutFrame) (c : LayoutCfg × StreamCfg)
    (hf : (s.dev.streams[st]).out key = some f) (hc : s.dev.cfgOf st f = some c) :
    State.Settles st key s (s.settleBand st key cols b errs) ∧
      ∀ i < cols, Dev.TileEnded st key (b * cols + i) (s.settleBand st key cols b errs).dev := by
  unfold State.settleBand
  extract_lets s1 whole bad s2
  have h1 : State.Settles st key s s1 := State.Settles.foldl _ (fun t i => t.expireTile_settles st key (b * cols + i)) _ s
  have h2 : State.Settles st key s1 s2 := State.Settles.foldl _ (fun t p => t.badRead_settles st key (b * cols + p.1) p.2) bad s1
  have hpour : State.Settles st key s2 _ := State.Settles.foldl (fun t i =>
    if (((t.dev.streams[st]).out key).bind fun f => f.tiles[b * cols + i]?).any Tile.replaced then
      t.pourTile st key (b * cols + i) (if whole i then bad.contains (i, .packetAndRing) else bad.contains (i, .previous))
    else t) (fun t i => by
      split_ifs
      · exact t.pourTile_settles st key _ _
      · exact t.pourTile_settles st key _ _
      · exact .refl t) (List.range cols) s2
  refine ⟨(h1.trans h2).trans hpour, fun i hi => ?_⟩
  obtain ⟨g, hg, _⟩ := h1.adv f hf
  exact (s.expireTiles_ended st key (b * cols + ·) _ f c hf hc i (List.mem_range.2 hi)).later (by rw [hg]; rfl) (h2.trans hpour).adv

end

/-! ### The frame start packet (R390) -/

/-- The registers but for those of `Dev.besideArray`, the strands and the ply link, which are those of `x`. -/
def Dev.besideDoffer (x d : Dev) : Dev := { x.besideArray d with strands := x.strands, ply := x.ply }

theorem Dev.besideDoffer_ports (x d : Dev) : (x.besideDoffer d).ports = d.ports := rfl
theorem Dev.besideDoffer_whl (x d : Dev) : (x.besideDoffer d).whl = d.whl := rfl

theorem Dev.besideDoffer_congr {x d e : Dev} (h : x.besideArray d = x.besideArray e) : x.besideDoffer d = x.besideDoffer e :=
  congrArg (fun y : Dev => { y with strands := x.strands, ply := x.ply }) h

/-- A strand but for which of its frames were issued. -/
def Strand.besideIssued (g : Strand) : Strand := { g with frames := g.frames.map fun x => { x with issued := false } }

theorem Strand.onFrame_besideIssued (g : Strand) (num : Word) :
    (g.onFrame num fun z => { z with issued := true }).besideIssued = g.besideIssued := by
  simp only [Strand.onFrame, Strand.besideIssued, List.map_map]
  refine congrArg (fun l => { g with frames := l }) (List.map_congr_left fun x _ => ?_)
  simp only [Function.comp_apply]
  split_ifs <;> rfl

/-- What equal strands but for the issues of their frames have in common. -/
theorem Strand.of_besideIssued {g h : Strand} (heq : g.besideIssued = h.besideIssued) :
    { g with frames := h.frames } = h ∧
      g.frames.map (fun x => { x with issued := false }) = h.frames.map fun x => { x with issued := false } :=
  ⟨(congrArg (fun k : Strand => { k with frames := h.frames }) heq :), (congrArg Strand.frames heq :)⟩

/-- The doffer sends packets of a frame: the frame of a key goes forward, the queue grows, and strands change at most in the issues of
their frames. -/
structure Dev.Sends (st : StreamNo) (key : Nat) (d e : Dev) : Prop where
  adv : Dev.Advances st key d e
  rest : ∀ x : Dev, x.besideDoffer e = x.besideDoffer d
  queue : d.ply.queue ⊆ e.ply.queue
  strands : ∀ n : StrandNo, (e.strands[n]).besideIssued = (d.strands[n]).besideIssued

namespace Dev.Sends

variable {st : StreamNo} {key : Nat} {d e x : Dev}

theorem refl (d : Dev) : Sends st key d d := ⟨.of_streams rfl, fun _ => rfl, List.Subset.refl _, fun _ => rfl⟩

theorem trans (hde : Sends st key d e) (hex : Sends st key e x) : Sends st key d x :=
  ⟨hde.adv.trans hex.adv, fun y => (hex.rest y).trans (hde.rest y), List.Subset.trans hde.queue hex.queue,
    fun n => (hex.strands n).trans (hde.strands n)⟩

theorem foldl {α : Type} (g : Dev → α → Dev) (h : ∀ e a, Sends st key e (g e a)) (l : List α) (d : Dev) :
    Sends st key d (l.foldl g d) :=
  List.foldlRecOn (motive := Sends st key d) l g (.refl d) fun e he a _ => he.trans (h e a)

theorem onOut (d : Dev) (h : OutFrame → OutFrame) (hkey : ∀ f, (h f).key = f.key) (hadv : ∀ f : OutFrame, f.Advances (h f)) :
    Sends st key d (d.onOut st key h) := ⟨.onOut d h hkey hadv, fun _ => rfl, List.Subset.refl _, fun _ => rfl⟩

theorem onStream (d : Dev) (h : Stream → Stream) (hh : ∀ g, (h g).frames = g.frames) : Sends st key d (d.onStream st h) :=
  ⟨.of_frames (by rw [Dev.onStream_get, hh]), fun _ => rfl, List.Subset.refl _, fun _ => rfl⟩

theorem issue (d : Dev) (n : StrandNo) (num : Word) :
    Sends st key d (d.onStrand n fun g => g.onFrame num fun z => { z with issued := true }) where
  adv := .of_streams rfl
  rest _ := rfl
  queue := List.Subset.refl _
  strands m := by
    by_cases hm : m = n
    · subst hm
      rw [Dev.onStrand, upd_same, Strand.onFrame_besideIssued]
    · rw [Dev.onStrand, upd_other _ _ _ _ hm]

theorem pushPkt (d : Dev) (h prio ptype id line : Nat) (payload : List Byte) (k : Nat) :
    Sends st key d (d.pushPkt h prio ptype id line payload k) := by
  unfold Dev.pushPkt
  split_ifs
  · exact .refl d
  · exact ⟨.of_streams rfl, fun _ => rfl, List.subset_append_left _ _, fun _ => rfl⟩

end Dev.Sends

section
variable (d : Dev) (st : StreamNo) (f : OutFrame) (e : StreamCfg) (h : Nat)

/-- The frame start is sent (R390), and goes into the queue of a link with lanes. -/
theorem Dev.startFrame_sends : Dev.Sends st f.key d (d.startFrame st f e h) ∧
    (d.ply.map ≠ 0 → ∃ y ∈ (d.startFrame st f e h).ply.queue, y.ptype = 2 ∧ y.id = st.val ∧ y.key = f.key) := by
  unfold Dev.startFrame
  extract_lets down x d1 r d2 d3
  have hcount : Dev.Sends st f.key d (d.countSlot st) := .onStream d _ fun _ => rfl
  have h1 : Dev.Sends st f.key d d1 :=
    (hcount.trans (.onOut _ (fun y => { y with degraded := x.degraded, lost := down }) (fun _ => rfl) fun _ => .of_tiles rfl rfl rfl)).trans
      (.onStream _ (fun g => { g with live := true, slotAt := some d.whl.tim, afterReneg := g.afterReneg && down }) fun _ => rfl)
  have h2 : Dev.Sends st f.key d1 d2 := Dev.Sends.onOut d1 _ (fun _ => rfl) fun _ => .of_tiles rfl rfl rfl
  have h3 : Dev.Sends st f.key d2 d3 ∧ d3.ply = d2.ply := by
    simp only [d3]
    split
    · split_ifs
      · exact ⟨.refl d2, rfl⟩
      · exact ⟨.issue d2 _ _, rfl⟩
    · exact ⟨.refl d2, rfl⟩
  obtain ⟨h3, hply⟩ := h3
  refine ⟨((h1.trans h2).trans h3).trans (.pushPkt d3 ..), fun hmap => ?_⟩
  rw [Dev.pushPkt_queued _ _ _ _ _ _ _ _ (by rw [hply]; exact hmap)]
  exact ⟨_, List.mem_append_right _ (List.mem_singleton_self _), rfl, rfl, rfl⟩

end

/-! ### What the doffer's cursor passes (R310; 09 R307) -/

section
variable (d : Dev) (st : StreamNo) (f : OutFrame) (cols b : Nat)

/-- A packet that a cursor has passed has it no more. -/
theorem PoolQ.pass_readers (q : PoolQ) (c : Nat) (h : Pkt → Bool) :
    ∀ p ∈ (q.pass c h).pkts, h p = true → p.readers.contains c = false := by
  intro p hp hsel
  obtain ⟨p0, _, hp0⟩ := List.mem_filterMap.1 hp
  split_ifs at hp0 with hpass
  · unfold Pkt.passed at hp0
    extract_lets rs at hp0
    split_ifs at hp0
    obtain rfl := Option.some.inj hp0
    simp [rs]
  · obtain rfl := Option.some.inj hp0
    simpa [hsel] using hpass

theorem Dev.sweepLines_queue_other (n : StrandNo) (m : Nat) (hm : m ≠ n.val) : (d.sweepLines n).bob.queue m = d.bob.queue m := by
  unfold Dev.sweepLines
  split_ifs
  · rfl
  · exact Bob.onQueue_queue_other _ _ _ _ hm

/-- The registers with another pool. -/
def Dev.withBob (d : Dev) (x : Bob) : Dev := { d with bob := x }

theorem Dev.trimCredits_withBob (x : Bob) : d.trimCredits.withBob x = d.withBob x :=
  (congrArg (fun e : Dev => e.withBob x) d.trimCredits_frame :)
theorem Dev.sweepLines_withBob (x : Bob) (n : StrandNo) : (d.sweepLines n).withBob x = d.withBob x :=
  (congrArg (fun e : Dev => e.withBob x) (d.sweepLines_frame n) :)
theorem Dev.onQueue_withBob (x : Bob) (n : Nat) (h : PoolQ → PoolQ) : (d.onQueue n h).withBob x = d.withBob x := rfl

/-- Only the pool changes. -/
theorem Dev.releasePkts_withBob (x : Bob) : (d.releasePkts st f cols b).withBob x = d.withBob x := by
  rw [Dev.releasePkts, Dev.trimCredits_withBob, Dev.foldl_view (fun e => e.withBob x)
    (fun (e : Dev) (p : Nat × Word) => e.sweepLines (strandOf p.1))
    fun e p => e.sweepLines_withBob x (strandOf p.1)]
  exact d.onQueue_withBob x _ _

theorem Dev.releasePkts_streams : (d.releasePkts st f cols b).streams = d.streams :=
  (congrArg Dev.streams (d.releasePkts_withBob st f cols b d.bob) :)
theorem Dev.releasePkts_strands : (d.releasePkts st f cols b).strands = d.strands :=
  (congrArg Dev.strands (d.releasePkts_withBob st f cols b d.bob) :)
theorem Dev.releasePkts_ply : (d.releasePkts st f cols b).ply = d.ply :=
  (congrArg Dev.ply (d.releasePkts_withBob st f cols b d.bob) :)
theorem Dev.releasePkts_ports : (d.releasePkts st f cols b).ports = d.ports :=
  (congrArg Dev.ports (d.releasePkts_withBob st f cols b d.bob) :)
theorem Dev.releasePkts_whl : (d.releasePkts st f cols b).whl = d.whl :=
  (congrArg Dev.whl (d.releasePkts_withBob st f cols b d.bob) :)

/-- Rows that leave the line queues change no tile queue. -/
theorem Dev.sweepLines_tileQueue (ps : List (Nat × Word)) :
    (ps.foldl (fun e p => e.sweepLines (strandOf p.1)) d).bob.queue (128 + st.val) = d.bob.queue (128 + st.val) :=
  Dev.foldl_view (fun e => e.bob.queue (128 + st.val)) (fun (e : Dev) (p : Nat × Word) => e.sweepLines (strandOf p.1))
    (fun e p => e.sweepLines_queue_other (strandOf p.1) _ (by have := (strandOf p.1).isLt; omega)) ps d

theorem Dev.releasePkts_pkts : ((d.releasePkts st f cols b).bob.queue (128 + st.val)).pkts =
    ((d.bob.queue (128 + st.val)).pass 1 fun p => decide (p.frame = f.key) && decide (p.unit / cols = b)).pkts := by
  rw [Dev.releasePkts, Dev.trimCredits_pkts, Dev.sweepLines_tileQueue, Dev.onQueue, Dev.onBob, Bob.onQueue_queue_same]

/-- The packets of the band have left the doffer's cursor. -/
theorem Dev.releasePkts_passed : ∀ p ∈ ((d.releasePkts st f cols b).bob.queue (128 + st.val)).pkts,
    p.frame = f.key → p.unit / cols = b → p.readers.contains 1 = false := by
  intro p hp hframe hunit
  rw [Dev.releasePkts_pkts] at hp
  exact PoolQ.pass_readers _ 1 _ p hp (by simp [hframe, hunit])

end

/-! ### The hand-over of a band (R233, R241, R390) -/

/-- Row `y` as a line packet of the frame of a key (R390). -/
def Dev.sendRow (d : Dev) (h prio : Nat) (st : StreamNo) (key y : Nat) (pl : List Byte) : Dev :=
  (d.pushPkt h prio 1 st.val y pl key).onOut st key fun x => { x with sentLines := x.sentLines ++ padTo 4 pl }

/-- Rows of a band as line packets. -/
def Dev.sendRows (d : Dev) (h prio : Nat) (st : StreamNo) (key : Nat) (row : Nat → List Byte) (ys : List Nat) : Dev :=
  ys.foldl (fun d y => d.sendRow h prio st key y (row y)) d

theorem Dev.pushPkt_strands (d : Dev) (h prio ptype id line : Nat) (payload : List Byte) (key : Nat) :
    (d.pushPkt h prio ptype id line payload key).strands = d.strands := by
  unfold Dev.pushPkt
  split_ifs <;> rfl

theorem Dev.Sends.sendRow (d : Dev) (h prio : Nat) (st : StreamNo) (key y : Nat) (pl : List Byte) :
    Dev.Sends st key d (d.sendRow h prio st key y pl) :=
  (Dev.Sends.pushPkt d ..).trans
    (.onOut _ (fun x => { x with sentLines := x.sentLines ++ padTo 4 pl }) (fun _ => rfl) fun _ => .of_tiles rfl rfl rfl)

theorem Dev.sendRows_sends (d : Dev) (h prio : Nat) (st : StreamNo) (key : Nat) (row : Nat → List Byte) (ys : List Nat) :
    Dev.Sends st key d (d.sendRows h prio st key row ys) ∧ (d.sendRows h prio st key row ys).strands = d.strands :=
  ⟨Dev.Sends.foldl _ (fun e y => Dev.Sends.sendRow e h prio st key y (row y)) ys d,
    Dev.foldl_view Dev.strands (fun e y => e.sendRow h prio st key y (row y)) (fun e _ => Dev.pushPkt_strands e ..) ys d⟩

/-- The band of `f` that is due was taken: at its H the state was `t`, and `d` once its packets were sent. -/
structure State.BandSent (s : State) (st : StreamNo) (f : OutFrame) (cols : Nat) (t : State) (d : Dev) : Prop where
  settles : State.Settles st f.key s t
  ended : ∀ i < cols, Dev.TileEnded st f.key (f.handed * cols + i) t.dev
  sends : Dev.Sends st f.key t.dev d
  start : f.handed = 0 → t.dev.ply.map ≠ 0 → ∃ y ∈ d.ply.queue, y.ptype = 2 ∧ y.id = st.val ∧ y.key = f.key
  strands : f.handed ≠ 0 → d.strands = t.dev.strands

/-- A frame of which one more band was handed over. -/
def OutFrame.handOver (low : Bool) (f : OutFrame) : OutFrame := { f with handed := f.handed + 1, spareLow := f.spareLow || low }

/-- A band taken: its tiles end, its packets are sent, it is handed over, and its packets leave the tile queue. -/
theorem State.takeBand_eq (s : State) (st : StreamNo) (errs : List (Nat × TileRead)) (f : OutFrame) (l : LayoutCfg) (e : StreamCfg)
    (hf : (s.dev.streams[st]).out f.key = some f) (hc : s.dev.cfgOf st f = some (l, e)) :
    ∃ t d, s.BandSent st f (l.cols e) t d ∧ s.takeBand st f.key errs =
      { t with dev := (d.onOut st f.key (OutFrame.handOver d.spareLow)).releasePkts st f (l.cols e) f.handed } := by
  unfold State.takeBand
  split
  · next hnone => exact absurd (hf.symm.trans hnone) (by simp)
  next f' hf' =>
  obtain rfl : f = f' := Option.some.inj (hf.symm.trans hf')
  split
  · next hnone => exact absurd (hc.symm.trans hnone) (by simp)
  next l' e' hc' =>
  obtain ⟨rfl, rfl⟩ : l = l' ∧ e = e' := Prod.mk.inj (Option.some.inj (hc.symm.trans hc'))
  extract_lets b h s1 g s2 ys lost d4 d5
  obtain ⟨hsettles, hended⟩ := s.settleBand_settles st f.key (l.cols e) b errs f (l, e) hf hc
  obtain ⟨g', hg', _⟩ := hsettles.adv f hf
  have hg : g = g' := congrArg (fun o : Option OutFrame => o.getD f) hg'
  have hkey : g.key = f.key := hg ▸ Stream.key_of_out hg'
  have h2 : s2 = { s1 with dev := s2.dev } ∧ Dev.Sends st f.key s1.dev s2.dev ∧
      (b = 0 → s1.dev.ply.map ≠ 0 → ∃ y ∈ s2.dev.ply.queue, y.ptype = 2 ∧ y.id = st.val ∧ y.key = f.key) ∧
      (b ≠ 0 → s2.dev.strands = s1.dev.strands) := by
    obtain ⟨hsends, hstart⟩ := s1.dev.startFrame_sends st g e h
    rw [hkey] at hsends hstart
    simp only [s2]
    split_ifs with hb
    · exact ⟨rfl, hsends, fun _ => hstart, fun hne => absurd hb hne⟩
    · exact ⟨rfl, .refl _, fun h0 => absurd h0 hb, fun _ => rfl⟩
  have h4 : Dev.Sends st f.key s2.dev d4 ∧ d4.strands = s2.dev.strands := by
    simp only [d4]
    split_ifs
    · exact ⟨.refl _, rfl⟩
    · exact s2.dev.sendRows_sends h e.priority st f.key (s2.bandLine st f l e b) ys
  obtain ⟨hs2, hsends2, hstart, hstrands2⟩ := h2
  obtain ⟨hsends4, hstrands4⟩ := h4
  refine ⟨s1, d4, ⟨hsettles, hended, hsends2.trans hsends4, fun hb hmap => ?_, fun hb => hstrands4.trans (hstrands2 hb)⟩, ?_⟩
  · obtain ⟨y, hy, hkind⟩ := hstart hb hmap
    exact ⟨y, hsends4.queue hy, hkind⟩
  · exact (congrArg (fun x : State => { x with dev := d5.releasePkts st f (l.cols e) b }) hs2 :)

theorem Tile.ended_iff (x : Tile) : x.ended = true ↔ x.st = .complete ∨ x.st = .substituted ∨ x.st = .filled := by
  simp [Tile.ended, Tile.replaced]

section
variable {s : State} {st : StreamNo} {f : OutFrame} {cols : Nat} {t : State} {d : Dev}

/-- The frame after a band was sent holds tiles alone that have ended in it. -/
theorem State.BandSent.frame (h : s.BandSent st f cols t d) (hf : (s.dev.streams[st]).out f.key = some f) :
    ∃ g, (d.streams[st]).out f.key = some g ∧ g.handed = f.handed ∧
      ∀ (k : Nat) (x : Tile), k / cols = f.handed → 0 < cols → g.tiles[k]? = some x → x.ended = true := by
  obtain ⟨f1, hf1, hff1⟩ := h.settles.adv f hf
  obtain ⟨g, hg, hf1g⟩ := h.sends.adv f1 hf1
  refine ⟨g, hg, hf1g.handed.trans hff1.handed, fun k x hk hcols hx => ?_⟩
  have htile : f.handed * cols + k % cols = k := by rw [← hk, Nat.div_add_mod']
  have hend := (h.ended (k % cols) (Nat.mod_lt k hcols)).later (by rw [hf1]; rfl) h.sends.adv
  rw [htile] at hend
  exact hend g x hg hx

/-- The other registers after a band was sent. -/
theorem State.BandSent.besideDoffer (h : s.BandSent st f cols t d) (x : Dev) : x.besideDoffer d = x.besideDoffer s.dev :=
  (h.sends.rest x).trans (Dev.besideDoffer_congr (h.settles.rest x))

theorem State.BandSent.ports (h : s.BandSent st f cols t d) : d.ports = s.dev.ports := by
  rw [← Dev.besideDoffer_ports s.dev d, h.besideDoffer s.dev, Dev.besideDoffer_ports]
theorem State.BandSent.whl (h : s.BandSent st f cols t d) : d.whl = s.dev.whl := by
  rw [← Dev.besideDoffer_whl s.dev d, h.besideDoffer s.dev, Dev.besideDoffer_whl]

end

/-- The oldest released band that the doffer has not taken (R233, R241, R390; 09 R310). -/
theorem exec_bandHandover (s : State) (st : StreamNo) (errs : List (Nat × TileRead)) (f : OutFrame) (l : LayoutCfg) (e : StreamCfg)
    (hfind : ((s.dev.streams[st]).frames.find? fun f => decide (f.handed < f.released.length)) = some f)
    (hf : (s.dev.streams[st]).out f.key = some f) (hc : s.dev.cfgOf st f = some (l, e)) :
    ∃ (t : State) (g : OutFrame), exec (.bandHandover st errs) s = .next t ∧ (t.dev.streams[st]).out f.key = some g ∧
      g.handed = f.handed + 1 ∧
      (∀ (k : Nat) (x : Tile), k / l.cols e = f.handed → 0 < l.cols e → g.tiles[k]? = some x →
        x.st = .complete ∨ x.st = .substituted ∨ x.st = .filled) ∧
      (f.handed = 0 → s.dev.ply.map ≠ 0 → ∃ y ∈ t.dev.ply.queue, y.ptype = 2 ∧ y.id = st.val ∧ y.key = f.key) ∧
      (∀ p ∈ (t.dev.bob.queue (128 + st.val)).pkts, p.frame = f.key → p.unit / l.cols e = f.handed → p.readers.contains 1 = false) ∧
      { t.mem with fs := s.mem.fs } = s.mem ∧ (f.handed ≠ 0 → t.dev.strands = s.dev.strands) ∧
      (∀ n : StrandNo, { t.dev.strands[n] with frames := (s.dev.strands[n]).frames } = s.dev.strands[n] ∧
        (t.dev.strands[n]).frames.map (fun x => { x with issued := false }) =
          (s.dev.strands[n]).frames.map fun x => { x with issued := false }) ∧
      t.dev.ports = s.dev.ports ∧ t.dev.whl = s.dev.whl := by
  obtain ⟨u, d, hsent, htake⟩ := s.takeBand_eq st errs f l e hf hc
  obtain ⟨g, hg, hhanded, htiles⟩ := hsent.frame hf
  let d5 := d.onOut st f.key (OutFrame.handOver d.spareLow)
  have hband : bandHandover st errs s = { u with dev := d5.releasePkts st f (l.cols e) f.handed } := by
    rw [bandHandover, hfind]
    exact htake
  have hrun : (s.runM (bandHandover st errs)).dev = (d5.releasePkts st f (l.cols e) f.handed).settle := by rw [State.runM_dev, hband]
  have hstrands : (s.runM (bandHandover st errs)).dev.strands = d.strands := by
    rw [hrun, Dev.settle_strands, Dev.releasePkts_strands]
    rfl
  have hkept : u.dev.strands = s.dev.strands := (congrArg Dev.strands (hsent.settles.rest s.dev) :)
  have hply : u.dev.ply = s.dev.ply := (congrArg Dev.ply (hsent.settles.rest s.dev) :)
  refine ⟨s.runM (bandHandover st errs), g.handOver d.spareLow, rfl, ?_, congrArg (· + 1) hhanded,
    fun k x hk hcols hx => x.ended_iff.1 (htiles k x hk hcols hx), fun hb hmap => ?_, ?_, ?_, fun hb => ?_, fun n => ?_, ?_, ?_⟩
  · rw [hrun, Dev.settle_streams, Dev.releasePkts_streams,
      Dev.onOut_out d st f.key (OutFrame.handOver d.spareLow) fun _ => rfl, hg, Option.map_some]
  · rw [hrun, Dev.settle_ply, Dev.releasePkts_ply]
    exact hsent.start hb (by rw [hply]; exact hmap)
  · rw [hrun, Dev.settle_bob]
    exact d5.releasePkts_passed st f (l.cols e) f.handed
  · rw [State.runM_mem, hband]
    exact hsent.settles.mem
  · rw [hstrands, hsent.strands hb, hkept]
  · rw [hstrands]
    refine Strand.of_besideIssued ?_
    rw [hsent.sends.strands n, hkept]
  · rw [hrun, Dev.settle_ports, Dev.releasePkts_ports]
    exact (Dev.onStream_ports d st _).trans hsent.ports
  · rw [hrun, Dev.settle_whl, Dev.releasePkts_whl]
    exact (Dev.onStream_whl d st _).trans hsent.whl

/-! ### The obligation -/

/-- A pop of the selected queue (R322, R324). -/
theorem exec_bobPop (s : State) (a : Access) (hr : s.dev.released = true) :
    let q := s.dev.bob.queue s.dev.bob.sel
    (∀ (w : Word) (q' : PoolQ), q.popWord = some (w, q') →
      (∃ t, exec (.bobPop a false) s = .next t ∧ t.mem = s.mem ∧ t.dev.bus.answer = some ⟨a.master, 0, 0, w.zeroExtend 64⟩ ∧
        t.dev.bob = (s.dev.onQueue s.dev.bob.sel fun _ => q').trimCredits.bob ∧ { t.dev.unaccess s.dev with bob := s.dev.bob } = s.dev) ∧
      (∃ t, exec (.bobPop a true) s = .next t ∧ t.mem = s.mem ∧ t.dev.bus.answer = some ⟨a.master, 0, 0, w.zeroExtend 64⟩ ∧
        t.dev.bob = { (s.dev.onQueue s.dev.bob.sel fun _ => q').trimCredits.bob with err := Config.bobErr s.dev.bob.sel } ∧
        t.dev.sys.fault.getLsbD 17 = true ∧ { t.dev.unaccess s.dev with bob := s.dev.bob } = s.dev)) ∧
    ∀ damaged : Bool, q.front 0 = none →
      ∃ t, exec (.bobPop a damaged) s = .next t ∧ t.mem = s.mem ∧ t.dev.bus.answer = some ⟨a.master, 0, 0, q.lastPop.zeroExtend 64⟩ ∧
        t.dev.bob = (s.dev.onQueue s.dev.bob.sel fun x => { x with underrun := true }).trimCredits.bob ∧
        { t.dev.unaccess s.dev with bob := s.dev.bob } = s.dev := by
  refine ⟨fun w q' hw => ?_, fun damaged hempty => ?_⟩
  · obtain ⟨hpop, hfront⟩ := PoolQ.pop_of_popWord hw
    have hsound := exec_bobPop_sound s a hr false (.inl rfl)
    have hdamaged := exec_bobPop_damaged s a hr hfront
    rw [show s.dev.selQueue.pop = (w, q') from hpop] at hsound hdamaged
    exact ⟨hsound, hdamaged⟩
  · have hsound := exec_bobPop_sound s a hr damaged (.inr hempty)
    rw [show s.dev.selQueue.pop = _ from PoolQ.pop_of_empty hempty] at hsound
    exact hsound

/-- Settles O38: the lemmas above compute each command; a dispatched tile leaves the pool, and a completed one is put into its
queue. -/
theorem bandsAndPool : Obligations.BandsAndPool := by
  intro s
  refine ⟨exec_bandHandover s, fun hr a => ?_, exec_ownershipAudit_sound s, exec_ownershipAudit_damaged s, exec_patrolScrub s,
    fun n r hn hready => ?_, fun n altered j i f l e x hj himg hf hc hx hst hshadow htime => ?_⟩
  · obtain ⟨hpop, hempty⟩ := exec_bobPop s a hr
    exact ⟨hpop, hempty, exec_bobDrop s a⟩
  · obtain ⟨p, h, hd⟩ := tileDispatch_dispatched s.dev n r hn hready
    refine ⟨s.run tileDispatch, rfl, rfl, ?_, ?_⟩
    · rw [State.run_dev, Dev.settle_bob, hd.result]
      rfl
    · rw [State.run_dev, Dev.settle_spn, hd.result]
      exact hd.job
  · obtain ⟨t, g, hexec, hdone, _, _, _, hbob, _⟩ :=
      exec_tileComplete_unshadowed s n altered 0 j i f l e x hj himg hf hc hx (.inl hst) htime hshadow
    exact ⟨t, hexec, hdone.free, by rw [hbob, Dev.putPkt_commits]⟩

end Sys2Proof.Machine
end

section
/-! SUPPORT. The hank compressor (spec/10_hank_compressor.md R338 to R366): what the start of a frame, the verdict on a hank and an
abandoned frame leave in the lane, in the strand's record state and in the lane's queue, and what they leave alone. -/

namespace Sys2Proof.Machine

/-! ### Lanes and record states -/

section
variable (d : Dev) (k : Fin 4) (n : StrandNo) (f : HankLane → HankLane) (g : HankStrand → HankStrand)

@[simp] theorem Dev.onLane_lanes : (d.onLane k f).hnk.lanes = upd d.hnk.lanes k f := rfl
@[simp] theorem Dev.onLane_strands : (d.onLane k f).hnk.strands = d.hnk.strands := rfl
@[simp] theorem Dev.onHankStrand_lanes : (d.onHankStrand n g).hnk.lanes = d.hnk.lanes := rfl
@[simp] theorem Dev.onHankStrand_strands : (d.onHankStrand n g).hnk.strands = upd d.hnk.strands n g := rfl

end

/-- A change of a record state is known by what it makes of that one. -/
theorem Dev.onHankStrand_congr (d : Dev) (n : StrandNo) (f g : HankStrand → HankStrand) (h : f d.hnk.strands[n] = g d.hnk.strands[n]) :
    d.onHankStrand n f = d.onHankStrand n g :=
  congrArg (fun v => d.onHnk fun x => { x with strands := v }) (upd_congr _ _ _ _ h)

theorem Dev.putPkt_hnk (d : Dev) (n : Nat) (data : List Byte) (m : Bool) (rs : List Nat) (fr u : Nat) :
    (d.putPkt n data m rs fr u).hnk = d.hnk := rfl

/-- The registers but for the hank compressor and what a report changes, which are those of `x`. -/
def Dev.besideHank (x d : Dev) : Dev := { d.unreport x with hnk := x.hnk }

section
variable (x d : Dev)

theorem Dev.raise_besideHank (b y z : Nat) : x.besideHank (d.raise b y z) = x.besideHank d :=
  congrArg (fun e : Dev => { e with hnk := x.hnk }) (d.unreport_raise x b y z)

theorem Dev.settle_besideHank : x.besideHank d.settle = x.besideHank d :=
  congrArg (fun e : Dev => { e with hnk := x.hnk }) (d.unreport_settle x)

theorem Dev.onLane_besideHank (k : Fin 4) (f : HankLane → HankLane) : x.besideHank (d.onLane k f) = x.besideHank d := rfl

theorem Dev.onHankStrand_besideHank (n : StrandNo) (g : HankStrand → HankStrand) :
    x.besideHank (d.onHankStrand n g) = x.besideHank d := rfl

theorem Dev.putPkt_besideHank (n : Nat) (data : List Byte) (m : Bool) (rs : List Nat) (fr u : Nat) :
    { x.besideHank (d.putPkt n data m rs fr u) with bob := x.bob } = { x.besideHank d with bob := x.bob } := rfl

theorem Dev.besideHank_self : x.besideHank x = x := rfl

end

/-! ### A lane starts a frame (R338, R356, R365, R366) -/

/-- A strand with a frame taken off the list of those that wait. -/
def HankStrand.unwait (num : Word) (x : HankStrand) : HankStrand := { x with waiting := x.waiting.filter fun y => decide (y.2 ≠ num) }

section
variable (d : Dev) (n : StrandNo) (num : Word)

theorem Dev.unwait_strands : (d.unwait n num).hnk.strands = upd d.hnk.strands n (HankStrand.unwait num) := rfl
theorem Dev.unwait_lanes : (d.unwait n num).hnk.lanes = d.hnk.lanes := rfl
theorem Dev.unwait_besideHank (x : Dev) : x.besideHank (d.unwait n num) = x.besideHank d := rfl

end

/-- One frame waits: it comes off the list, and is taken unless its strand is shed. -/
theorem nextHankFrame_of_single (d : Dev) (k : Fin 4) (close : Nat) (n : StrandNo) (num : Word)
    (h : d.laneWaiting k = [(close, n, num)]) :
    nextHankFrame k (d.laneWaiting k).length d = (d.unwait n num, if d.shedRecord n.val then none else some (n, num)) := by
  rw [h]
  simp only [List.length_singleton, nextHankFrame, h, firstWaiting, List.foldl_cons, List.foldl_nil]
  split_ifs <;> rfl

/-- A frame as a lane starts it. -/
def Dev.startedHank (d : Dev) (i : Image) (n : StrandNo) (num : Word) (f : Frame) (entry : Bool) (m : Mem) : HankFrame :=
  { strand := n, frame := num, bytes := d.residualOf i n f m, offset := 0, storedTo := 0, blockUsed := 0, entry := entry,
    restart := entry && (d.hnk.strands[n]).restart, formatFault := decide (f.flags &&& flagFormatFault ≠ 0),
    capSec := f.capture.sec, capNs := f.capture.ns }

section
variable (s : State) (k : Fin 4) (n : StrandNo) (num : Word) (close : Nat)
  (hq : (s.dev.hnk.lanes[k]).quarantined = false) (hcur : (s.dev.hnk.lanes[k]).cur = none)
  (hw : s.dev.laneWaiting k = [(close, n, num)])
include hq hcur hw

theorem hankLaneFrameStart_of_taken (i : Image) (f : Frame) (entry : Bool) (himg : s.dev.img = some i)
    (hf : (s.dev.strands[n]).frame num = some f) (hshed : s.dev.shedRecord n.val = false)
    (hentry : (s.dev.hnk.strands[n]).opensEntry f (s.dev.entryInterval f.layout) = entry) :
    hankLaneFrameStart k s.mem s.dev =
      ((s.dev.unwait n num).onHankStrand n fun x => x.begin f entry).onLane k
        fun l => { l with cur := some (s.dev.startedHank i n num f entry s.mem) } := by
  have hfree : ¬((s.dev.hnk.lanes[k]).quarantined = true ∨ (s.dev.hnk.lanes[k]).cur.isSome = true) := by rw [hq, hcur]; decide
  have hstrand : (s.dev.unwait n num).hnk.strands[n] = (s.dev.hnk.strands[n]).unwait num := upd_same ..
  have hframe : ((s.dev.unwait n num).strands[n]).frame num = some f := hf
  have hopens : ((s.dev.unwait n num).hnk.strands[n]).opensEntry f ((s.dev.unwait n num).entryInterval f.layout) = entry := by
    rw [hstrand, ← hentry]
    rfl
  have hrestart : ((s.dev.unwait n num).hnk.strands[n]).restart = (s.dev.hnk.strands[n]).restart := by rw [hstrand]; rfl
  simp only [hankLaneFrameStart, if_neg hfree, nextHankFrame_of_single _ _ _ _ _ hw, hshed, himg, Bool.false_eq_true, if_false]
  rw [hframe]
  simp only [hopens, hrestart]
  rfl

theorem hankLaneFrameStart_of_shed (hshed : s.dev.shedRecord n.val = true) :
    hankLaneFrameStart k s.mem s.dev = s.dev.unwait n num := by
  have hfree : ¬((s.dev.hnk.lanes[k]).quarantined = true ∨ (s.dev.hnk.lanes[k]).cur.isSome = true) := by rw [hq, hcur]; decide
  simp only [hankLaneFrameStart, if_neg hfree, nextHankFrame_of_single _ _ _ _ _ hw, hshed, if_true]

/-- A frame of a strand that is recorded is started: the lane holds it, and the strand's record state is begun anew or goes on. -/
theorem exec_hankLaneFrameStart_taken (i : Image) (f : Frame) (entry : Bool) (himg : s.dev.img = some i)
    (hf : (s.dev.strands[n]).frame num = some f) (hshed : s.dev.shedRecord n.val = false)
    (hentry : (s.dev.hnk.strands[n]).opensEntry f (s.dev.entryInterval f.layout) = entry) :
    ∃ t, exec (.hankLaneFrameStart k) s = .next t ∧ t.mem = s.mem ∧
      (t.dev.hnk.lanes[k]).cur = some (s.dev.startedHank i n num f entry s.mem) ∧
      t.dev.hnk.strands[n] = ((s.dev.hnk.strands[n]).unwait num).begin f entry ∧
      (∀ m, m ≠ n → t.dev.hnk.strands[m] = s.dev.hnk.strands[m]) ∧ (∀ m, m ≠ k → t.dev.hnk.lanes[m] = s.dev.hnk.lanes[m]) ∧
      s.dev.besideHank t.dev = s.dev := by
  have hrun := hankLaneFrameStart_of_taken s k n num close hq hcur hw i f entry himg hf hshed hentry
  have hstrands : (s.runR (hankLaneFrameStart k)).dev.hnk.strands = upd s.dev.hnk.strands n fun x => (x.unwait num).begin f entry := by
    rw [State.runR_dev, Dev.settle_hnk, hrun, Dev.onLane_strands, Dev.onHankStrand_strands, Dev.unwait_strands, upd_upd]
  have hlanes : (s.runR (hankLaneFrameStart k)).dev.hnk.lanes =
      upd s.dev.hnk.lanes k fun l => { l with cur := some (s.dev.startedHank i n num f entry s.mem) } := by
    rw [State.runR_dev, Dev.settle_hnk, hrun, Dev.onLane_lanes, Dev.onHankStrand_lanes, Dev.unwait_lanes]
  refine ⟨s.runR (hankLaneFrameStart k), rfl, rfl, ?_, ?_, fun m hm => ?_, fun m hm => ?_, ?_⟩
  · rw [hlanes, upd_same]
  · rw [hstrands, upd_same]
  · rw [hstrands, upd_other _ _ _ _ hm]
  · rw [hlanes, upd_other _ _ _ _ hm]
  · rw [State.runR_dev, Dev.settle_besideHank, hrun, Dev.onLane_besideHank, Dev.onHankStrand_besideHank, Dev.unwait_besideHank,
      Dev.besideHank_self]

/-- A frame of a shed strand is passed over (R365). -/
theorem exec_hankLaneFrameStart_shed (hshed : s.dev.shedRecord n.val = true) :
    ∃ t, exec (.hankLaneFrameStart k) s = .next t ∧ t.mem = s.mem ∧ t.dev.hnk.lanes = s.dev.hnk.lanes ∧
      t.dev.hnk.strands = upd s.dev.hnk.strands n (HankStrand.unwait num) ∧ s.dev.besideHank t.dev = s.dev := by
  have hrun := hankLaneFrameStart_of_shed s k n num close hq hcur hw hshed
  refine ⟨s.runR (hankLaneFrameStart k), rfl, rfl, ?_, ?_, ?_⟩
  · rw [State.runR_dev, Dev.settle_hnk, hrun, Dev.unwait_lanes]
  · rw [State.runR_dev, Dev.settle_hnk, hrun, Dev.unwait_strands]
  · rw [State.runR_dev, Dev.settle_besideHank, hrun, Dev.unwait_besideHank, Dev.besideHank_self]

end

/-! ### A frame abandoned (R363) -/

theorem Dev.abandonHank_of_cur (d : Dev) (k : Fin 4) (c : HankFrame) (h : (d.hnk.lanes[k]).cur = some c) :
    d.abandonHank k =
      ((d.onLane k fun l => { l with cur := none, losses := l.losses + 1 }).endSegment c.strand).raise 15 c.strand.val 1 := by
  simp only [Dev.abandonHank, h]

theorem Dev.abandonHank_hnk (d : Dev) (k : Fin 4) (c : HankFrame) (h : (d.hnk.lanes[k]).cur = some c) :
    (d.abandonHank k).hnk = { d.hnk with
      lanes := upd d.hnk.lanes k fun l => { l with cur := none, losses := l.losses + 1 }
      strands := upd d.hnk.strands c.strand HankStrand.endSegment } := by
  rw [d.abandonHank_of_cur k c h, Dev.raise_hnk]
  rfl

theorem Dev.abandonHank_besideHank (x d : Dev) (k : Fin 4) : x.besideHank (d.abandonHank k) = x.besideHank d := by
  rw [Dev.abandonHank]
  split
  · exact Dev.raise_besideHank ..
  · rfl

/-- An abandoned frame is a loss, ends the strand's segment and is reported; poisoned data is reported besides (01 R39). -/
theorem exec_hankFrameAbandon (s : State) (k : Fin 4) (c : HankFrame) (cause : HankAbandonCause)
    (hcur : (s.dev.hnk.lanes[k]).cur = some c) :
    ∃ t, exec (.hankFrameAbandon k cause) s = .next t ∧ t.mem = s.mem ∧ (t.dev.hnk.lanes[k]).cur = none ∧
      (t.dev.hnk.lanes[k]).losses = (s.dev.hnk.lanes[k]).losses + 1 ∧
      t.dev.hnk.strands = upd s.dev.hnk.strands c.strand HankStrand.endSegment ∧
      t.dev.sys.fault.getLsbD 15 = true ∧ (cause = .poisoned → t.dev.sys.fault.getLsbD 17 = true) ∧
      s.dev.besideHank t.dev = s.dev := by
  have hsome : ¬(s.dev.hnk.lanes[k]).cur.isNone = true := by rw [hcur]; nofun
  have h15 : (s.dev.abandonHank k).sys.fault.getLsbD 15 = true := by
    rw [Dev.abandonHank_of_cur _ _ _ hcur]
    exact Dev.raise_sets _ _ _ _ (by decide)
  have hpoisoned : hankFrameAbandon k .poisoned s.dev = (s.dev.abandonHank k).raise 17 (192 + k.val) 0 := if_neg hsome
  have htaken : hankFrameAbandon k .slotTaken s.dev = s.dev.abandonHank k := if_neg hsome
  obtain ⟨hhnk, hfault, hpoison, hrest⟩ : (hankFrameAbandon k cause s.dev).hnk = (s.dev.abandonHank k).hnk ∧
      (hankFrameAbandon k cause s.dev).sys.fault.getLsbD 15 = true ∧
      (cause = .poisoned → (hankFrameAbandon k cause s.dev).sys.fault.getLsbD 17 = true) ∧
      s.dev.besideHank (hankFrameAbandon k cause s.dev) = s.dev.besideHank (s.dev.abandonHank k) := by
    cases cause with
    | poisoned =>
      rw [hpoisoned]
      exact ⟨Dev.raise_hnk .., Dev.raise_keeps _ _ _ _ _ h15, fun _ => Dev.raise_sets _ _ _ _ (by decide), Dev.raise_besideHank ..⟩
    | slotTaken =>
      rw [htaken]
      exact ⟨rfl, h15, nofun, rfl⟩
  have hdev : (s.run (hankFrameAbandon k cause)).dev.hnk = _ := (Dev.settle_hnk _).trans (hhnk.trans (s.dev.abandonHank_hnk k c hcur))
  refine ⟨s.run (hankFrameAbandon k cause), rfl, rfl, ?_, ?_, ?_, Dev.settle_keeps _ _ hfault,
    fun hc => Dev.settle_keeps _ _ (hpoison hc), ?_⟩
  · rw [hdev, upd_same]
  · rw [hdev, upd_same]
  · rw [hdev]
  · rw [State.run_dev, Dev.settle_besideHank, hrest, Dev.abandonHank_besideHank, Dev.besideHank_self]

/-! ### A lane quarantined (R361, R362) -/

/-- A new assignment changes of a lane no more than its strands. -/
theorem Dev.assignHank_lane (d : Dev) (id : Nat) (ns : List Nat) (k : Fin 4) :
    ∃ ms, (d.assignHank id ns).hnk.lanes[k] = { d.hnk.lanes[k] with strands := ms } := by
  rw [Dev.assignHank]
  split
  · exact ⟨_, rfl⟩
  · next i _ =>
    refine ⟨(i.assignLanes d.goodLanes (if d.goodLanes.length = 4 then none else some 800000000) ns).1[k], ?_⟩
    rw [Dev.foldl_view (fun e => e.hnk) _ fun e n => e.raise_hnk 15 n 0]
    exact Vector.getElem_ofFn _

theorem Dev.assignHank_bob (d : Dev) (id : Nat) (ns : List Nat) : (d.assignHank id ns).bob = d.bob := by
  rw [Dev.assignHank]
  split
  · rfl
  · exact Dev.foldl_view Dev.bob _ (fun e n => e.raise_bob 15 n 0) _ _

theorem Dev.assignHank_keeps (d : Dev) (id : Nat) (ns : List Nat) (b : Nat) (h : d.sys.fault.getLsbD b = true) :
    (d.assignHank id ns).sys.fault.getLsbD b = true := by
  rw [Dev.assignHank]
  split
  · exact h
  · exact List.foldlRecOn (motive := fun e : Dev => e.sys.fault.getLsbD b = true) _ _ h fun e he n _ => e.raise_keeps 15 n 0 b he

/-- What the quarantine of lane `k` leaves, from `d` to `e`: it is reported, and the pool and the lane's suspect count are as they were. -/
structure Dev.Quarantined (d e : Dev) (k : Fin 4) : Prop where
  bob : e.bob = d.bob
  reported : e.sys.fault.getLsbD 15 = true
  suspect : (e.hnk.lanes[k]).suspect = (d.hnk.lanes[k]).suspect
  quarantined : (e.hnk.lanes[k]).quarantined = true

theorem Dev.Quarantined.assignHank {d e : Dev} {k : Fin 4} (h : d.Quarantined e k) (id : Nat) (ns : List Nat) :
    d.Quarantined (e.assignHank id ns) k := by
  obtain ⟨ms, hlane⟩ := e.assignHank_lane id ns k
  exact ⟨(e.assignHank_bob id ns).trans h.bob, e.assignHank_keeps id ns 15 h.reported, by rw [hlane]; exact h.suspect,
    by rw [hlane]; exact h.quarantined⟩

theorem Dev.abandonHank_suspect (d : Dev) (k : Fin 4) : ((d.abandonHank k).hnk.lanes[k]).suspect = (d.hnk.lanes[k]).suspect := by
  cases h : (d.hnk.lanes[k]).cur with
  | none => simp only [Dev.abandonHank, h]
  | some c => rw [d.abandonHank_hnk k c h, upd_same]

theorem Dev.abandonHank_bob (d : Dev) (k : Fin 4) : (d.abandonHank k).bob = d.bob :=
  (congrArg Dev.bob (Dev.abandonHank_besideHank d d k) :)

theorem Dev.quarantineLane_quarantined (d : Dev) (k : Fin 4) : d.Quarantined (d.quarantineLane k) k := by
  unfold Dev.quarantineLane
  extract_lets e
  have he : d.Quarantined e k := {
    bob := (Dev.raise_bob ..).trans (d.abandonHank_bob k)
    reported := Dev.raise_sets _ _ _ _ (by decide)
    suspect := by rw [Dev.raise_hnk, Dev.numberDecision_hnk, Dev.onLane_lanes, upd_same]; exact d.abandonHank_suspect k
    quarantined := by rw [Dev.raise_hnk, Dev.numberDecision_hnk, Dev.onLane_lanes, upd_same] }
  split
  · exact he.assignHank _ _
  · exact he

/-! ### The verdict on a hank (R314, R354, R359 to R361) -/

/-- A queue with room for a packet takes it. -/
theorem Dev.commitPkt_of_room (d : Dev) (n : Nat) (data : List Byte) (rs : List Nat) (h : cellsOf data.length ≤ (d.bob.queue n).room) :
    (d.commitPkt n data rs).1 = d.putPkt n data false rs 0 0 := congrArg Prod.fst (if_pos h)

/-- The strand with a hank over `input` numbered: the next hank, and the history moved on (R348, R354). -/
def HankStrand.passed (input : List Byte) (x : HankStrand) : HankStrand :=
  { x with seq := (x.seq + 1) % 2 ^ 32, window := (x.window ++ input).drop ((x.window ++ input).length - 32768) }

/-- The lane with a hank over `input` passed: its frame moves on, and is done at its end. -/
def HankLane.passed (c : HankFrame) (input : List Byte) (used : Nat) (l : HankLane) : HankLane :=
  { l with mismatches := 0, cur := if c.offset + input.length = c.bytes.length then none
      else some { c with offset := c.offset + input.length, blockUsed := used } }

section
variable (d : Dev) (k : Fin 4) (c : HankFrame) (payload input : List Byte) (stored : Bool) (used : Nat) (p : CrcCfg)

/-- A queue with room takes the verified hank. -/
theorem Dev.passHank_of_room
    (h : cellsOf (c.hank p (d.hnk.strands[c.strand]).seq payload input stored).length ≤ (d.bob.queue (192 + k.val)).room) :
    d.passHank k c payload input stored used p =
      ((d.putPkt (192 + k.val) (c.hank p (d.hnk.strands[c.strand]).seq payload input stored) false [1] 0 0).onHankStrand c.strand
        (HankStrand.passed input)).onLane k (HankLane.passed c input used) := by
  rw [Dev.passHank, Dev.commitPkt_of_room _ _ _ _ h]
  refine congrArg (Dev.onLane · k _) (Dev.onHankStrand_congr _ _ _ _ ?_)
  rw [Dev.putPkt_hnk, HankStrand.passed]

end

/-- The lane with a mismatch counted and its frame rewound, to be sent as STORED up to offset `upTo` (R360, R361). -/
def HankLane.rewound (l : HankLane) (c : HankFrame) (upTo used : Nat) : HankLane :=
  { l with suspect := l.suspect + 1, mismatches := l.mismatches + 1, cur := some { c with storedTo := upTo, blockUsed := used } }

/-- The device with the mismatch counted and reported. -/
def Dev.rewindHank (d : Dev) (k : Fin 4) (c : HankFrame) (upTo used : Nat) : Dev :=
  (d.onLane k fun l => l.rewound c upTo used).raise 15 (192 + k.val) 0

section
variable (d : Dev) (k : Fin 4) (c : HankFrame) (upTo used : Nat)

theorem Dev.rewindHank_lane : (d.rewindHank k c upTo used).hnk.lanes[k] = (d.hnk.lanes[k]).rewound c upTo used := by
  rw [Dev.rewindHank, Dev.raise_hnk, Dev.onLane_lanes, upd_same]

theorem Dev.rewindHank_bob : (d.rewindHank k c upTo used).bob = d.bob := Dev.raise_bob ..

theorem Dev.rewindHank_reported : (d.rewindHank k c upTo used).sys.fault.getLsbD 15 = true := Dev.raise_sets _ _ _ _ (by decide)

end

section
variable (d : Dev) (k : Fin 4) (c : HankFrame) (p : CrcCfg) (payload : List Byte) (len used : Nat)

theorem Dev.judgeHank_of_verified
    (h : verifyHank (d.hnk.strands[c.strand]).window payload ((c.bytes.drop c.offset).take len) (decide (c.offset < c.storedTo)) = true) :
    d.judgeHank k c p payload len used =
      d.passHank k c payload ((c.bytes.drop c.offset).take len) (decide (c.offset < c.storedTo)) used p := if_pos h

theorem Dev.judgeHank_of_mismatch
    (h : verifyHank (d.hnk.strands[c.strand]).window payload ((c.bytes.drop c.offset).take len) (decide (c.offset < c.storedTo)) = false) :
    let e := d.rewindHank k c (if decide (c.offset < c.storedTo) then c.storedTo else c.offset + len) used
    d.judgeHank k c p payload len used = if 1 ≤ (d.hnk.lanes[k]).mismatches then e.quarantineLane k else e :=
  (if_neg (by rw [h]; nofun)).trans (if_congr (Nat.succ_le_succ_iff (a := 1)) rfl rfl)

end

/-- The command in terms of what its event makes of the device. -/
theorem exec_hankVerify (s : State) (k : Fin 4) (given : Option (List Byte)) (inputLen : Nat) (e : Dev)
    (h : hankVerify k (given.map fun x => (x, inputLen)) s.dev = e) :
    exec (.hankVerify k given inputLen) s = .next { s with dev := e.settle } := by
  rw [← h]
  rfl

section
variable (s : State) (k : Fin 4) (c : HankFrame) (i : Image) (given : Option (List Byte)) (inputLen : Nat)
  (hcur : (s.dev.hnk.lanes[k]).cur = some c) (himg : s.dev.img = some i)
include hcur himg

/-- A lane with credit judges its own hank, or the payload given. -/
theorem hankVerify_judges :
    let own := c.next i.record (s.dev.hnk.strands[c.strand]).window
    let len := if given.isSome then inputLen else own.2.1
    c.admits len = true → 256 ≤ (s.dev.bob.queue (192 + k.val)).room →
      hankVerify k (given.map fun x => (x, inputLen)) s.dev =
        s.dev.judgeHank k c i.record.crc (given.getD own.1) len (if given.isSome then 0 else own.2.2) := by
  intro own len hadmits hroom
  have hready : ¬((!c.admits len) = true ∨ (s.dev.bob.queue (192 + k.val)).room < 256) := by rw [hadmits]; simpa using hroom
  cases given with
  | none =>
    simp only [hankVerify, hcur, himg, Option.map_none]
    exact if_neg hready
  | some p =>
    simp only [hankVerify, hcur, himg, Option.map_some]
    exact if_neg hready

/-- A verified hank is in the lane's queue; the strand numbers the next one, and the lane moves on. -/
theorem exec_hankVerify_passed :
    let x := s.dev.hnk.strands[c.strand]
    let stored := decide (c.offset < c.storedTo)
    let own := c.next i.record x.window
    let payload := given.getD own.1
    let len := if given.isSome then inputLen else own.2.1
    let used := if given.isSome then 0 else own.2.2
    let input := (c.bytes.drop c.offset).take len
    let hank := c.hank i.record.crc x.seq payload input stored
    c.admits len = true → 256 ≤ (s.dev.bob.queue (192 + k.val)).room → verifyHank x.window payload input stored = true →
      cellsOf hank.length ≤ (s.dev.bob.queue (192 + k.val)).room →
      ∃ t, exec (.hankVerify k given inputLen) s = .next t ∧ t.mem = s.mem ∧
        t.dev.bob = (s.dev.putPkt (192 + k.val) hank false [1] 0 0).bob ∧
        t.dev.hnk.strands[c.strand] = x.passed input ∧ t.dev.hnk.lanes[k] = (s.dev.hnk.lanes[k]).passed c input used ∧
        { s.dev.besideHank t.dev with bob := s.dev.bob } = s.dev := by
  intro x stored own payload len used input hank hadmits hroom hverified hcells
  have hrun := ((hankVerify_judges s k c i given inputLen hcur himg hadmits hroom).trans
    (s.dev.judgeHank_of_verified k c i.record.crc payload len used hverified)).trans
    (s.dev.passHank_of_room k c payload input stored used i.record.crc hcells)
  refine ⟨_, exec_hankVerify s k given inputLen _ hrun, rfl, Dev.settle_bob _, ?_, ?_, ?_⟩
  · rw [Dev.settle_hnk, Dev.onLane_strands, Dev.onHankStrand_strands, upd_same, Dev.putPkt_hnk]
  · rw [Dev.settle_hnk, Dev.onLane_lanes, Dev.onHankStrand_lanes, upd_same, Dev.putPkt_hnk]
  · rw [Dev.settle_besideHank, Dev.onLane_besideHank, Dev.onHankStrand_besideHank, Dev.putPkt_besideHank, Dev.besideHank_self]

/-- A mismatch is reported and counted, and commits nothing; the first in a row has its range sent again as STORED, a second one takes the
lane out of service. -/
theorem exec_hankVerify_mismatch :
    let x := s.dev.hnk.strands[c.strand]
    let stored := decide (c.offset < c.storedTo)
    let own := c.next i.record x.window
    let payload := given.getD own.1
    let len := if given.isSome then inputLen else own.2.1
    let used := if given.isSome then 0 else own.2.2
    c.admits len = true → 256 ≤ (s.dev.bob.queue (192 + k.val)).room →
      verifyHank x.window payload ((c.bytes.drop c.offset).take len) stored = false →
      ∃ t, exec (.hankVerify k given inputLen) s = .next t ∧ t.mem = s.mem ∧ t.dev.bob = s.dev.bob ∧
        t.dev.sys.fault.getLsbD 15 = true ∧ (t.dev.hnk.lanes[k]).suspect = (s.dev.hnk.lanes[k]).suspect + 1 ∧
        (t.dev.hnk.lanes[k]).quarantined = ((s.dev.hnk.lanes[k]).quarantined || decide (1 ≤ (s.dev.hnk.lanes[k]).mismatches)) ∧
        ((s.dev.hnk.lanes[k]).mismatches = 0 → (t.dev.hnk.lanes[k]).cur =
          some { c with storedTo := if stored then c.storedTo else c.offset + len, blockUsed := used }) := by
  intro x stored own payload len used hadmits hroom hmismatch
  have hrun := (hankVerify_judges s k c i given inputLen hcur himg hadmits hroom).trans
    (s.dev.judgeHank_of_mismatch k c i.record.crc payload len used hmismatch)
  have hlane := s.dev.rewindHank_lane k c (if stored then c.storedTo else c.offset + len) used
  have hbob := s.dev.rewindHank_bob k c (if stored then c.storedTo else c.offset + len) used
  have hreported := s.dev.rewindHank_reported k c (if stored then c.storedTo else c.offset + len) used
  generalize s.dev.rewindHank k c (if stored then c.storedTo else c.offset + len) used = e at hrun hlane hbob hreported
  by_cases hsecond : 1 ≤ (s.dev.hnk.lanes[k]).mismatches
  · rw [if_pos hsecond] at hrun
    have hq := e.quarantineLane_quarantined k
    refine ⟨_, exec_hankVerify s k given inputLen _ hrun, rfl, (Dev.settle_bob _).trans (hq.bob.trans hbob),
      Dev.settle_keeps _ _ hq.reported, ?_, ?_, fun h => by omega⟩
    · rw [Dev.settle_hnk, hq.suspect, hlane, HankLane.rewound]
    · rw [Dev.settle_hnk, hq.quarantined, decide_eq_true hsecond, Bool.or_true]
  · rw [if_neg hsecond] at hrun
    refine ⟨_, exec_hankVerify s k given inputLen _ hrun, rfl, (Dev.settle_bob _).trans hbob, Dev.settle_keeps _ _ hreported, ?_⟩
    rw [Dev.settle_hnk, hlane, decide_eq_false hsecond, Bool.or_false]
    exact ⟨rfl, rfl, fun _ => rfl⟩

end

/-! ### The obligation -/

/-- Settles O39: the lemmas above say what a frame's start, the verdict on a hank and an abandoned frame leave; a started frame and a
passed hank are read off field by field. -/
theorem hankLanes : Obligations.HankLanes := by
  intro s k
  refine ⟨fun n num close i f hq hcur hw himg hf => ⟨fun hshed => ?_, fun hshed => ?_⟩,
    fun c i given inputLen hcur himg => ?_, fun c cause hcur => exec_hankFrameAbandon s k c cause hcur⟩
  · obtain ⟨t, hexec, hmem, hlane, hstrand, hstrands, hlanes, hrest⟩ :=
      exec_hankLaneFrameStart_taken s k n num close hq hcur hw i f _ himg hf hshed rfl
    refine ⟨t, _, hexec, hmem, hlane, rfl, rfl, rfl, rfl, rfl, rfl, ?_, hstrands, hlanes, hrest⟩
    rw [hstrand]
    exact ⟨rfl, rfl, rfl, rfl, rfl, rfl⟩
  · exact exec_hankLaneFrameStart_shed s k n num close hq hcur hw hshed
  · intro stored x own payload len used input q hadmits hroom
    refine ⟨fun hverified => ?_, exec_hankVerify_mismatch s k c i given inputLen hcur himg hadmits hroom⟩
    intro hank hcells
    obtain ⟨t, hexec, hmem, hbob, hstrand, hlane, hrest⟩ :=
      exec_hankVerify_passed s k c i given inputLen hcur himg hadmits hroom hverified hcells
    exact ⟨t, hexec, hmem, hbob, congrArg HankStrand.seq hstrand, by rw [hstrand, HankStrand.passed],
      congrArg HankLane.mismatches hlane, congrArg HankLane.cur hlane, hrest⟩

end Sys2Proof.Machine
end

section
/-! SUPPORT. The ply link (spec/11_ply_link.md R369 to R409): what its shared operations make of the link and
leave alone, and its training. -/

namespace Sys2Proof.Machine

/-! ### Effects on the link alone -/

/-- The registers but for the link and what a report changes, which are those of `x`. -/
def Dev.besidePly (x d : Dev) : Dev := { d.unreport x with ply := x.ply }

theorem Dev.settle_besidePly (x d : Dev) : x.besidePly d.settle = x.besidePly d :=
  congrArg (fun e : Dev => { e with ply := x.ply }) (d.unreport_settle x)

theorem Dev.onPly_besidePly (x d : Dev) (f : Ply → Ply) : x.besidePly (d.onPly f) = x.besidePly d := rfl

theorem Dev.besidePly_of_unreport (x d : Dev) (h : d.unreport x = x) : x.besidePly d = x :=
  (congrArg (fun e : Dev => { e with ply := x.ply }) h :)

/-- A command whose event is an effect on the link of the device `e`, which differs from the present one by reports alone. -/
theorem State.run_onPly (s : State) (g : Dev → Dev) (e : Dev) (f : Ply → Ply) (h : g s.dev = e.onPly f)
    (he : e.unreport s.dev = s.dev) :
    (s.run g).dev.ply = f s.dev.ply ∧ s.dev.besidePly (s.run g).dev = s.dev := by
  have hply : e.ply = s.dev.ply := (congrArg Dev.ply he :)
  rw [State.run_dev, Dev.settle_ply, Dev.settle_besidePly, h, Dev.onPly_ply, Dev.onPly_besidePly, hply]
  exact ⟨rfl, Dev.besidePly_of_unreport _ _ he⟩

/-! ### Selecting a shed row, marking frames and counting events (01 R27; 11 R394; 16 R569) -/

/-- The link with a shed row selected. -/
def Ply.withShed (p : Ply) (x : Option (DWord × DWord × Word)) : Ply := { p with shedNext := x }

section
variable (d : Dev)

theorem Dev.selectShed_frame (w : Nat) : { d.selectShed w with ply := d.ply, sys := d.sys } = d := by
  unfold Dev.selectShed
  split <;> rfl

theorem Dev.selectShed_ply (w : Nat) : ∃ x, (d.selectShed w).ply = d.ply.withShed x := by
  unfold Dev.selectShed
  split <;> exact ⟨_, rfl⟩

theorem Dev.selectShed_fault (w : Nat) : (d.selectShed w).sys.fault = d.sys.fault := by
  unfold Dev.selectShed
  split <;> rfl

@[simp] theorem Dev.selectShed_strands (w : Nat) : (d.selectShed w).strands = d.strands := (congrArg Dev.strands (d.selectShed_frame w) :)
@[simp] theorem Dev.selectShed_ports (w : Nat) : (d.selectShed w).ports = d.ports := (congrArg Dev.ports (d.selectShed_frame w) :)
@[simp] theorem Dev.selectShed_bob (w : Nat) : (d.selectShed w).bob = d.bob := (congrArg Dev.bob (d.selectShed_frame w) :)
@[simp] theorem Dev.selectShed_streams (w : Nat) : (d.selectShed w).streams = d.streams := (congrArg Dev.streams (d.selectShed_frame w) :)

theorem Dev.markNarrow_frame : { d.markNarrow with streams := d.streams } = d := by
  unfold Dev.markNarrow
  split_ifs <;> rfl

@[simp] theorem Dev.markNarrow_ply : d.markNarrow.ply = d.ply := (congrArg Dev.ply d.markNarrow_frame :)
@[simp] theorem Dev.markNarrow_sys : d.markNarrow.sys = d.sys := (congrArg Dev.sys d.markNarrow_frame :)
@[simp] theorem Dev.markNarrow_strands : d.markNarrow.strands = d.strands := (congrArg Dev.strands d.markNarrow_frame :)
@[simp] theorem Dev.markNarrow_ports : d.markNarrow.ports = d.ports := (congrArg Dev.ports d.markNarrow_frame :)
@[simp] theorem Dev.markNarrow_bob : d.markNarrow.bob = d.bob := (congrArg Dev.bob d.markNarrow_frame :)

end

/-! ### Lanes reported (R375, R406, R407) -/

theorem maskLanes_ne_nil (m : Byte) (h : m ≠ 0) : maskLanes m ≠ [] := by
  intro hnil
  refine h (BitVec.eq_of_getLsbD_eq fun k hk => ?_)
  have hbit := List.filter_eq_nil_iff.mp hnil k (List.mem_range.mpr hk)
  exact (Bool.eq_false_iff.mpr hbit).trans BitVec.getLsbD_zero.symm

/-- A report of one bit for every entry of a list, such as the lanes of a mask. -/
def Dev.raiseEach (d : Dev) (b x : Nat) (l : List Nat) : Dev := l.foldl (fun e n => e.raise b n x) d

section
variable (d : Dev) (b x : Nat) (l : List Nat)

theorem Dev.raiseEach_unreport (y : Dev) : (d.raiseEach b x l).unreport y = d.unreport y :=
  Dev.foldl_view (fun e => e.unreport y) _ (fun e n => e.unreport_raise y b n x) _ _

theorem Dev.raiseEach_besidePly (y : Dev) : y.besidePly (d.raiseEach b x l) = y.besidePly d :=
  congrArg (fun e : Dev => { e with ply := y.ply }) (d.raiseEach_unreport b x l y)

@[simp] theorem Dev.raiseEach_ply : (d.raiseEach b x l).ply = d.ply := Dev.foldl_view Dev.ply _ (fun e n => e.raise_ply b n x) _ _

theorem Dev.raiseEach_keeps (i : Nat) (h : d.sys.fault.getLsbD i = true) : (d.raiseEach b x l).sys.fault.getLsbD i = true :=
  List.foldlRecOn (motive := fun e : Dev => e.sys.fault.getLsbD i = true) l _ h fun e he n _ => e.raise_keeps b n x i he

theorem Dev.raiseEach_sets (hb : b < 32) (hl : l ≠ []) : (d.raiseEach b x l).sys.fault.getLsbD b = true := by
  cases l with
  | nil => exact absurd rfl hl
  | cons n ns => exact (d.raise b n x).raiseEach_keeps b x ns b (Dev.raise_sets _ _ _ _ hb)

end

/-! ### Training (R374 to R376, R409) -/

/-- The link with its map opened over the lanes `m` from sequence `seq` on, the other configured lanes retraining. -/
def Ply.opened (p : Ply) (m : Byte) (seq : BitVec 24) : Ply :=
  { p with st := .up, map := m, up := m, lockedMask := p.lockedMask ||| m, retraining := p.lanes &&& ~~~m, attempts := 0,
           nextSeq := seq, acked := seq - 1, stalled := false,
           sent := if p.lanes &&& ~~~m = 0 then .restripe m seq :: p.sent
             else .ts1 (p.lanes &&& ~~~m) :: .restripe m seq :: p.sent }

/-- The sequence that opens the link: the first one, or after a renegotiation the next one. -/
def Ply.openingSeq (p : Ply) : BitVec 24 := if p.st = .reneg then p.nextSeq else 0

theorem Dev.openPly_ply (d : Dev) (m : Byte) :
    ∃ x, (d.openPly m).ply = (d.ply.opened m d.ply.openingSeq).withShed x := by
  unfold Dev.openPly
  extract_lets again seq rest d1 d2
  have hseq : d.ply.openingSeq = seq := if_congr decide_eq_true_iff.symm rfl rfl
  have hd1 : d1.ply = d.ply.opened m seq := by
    dsimp only [d1, Dev.onPly_ply, Ply.opened, rest, Ply.emit]
    split_ifs <;> rfl
  have hd2 : d2.ply = d1.ply := by dsimp only [d2]; split_ifs <;> rfl
  obtain ⟨x, hx⟩ := d2.selectShed_ply (laneCount m)
  exact ⟨x, by rw [Dev.markNarrow_ply, hx, hd2, hd1, hseq]⟩

theorem Dev.openPly_frame (d : Dev) (m : Byte) :
    { d.openPly m with ply := d.ply, sys := d.sys, streams := d.streams } = d := by
  unfold Dev.openPly
  extract_lets again seq rest d1 d2
  have hd2 : { d2 with ply := d.ply, streams := d.streams } = d := by dsimp only [d2]; split_ifs <;> rfl
  have hsel := congrArg (fun e : Dev => { e with ply := d.ply, streams := d.streams, sys := d.sys }) (d2.selectShed_frame (laneCount m))
  have hmark := congrArg (fun e : Dev => { e with ply := d.ply, streams := d.streams, sys := d.sys })
    (d2.selectShed (laneCount m)).markNarrow_frame
  exact hmark.trans (hsel.trans (congrArg (fun e : Dev => { e with sys := d.sys }) hd2))

theorem plyTrained_opens (up : Byte) (d : Dev) (ht : d.ply.inTraining = true) (hm : up &&& d.ply.lanes ≠ 0) :
    plyTrained up d = d.openPly (up &&& d.ply.lanes) := if_pos ⟨ht, hm⟩

section
variable (up : Byte) (d : Dev) (ht : d.ply.inTraining = true)
include ht

theorem plyTrainingTimeout_training :
    plyTrainingTimeout up d = if d.ply.gotLock = true ∧ up &&& d.ply.lanes ≠ 0 then d.openPly (up &&& d.ply.lanes)
      else (if d.ply.attempts = 0 then d.report 13 else d).onPly fun p => { p.retrain with attempts := p.attempts + 1 } := by
  unfold plyTrainingTimeout
  rw [ht]
  rfl

theorem plyTrainingTimeout_opens (hm : up &&& d.ply.lanes ≠ 0) (hlock : d.ply.gotLock = true) :
    plyTrainingTimeout up d = d.openPly (up &&& d.ply.lanes) :=
  (plyTrainingTimeout_training up d ht).trans (if_pos ⟨hlock, hm⟩)

/-- A failed attempt: the first one is reported, and every lane trains again (R376). -/
theorem plyTrainingTimeout_fails (h : ¬(d.ply.gotLock = true ∧ up &&& d.ply.lanes ≠ 0)) :
    plyTrainingTimeout up d =
      (if d.ply.attempts = 0 then d.report 13 else d).onPly fun p => { p.retrain with attempts := p.attempts + 1 } :=
  (plyTrainingTimeout_training up d ht).trans (if_neg h)

end

/-- A command that opens the link over the lanes `m` leaves the strands, the ports, the pool and the whorls. -/
theorem State.run_openPly (s : State) (g : Dev → Dev) (m : Byte) (h : g s.dev = s.dev.openPly m) :
    (∃ x, (s.run g).dev.ply = (s.dev.ply.opened m s.dev.ply.openingSeq).withShed x) ∧
      (s.run g).dev.strands = s.dev.strands ∧ (s.run g).dev.ports = s.dev.ports ∧ (s.run g).dev.bob = s.dev.bob ∧
      (s.run g).dev.whl = s.dev.whl := by
  have hframe := s.dev.openPly_frame m
  rw [State.run_dev, Dev.settle_ply, Dev.settle_strands, Dev.settle_ports, Dev.settle_bob, Dev.settle_whl, h]
  exact ⟨s.dev.openPly_ply m, (congrArg Dev.strands hframe :), (congrArg Dev.ports hframe :), (congrArg Dev.bob hframe :),
    (congrArg Dev.whl hframe :)⟩

/-- A link that trains again is as it was but for the restarted training. -/
theorem exec_plyTrainingTimeout_fails (s : State) (up : Byte) (ht : s.dev.ply.inTraining = true)
    (h : ¬(s.dev.ply.gotLock = true ∧ up &&& s.dev.ply.lanes ≠ 0)) :
    ∃ t, exec (.plyTrainingTimeout up) s = .next t ∧ t.mem = s.mem ∧
      t.dev.ply = { s.dev.ply.retrain with attempts := s.dev.ply.attempts + 1 } ∧
      (s.dev.ply.attempts = 0 → t.dev.sys.fault.getLsbD 13 = true) ∧ s.dev.besidePly t.dev = s.dev := by
  have hrun := plyTrainingTimeout_fails up s.dev ht h
  obtain ⟨hply, hframe⟩ := s.run_onPly _ _ _ hrun (by split_ifs <;> simp)
  refine ⟨s.run (plyTrainingTimeout up), rfl, rfl, hply, fun hfirst => Dev.settle_keeps _ _ ?_, hframe⟩
  rw [hrun, if_pos hfirst, Dev.onPly_sys]
  exact Dev.raise_sets _ _ _ _ (by decide)

/-! ### LANE_STATUS (R374, R375, R407) -/

/-- The device with the lanes down for their RATE reported (R375). -/
def Dev.reportRate (d : Dev) (bad : Byte) : Dev := (d.onPly fun p => p.setReason bad 5).raiseEach 13 5 (maskLanes bad)

section
variable (d : Dev) (bad : Byte)

theorem Dev.reportRate_ply : (d.reportRate bad).ply = d.ply.setReason bad 5 := Dev.raiseEach_ply _ _ _ _

theorem Dev.reportRate_besidePly (x : Dev) : x.besidePly (d.reportRate bad) = x.besidePly d :=
  (Dev.raiseEach_besidePly _ _ _ _ x).trans (x.onPly_besidePly d _)

theorem Dev.reportRate_reported (h : bad ≠ 0) : (d.reportRate bad).sys.fault.getLsbD 13 = true :=
  Dev.raiseEach_sets _ _ _ _ (by decide) (maskLanes_ne_nil bad h)

end

/-- What LANE_STATUS reports before the masks are acted on. -/
def Dev.judgeRate (d : Dev) (up reason : Byte) : Dev :=
  let bad := d.ply.lanes &&& ~~~(up &&& d.ply.lanes)
  if reason = 5 ∧ bad ≠ 0 then d.reportRate bad else d

theorem Dev.judgeRate_of_other (d : Dev) (up reason : Byte) (h : reason ≠ 5) : d.judgeRate up reason = d := if_neg fun hc => h hc.1

theorem Dev.judgeRate_of_rate (d : Dev) (up : Byte) (h : d.ply.lanes &&& ~~~(up &&& d.ply.lanes) ≠ 0) :
    d.judgeRate up 5 = d.reportRate (d.ply.lanes &&& ~~~(up &&& d.ply.lanes)) := if_pos ⟨rfl, h⟩

section
variable (up locked reason : Byte) (q : BitVec 24) (d : Dev) (hopen : d.returnOpen = true)
include hopen

theorem laneStatus_open :
    laneStatus up locked reason q d =
      if d.ply.inTraining then (d.judgeRate up reason).trainStatus (up &&& d.ply.lanes) (locked &&& d.ply.lanes)
      else if d.ply.running then (d.judgeRate up reason).mapStatus (up &&& d.ply.lanes) (locked &&& d.ply.lanes) reason
      else d := by
  unfold laneStatus Dev.judgeRate
  simp only [hopen, and_true, Bool.not_true, Bool.false_eq_true, if_false]
  rfl

theorem laneStatus_training (ht : d.ply.inTraining = true) :
    laneStatus up locked reason q d = (d.judgeRate up reason).trainStatus (up &&& d.ply.lanes) (locked &&& d.ply.lanes) :=
  (laneStatus_open up locked reason q d hopen).trans (if_pos ht)

end

/-- The link in training with the masks of a LANE_STATUS kept, TS2 going to the lanes newly locked. -/
def Ply.heard (p : Ply) (up locked : Byte) : Ply :=
  { p with up := up, lockedMask := locked, gotLock := p.gotLock || decide (locked ≠ 0),
           sent := if locked &&& ~~~p.lockedMask = 0 then p.sent else .ts2 (locked &&& ~~~p.lockedMask) :: p.sent }

theorem Dev.trainStatus_eq (d : Dev) (up locked : Byte) : d.trainStatus up locked = d.onPly fun p => p.heard up locked := by
  refine congrArg d.onPly (funext fun p => ?_)
  dsimp only [Ply.heard, Ply.emit]
  split_ifs <;> rfl

section
variable (s : State) (up locked : Byte) (q : BitVec 24) (ht : s.dev.ply.inTraining = true) (hopen : s.dev.returnOpen = true)
include ht hopen

theorem exec_laneStatus_training (reason : Byte) (hreason : reason ≠ 5) :
    ∃ t, exec (.laneStatus up locked reason q) s = .next t ∧ t.mem = s.mem ∧
      t.dev.ply = s.dev.ply.heard (up &&& s.dev.ply.lanes) (locked &&& s.dev.ply.lanes) ∧
      s.dev.besidePly t.dev = s.dev := by
  have hrun := laneStatus_training up locked reason q s.dev hopen ht
  rw [Dev.judgeRate_of_other _ _ _ hreason, Dev.trainStatus_eq] at hrun
  obtain ⟨hply, hframe⟩ := s.run_onPly _ _ _ hrun s.dev.unreport_self
  exact ⟨s.run (laneStatus up locked reason q), rfl, rfl, hply, hframe⟩

/-- Lanes down for their RATE are reported with that reason, and the status is kept besides (R375). -/
theorem exec_laneStatus_rate :
    let bad := s.dev.ply.lanes &&& ~~~(up &&& s.dev.ply.lanes)
    bad ≠ 0 →
    ∃ t, exec (.laneStatus up locked 5 q) s = .next t ∧ t.mem = s.mem ∧
      t.dev.ply = (s.dev.ply.setReason bad 5).heard (up &&& s.dev.ply.lanes) (locked &&& s.dev.ply.lanes) ∧
      t.dev.sys.fault.getLsbD 13 = true ∧ s.dev.besidePly t.dev = s.dev := by
  intro bad hbad
  have hrun := laneStatus_training up locked 5 q s.dev hopen ht
  rw [Dev.judgeRate_of_rate _ _ hbad, Dev.trainStatus_eq] at hrun
  refine ⟨s.run (laneStatus up locked 5 q), rfl, rfl, ?_, Dev.settle_keeps _ _ ?_, ?_⟩
  · rw [State.run_dev, Dev.settle_ply, hrun, Dev.onPly_ply, Dev.reportRate_ply]
  · rw [hrun, Dev.onPly_sys]
    exact s.dev.reportRate_reported bad hbad
  · rw [State.run_dev, Dev.settle_besidePly, hrun, Dev.onPly_besidePly, Dev.reportRate_besidePly]
    exact Dev.besidePly_of_unreport _ _ s.dev.unreport_self

end

theorem Ply.setReason_downReason (p : Ply) (m reason : Byte) (k : Fin 8) :
    (p.setReason m reason).downReason[k] = if m.getLsbD k.val then reason else p.downReason[k] := by
  simp [Ply.setReason]

/-! ### The obligation -/

/-- Settles O40: a link that opens is the link `Ply.opened`, a failed attempt trains again, and a status in training is kept. -/
theorem plyTraining : Obligations.PlyTraining := by
  intro s up ht p m seq Opens
  have hopens (g : Dev → Dev) (h : g s.dev = s.dev.openPly m) : Opens (s.run g) := by
    obtain ⟨⟨x, hply⟩, hstrands, hports, hbob, hwhl⟩ := s.run_openPly g m h
    dsimp only [Opens]
    rw [hply]
    exact ⟨rfl, rfl, rfl, rfl, rfl, rfl, rfl, rfl, hstrands, hports, hbob, hwhl⟩
  refine ⟨fun hm => ⟨_, rfl, hopens _ (plyTrained_opens up s.dev ht hm)⟩,
    fun hm hlock => ⟨_, rfl, hopens _ (plyTrainingTimeout_opens up s.dev ht hm hlock)⟩, fun hfail => ?_,
    fun locked reason q hopen hreason => exec_laneStatus_training s up locked q ht hopen reason hreason,
    fun locked q hopen hbad => ?_⟩
  · obtain ⟨t, hexec, hmem, hply, hreported, hframe⟩ := exec_plyTrainingTimeout_fails s up ht hfail
    exact ⟨t, hexec, hmem, by rw [hply]; rfl, by rw [hply]; rfl, by rw [hply], by rw [hply]; rfl, hreported, hframe⟩
  · obtain ⟨t, hexec, hmem, hply, hreported, hframe⟩ := exec_laneStatus_rate s up locked q ht hopen hbad
    refine ⟨t, hexec, hmem, by rw [hply]; rfl, hreported, fun k => ?_, hframe⟩
    rw [hply]
    exact s.dev.ply.setReason_downReason _ 5 k

end Sys2Proof.Machine
end

section
/-! SUPPORT. The ply link while blocks flow (spec/11_ply_link.md R371 to R409): lanes lost, withdrawn and regained, replays and
renegotiation, markers, skip sets and discarded messages. -/

namespace Sys2Proof.Machine

/-! ### Hanks withheld (10 R364) -/

/-- The registers but for the pool, the hank compressor and what a report changes, which are those of `x`. -/
def Dev.besideHanks (x d : Dev) : Dev := { d.unreport x with bob := x.bob, hnk := x.hnk }

section
variable (x d : Dev)

theorem Dev.raise_besideHanks (b y z : Nat) : x.besideHanks (d.raise b y z) = x.besideHanks d :=
  congrArg (fun e : Dev => { e with bob := x.bob, hnk := x.hnk }) (d.unreport_raise x b y z)

theorem Dev.trimCredits_besideHanks : x.besideHanks d.trimCredits = x.besideHanks d :=
  (congrArg x.besideHanks d.trimCredits_frame :)

/-- The queues of the compressor's lanes without the packets that `mine` selects. -/
def Dev.discardHanks (d : Dev) (mine : Pkt → Bool) : Dev :=
  (List.finRange 4).foldl (fun e k => e.onQueue (192 + k.val) fun q => { q with pkts := q.pkts.filter fun p => !mine p }) d

theorem Dev.discardHanks_besideHanks (mine : Pkt → Bool) : x.besideHanks (d.discardHanks mine) = x.besideHanks d :=
  Dev.foldl_view x.besideHanks _ (fun _ _ => by rfl) _ _

theorem Dev.discardHanks_sys (mine : Pkt → Bool) : (d.discardHanks mine).sys = d.sys :=
  Dev.foldl_view Dev.sys _ (fun _ _ => by rfl) _ _

theorem Dev.onHnk_besideHanks (f : Hnk → Hnk) : x.besideHanks (d.onHnk f) = x.besideHanks d := rfl

/-- Hanks are withheld by discarding what is queued and changing the compressor, a loss being reported. -/
theorem Dev.withholdHanks_cases (n : StrandNo) :
    ∃ (mine : Pkt → Bool) (h : Hnk), d.withholdHanks n = ((d.discardHanks mine).trimCredits).onHnk (fun _ => h) ∨
      d.withholdHanks n = (((d.discardHanks mine).trimCredits).onHnk fun _ => h).raise 15 n.val 3 := by
  unfold Dev.withholdHanks
  extract_lets mine lost d1 d2 d3
  have hd3 : d3 = ((d.discardHanks mine).trimCredits).onHnk fun _ => d3.hnk := rfl
  refine ⟨mine, d3.hnk, ?_⟩
  rw [← hd3]
  split_ifs
  · exact .inr rfl
  · exact .inl rfl

theorem Dev.withholdHanks_besideHanks (n : StrandNo) : x.besideHanks (d.withholdHanks n) = x.besideHanks d := by
  obtain ⟨mine, y, h | h⟩ := d.withholdHanks_cases n
  · rw [h, Dev.onHnk_besideHanks, Dev.trimCredits_besideHanks, Dev.discardHanks_besideHanks]
  · rw [h, Dev.raise_besideHanks, Dev.onHnk_besideHanks, Dev.trimCredits_besideHanks, Dev.discardHanks_besideHanks]

/-- Two devices that agree in that view agree in the link, the strands, the ports and the whorls. -/
theorem Dev.fields_of_besideHanks (x d e : Dev) (h : x.besideHanks e = x.besideHanks d) :
    e.ply = d.ply ∧ e.strands = d.strands ∧ e.ports = d.ports ∧ e.whl = d.whl :=
  ⟨(congrArg Dev.ply h :), (congrArg Dev.strands h :), (congrArg Dev.ports h :), (congrArg Dev.whl h :)⟩

theorem Dev.withholdHanks_keeps (n : StrandNo) (i : Nat) (h : d.sys.fault.getLsbD i = true) :
    (d.withholdHanks n).sys.fault.getLsbD i = true := by
  have hsys (mine : Pkt → Bool) (f : Hnk → Hnk) : (((d.discardHanks mine).trimCredits).onHnk f).sys = d.sys := by
    rw [Dev.onHnk_sys, Dev.trimCredits_sys, Dev.discardHanks_sys]
  obtain ⟨mine, y, hd | hd⟩ := d.withholdHanks_cases n
  · rw [hd, hsys, h]
  · rw [hd]
    exact Dev.raise_keeps _ _ _ _ _ (by rw [hsys, h])

end

/-! ### Renegotiation (R409) -/

/-- The link with a renegotiation begun. -/
def Ply.renegotiating (p : Ply) : Ply :=
  { ({ p with buffer := [], resend := [], rest := [], replayTop := none, replayRun := 0, retraining := 0, stalled := false,
              queue := p.queue.filter fun x => decide (x.cls ≠ 2),
              counts := upd p.counts 1 fun c => satAdd c 1 }).train with st := .reneg }

section
variable (d : Dev)

@[simp] theorem Dev.countPlyEvents_ply (n : Nat) : (d.countPlyEvents n).ply = d.ply := rfl
@[simp] theorem Dev.countPlyEvents_sys (n : Nat) : (d.countPlyEvents n).sys = d.sys := rfl
@[simp] theorem Dev.countPlyEvents_strands (n : Nat) : (d.countPlyEvents n).strands = d.strands := rfl
@[simp] theorem Dev.countPlyEvents_ports (n : Nat) : (d.countPlyEvents n).ports = d.ports := rfl
@[simp] theorem Dev.countPlyEvents_whl (n : Nat) : (d.countPlyEvents n).whl = d.whl := rfl
@[simp] theorem Dev.countPlyEvents_bob (n : Nat) : (d.countPlyEvents n).bob = d.bob := rfl

/-- The streams, whose frames in delivery lose their slot while the link is down. -/
def Dev.loseSlots (d : Dev) : Dev := { d with streams := d.streams.map Stream.linkDown }

@[simp] theorem Dev.loseSlots_ply : d.loseSlots.ply = d.ply := rfl
@[simp] theorem Dev.loseSlots_sys : d.loseSlots.sys = d.sys := rfl
@[simp] theorem Dev.loseSlots_strands : d.loseSlots.strands = d.strands := rfl
@[simp] theorem Dev.loseSlots_ports : d.loseSlots.ports = d.ports := rfl
@[simp] theorem Dev.loseSlots_whl : d.loseSlots.whl = d.whl := rfl

/-- The device with a renegotiation begun, before the hanks not sent are withheld. -/
def Dev.linkDown (d : Dev) : Dev := (((d.report 14).countPlyEvents 1).onPly Ply.renegotiating).loseSlots

theorem Dev.renegotiate_eq : d.renegotiate = d.linkDown.queuedHankStrands.foldl Dev.withholdHanks d.linkDown := rfl

theorem Dev.linkDown_fields :
    d.linkDown.ply = d.ply.renegotiating ∧ d.linkDown.strands = d.strands ∧ d.linkDown.ports = d.ports ∧ d.linkDown.whl = d.whl := by
  simp [Dev.linkDown]

theorem Dev.linkDown_sys : d.linkDown.sys = (d.report 14).sys := by
  rw [Dev.linkDown, Dev.loseSlots_sys, Dev.onPly_sys, Dev.countPlyEvents_sys]

theorem Dev.renegotiate_fields :
    d.renegotiate.ply = d.ply.renegotiating ∧ d.renegotiate.strands = d.strands ∧ d.renegotiate.ports = d.ports ∧
      d.renegotiate.whl = d.whl := by
  obtain ⟨hply, hstrands, hports, hwhl⟩ := d.linkDown_fields
  rw [Dev.renegotiate_eq, ← hply, ← hstrands, ← hports, ← hwhl]
  exact Dev.fields_of_besideHanks d _ _ (Dev.foldl_view d.besideHanks _ d.withholdHanks_besideHanks _ _)

theorem Dev.renegotiate_ply : d.renegotiate.ply = d.ply.renegotiating := d.renegotiate_fields.1

theorem Dev.renegotiate_of_linkDown (i : Nat) (h : d.linkDown.sys.fault.getLsbD i = true) :
    d.renegotiate.sys.fault.getLsbD i = true := by
  rw [Dev.renegotiate_eq]
  exact List.foldlRecOn (motive := fun e : Dev => e.sys.fault.getLsbD i = true) _ _ h fun e he n _ => e.withholdHanks_keeps n i he

theorem Dev.renegotiate_keeps (i : Nat) (h : d.sys.fault.getLsbD i = true) : d.renegotiate.sys.fault.getLsbD i = true :=
  d.renegotiate_of_linkDown i (by rw [Dev.linkDown_sys]; exact d.raise_keeps 14 _ _ i h)

theorem Dev.renegotiate_reported : d.renegotiate.sys.fault.getLsbD 14 = true :=
  d.renegotiate_of_linkDown 14 (by rw [Dev.linkDown_sys]; exact d.raise_sets 14 _ _ (by decide))

end

/-- What a renegotiation leaves of the state `s`. -/
structure State.Renegotiated (s t : State) : Prop where
  mem : t.mem = s.mem
  st : t.dev.ply.st = .reneg
  map : t.dev.ply.map = 0
  buffer : t.dev.ply.buffer = []
  resend : t.dev.ply.resend = []
  rest : t.dev.ply.rest = []
  reported : t.dev.sys.fault.getLsbD 14 = true
  strands : t.dev.strands = s.dev.strands
  ports : t.dev.ports = s.dev.ports
  whl : t.dev.whl = s.dev.whl

section
variable (s : State) (g : Dev → Dev) (e : Dev) (h : g s.dev = e.renegotiate)
include h

/-- A command that renegotiates after effects that touch no other unit. -/
theorem State.run_renegotiate (hview : e.linkView = s.dev.linkView) : s.Renegotiated (s.run g) := by
  have hply : (s.run g).dev.ply = e.ply.renegotiating := by rw [State.run_dev, Dev.settle_ply, h, e.renegotiate_ply]
  obtain ⟨-, hstrands, hports, hwhl⟩ := e.renegotiate_fields
  exact {
    mem := rfl
    st := congrArg Ply.st hply
    map := congrArg Ply.map hply
    buffer := congrArg Ply.buffer hply
    resend := congrArg Ply.resend hply
    rest := congrArg Ply.rest hply
    reported := Dev.settle_keeps _ _ (by rw [h]; exact e.renegotiate_reported)
    strands := by rw [State.run_dev, Dev.settle_strands, h, hstrands]; exact congrArg (fun v => v.2.2.2.2) hview
    ports := by rw [State.run_dev, Dev.settle_ports, h, hports]; exact congrArg (fun v => v.2.2.2.1) hview
    whl := by rw [State.run_dev, Dev.settle_whl, h, hwhl]; exact congrArg (fun v => v.1) hview }

theorem State.run_renegotiate_keeps (i : Nat) (hi : e.sys.fault.getLsbD i = true) : (s.run g).dev.sys.fault.getLsbD i = true :=
  Dev.settle_keeps _ _ (by rw [h]; exact e.renegotiate_keeps i hi)

end

/-- The return lane's lock is lost (R409). -/
theorem exec_returnLaneLockLoss (s : State) (hrun : s.dev.ply.running = true) (hcheck : s.dev.tst.rlCheck = none) :
    ∃ t, exec .returnLaneLockLoss s = .next t ∧ s.Renegotiated t ∧ t.dev.ply.sent = .ts1 s.dev.ply.lanes :: s.dev.ply.sent := by
  have h : returnLaneLockLoss s.dev = s.dev.renegotiate := if_pos ⟨hrun, by rw [hcheck]; rfl⟩
  refine ⟨s.run returnLaneLockLoss, rfl, s.run_renegotiate _ _ h rfl, ?_⟩
  rw [State.run_dev, Dev.settle_ply, h, Dev.renegotiate_ply]
  rfl

/-! ### Replays (R402 to R404) -/

/-- The link with a replay begun from sequence `seq` on. -/
def Ply.replaying (p : Ply) (seq : BitVec 24) : Ply :=
  { p with st := .replay, resend := p.buffer.filter (fun b => !later24 seq b.1), replayTop := some p.newest,
           replayRun := p.replayRun + 1, counts := upd p.counts 0 fun c => satAdd c 1 }

theorem Dev.replayFrom_of_few (d : Dev) (seq : BitVec 24) (h : d.ply.replayRun < 4) :
    d.replayFrom seq = d.onPly fun p => p.replaying seq := if_neg (by omega)

theorem Dev.replayFrom_of_many (d : Dev) (seq : BitVec 24) (h : 4 ≤ d.ply.replayRun) : d.replayFrom seq = d.renegotiate := if_pos h

theorem nak_replays (cause : Byte) (seq : BitVec 24) (d : Dev) (hrun : d.ply.running = true) (hopen : d.returnOpen = true)
    (h : d.ply.nakCounts seq = true) : nak cause seq d = d.replayFrom seq := if_pos ⟨hrun, hopen, h⟩

theorem ackTimeout_replays (d : Dev) (b : BitVec 24 × List Byte) (l : List (BitVec 24 × List Byte)) (hrun : d.ply.running = true)
    (h : d.ply.buffer = b :: l) : ackTimeout d = d.replayFrom b.1 := by
  unfold ackTimeout
  rw [h]
  exact if_pos hrun

/-- A command that replays: the fifth time in a row the link renegotiates. -/
theorem State.run_replayFrom (s : State) (g : Dev → Dev) (seq : BitVec 24) (h : g s.dev = s.dev.replayFrom seq) :
    (s.dev.ply.replayRun < 4 → (s.run g).dev.ply = s.dev.ply.replaying seq ∧ s.dev.besidePly (s.run g).dev = s.dev) ∧
      (4 ≤ s.dev.ply.replayRun → s.Renegotiated (s.run g)) :=
  ⟨fun hfew => s.run_onPly _ _ _ (h.trans (s.dev.replayFrom_of_few seq hfew)) s.dev.unreport_self,
    fun hmany => s.run_renegotiate _ _ (h.trans (s.dev.replayFrom_of_many seq hmany)) rfl⟩

/-! ### Markers, skip sets and discarded messages (R371, R372, R397) -/

theorem exec_alignmentMarker (s : State) (hrun : s.dev.ply.running = true) :
    ∃ (t : State) (phase : Nat), exec .alignmentMarker s = .next t ∧ t.mem = s.mem ∧ phase < 128 ∧
      t.dev.ply = { s.dev.ply with markers := s.dev.ply.markers + 1, sent := .marker s.dev.ply.markers.toNat phase :: s.dev.ply.sent } ∧
      { s.dev.besidePly t.dev with freeIdx := s.dev.freeIdx } = s.dev := by
  have h : alignmentMarker s.dev = s.dev.freshWord.1.onPly fun p =>
      ({ p with markers := p.markers + 1 }).emit (.marker p.markers.toNat (s.dev.freshWord.2.toNat % 128)) := if_pos hrun
  refine ⟨s.run alignmentMarker, s.dev.freshWord.2.toNat % 128, rfl, rfl, Nat.mod_lt _ (by decide), ?_, ?_⟩
  · rw [State.run_dev, Dev.settle_ply, h]
    rfl
  · rw [State.run_dev, Dev.settle_besidePly, h, Dev.onPly_besidePly]
    rfl

theorem exec_skipSetDue (s : State) (lane : Fin 30) (ht : s.dev.transmits lane = true) :
    ∃ t, exec (.skipSetDue lane) s = .next t ∧ t.mem = s.mem ∧
      t.dev.tst = { s.dev.tst with skips := upd s.dev.tst.skips lane (· + 1) } ∧
      t.dev.ply = (if 16 ≤ lane.val ∧ lane.val < 24 then { s.dev.ply with sent := .skip (lane.val - 16) :: s.dev.ply.sent }
        else s.dev.ply) ∧
      { s.dev.besidePly t.dev with tst := s.dev.tst } = s.dev := by
  let d1 := s.dev.onTst fun t => { t with skips := upd t.skips lane (· + 1) }
  have h : skipSetDue lane s.dev =
      if 16 ≤ lane.val ∧ lane.val < 24 then d1.onPly fun p => p.emit (.skip (lane.val - 16)) else d1 := if_pos ht
  have hframe : { s.dev.besidePly d1 with tst := s.dev.tst } = s.dev := by dsimp only [d1, Dev.besidePly, Dev.unreport, Dev.onTst]
  refine ⟨s.run (skipSetDue lane), rfl, rfl, ?_⟩
  rw [State.run_dev, Dev.settle_tst, Dev.settle_ply, Dev.settle_besidePly, h]
  split_ifs
  · rw [Dev.onPly_besidePly]
    exact ⟨rfl, rfl, hframe⟩
  · exact ⟨rfl, rfl, hframe⟩

theorem exec_returnMessageDiscard (s : State) (hcheck : s.dev.tst.rlCheck = none) :
    ∃ t, exec .returnMessageDiscard s = .next t ∧ t.mem = s.mem ∧
      t.dev.ply = { s.dev.ply with counts := upd s.dev.ply.counts 4 fun c => satAdd c 1 } ∧ s.dev.besidePly t.dev = s.dev := by
  have h : returnMessageDiscard s.dev = s.dev.countDiscard := if_neg (by rw [hcheck]; nofun)
  obtain ⟨hply, hframe⟩ := s.run_onPly _ _ _ h s.dev.unreport_self
  exact ⟨s.run returnMessageDiscard, rfl, rfl, hply, hframe⟩

theorem Dev.transmits_plyLane (d : Dev) (lane : Fin 8) (hrun : d.ply.running = true) (hcount : lane.val < d.ply.count) :
    d.transmits (Fin.ofNat 30 (16 + lane.val)) = true := by
  have hval : (Fin.ofNat 30 (16 + lane.val)).val = 16 + lane.val := Nat.mod_eq_of_lt (by omega)
  have hst : d.ply.st ≠ .down := fun hdown => by rw [Ply.running, hdown] at hrun; cases hrun
  simp only [Dev.transmits, hval]
  rw [if_neg (by omega), if_pos (by omega), Nat.add_sub_cancel_left]
  simp [hst, hcount]

/-! ### Lanes lost and withdrawn (R406, R407) -/

/-- The link with the lanes `down` lost for `reason` and the lanes `back` regained, its map still the one before. -/
def Ply.lose (p : Ply) (down back reason : Byte) : Ply :=
  { p.setReason down reason with
    counts := upd p.counts 2 fun c => satAdd c (laneCount down), retraining := (p.retraining ||| down) &&& ~~~back }

/-- The device with a loss of lanes reported and counted. -/
def Dev.reportLoss (d : Dev) (down back reason : Byte) : Dev :=
  ((d.raiseEach 13 reason.toNat (maskLanes down)).countPlyEvents (laneCount down)).onPly fun p => p.lose down back reason

section
variable (d : Dev) (down back reason : Byte)

theorem Dev.reportLoss_ply : (d.reportLoss down back reason).ply = d.ply.lose down back reason :=
  congrArg (Ply.lose · down back reason) (Dev.raiseEach_ply _ _ _ _)

theorem Dev.onPly_linkView (f : Ply → Ply) : (d.onPly f).linkView = d.linkView := rfl
theorem Dev.countPlyEvents_linkView (n : Nat) : (d.countPlyEvents n).linkView = d.linkView := rfl

theorem Dev.raiseEach_linkView (b x : Nat) (l : List Nat) : (d.raiseEach b x l).linkView = d.linkView :=
  Dev.foldl_view Dev.linkView _ (fun e n => e.raise_linkView b n x) _ _

theorem Dev.raiseEach_bob (b x : Nat) (l : List Nat) : (d.raiseEach b x l).bob = d.bob :=
  Dev.foldl_view Dev.bob _ (fun e n => e.raise_bob b n x) _ _

theorem Dev.reportLoss_linkView : (d.reportLoss down back reason).linkView = d.linkView := by
  rw [Dev.reportLoss, Dev.onPly_linkView, Dev.countPlyEvents_linkView, Dev.raiseEach_linkView]

theorem Dev.reportLoss_bob : (d.reportLoss down back reason).bob = d.bob := by
  rw [Dev.reportLoss, Dev.onPly_bob, Dev.countPlyEvents_bob, Dev.raiseEach_bob]

theorem Dev.reportLoss_reported (h : down ≠ 0) : (d.reportLoss down back reason).sys.fault.getLsbD 13 = true := by
  rw [Dev.reportLoss, Dev.onPly_sys, Dev.countPlyEvents_sys]
  exact Dev.raiseEach_sets _ _ _ _ (by decide) (maskLanes_ne_nil down h)

/-- The map after lanes left it and others came back. -/
def Ply.mapAfter (p : Ply) (down back : Byte) : Byte := (p.map &&& ~~~down) ||| back

/-- RESTRIPE names the next sequence and the lanes lost are sent TS1. -/
def Ply.restripe (p : Ply) (m down : Byte) : Ply := { p with map := m, sent := .ts1 down :: .restripe m p.nextSeq :: p.sent }

theorem Dev.lanesDown_of_none (h : d.ply.mapAfter down back = 0) :
    d.lanesDown down back reason false = (d.reportLoss down back reason).renegotiate := if_pos h

theorem Dev.lanesDown_of_unsent (h : d.ply.mapAfter down back ≠ 0) (hbuffer : d.ply.buffer = []) :
    d.lanesDown down back reason false =
      (((d.reportLoss down back reason).selectShed (laneCount (d.ply.mapAfter down back))).onPly fun p =>
        p.restripe (d.ply.mapAfter down back) down).markNarrow := by
  obtain ⟨x, hx⟩ := (d.reportLoss down back reason).selectShed_ply (laneCount (d.ply.mapAfter down back))
  have hempty : ((d.reportLoss down back reason).selectShed (laneCount (d.ply.mapAfter down back))).ply.buffer = [] := by
    rw [hx, Dev.reportLoss_ply]
    exact hbuffer
  unfold Dev.lanesDown
  extract_lets d1 d2 m ts d3
  rw [if_neg (show ¬m = 0 from h)]
  have hd3 : d3.ply.buffer = [] := hempty
  rw [hd3]
  rfl

end

end Sys2Proof.Machine
end

section
/-! SUPPORT. Lanes of the ply link that leave the map and come back (spec/11_ply_link.md R406 to R408). -/

namespace Sys2Proof.Machine

/-! ### Lanes that leave the map -/

/-- A command that takes lanes out of the map with nothing unacknowledged: their loss is reported, and no other unit is touched. -/
theorem State.run_lanesDown_unsent (s : State) (g : Dev → Dev) (d : Dev) (down back reason : Byte)
    (h : g s.dev = d.lanesDown down back reason false) (hdown : down ≠ 0) (hmap : d.ply.mapAfter down back ≠ 0)
    (hbuffer : d.ply.buffer = []) (hview : d.linkView = s.dev.linkView) (hbob : d.bob = s.dev.bob) :
    (∃ x, (s.run g).dev.ply = ((d.ply.lose down back reason).withShed x).restripe (d.ply.mapAfter down back) down) ∧
      (s.run g).dev.sys.fault.getLsbD 13 = true ∧ (s.run g).dev.strands = s.dev.strands ∧ (s.run g).dev.bob = s.dev.bob ∧
      (s.run g).dev.ports = s.dev.ports := by
  have hrun := h.trans (d.lanesDown_of_unsent down back reason hmap hbuffer)
  have hlost := (d.reportLoss_linkView down back reason).trans hview
  obtain ⟨x, hx⟩ := (d.reportLoss down back reason).selectShed_ply (laneCount (d.ply.mapAfter down back))
  refine ⟨⟨x, ?_⟩, Dev.settle_keeps _ _ ?_, ?_, ?_, ?_⟩
  · rw [State.run_dev, Dev.settle_ply, hrun, Dev.markNarrow_ply, Dev.onPly_ply, hx, Dev.reportLoss_ply]
  · rw [hrun, Dev.markNarrow_sys, Dev.onPly_sys, Dev.selectShed_fault]
    exact d.reportLoss_reported down back reason hdown
  · rw [State.run_dev, Dev.settle_strands, hrun, Dev.markNarrow_strands, Dev.onPly_strands, Dev.selectShed_strands]
    exact congrArg (fun v => v.2.2.2.2) hlost
  · rw [State.run_dev, Dev.settle_bob, hrun, Dev.markNarrow_bob, Dev.onPly_bob, Dev.selectShed_bob, Dev.reportLoss_bob, hbob]
  · rw [State.run_dev, Dev.settle_ports, hrun, Dev.markNarrow_ports, Dev.onPly_ports, Dev.selectShed_ports]
    exact congrArg (fun v => v.2.2.2.1) hlost

/-- A command that takes the last lanes out of the map: their loss is reported, and the link renegotiates. -/
theorem State.run_lanesDown_none (s : State) (g : Dev → Dev) (d : Dev) (down back reason : Byte)
    (h : g s.dev = d.lanesDown down back reason false) (hdown : down ≠ 0) (hmap : d.ply.mapAfter down back = 0)
    (hview : d.linkView = s.dev.linkView) : s.Renegotiated (s.run g) ∧ (s.run g).dev.sys.fault.getLsbD 13 = true := by
  have hrun := h.trans (d.lanesDown_of_none down back reason hmap)
  exact ⟨s.run_renegotiate _ _ hrun ((d.reportLoss_linkView down back reason).trans hview),
    s.run_renegotiate_keeps _ _ hrun 13 (d.reportLoss_reported down back reason hdown)⟩

/-- What the loss of lanes with nothing unacknowledged leaves of the state `s`, RESTRIPE naming the next sequence. -/
structure State.LeavesMap (s t : State) (down back reason : Byte) : Prop where
  mem : t.mem = s.mem
  map : t.dev.ply.map = s.dev.ply.mapAfter down back
  reported : t.dev.sys.fault.getLsbD 13 = true
  downReason : reason ≠ 5 → ∀ k : Fin 8, t.dev.ply.downReason[k] = if down.getLsbD k.val then reason else s.dev.ply.downReason[k]
  sent : t.dev.ply.sent = .ts1 down :: .restripe (s.dev.ply.mapAfter down back) s.dev.ply.nextSeq :: s.dev.ply.sent
  retraining : t.dev.ply.retraining = (s.dev.ply.retraining ||| down) &&& ~~~back
  nextSeq : t.dev.ply.nextSeq = s.dev.ply.nextSeq
  strands : t.dev.strands = s.dev.strands
  bob : t.dev.bob = s.dev.bob
  ports : t.dev.ports = s.dev.ports

/-- The link with the masks of a LANE_STATUS kept, and with the reasons `v` of the lanes down. -/
def Ply.withStatus (p : Ply) (up locked : Byte) (v : Vector Byte 8) : Ply := { p with up := up, lockedMask := locked, downReason := v }

theorem State.run_leavesMap (s : State) (g : Dev → Dev) (d : Dev) (down back reason up locked : Byte) (v : Vector Byte 8)
    (h : g s.dev = d.lanesDown down back reason false) (hdown : down ≠ 0) (hmap : s.dev.ply.mapAfter down back ≠ 0)
    (hbuffer : s.dev.ply.buffer = []) (hview : d.linkView = s.dev.linkView) (hbob : d.bob = s.dev.bob)
    (hply : d.ply = s.dev.ply.withStatus up locked v) (hv : reason ≠ 5 → v = s.dev.ply.downReason) :
    s.LeavesMap (s.run g) down back reason := by
  obtain ⟨⟨x, ht⟩, hreported, hstrands, hbob, hports⟩ := s.run_lanesDown_unsent g d down back reason h hdown
    (by rw [hply]; exact hmap) (by rw [hply]; exact hbuffer) hview hbob
  rw [hply] at ht
  exact {
    mem := rfl
    map := congrArg Ply.map ht
    reported := hreported
    downReason := fun hreason k => by
      rw [ht, ← hv hreason]
      exact Ply.setReason_downReason _ down reason k
    sent := congrArg Ply.sent ht
    retraining := congrArg Ply.retraining ht
    nextSeq := (congrArg Ply.nextSeq ht :)
    strands := hstrands
    bob := hbob
    ports := hports }

/-! ### ARBITER_LANE_WITHDRAW -/

theorem laneBit_ne_zero {m : Byte} {lane : Fin 8} (h : m &&& 1#8 <<< lane.val ≠ 0) : 1#8 <<< lane.val ≠ 0 :=
  fun hzero => h (by rw [hzero]; exact BitVec.and_zero)

/-- Lanes that leave with none coming back. -/
theorem Ply.mapAfter_zero (p : Ply) (down : Byte) : p.mapAfter down 0 = p.map &&& ~~~down := BitVec.or_zero

section
variable (s : State) (lane : Fin 8) (hrun : s.dev.ply.running = true) (hmapped : s.dev.ply.map &&& 1#8 <<< lane.val ≠ 0)
include hrun hmapped

theorem arbiterLaneWithdraw_mapped :
    arbiterLaneWithdraw lane s.dev = s.dev.numberDecision.lanesDown (1#8 <<< lane.val) 0 6 false := if_pos ⟨hrun, hmapped⟩

theorem exec_arbiterLaneWithdraw_leaves (hmap : s.dev.ply.mapAfter (1#8 <<< lane.val) 0 ≠ 0) (hbuffer : s.dev.ply.buffer = []) :
    ∃ t, exec (.arbiterLaneWithdraw lane) s = .next t ∧ s.LeavesMap t (1#8 <<< lane.val) 0 6 :=
  ⟨s.run (arbiterLaneWithdraw lane), rfl, s.run_leavesMap _ _ _ _ _ s.dev.ply.up s.dev.ply.lockedMask s.dev.ply.downReason
    (arbiterLaneWithdraw_mapped s lane hrun hmapped) (laneBit_ne_zero hmapped) hmap hbuffer rfl rfl rfl fun _ => rfl⟩

theorem exec_arbiterLaneWithdraw_last (hmap : s.dev.ply.mapAfter (1#8 <<< lane.val) 0 = 0) :
    ∃ t, exec (.arbiterLaneWithdraw lane) s = .next t ∧ s.Renegotiated t ∧ t.dev.sys.fault.getLsbD 13 = true :=
  ⟨s.run (arbiterLaneWithdraw lane), rfl, s.run_lanesDown_none _ _ _ _ _ (arbiterLaneWithdraw_mapped s lane hrun hmapped)
    (laneBit_ne_zero hmapped) hmap rfl⟩

end

/-! ### LANE_STATUS while blocks flow -/

theorem Ply.inTraining_of_running (p : Ply) (h : p.running = true) : p.inTraining = false := by
  unfold Ply.running at h
  unfold Ply.inTraining
  cases hst : p.st <;> simp_all

section
variable (d : Dev) (up reason : Byte)

/-- What LANE_STATUS reports changes of the link no more than the reasons. -/
theorem Dev.judgeRate_ply :
    ∃ v, (d.judgeRate up reason).ply = d.ply.withStatus d.ply.up d.ply.lockedMask v ∧ (reason ≠ 5 → v = d.ply.downReason) := by
  unfold Dev.judgeRate
  extract_lets bad
  split_ifs with h
  · exact ⟨_, d.reportRate_ply bad, fun hreason => absurd h.1 hreason⟩
  · exact ⟨d.ply.downReason, rfl, fun _ => rfl⟩

theorem Dev.judgeRate_map : (d.judgeRate up reason).ply.map = d.ply.map := by
  obtain ⟨v, hply, -⟩ := d.judgeRate_ply up reason
  exact (congrArg Ply.map hply :)

theorem Dev.judgeRate_retraining : (d.judgeRate up reason).ply.retraining = d.ply.retraining := by
  obtain ⟨v, hply, -⟩ := d.judgeRate_ply up reason
  exact (congrArg Ply.retraining hply :)

theorem Dev.judgeRate_lockedMask : (d.judgeRate up reason).ply.lockedMask = d.ply.lockedMask := by
  obtain ⟨v, hply, -⟩ := d.judgeRate_ply up reason
  exact (congrArg Ply.lockedMask hply :)

theorem Dev.judgeRate_besidePly (x : Dev) : x.besidePly (d.judgeRate up reason) = x.besidePly d := by
  unfold Dev.judgeRate
  extract_lets bad
  split_ifs
  · exact d.reportRate_besidePly bad x
  · rfl

theorem Dev.judgeRate_bob : (d.judgeRate up reason).bob = d.bob := (congrArg Dev.bob (d.judgeRate_besidePly up reason d) :)
theorem Dev.judgeRate_streams : (d.judgeRate up reason).streams = d.streams := (congrArg Dev.streams (d.judgeRate_besidePly up reason d) :)

theorem Dev.judgeRate_linkView : (d.judgeRate up reason).linkView = d.linkView := by
  unfold Dev.judgeRate
  extract_lets bad
  split_ifs
  · rw [Dev.reportRate, Dev.raiseEach_linkView, Dev.onPly_linkView]
  · rfl

end

/-- The device with the masks of a LANE_STATUS kept. -/
def Dev.keepMasks (d : Dev) (up locked : Byte) : Dev := d.onPly fun p => { p with up := up, lockedMask := locked }

theorem Dev.mapStatus_of_old (d : Dev) (up locked reason : Byte)
    (hfresh : locked &&& ~~~d.ply.lockedMask &&& d.ply.retraining = 0) :
    d.mapStatus up locked reason =
      if up = 0 then
        if d.ply.map &&& ~~~up = 0 then (d.keepMasks up locked).renegotiate
        else (d.keepMasks up locked).lanesDown (d.ply.map &&& ~~~up) 0 reason false
      else if d.ply.map &&& ~~~up ≠ 0 then
        (d.keepMasks up locked).lanesDown (d.ply.map &&& ~~~up) (up &&& d.ply.retraining) reason false
      else if up &&& d.ply.retraining ≠ 0 then (d.keepMasks up locked).rejoin (up &&& d.ply.retraining)
      else d.keepMasks up locked := by
  simp only [Dev.mapStatus, hfresh, if_true]
  rfl

/-- The link with the lanes `back` in the map again, RESTRIPE naming the next sequence (R408). -/
def Ply.rejoined (p : Ply) (back : Byte) : Ply :=
  { p with map := p.map ||| back, retraining := p.retraining &&& ~~~back, sent := .restripe (p.map ||| back) p.nextSeq :: p.sent }

theorem Dev.rejoin_ply (d : Dev) (back : Byte) : ∃ x, (d.rejoin back).ply = (d.ply.rejoined back).withShed x :=
  Dev.selectShed_ply _ _

theorem Dev.rejoin_streams (d : Dev) (back : Byte) : (d.rejoin back).streams = d.streams := Dev.selectShed_streams _ _

section
variable (s : State) (up locked reason : Byte) (q : BitVec 24) (hrun : s.dev.ply.running = true) (hopen : s.dev.returnOpen = true)
  (hfresh : locked &&& s.dev.ply.lanes &&& ~~~s.dev.ply.lockedMask &&& s.dev.ply.retraining = 0)

/-- The device with a LANE_STATUS judged and kept. -/
def State.statusKept : Dev := (s.dev.judgeRate up reason).keepMasks (up &&& s.dev.ply.lanes) (locked &&& s.dev.ply.lanes)

theorem State.statusKept_ply :
    ∃ v, (s.statusKept up locked reason).ply = s.dev.ply.withStatus (up &&& s.dev.ply.lanes) (locked &&& s.dev.ply.lanes) v ∧
      (reason ≠ 5 → v = s.dev.ply.downReason) := by
  obtain ⟨v, hply, hv⟩ := s.dev.judgeRate_ply up reason
  refine ⟨v, ?_, hv⟩
  rw [State.statusKept, Dev.keepMasks, Dev.onPly_ply, hply]
  rfl

theorem State.statusKept_linkView : (s.statusKept up locked reason).linkView = s.dev.linkView := by
  rw [State.statusKept, Dev.keepMasks, Dev.onPly_linkView, Dev.judgeRate_linkView]

theorem State.statusKept_bob : (s.statusKept up locked reason).bob = s.dev.bob := by
  rw [State.statusKept, Dev.keepMasks, Dev.onPly_bob, Dev.judgeRate_bob]

theorem State.statusKept_streams : (s.statusKept up locked reason).streams = s.dev.streams := by
  rw [State.statusKept, Dev.keepMasks, Dev.onPly_streams, Dev.judgeRate_streams]

include hrun hopen hfresh

theorem laneStatus_running :
    let u := up &&& s.dev.ply.lanes
    let down := s.dev.ply.map &&& ~~~u
    let back := u &&& s.dev.ply.retraining
    let e := s.statusKept up locked reason
    laneStatus up locked reason q s.dev =
      if u = 0 then if down = 0 then e.renegotiate else e.lanesDown down 0 reason false
      else if down ≠ 0 then e.lanesDown down back reason false else if back ≠ 0 then e.rejoin back else e := by
  intro u down back e
  rw [laneStatus_open up locked reason q s.dev hopen, Ply.inTraining_of_running _ hrun, hrun, if_neg (by decide), if_pos rfl,
    Dev.mapStatus_of_old _ _ _ _ (by rw [Dev.judgeRate_lockedMask, Dev.judgeRate_retraining]; exact hfresh), Dev.judgeRate_map,
    Dev.judgeRate_retraining]
  rfl

/-- Lanes of the map reported down leave it, and those that are up again after a retraining join with the same RESTRIPE. -/
theorem exec_laneStatus_leaves :
    let u := up &&& s.dev.ply.lanes
    let down := s.dev.ply.map &&& ~~~u
    let back := u &&& s.dev.ply.retraining
    u ≠ 0 → down ≠ 0 → s.dev.ply.mapAfter down back ≠ 0 → s.dev.ply.buffer = [] →
      ∃ t, exec (.laneStatus up locked reason q) s = .next t ∧ s.LeavesMap t down back reason := by
  intro u down back hu hdown hmap hbuffer
  have h := (laneStatus_running s up locked reason q hrun hopen hfresh).trans ((if_neg hu).trans (if_pos hdown))
  obtain ⟨v, hply, hv⟩ := s.statusKept_ply up locked reason
  exact ⟨s.run (laneStatus up locked reason q), rfl, s.run_leavesMap _ _ down back reason u (locked &&& s.dev.ply.lanes) v h hdown hmap
    hbuffer (s.statusKept_linkView up locked reason) (s.statusKept_bob up locked reason) hply hv⟩

/-- The last lanes of the map are reported down. -/
theorem exec_laneStatus_last :
    let u := up &&& s.dev.ply.lanes
    let down := s.dev.ply.map &&& ~~~u
    let back := u &&& s.dev.ply.retraining
    u ≠ 0 → down ≠ 0 → s.dev.ply.mapAfter down back = 0 →
      ∃ t, exec (.laneStatus up locked reason q) s = .next t ∧ s.Renegotiated t ∧ t.dev.sys.fault.getLsbD 13 = true := by
  intro u down back hu hdown hmap
  have h := (laneStatus_running s up locked reason q hrun hopen hfresh).trans ((if_neg hu).trans (if_pos hdown))
  obtain ⟨v, hply, -⟩ := s.statusKept_ply up locked reason
  exact ⟨s.run (laneStatus up locked reason q), rfl, s.run_lanesDown_none _ _ down back reason h hdown (by rw [hply]; exact hmap)
    (s.statusKept_linkView up locked reason)⟩

/-- Lanes that are up again join the map, and nothing is replayed (R408). -/
theorem exec_laneStatus_rejoins :
    let u := up &&& s.dev.ply.lanes
    let back := u &&& s.dev.ply.retraining
    s.dev.ply.map &&& ~~~u = 0 → back ≠ 0 →
      ∃ t v x, exec (.laneStatus up locked reason q) s = .next t ∧ t.mem = s.mem ∧
        t.dev.ply = ((s.dev.ply.withStatus u (locked &&& s.dev.ply.lanes) v).rejoined back).withShed x ∧
        t.dev.streams = s.dev.streams := by
  intro u back hdown hback
  have hu : u ≠ 0 := fun h => hback (by dsimp only [back]; rw [h]; exact BitVec.zero_and)
  have h := (laneStatus_running s up locked reason q hrun hopen hfresh).trans
    ((if_neg hu).trans ((if_neg (not_not_intro hdown)).trans (if_pos hback)))
  obtain ⟨v, hply, -⟩ := s.statusKept_ply up locked reason
  obtain ⟨x, hx⟩ := (s.statusKept up locked reason).rejoin_ply back
  refine ⟨s.run (laneStatus up locked reason q), v, x, rfl, rfl, ?_, ?_⟩
  · rw [State.run_dev, Dev.settle_ply, h, hx, hply]
  · rw [State.run_dev, Dev.settle_streams, h, Dev.rejoin_streams, State.statusKept_streams]

end

/-! ### LANE_RETRAIN_RETRY (R408) -/

theorem exec_laneRetrainRetry (s : State) (lane : Fin 8) (hrun : s.dev.ply.running = true)
    (h : s.dev.ply.retraining.getLsbD lane.val = true) :
    ∃ t, exec (.laneRetrainRetry lane) s = .next t ∧ t.mem = s.mem ∧
      t.dev.ply = { s.dev.ply with lockedMask := s.dev.ply.lockedMask &&& ~~~(1#8 <<< lane.val),
                                   sent := .ts1 (1#8 <<< lane.val) :: s.dev.ply.sent } ∧
      s.dev.besidePly t.dev = s.dev := by
  have heq : laneRetrainRetry lane s.dev = s.dev.onPly fun p =>
      ({ p with lockedMask := p.lockedMask &&& ~~~(1#8 <<< lane.val) }).emit (.ts1 (1#8 <<< lane.val)) := if_pos ⟨hrun, h⟩
  obtain ⟨hply, hframe⟩ := s.run_onPly _ _ _ heq s.dev.unreport_self
  exact ⟨s.run (laneRetrainRetry lane), rfl, rfl, hply, hframe⟩

/-! ### The obligation -/

/-- Settles O42: each form of losing lanes comes down to `Dev.lanesDown`, which leaves the link as `State.LeavesMap` says or
renegotiates; the other commands are effects on the link alone. -/
theorem plyLanes : Obligations.PlyLanes := by
  intro s hrun p Leaves Renegotiates
  have hleaves {down back reason : Byte} {t : State} (h : s.LeavesMap t down back reason) : Leaves down back reason t :=
    ⟨h.mem, h.map, h.reported, h.downReason, h.sent, h.retraining, h.nextSeq, h.strands, h.bob, h.ports⟩
  have hreneg {t : State} (h : s.Renegotiated t) : Renegotiates t :=
    ⟨h.mem, h.st, h.map, h.buffer, h.resend, h.rest, h.reported, h.strands, h.ports, h.whl⟩
  refine ⟨fun lane hmapped => ⟨fun hmap hbuffer => ?_, fun hmap => ?_⟩, fun up locked reason q hopen hfresh =>
    ⟨fun hu hdown hmap hbuffer => ?_, fun hu hdown hmap => ?_, fun hdown hback => ?_⟩, fun hcheck => ?_,
    fun lane h => exec_laneRetrainRetry s lane hrun h, fun cause seq hopen hnak hmany => ?_, fun b l hbuffer hmany => ?_, ?_,
    fun lane hcount => ?_, fun hcheck => ?_⟩
  · obtain ⟨t, hexec, ht⟩ := exec_arbiterLaneWithdraw_leaves s lane hrun hmapped (by rw [Ply.mapAfter_zero]; exact hmap) hbuffer
    exact ⟨t, hexec, hleaves ht⟩
  · obtain ⟨t, hexec, ht, hreported⟩ := exec_arbiterLaneWithdraw_last s lane hrun hmapped (by rw [Ply.mapAfter_zero]; exact hmap)
    exact ⟨t, hexec, hreneg ht, hreported⟩
  · obtain ⟨t, hexec, ht⟩ := exec_laneStatus_leaves s up locked reason q hrun hopen hfresh hu hdown hmap hbuffer
    exact ⟨t, hexec, hleaves ht⟩
  · obtain ⟨t, hexec, ht, hreported⟩ := exec_laneStatus_last s up locked reason q hrun hopen hfresh hu hdown hmap
    exact ⟨t, hexec, hreneg ht, hreported⟩
  · obtain ⟨t, v, x, hexec, hmem, hply, hstreams⟩ := exec_laneStatus_rejoins s up locked reason q hrun hopen hfresh hdown hback
    refine ⟨t, hexec, hmem, ?_⟩
    rw [hply]
    exact ⟨rfl, rfl, rfl, rfl, rfl, hstreams⟩
  · obtain ⟨t, hexec, ht, hsent⟩ := exec_returnLaneLockLoss s hrun hcheck
    exact ⟨t, hexec, hreneg ht, hsent⟩
  · exact ⟨_, rfl, hreneg ((s.run_replayFrom _ seq (nak_replays cause seq s.dev hrun hopen hnak)).2 hmany)⟩
  · exact ⟨_, rfl, hreneg ((s.run_replayFrom _ b.1 (ackTimeout_replays s.dev b l hrun hbuffer)).2 hmany)⟩
  · obtain ⟨t, phase, hexec, hmem, -, hply, -⟩ := exec_alignmentMarker s hrun
    refine ⟨t, hexec, hmem, ?_⟩
    rw [hply]
    exact ⟨rfl, ⟨phase, rfl⟩, rfl⟩
  · obtain ⟨t, hexec, hmem, -, hply, -⟩ := exec_skipSetDue s _ (s.dev.transmits_plyLane lane hrun hcount)
    have hval : (Fin.ofNat 30 (16 + lane.val)).val = 16 + lane.val := Nat.mod_eq_of_lt (by omega)
    rw [hval, if_pos (by omega), Nat.add_sub_cancel_left] at hply
    refine ⟨t, hexec, hmem, ?_⟩
    rw [hply]
    exact ⟨rfl, rfl⟩
  · obtain ⟨t, hexec, hmem, hply, -⟩ := exec_returnMessageDiscard s hcheck
    exact ⟨t, hexec, hmem, hply⟩

end Sys2Proof.Machine
end

section
/-! SUPPORT. Blocks of the ply link (spec/11_ply_link.md R377 to R404): what leaves at a block boundary, acknowledgement, and health
packets. -/

namespace Sys2Proof.Machine

/-! ### Corrected errors (01 R38) -/

/-- The registers of SYS with `n` corrected errors of the bobbin pool counted. -/
def Sys.counted (y : Sys) (n : Nat) : Sys := { y with corrected := y.corrected.set 0 (satAdd y.corrected[0] n) }

theorem Sys.counted_zero (y : Sys) : y.counted 0 = y := by
  rw [Sys.counted, satAdd_zero, Vector.set_getElem_self]

theorem Dev.countCorrected_unreport (d : Dev) (n : Nat) : (d.countCorrected 0 n).unreport d = { d with sys := d.sys.counted n } := by
  unfold Dev.countCorrected
  split_ifs with h
  · rw [h, Sys.counted_zero]
    rfl
  · rw [Dev.unreport_raise]
    rfl

theorem Dev.countCorrected_hnk (d : Dev) (n : Nat) : (d.countCorrected 0 n).hnk = d.hnk :=
  (congrArg Dev.hnk (d.countCorrected_unreport n) :)

theorem Dev.countCorrected_linkView (d : Dev) (n : Nat) : (d.countCorrected 0 n).linkView = d.linkView := by
  unfold Dev.countCorrected
  split_ifs
  · rfl
  · exact Dev.raise_linkView _ _ _ _

/-- `t` comes after `s` with the memories as they were and `n` corrected errors counted, a report being all else that SYS shows. -/
structure State.Counts (s t : State) (n : Nat) : Prop where
  mem : t.mem = s.mem
  sys : (t.dev.unreport s.dev).sys = s.dev.sys.counted n

theorem State.Counts.fields {s t : State} {n : Nat} (h : s.Counts t n) :
    t.mem = s.mem ∧ t.dev.sys.corrected = s.dev.sys.corrected.set 0 (satAdd s.dev.sys.corrected[0] n) ∧
      { t.dev.sys with fault := s.dev.sys.fault, corrected := s.dev.sys.corrected } = s.dev.sys :=
  ⟨h.mem, (congrArg Sys.corrected h.sys :), (congrArg (fun y : Sys => { y with corrected := s.dev.sys.corrected }) h.sys :)⟩

/-- A command that counts corrected errors and then acts on the link alone. -/
theorem State.run_counted (s : State) (g : Dev → Dev) (n : Nat) (f : Ply → Ply)
    (h : g s.dev = (s.dev.countCorrected 0 n).onPly f) :
    s.Counts (s.run g) n ∧ (s.run g).dev.ply = f s.dev.ply ∧ { s.dev.besidePly (s.run g).dev with sys := s.dev.sys } = s.dev := by
  have hunreport : (s.run g).dev.unreport s.dev = { s.dev with sys := s.dev.sys.counted n, ply := f s.dev.ply } := by
    have hcount := congrArg (fun e : Dev => { e with ply := f s.dev.ply }) (s.dev.countCorrected_unreport n)
    rw [State.run_dev, Dev.unreport_settle, h, ← hcount, Dev.onPly, Dev.countCorrected_ply]
    rfl
  exact ⟨⟨rfl, (congrArg Dev.sys hunreport :)⟩, (congrArg Dev.ply hunreport :),
    (congrArg (fun e : Dev => { e with ply := s.dev.ply, sys := s.dev.sys }) hunreport :)⟩

/-! ### Filling a block (R389) -/

/-- The registers but for the packets that wait, the pool, the hank compressor and what a report changes, which are those of `x`. -/
def Dev.besideFill (x d : Dev) : Dev :=
  { d.unreport x with ply := { d.ply with queue := x.ply.queue, hankTurn := x.ply.hankTurn }, bob := x.bob, hnk := x.hnk }

section
variable (x d : Dev)

theorem Dev.besideFill_of_besideHanks (e : Dev) (h : x.besideHanks e = x.besideHanks d) : x.besideFill e = x.besideFill d :=
  congrArg (fun y : Dev => { y with ply := { y.ply with queue := x.ply.queue, hankTurn := x.ply.hankTurn } }) h

theorem Dev.onBob_besideHanks (f : Bob → Bob) : x.besideHanks (d.onBob f) = x.besideHanks d := rfl

theorem Dev.passDoffer_besideHanks (q : Nat) : x.besideHanks (d.passDoffer q) = x.besideHanks d := by
  rw [Dev.passDoffer, Dev.trimCredits_besideHanks, Dev.onQueue, Dev.onBob_besideHanks]

theorem Dev.dropBad_besideHanks (q : Nat) (p : Pkt) : x.besideHanks (d.dropBad q p) = x.besideHanks d := by
  simp only [Dev.dropBad, apply_ite x.besideHanks, Dev.passDoffer_besideHanks, Dev.withholdHanks_besideHanks,
    Dev.raise_besideHanks, Dev.onBob_besideHanks, ite_self]

/-- An effect on the packets that wait and on the turn of the lanes. -/
theorem Dev.onPly_besideFill (f : Ply → Ply)
    (h : { f d.ply with queue := x.ply.queue, hankTurn := x.ply.hankTurn } =
      { d.ply with queue := x.ply.queue, hankTurn := x.ply.hankTurn }) : x.besideFill (d.onPly f) = x.besideFill d :=
  congrArg (fun p : Ply => { d.unreport x with ply := p, bob := x.bob, hnk := x.hnk }) h

theorem Dev.nextPacket_besideFill (bs : List Byte) (e : Dev) (h : d.nextPacket = some (bs, e)) : x.besideFill e = x.besideFill d := by
  unfold Dev.nextPacket at h
  split at h
  next q p _ =>
    have hpass := x.besideFill_of_besideHanks d _ (x.passDoffer_besideHanks d q)
    split_ifs at h
    · obtain ⟨-, rfl⟩ := Prod.mk.inj (Option.some.inj h)
      exact hpass
    · obtain ⟨-, rfl⟩ := Prod.mk.inj (Option.some.inj h)
      exact (x.onPly_besideFill _ _ rfl).trans hpass
  next =>
    obtain ⟨y, -, hy⟩ := Option.map_eq_some_iff.mp h
    obtain ⟨-, rfl⟩ := Prod.mk.inj hy
    exact x.onPly_besideFill _ _ rfl

@[simp] theorem Dev.trimCredits_hnk : d.trimCredits.hnk = d.hnk := (congrArg Dev.hnk d.trimCredits_frame :)

theorem Dev.passDoffer_hnk (q : Nat) : (d.passDoffer q).hnk = d.hnk := by
  rw [Dev.passDoffer, Dev.trimCredits_hnk, Dev.onQueue, Dev.onBob_hnk]

theorem Dev.nextPacket_hnk (bs : List Byte) (e : Dev) (h : d.nextPacket = some (bs, e)) : e.hnk = d.hnk := by
  unfold Dev.nextPacket at h
  split at h
  next q p _ =>
    split_ifs at h
    · obtain ⟨-, rfl⟩ := Prod.mk.inj (Option.some.inj h)
      exact d.passDoffer_hnk q
    · obtain ⟨-, rfl⟩ := Prod.mk.inj (Option.some.inj h)
      exact (Dev.onPly_hnk _ _).trans (d.passDoffer_hnk q)
  next =>
    obtain ⟨y, -, hy⟩ := Option.map_eq_some_iff.mp h
    obtain ⟨-, rfl⟩ := Prod.mk.inj hy
    rfl

end

/-- Filling a block changes only what its packets leave behind. -/
theorem fillPayload_besideFill (x : Dev) (fuel : Nat) (bad : List Nat) (acc : List Byte) (first : Option Nat) (d : Dev) :
    x.besideFill (fillPayload fuel bad acc first d).2.2 = x.besideFill d := by
  induction fuel generalizing bad acc first d with
  | zero => rfl
  | succ fuel ih =>
    rw [fillPayload]
    split_ifs
    · rfl
    split
    next q p _ => exact (ih _ _ _ _).trans (x.besideFill_of_besideHanks d _ (x.dropBad_besideHanks d q p))
    next =>
      split
      next bs e hnext => exact (ih _ _ _ _).trans (x.nextPacket_besideFill d bs e hnext)
      next => rfl

/-- Where every packet can be read, no hank is withheld. -/
theorem fillPayload_hnk (fuel : Nat) (acc : List Byte) (first : Option Nat) (d : Dev) :
    (fillPayload fuel [] acc first d).2.2.hnk = d.hnk := by
  induction fuel generalizing acc first d with
  | zero => rfl
  | succ fuel ih =>
    have hreadable : (d.nextPool.filter fun x => ([] : List Nat).contains x.1) = none := Option.filter_eq_none_iff.mpr fun _ _ => nofun
    rw [fillPayload]
    split_ifs
    · rfl
    rw [hreadable]
    dsimp only
    split
    next bs e hnext => exact (ih _ _ _).trans (d.nextPacket_hnk bs e hnext)
    next => rfl

/-- With no packet waiting there is nothing to send. -/
theorem Dev.nextPacket_of_idle (d : Dev) (hqueue : d.ply.queue = []) (hfront : ∀ q, (d.bob.queue q).front 1 = none) :
    d.nextPool = none ∧ d.nextPacket = none := by
  have hcursor (q : Nat) : d.atCursor q = none := by rw [Dev.atCursor, hfront]; rfl
  have hhigh : d.ply.nextHigh = none := by rw [Ply.nextHigh, hqueue]; rfl
  have hstats : d.nextStats = none := by simp [Dev.nextStats, hcursor]
  have hhank : d.nextHank = none := List.findSome?_eq_none_iff.mpr fun q _ => hcursor q
  have hpool : d.nextPool = none := by simp [Dev.nextPool, hstats, hhank]
  refine ⟨hpool, ?_⟩
  simp [Dev.nextPacket, hpool, hhigh, hqueue]

theorem fillPayload_of_idle (fuel : Nat) (bad : List Nat) (d : Dev) (hpool : d.nextPool = none) (hnext : d.nextPacket = none) :
    fillPayload fuel bad [] none d = ([], none, d) := by
  cases fuel with
  | zero => rfl
  | succ fuel => simp [fillPayload, hpool, hnext]

/-! ### A new block (R377, R378, R401) -/

theorem crcPair_length (c : Nat) : (crcPair c).length = 8 := by simp [crcPair]

theorem plyBlock_length (typ flags : Nat) (seq : BitVec 24) (mask : Byte) (first : Nat) (payload : List Byte)
    (h : payload.length ≤ 496) : (plyBlock typ flags seq mask first payload).length = 512 := by
  simp only [plyBlock, List.length_append, crcPair_length, le_length, List.length_singleton, zeros, List.length_replicate]
  omega

/-- The link as filling a new block begins: the bytes left over go into it. -/
def Dev.beginBlock (d : Dev) : Dev := d.onPly fun p => { p with rest := [], stalled := false }

/-- The bytes of a new block, the offset of its first header, and the device after they are taken. -/
def Dev.fill (d : Dev) (bad : List Nat) : List Byte × Option Nat × Dev := fillPayload (62 + bad.length) bad d.ply.rest none d.beginBlock

/-- The link after the block `bs`, which the replay buffer takes, with `rest` left over. -/
def Ply.sendBlock (p : Ply) (bs rest : List Byte) : Ply :=
  { p with rest := rest, buffer := p.buffer ++ [(p.nextSeq, bs)], nextSeq := p.nextSeq + 1, sent := .block bs :: p.sent }

section
variable (d : Dev) (bad : List Nat)

theorem Dev.fill_besideFill (x : Dev) : x.besideFill (d.fill bad).2.2 = x.besideFill d.beginBlock := fillPayload_besideFill ..

theorem Dev.fill_hnk : (d.fill []).2.2.hnk = d.hnk := fillPayload_hnk _ _ _ d.beginBlock

theorem Dev.fill_ne_nil (h : d.ply.rest ≠ [] ∨ ∃ x ∈ d.ply.queue, x.cls = 1) : (d.fill bad).1 ≠ [] := by
  refine List.ne_nil_of_length_pos ?_
  rcases h with hrest | hhealth
  · exact (List.length_pos_iff.mpr hrest).trans_le (fillPayload_keeps _ bad d.ply.rest none d.beginBlock).2
  · have hfuel : 62 + bad.length = (61 + bad.length) + 1 := by omega
    rw [Dev.fill, hfuel]
    exact fillPayload_health _ _ _ _ d.beginBlock hhealth

/-- A new block, or a filler where nothing is ready. -/
theorem Dev.sendNew_cases :
    ((d.fill bad).1 = [] ∧ d.sendNew bad =
      (d.fill bad).2.2.onPly fun p => ({ p with stalled := false }).emit (.block p.fillerBlock)) ∨
    ∃ bs, bs.length = 512 ∧ d.sendNew bad =
      ((d.fill bad).2.2.onPly fun p => p.sendBlock bs ((d.fill bad).1.drop 496)).onQueue 196
        fun q => { q with commits := q.commits + 1 } := by
  by_cases hempty : (d.fill bad).1.isEmpty = true
  · exact .inl ⟨List.isEmpty_iff.mp hempty, if_pos hempty⟩
  · exact .inr ⟨_, plyBlock_length 0 0 d.ply.nextSeq d.ply.map ((d.fill bad).2.1.getD 0xFFFF) ((d.fill bad).1.take 496)
      (List.length_take_le _ _), if_neg hempty⟩

theorem Dev.sendNew_of_idle (hrest : d.ply.rest = []) (hqueue : d.ply.queue = []) (hfront : ∀ q, (d.bob.queue q).front 1 = none) :
    d.sendNew bad = d.onPly fun p => { p with rest := [], stalled := false, sent := .block p.fillerBlock :: p.sent } := by
  obtain ⟨hpool, hnext⟩ := d.beginBlock.nextPacket_of_idle hqueue hfront
  have hfill : d.fill bad = ([], none, d.beginBlock) := by rw [Dev.fill, hrest, fillPayload_of_idle _ _ _ hpool hnext]
  have hsend : d.sendNew bad = (d.fill bad).2.2.onPly fun p => ({ p with stalled := false }).emit (.block p.fillerBlock) :=
    if_pos (show (d.fill bad).1.isEmpty = true by rw [hfill]; rfl)
  rw [hsend, hfill]
  rfl

end

/-! ### A block boundary (R378, R389, R401, R402; 01 R27) -/

/-- The block that leaves at a boundary where the shed row is applied: the next one of a replay, a filler, or a new one. -/
def Dev.sendBlock (d : Dev) (badReplay : Bool) (bad : List Nat) : Dev :=
  match d.ply.resend with
  | b :: bs => d.resendBlock b bs badReplay
  | [] =>
    let d2 := d.onPly fun p => { p with st := .up }
    if 2048 ≤ d2.ply.buffer.length then
      d2.onPly fun p => ({ p with stalled := true, counts := if p.stalled then p.counts else upd p.counts 3 fun c => satAdd c 1 }).emit
        (.block p.fillerBlock)
    else d2.sendNew bad

theorem blockSend_running (badReplay : Bool) (bad : List Nat) (n : Nat) (d : Dev) (hrun : d.ply.running = true) :
    blockSend badReplay bad n d = (d.applyShed.countCorrected 0 n).sendBlock badReplay bad := by
  unfold blockSend
  rw [hrun]
  rfl

/-- With no shed row selected, only the corrected errors are counted before the block. -/
theorem blockSend_of_noShed (badReplay : Bool) (bad : List Nat) (n : Nat) (d : Dev) (hrun : d.ply.running = true)
    (hshed : d.ply.shedNext = none) : blockSend badReplay bad n d = (d.countCorrected 0 n).sendBlock badReplay bad := by
  have happly : d.applyShed = d := by
    unfold Dev.applyShed
    rw [hshed]
  rw [blockSend_running _ _ _ _ hrun, happly]

section
variable (d : Dev) (badReplay : Bool) (bad : List Nat)

theorem Dev.sendBlock_of_resend (b : BitVec 24 × List Byte) (l : List (BitVec 24 × List Byte)) (h : d.ply.resend = b :: l) :
    d.sendBlock badReplay bad = d.resendBlock b l badReplay := by
  unfold Dev.sendBlock
  rw [h]

theorem Dev.sendBlock_of_stall (h : d.ply.resend = []) (hfull : 2048 ≤ d.ply.buffer.length) :
    d.sendBlock badReplay bad = d.onPly fun p =>
      { p with st := .up, stalled := true, counts := if p.stalled then p.counts else upd p.counts 3 fun c => satAdd c 1,
               sent := .block p.fillerBlock :: p.sent } := by
  unfold Dev.sendBlock
  rw [h]
  exact if_pos hfull

theorem Dev.sendBlock_of_room (h : d.ply.resend = []) (hroom : d.ply.buffer.length < 2048) :
    d.sendBlock badReplay bad = (d.onPly fun p => { p with st := .up }).sendNew bad := by
  unfold Dev.sendBlock
  rw [h]
  exact if_neg (Nat.not_le.mpr hroom)

end

section
variable (s : State) (badReplay : Bool) (bad : List Nat) (n : Nat) (hrun : s.dev.ply.running = true)
  (hshed : s.dev.ply.shedNext = none)
include hrun hshed

/-- The next block of a replay is sent again, the last one ending the replay. -/
theorem exec_blockSend_resends (b : BitVec 24 × List Byte) (l : List (BitVec 24 × List Byte)) (h : s.dev.ply.resend = b :: l) :
    ∃ t, exec (.blockSend false bad n) s = .next t ∧ s.Counts t n ∧
      t.dev.ply = { s.dev.ply with resend := l, st := if l = [] then .up else .replay,
                                   sent := .block (resentBlock s.dev.ply.map b) :: s.dev.ply.sent } ∧
      { s.dev.besidePly t.dev with sys := s.dev.sys } = s.dev := by
  have hresend : (s.dev.countCorrected 0 n).ply.resend = b :: l := by rw [Dev.countCorrected_ply, h]
  have hsend := (blockSend_of_noShed false bad n s.dev hrun hshed).trans
    ((Dev.sendBlock_of_resend _ false bad b l hresend).trans (if_neg nofun))
  obtain ⟨hcounts, hply, hframe⟩ := s.run_counted _ n _ hsend
  refine ⟨s.run (blockSend false bad n), rfl, hcounts, hply.trans ?_, hframe⟩
  cases l <;> rfl

/-- A block of a replay that cannot be read ends in a renegotiation (09 R324; 01 R39). -/
theorem exec_blockSend_unreadable (b : BitVec 24 × List Byte) (l : List (BitVec 24 × List Byte)) (h : s.dev.ply.resend = b :: l) :
    ∃ t, exec (.blockSend true bad n) s = .next t ∧ s.Renegotiated t ∧ t.dev.sys.fault.getLsbD 17 = true := by
  have hresend : (s.dev.countCorrected 0 n).ply.resend = b :: l := by rw [Dev.countCorrected_ply, h]
  have hsend := (blockSend_of_noShed true bad n s.dev hrun hshed).trans (Dev.sendBlock_of_resend _ true bad b l hresend)
  have hreneg : blockSend true bad n s.dev = ((s.dev.countCorrected 0 n).raise 17 196 0).renegotiate := hsend.trans (if_pos rfl)
  exact ⟨s.run (blockSend true bad n), rfl,
    s.run_renegotiate _ _ hreneg ((Dev.raise_linkView _ _ _ _).trans (s.dev.countCorrected_linkView n)),
    s.run_renegotiate_keeps _ _ hreneg 17 (Dev.raise_sets _ _ _ _ (by decide))⟩

variable (hresend : s.dev.ply.resend = [])
include hresend

/-- With 2048 blocks unacknowledged a filler leaves, and a stall is counted as it begins. -/
theorem exec_blockSend_stalls (hfull : 2048 ≤ s.dev.ply.buffer.length) :
    ∃ t, exec (.blockSend badReplay bad n) s = .next t ∧ s.Counts t n ∧
      t.dev.ply = { s.dev.ply with
        st := .up
        stalled := true
        sent := .block s.dev.ply.fillerBlock :: s.dev.ply.sent
        counts := if s.dev.ply.stalled then s.dev.ply.counts else upd s.dev.ply.counts 3 fun c => satAdd c 1 } ∧
      { s.dev.besidePly t.dev with sys := s.dev.sys } = s.dev := by
  have hsend := (blockSend_of_noShed badReplay bad n s.dev hrun hshed).trans (Dev.sendBlock_of_stall _ badReplay bad
    (by rw [Dev.countCorrected_ply, hresend]) (by rw [Dev.countCorrected_ply]; exact hfull))
  obtain ⟨hcounts, hply, hframe⟩ := s.run_counted _ n _ hsend
  exact ⟨s.run (blockSend badReplay bad n), rfl, hcounts, hply, hframe⟩

variable (hroom : s.dev.ply.buffer.length < 2048)
include hroom

/-- The device at a boundary where a new block is due. -/
theorem blockSend_new :
    blockSend badReplay bad n s.dev = ((s.dev.countCorrected 0 n).onPly fun p => { p with st := .up }).sendNew bad :=
  (blockSend_of_noShed badReplay bad n s.dev hrun hshed).trans (Dev.sendBlock_of_room _ badReplay bad
    (by rw [Dev.countCorrected_ply, hresend]) (by rw [Dev.countCorrected_ply]; exact hroom))

/-- With nothing ready a filler leaves. -/
theorem exec_blockSend_idle (hrest : s.dev.ply.rest = []) (hqueue : s.dev.ply.queue = [])
    (hfront : ∀ q, (s.dev.bob.queue q).front 1 = none) :
    ∃ t, exec (.blockSend badReplay bad n) s = .next t ∧ s.Counts t n ∧
      t.dev.ply = { s.dev.ply with st := .up, stalled := false, sent := .block s.dev.ply.fillerBlock :: s.dev.ply.sent } ∧
      { s.dev.besidePly t.dev with sys := s.dev.sys } = s.dev := by
  let d2 := (s.dev.countCorrected 0 n).onPly fun p => { p with st := .up }
  have hbob : d2.bob = s.dev.bob := by rw [Dev.onPly_bob, Dev.countCorrected_bob]
  have hrest2 : d2.ply.rest = [] := by rw [Dev.onPly_ply, Dev.countCorrected_ply, hrest]
  have hqueue2 : d2.ply.queue = [] := by rw [Dev.onPly_ply, Dev.countCorrected_ply, hqueue]
  have hsend := (blockSend_new s badReplay bad n hrun hshed hresend hroom).trans
    (d2.sendNew_of_idle bad hrest2 hqueue2 (by rw [hbob]; exact hfront))
  obtain ⟨hcounts, hply, hframe⟩ := s.run_counted _ n
    (fun p => { p with st := .up, rest := [], stalled := false, sent := .block p.fillerBlock :: p.sent }) hsend
  refine ⟨s.run (blockSend badReplay bad n), rfl, hcounts, hply.trans ?_, hframe⟩
  rw [← hrest]

end

/-! ### What a new block leaves -/

/-- The registers but for the link, the pool, the hank compressor, SYS and what a report changes, which are those of `x`. -/
def Dev.besideSend (x d : Dev) : Dev := { d.unreport x with ply := x.ply, bob := x.bob, hnk := x.hnk, sys := x.sys }

section
variable (x d : Dev)

theorem Dev.besideSend_of_unreport (e : Dev) (h : e.unreport x = d.unreport x) : x.besideSend e = x.besideSend d :=
  congrArg (fun y : Dev => { y with ply := x.ply, bob := x.bob, hnk := x.hnk, sys := x.sys }) h

theorem Dev.besideSend_of_besideFill (e : Dev) (h : x.besideFill e = x.besideFill d) : x.besideSend e = x.besideSend d :=
  congrArg (fun y : Dev => { y with ply := x.ply, sys := x.sys }) h

theorem Dev.onPly_besideSend (f : Ply → Ply) : x.besideSend (d.onPly f) = x.besideSend d := rfl
theorem Dev.onQueue_besideSend (q : Nat) (f : PoolQ → PoolQ) : x.besideSend (d.onQueue q f) = x.besideSend d := rfl

/-- Two devices that agree but for what a block takes agree in the replay buffer, the sequence, the transmit log and SYS. -/
theorem Dev.fields_of_besideFill (e : Dev) (h : x.besideFill e = x.besideFill d) :
    e.ply.buffer = d.ply.buffer ∧ e.ply.nextSeq = d.ply.nextSeq ∧ e.ply.sent = d.ply.sent ∧ (e.unreport x).sys = (d.unreport x).sys :=
  have hply := congrArg Dev.ply h
  ⟨(congrArg Ply.buffer hply :), (congrArg Ply.nextSeq hply :), (congrArg Ply.sent hply :), (congrArg Dev.sys h :)⟩

end

section
variable (s : State) (badReplay : Bool) (bad : List Nat) (n : Nat) (hrun : s.dev.ply.running = true)
  (hshed : s.dev.ply.shedNext = none) (hresend : s.dev.ply.resend = []) (hroom : s.dev.ply.buffer.length < 2048)
include hrun hshed hresend hroom

/-- What waits leaves in a new block, which the replay buffer keeps. -/
theorem exec_blockSend_sends (hready : s.dev.ply.rest ≠ [] ∨ ∃ x ∈ s.dev.ply.queue, x.cls = 1) :
    ∃ (t : State) (bs : List Byte), exec (.blockSend badReplay bad n) s = .next t ∧ s.Counts t n ∧ bs.length = 512 ∧
      t.dev.ply.buffer = s.dev.ply.buffer ++ [(s.dev.ply.nextSeq, bs)] ∧ t.dev.ply.nextSeq = s.dev.ply.nextSeq + 1 ∧
      t.dev.ply.sent = .block bs :: s.dev.ply.sent ∧ (bad = [] → t.dev.hnk = s.dev.hnk) ∧ s.dev.besideSend t.dev = s.dev := by
  let d1 := s.dev.countCorrected 0 n
  let d2 := d1.onPly fun p => { p with st := .up }
  have hply : d1.ply = s.dev.ply := s.dev.countCorrected_ply 0 n
  have hnew := blockSend_new s badReplay bad n hrun hshed hresend hroom
  have hfill := d2.fill_besideFill bad s.dev
  have hhnk (hbad : bad = []) : (d2.fill bad).2.2.hnk = s.dev.hnk := by
    rw [hbad, Dev.fill_hnk, Dev.onPly_hnk, Dev.countCorrected_hnk]
  obtain ⟨hempty, -⟩ | ⟨bs, hlen, hsend⟩ := d2.sendNew_cases bad
  · refine absurd hempty (d2.fill_ne_nil bad ?_)
    rw [Dev.onPly_ply, hply]
    exact hready
  generalize d2.fill bad = r at hfill hhnk hsend
  obtain ⟨hbuffer, hseq, hsent, hsys⟩ := Dev.fields_of_besideFill _ _ _ hfill
  have htply : (s.run (blockSend badReplay bad n)).dev.ply = r.2.2.ply.sendBlock bs (r.1.drop 496) := by
    rw [State.run_dev, Dev.settle_ply, hnew, hsend]
    rfl
  refine ⟨s.run (blockSend badReplay bad n), bs, rfl, ⟨rfl, ?_⟩, hlen, ?_, ?_, ?_, fun hbad => ?_, ?_⟩
  · rw [State.run_dev, Dev.unreport_settle, hnew, hsend]
    exact hsys.trans (congrArg Dev.sys (s.dev.countCorrected_unreport n) :)
  · rw [htply, Ply.sendBlock, hbuffer, hseq]
    exact (congrArg (fun p : Ply => p.buffer ++ [(p.nextSeq, bs)]) hply :)
  · rw [htply, Ply.sendBlock, hseq]
    exact (congrArg (fun p : Ply => p.nextSeq + 1) hply :)
  · rw [htply, Ply.sendBlock, hsent]
    exact (congrArg (fun p : Ply => PlySym.block bs :: p.sent) hply :)
  · rw [State.run_dev, Dev.settle_hnk, hnew, hsend]
    exact hhnk hbad
  · have hsettle := Dev.besideSend_of_unreport s.dev _ _ (Dev.unreport_settle (blockSend badReplay bad n s.dev) s.dev)
    rw [State.run_dev, hsettle, hnew, hsend, Dev.onQueue_besideSend, Dev.onPly_besideSend, Dev.besideSend_of_besideFill _ _ _ hfill,
      Dev.beginBlock, Dev.onPly_besideSend, Dev.onPly_besideSend]
    exact (congrArg (fun y : Dev => { y with ply := s.dev.ply, bob := s.dev.bob, hnk := s.dev.hnk, sys := s.dev.sys })
      (s.dev.countCorrected_unreport n) :)

end

end Sys2Proof.Machine
end

section
/-! SUPPORT. The ply link at work (spec/11_ply_link.md R389 to R404; 01 R25, R27): the shed row at a boundary, acknowledgement, and health
packets. -/

namespace Sys2Proof.Machine

/-! ### The shed row at the block boundary (R393; 01 R25, R27) -/

/-- The shed row selected, the one in force, and the decision applied last. -/
def Dev.shedView (d : Dev) : Option (DWord × DWord × Word) × DWord × DWord × Word :=
  (d.ply.shedNext, d.ply.shedStreams, d.ply.shedRec, d.sys.applied)

section
variable (d : Dev)

theorem Dev.shedView_of_besideFill (x e : Dev) (h : x.besideFill e = x.besideFill d) : e.shedView = d.shedView :=
  (congrArg Dev.shedView h :)

theorem Dev.withholdHanks_shedView (n : StrandNo) : (d.withholdHanks n).shedView = d.shedView :=
  Dev.shedView_of_besideFill d d _ (Dev.besideFill_of_besideHanks d d _ (d.withholdHanks_besideHanks d n))

theorem Dev.onPly_shedView (f : Ply → Ply) (h : ∀ p, (f p).shedNext = p.shedNext ∧ (f p).shedStreams = p.shedStreams ∧
    (f p).shedRec = p.shedRec) : (d.onPly f).shedView = d.shedView := by
  obtain ⟨hnext, hstreams, hrec⟩ := h d.ply
  simp only [Dev.shedView, Dev.onPly_ply, Dev.onPly_sys, hnext, hstreams, hrec]

theorem Dev.onQueue_shedView (q : Nat) (f : PoolQ → PoolQ) : (d.onQueue q f).shedView = d.shedView := rfl

theorem Dev.shedStream_shedView (st : StreamNo) : (d.shedStream st).shedView = d.shedView := rfl

theorem Dev.countCorrected_shedView (n : Nat) : (d.countCorrected 0 n).shedView = d.shedView :=
  (congrArg Dev.shedView (d.countCorrected_unreport n) :)

theorem Dev.applyShed_shedView (streams records : DWord) (number : Word) (h : d.ply.shedNext = some (streams, records, number)) :
    d.applyShed.shedView = (none, streams, records, number) := by
  unfold Dev.applyShed
  rw [h]
  exact (Dev.foldl_view Dev.shedView _ Dev.withholdHanks_shedView _ _).trans
    (Dev.foldl_view Dev.shedView _ Dev.shedStream_shedView _ _)

theorem Dev.sendNew_shedView (bad : List Nat) : (d.sendNew bad).shedView = d.shedView := by
  have hfill : (d.fill bad).2.2.shedView = d.shedView :=
    (Dev.shedView_of_besideFill _ d _ (d.fill_besideFill bad d)).trans (d.onPly_shedView _ fun _ => ⟨rfl, rfl, rfl⟩)
  obtain ⟨-, h⟩ | ⟨bs, -, h⟩ := d.sendNew_cases bad
  · rw [h]
    exact (Dev.onPly_shedView _ _ fun _ => ⟨rfl, rfl, rfl⟩).trans hfill
  · rw [h, Dev.onQueue_shedView]
    exact (Dev.onPly_shedView _ _ fun _ => ⟨rfl, rfl, rfl⟩).trans hfill

/-- No block that can be read selects a shed row or applies one. -/
theorem Dev.sendBlock_shedView (bad : List Nat) : (d.sendBlock false bad).shedView = d.shedView := by
  cases hresend : d.ply.resend with
  | cons b l =>
    rw [Dev.sendBlock_of_resend d false bad b l hresend, Dev.resendBlock, if_neg nofun]
    exact d.onPly_shedView _ fun _ => ⟨rfl, rfl, rfl⟩
  | nil =>
    by_cases hfull : 2048 ≤ d.ply.buffer.length
    · rw [Dev.sendBlock_of_stall d false bad hresend hfull]
      exact d.onPly_shedView _ fun _ => ⟨rfl, rfl, rfl⟩
    · rw [Dev.sendBlock_of_room d false bad hresend (by omega), Dev.sendNew_shedView]
      exact d.onPly_shedView _ fun _ => ⟨rfl, rfl, rfl⟩

end

theorem exec_blockSend_applies (s : State) (bad : List Nat) (n : Nat) (streams records : DWord) (number : Word)
    (hrun : s.dev.ply.running = true) (h : s.dev.ply.shedNext = some (streams, records, number)) :
    ∃ t, exec (.blockSend false bad n) s = .next t ∧ t.mem = s.mem ∧ t.dev.shedView = (none, streams, records, number) := by
  refine ⟨s.run (blockSend false bad n), rfl, rfl, ?_⟩
  have hsettle : (s.run (blockSend false bad n)).dev.shedView = (blockSend false bad n s.dev).shedView := by
    simp only [Dev.shedView, State.run_dev, Dev.settle_ply, Dev.settle_sys_applied]
  rw [hsettle, blockSend_running _ _ _ _ hrun, Dev.sendBlock_shedView, Dev.countCorrected_shedView,
    s.dev.applyShed_shedView streams records number h]

/-! ### Acknowledgement (R401, R404) -/

/-- The link with every block up to `top` acknowledged. -/
def Ply.acknowledge (p : Ply) (top : BitVec 24) : Ply :=
  let keep := fun (b : BitVec 24 × List Byte) => later24 b.1 top
  let covered := p.replayTop.any fun t => !later24 t top
  { p with acked := top, buffer := p.buffer.filter keep, resend := p.resend.filter keep,
           st := if (p.resend.filter keep).isEmpty then .up else p.st, replayRun := if covered then 0 else p.replayRun,
           replayTop := if covered then none else p.replayTop }

theorem ack_later (up : Byte) (seq : BitVec 24) (d : Dev) (hrun : d.ply.running = true) (hopen : d.returnOpen = true)
    (h : later24 seq d.ply.acked = true) :
    ack up seq d = d.onPly fun p => p.acknowledge (if later24 seq p.newest then p.newest else seq) := by
  unfold ack
  extract_lets p
  rw [if_pos ⟨hrun, hopen, h⟩]
  rfl

theorem ack_old (up : Byte) (seq : BitVec 24) (d : Dev) (h : later24 seq d.ply.acked = false) : ack up seq d = d :=
  if_neg fun hc => by rw [h] at hc; exact absurd hc.2.2 nofun

/-- An ACK later than the last one takes every block up to its sequence, or all that were sent. -/
theorem exec_ack_later (s : State) (up : Byte) (seq : BitVec 24) (hrun : s.dev.ply.running = true) (hopen : s.dev.returnOpen = true)
    (h : later24 seq s.dev.ply.acked = true) :
    ∃ t, exec (.ack up seq) s = .next t ∧ t.mem = s.mem ∧
      t.dev.ply = s.dev.ply.acknowledge (if later24 seq s.dev.ply.newest then s.dev.ply.newest else seq) ∧
      s.dev.besidePly t.dev = s.dev := by
  obtain ⟨hply, hframe⟩ := s.run_onPly _ _ _ (ack_later up seq s.dev hrun hopen h) s.dev.unreport_self
  exact ⟨s.run (ack up seq), rfl, rfl, hply, hframe⟩

theorem exec_ack_old (s : State) (up : Byte) (seq : BitVec 24) (h : later24 seq s.dev.ply.acked = false) :
    ∃ t, exec (.ack up seq) s = .next t ∧ t.mem = s.mem ∧ t.dev.unreport s.dev = s.dev := by
  refine ⟨s.run (ack up seq), rfl, rfl, ?_⟩
  rw [State.run_dev, Dev.unreport_settle, ack_old up seq s.dev h, Dev.unreport_self]

/-! ### Health packets (R396) -/

/-- The link with the health packets `xs` queued, which carry 32 results each. -/
def Ply.queueHealth (p : Ply) (xs : List OutPkt) : Ply :=
  { p with queue := p.queue ++ xs, healthSeq := p.healthSeq + xs.length, results := p.results.drop (32 * xs.length) }

theorem Ply.queueHealth_nil (p : Ply) : p.queueHealth [] = p := by simp [Ply.queueHealth]

theorem Ply.queueHealth_queueHealth (p : Ply) (xs ys : List OutPkt) :
    (p.queueHealth xs).queueHealth ys = p.queueHealth (xs ++ ys) := by
  simp [Ply.queueHealth, List.append_assoc, Nat.add_assoc, Nat.mul_add]

/-- The next health packet. -/
def Dev.healthPkt (d : Dev) : OutPkt := ⟨1, 0, 0, 7, 0xFF, 0, d.healthBytes (d.ply.results.take 32), 0⟩

theorem Dev.pushHealth_ply (d : Dev) : d.pushHealth.ply = d.ply.queueHealth [d.healthPkt] := rfl

/-- The registers but for the link, the pool and what a report changes, which are those of `x`. -/
def Dev.besideHealth (x d : Dev) : Dev := { x.besidePly d with bob := x.bob }

theorem Dev.settle_besideHealth (x d : Dev) : x.besideHealth d.settle = x.besideHealth d :=
  congrArg (fun e : Dev => { e with bob := x.bob }) (x.settle_besidePly d)

theorem Dev.besideHealth_self (x : Dev) : x.besideHealth x = x :=
  (congrArg (fun e : Dev => { e with ply := x.ply, bob := x.bob }) x.unreport_self :)

theorem Dev.onPly_besideHealth (x d : Dev) (f : Ply → Ply) : x.besideHealth (d.onPly f) = x.besideHealth d := rfl
theorem Dev.onQueue_besideHealth (x d : Dev) (q : Nat) (f : PoolQ → PoolQ) : x.besideHealth (d.onQueue q f) = x.besideHealth d := rfl

theorem Dev.pushHealth_besideHealth (x d : Dev) : x.besideHealth d.pushHealth = x.besideHealth d := by
  rw [Dev.pushHealth, Dev.onQueue_besideHealth, Dev.onPly_besideHealth]

/-- Packets queued back to back, one for each entry of `l`. -/
def Dev.pushHealths (d : Dev) (l : List Nat) : Dev := l.foldl (fun e _ => e.pushHealth) d

theorem Dev.pushHealths_besideHealth (x d : Dev) (l : List Nat) : x.besideHealth (d.pushHealths l) = x.besideHealth d :=
  Dev.foldl_view x.besideHealth _ (fun e _ => x.pushHealth_besideHealth e) _ _

theorem Dev.pushHealths_ply (d : Dev) (l : List Nat) :
    ∃ xs, (d.pushHealths l).ply = d.ply.queueHealth xs ∧ xs.length = l.length ∧ ∀ x ∈ xs, x.cls = 1 ∧ x.ptype = 7 := by
  induction l generalizing d with
  | nil => exact ⟨[], d.ply.queueHealth_nil.symm, rfl, nofun⟩
  | cons a l ih =>
    obtain ⟨xs, hply, hlen, hxs⟩ := ih d.pushHealth
    refine ⟨d.healthPkt :: xs, hply.trans ?_, by rw [List.length_cons, List.length_cons, hlen], ?_⟩
    · rw [Dev.pushHealth_ply, Ply.queueHealth_queueHealth]
      rfl
    · exact List.forall_mem_cons.mpr ⟨⟨rfl, rfl⟩, hxs⟩

/-- Health packets a report of `n` results takes (R396). -/
def healthPackets (n : Nat) : Nat := max 1 ((n + 31) / 32)

/-- Packets of 32 results, one at least, carry all that were produced. -/
theorem exec_healthPacketDue_queues (s : State) (hrun : s.dev.ply.running = true) :
    ∃ t xs, exec .healthPacketDue s = .next t ∧ t.mem = s.mem ∧ t.dev.ply = s.dev.ply.queueHealth xs ∧
      xs.length = healthPackets s.dev.ply.results.length ∧ (∀ x ∈ xs, x.cls = 1 ∧ x.ptype = 7) ∧
      (s.dev.ply.results.length ≤ 32 → xs = [s.dev.healthPkt]) ∧ s.dev.besideHealth t.dev = s.dev := by
  have h : healthPacketDue s.dev = s.dev.pushHealths (List.range (healthPackets s.dev.ply.results.length)) := if_pos hrun
  have hframe : s.dev.besideHealth (s.run healthPacketDue).dev = s.dev := by
    rw [State.run_dev, Dev.settle_besideHealth, h, Dev.pushHealths_besideHealth, Dev.besideHealth_self]
  have hply : (s.run healthPacketDue).dev.ply = (s.dev.pushHealths (List.range (healthPackets s.dev.ply.results.length))).ply := by
    rw [State.run_dev, Dev.settle_ply, h]
  by_cases hfew : s.dev.ply.results.length ≤ 32
  · have hone : healthPackets s.dev.ply.results.length = 1 := by unfold healthPackets; omega
    refine ⟨s.run healthPacketDue, [s.dev.healthPkt], rfl, rfl, ?_, hone.symm, ?_, fun _ => rfl, hframe⟩
    · rw [hply, hone]
      exact s.dev.pushHealth_ply
    · exact List.forall_mem_singleton.mpr ⟨rfl, rfl⟩
  · obtain ⟨xs, hxs, hlen, hall⟩ := s.dev.pushHealths_ply (List.range (healthPackets s.dev.ply.results.length))
    rw [List.length_range] at hlen
    exact ⟨s.run healthPacketDue, xs, rfl, rfl, hply.trans hxs, hlen, hall, fun h => absurd h hfew, hframe⟩

/-! ### The obligation -/

/-- Settles O41: what leaves at a boundary is told by `Dev.sendBlock`, and filling a block only takes from what waits; an ACK, a replay and
the health packets are effects on the link alone. -/
theorem plyBlocks : Obligations.PlyBlocks := by
  intro s p Renegotiates Replays
  have hreneg {t : State} (h : s.Renegotiated t) : Renegotiates t := ⟨h.mem, h.st, h.map, h.buffer, h.reported⟩
  have hreplay (g : Dev → Dev) (seq : BitVec 24) (h : g s.dev = s.dev.replayFrom seq) :
      (p.replayRun < 4 → Replays seq (s.run g)) ∧ (4 ≤ p.replayRun → Renegotiates (s.run g)) := by
    obtain ⟨hfew, hmany⟩ := s.run_replayFrom g seq h
    exact ⟨fun hrun => ⟨rfl, hfew hrun⟩, fun hrun => hreneg (hmany hrun)⟩
  refine ⟨fun bad n hrun hshed => ⟨fun b l hresend => ⟨?_, ?_⟩, fun badReplay hresend hfull => ?_,
      fun badReplay hresend hroom hready => ?_, fun badReplay hresend hroom hrest hqueue hfront => ?_⟩,
    fun bad n streams records number hrun hshed => ?_, fun up seq hrun hopen => ⟨fun hlater => ?_, fun hold => ?_⟩,
    fun cause seq hrun hopen hnak => ?_, fun b l hrun hbuffer => ?_, fun hrun => ?_, fun hrun => exec_alignmentMarker s hrun,
    fun lane ht => exec_skipSetDue s lane ht, fun hcheck => exec_returnMessageDiscard s hcheck⟩
  · obtain ⟨t, hexec, hcounts, hply, hframe⟩ := exec_blockSend_resends s bad n hrun hshed b l hresend
    exact ⟨t, hexec, hcounts.fields, hply, hframe⟩
  · obtain ⟨t, hexec, ht, hreported⟩ := exec_blockSend_unreadable s bad n hrun hshed b l hresend
    exact ⟨t, hexec, hreneg ht, hreported⟩
  · obtain ⟨t, hexec, hcounts, hply, hframe⟩ := exec_blockSend_stalls s badReplay bad n hrun hshed hresend hfull
    exact ⟨t, hexec, hcounts.fields, hply, hframe⟩
  · obtain ⟨t, bs, hexec, hcounts, hlen, hbuffer, hseq, hsent, hhnk, hframe⟩ :=
      exec_blockSend_sends s badReplay bad n hrun hshed hresend hroom hready
    exact ⟨t, bs, hexec, hcounts.fields, hlen, hbuffer, hseq, hsent, hhnk, hframe⟩
  · obtain ⟨t, hexec, hcounts, hply, hframe⟩ :=
      exec_blockSend_idle s badReplay bad n hrun hshed hresend hroom hrest hqueue hfront
    exact ⟨t, hexec, hcounts.fields, hply, hframe⟩
  · obtain ⟨t, hexec, hmem, hview⟩ := exec_blockSend_applies s bad n streams records number hrun hshed
    obtain ⟨hnext, hstreams, hrec, happlied⟩ : _ ∧ _ ∧ _ ∧ _ := by simpa only [Dev.shedView, Prod.mk.injEq] using hview
    exact ⟨t, hexec, hmem, hnext, hstreams, hrec, happlied⟩
  · obtain ⟨t, hexec, hmem, hply, hframe⟩ := exec_ack_later s up seq hrun hopen hlater
    refine ⟨t, hexec, hmem, ?_⟩
    rw [hply]
    exact ⟨rfl, rfl, rfl, fun hempty => if_pos (List.isEmpty_iff.mpr hempty), rfl, rfl, hframe⟩
  · exact exec_ack_old s up seq hold
  · obtain ⟨hfew, hmany⟩ := hreplay _ seq (nak_replays cause seq s.dev hrun hopen hnak)
    exact ⟨fun h => ⟨_, rfl, hfew h⟩, fun h => ⟨_, rfl, hmany h⟩⟩
  · obtain ⟨hfew, hmany⟩ := hreplay _ b.1 (ackTimeout_replays s.dev b l hrun hbuffer)
    exact ⟨fun h => ⟨_, rfl, hfew h⟩, fun h => ⟨_, rfl, hmany h⟩⟩
  · obtain ⟨t, xs, hexec, hmem, hply, hlen, hall, hone, hframe⟩ := exec_healthPacketDue_queues s hrun
    have htaken : (p.queue ++ xs).take p.queue.length = p.queue := List.take_left
    have hadded : (p.queue ++ xs).drop p.queue.length = xs := List.drop_left
    have hnone : p.results.drop (32 * xs.length) = [] := 
      List.drop_eq_nil_iff.mpr (by rw [hlen, healthPackets]; show s.dev.ply.results.length ≤ _; omega)
    refine ⟨t, hexec, hmem, ?_⟩
    rw [hply]
    refine ⟨hnone, congrArg (p.healthSeq + ·) hlen, htaken, ?_, ?_, fun hfew => ⟨s.dev.healthPkt, ?_, ?_⟩, rfl, hframe⟩
    · exact fun x hx => hall x (hadded ▸ hx)
    · exact (congrArg List.length hadded).trans hlen
    · exact congrArg (p.queue ++ ·) (hone hfew)
    · exact congrArg s.dev.healthBytes (List.take_of_length_le hfew)

end Sys2Proof.Machine
end
